-- ==== Sys2Proof/Word.lean ====
section
/-!
DEFINITION. Word.lean: the words of the Falyon F9 (R2, R93, R186).
-/

namespace Sys2Proof

/-- A 64-bit scalar register value (R93). -/
abbrev Word := BitVec 64

/-- A byte, the smallest addressable location (R148). -/
abbrev Byte := BitVec 8

/-- One 32-bit lane of a vector register (R93). -/
abbrev Lane := BitVec 32

/-- A vector register: 16 lanes of 32 bits, lane 0 in bits [31:0] (R93). -/
abbrev VReg := Vector Lane 16

/-- An A48 accumulator entry (R187). -/
abbrev A48 := BitVec 48

end Sys2Proof
end

