-- ==== Sys2Proof/Config.lean ====
section
/-!
DEFINITION. Config.lean: what one module fixes, and the free values the manual leaves open. A free value is an
opaque constant with no body: nothing can be proved of it.
-/

namespace Sys2Proof.Config

/-- Register contents the manual calls undefined at the start of an activation (R100): epoch, then register. -/
opaque freeWord : Nat → Nat → BitVec 64

/-- Scratchpad bytes the manual calls undefined after an activation start (R100): epoch, then location. -/
opaque freeByte : Nat → Nat → BitVec 8

/-- The copy unit's estimate in cycles for a transfer (R224, R226 give no figure): the counter of free values. -/
opaque copyEstimate : Nat → BitVec 32

/-- The scratchpad bytes that a context holds on a core of another module, whose state is not in the model (R113): node, context. -/
opaque farScratch : Nat → Nat → Nat

/-- The word an MSI-X vector's message carries (R31 gives no layout): port, vector, word index. -/
opaque msixWord : Nat → Nat → Nat → BitVec 64

/-- Ring stops of the module (R14). -/
def ringStops : Nat := 11

/-- The ring stop of a compute die (R9, R14). -/
def dieStop (die : Nat) : Nat :=
  match die with
  | 0 => 0 | 1 => 1 | 2 => 3 | 3 => 4 | 4 => 6 | 5 => 7 | 6 => 9 | _ => 10

/-- The host die's ring stop (R14). -/
def hostStop : Nat := 5

/-- The ring stop of I/O die 0 (links 0-11) or 1 (links 12-23) (R14, R37). -/
def linkStop (link : Nat) : Nat := if link < 12 then 2 else 8

/-- Size of the HBM range in bytes (R10). -/
def hbmBytes : Nat := 0x010C388D0000

/-- Base of the second-tier range (R10). -/
def tier2Base : Nat := 0x020000000000

/-- Size of the second-tier range in bytes (R10). -/
def tier2Bytes : Nat := 0x059682F00000

/-- The feature bits the module offers, FEAT0: every defined bit, 0-10 (R38). -/
def feat0 : BitVec 64 := 0x7FF#64

/-- Compute cores of the module (R8); application core n has number `computeCores + n`. -/
def computeCores : Nat := 8192

/-- Application cores of the module (R29). -/
def appCores : Nat := 32

end Sys2Proof.Config
end

