-- ==== Sys2Proof/Syntax.lean ====
section
/-!
DEFINITION. Syntax.lean: the instructions and events of the Falyon F9, one constructor of `Instr` per row of the opcode
table. 275 rows are encoded instructions (R270-R278); 79 rows, marked EVENT, are steps of the machine that no word encodes.
-/

namespace Sys2Proof

/-- A field that names a scalar register s0-s31 (R273). -/
abbrev SReg := BitVec 5
/-- A field that names a vector register v0-v31. -/
abbrev VRegN := BitVec 5
/-- A field that names a predicate register p0-p7. -/
abbrev PReg := BitVec 3
/-- A field that names an operand-extension register e0-e7. -/
abbrev EReg := BitVec 3

/-- The scope of an ordering instruction (R152, R275). -/
inductive Scope where
  | core | clause | die | package | system
  deriving DecidableEq, Repr

/-- The scope's code in bits [30:28] (R275). -/
def Scope.code : Scope → Nat
  | .core => 0 | .clause => 1 | .die => 2 | .package => 3 | .system => 4

/-- The trap causes of R120. -/
inductive Cause where
  | illegal | extabsent | misalign | break | trap
  | notmapped | read | write | exec | atomic | priv | group | walknonres | walkremote | migrating
  | window | deadwait | promise | lease | glossmiss | seggap | collmismatch | ecerr | hbounds | draindest | uncorrectable
  deriving DecidableEq, Repr

/-- The cause's code (R120). -/
def Cause.code : Cause → Nat
  | .illegal => 0x01 | .extabsent => 0x02 | .misalign => 0x03 | .break => 0x04 | .trap => 0x05
  | .notmapped => 0x10 | .read => 0x11 | .write => 0x12 | .exec => 0x13 | .atomic => 0x14 | .priv => 0x15
  | .group => 0x16 | .walknonres => 0x17 | .walkremote => 0x18 | .migrating => 0x19
  | .window => 0x1A | .deadwait => 0x20 | .promise => 0x21 | .lease => 0x30 | .glossmiss => 0x31
  | .seggap => 0x33 | .collmismatch => 0x34 | .ecerr => 0x35 | .hbounds => 0x36 | .draindest => 0x37
  | .uncorrectable => 0x40

/-- The access kinds of R131. -/
inductive AccKind where
  | load | store | atomic | fetch | prefetch
  deriving DecidableEq, Repr

/-- The parts that can be fenced (R44 kind 4, R51). -/
inductive Part where
  | core (n : Nat) | clause (n : Nat) | die (n : Nat) | stack (n : Nat) | link (n : Nat)
  | ioDie (n : Nat) | rootPort (n : Nat) | package (n : Nat)
  deriving DecidableEq, Repr

/-- The operations of the twelve atomics (R299-R301). -/
inductive AtomOp where
  | add | and | or | xor | min | max | minu | maxu | swp | cas
  deriving DecidableEq, Repr

/-- An activation's place in a launch: the launch unit's die, the launch sequence number and the index of the work id
in order of generation (R45, R63). -/
structure LaunchRef where
  die : Nat
  seq : Nat
  idx : Nat
  deriving DecidableEq, Repr

/-- A node that sends or receives packets: a global core address, or with `host` an application core, whose number is
in [4:0] and module in [20:13] (R16, R42). -/
structure Node where
  host : Bool
  addr : Nat
  deriving DecidableEq, Repr

/-- An agent that issues accesses for context `ctx` on home core `core` (R147): an activation, by the even number it took at
its start, or an engine job, by an odd one. -/
structure AgentId where
  core : Nat
  ctx : Nat
  serial : Nat
  deriving DecidableEq, Repr

/-- What a packet carries (R16's kinds). -/
inductive Payload where
  /-- kind 0: a message; `seq` numbers it at its sender, `origin` is CR.MSGSRC's; `src` the sender's logical address. -/
  | message (words : List Word) (code : Bool) (origin : Nat) (nosrc : Bool) (src : Nat) (wid wshape : Word)
      (work : Option LaunchRef) (seq : Nat)
  /-- kind 1: a remote store of `bytes` at a scratchpad offset; `holes` are the indices of bytes that disabled lanes leave. -/
  | store (off : Nat) (bytes : List Byte) (holes : List Nat) (agent : AgentId)
  /-- kind 1 with ordflag: an ordered flag with the four path counts it carries (R159). -/
  | flag (off : Nat) (bytes : List Byte) (counts : List Nat) (agent : AgentId)
  /-- kind 1 with ordflag and len 0: a count packet (R161). -/
  | count (counts : List Nat) (agent : AgentId)
  /-- kind 2: a remote load request; `tag` names the waiting request. -/
  | loadReq (off size : Nat) (tag : Nat) (agent : AgentId)
  /-- the reply of a kind: 3 to a remote load, 6 to a memory read, 8 to an atomic, 9 to a memory write; `pa` is the physical
  address where a memory port answers. -/
  | reply (kind : Nat) (pa : Option Nat) (tag : Nat) (bytes : List Byte) (agent : AgentId)
  /-- kind 7: a remote atomic. -/
  | atomic (off : Nat) (op : AtomOp) (wide : Bool) (b e0 : Word) (tag : Nat) (agent : AgentId)
  /-- kind 9: a store acknowledgement, for a store at an offset that took a path. -/
  | ack (agent : AgentId) (off path : Nat)
  /-- kind 10: a collective step (R231, R232). -/
  | step (coll sender : Nat) (check : Nat) (bytes : List Byte)
  /-- kind 10: an abort notice, which tells a sender of a mismatched step so (R232). -/
  | abort (coll : Nat) (mismatch : Bool)
  /-- kind 11: a drain write: rows 0..rows-1 of columns from entry `first`, column major (R222). -/
  | drain (first rows : Nat) (entries : List A48)
  /-- kind 12: a drain wake, a message of origin 2, numbered at its sender (R222, R46). -/
  | wake (words : List Word) (src seq : Nat)
  /-- a remote change of an element (R251): operation 0 DEC, 1 SET, 2 WAKE. -/
  | change (desc elem op : Nat)
  /-- a value write of EL.SEND (R404). -/
  | value (desc elem : Nat) (bits : Word)
  /-- kind 0: a message that resumes a fibre record on another core: its address, where it lies, and its first bytes (R369). -/
  | fibre (record : Word) (rmod loc : Nat) (bytes : List Byte) (seq : Nat)
  /-- kind 0: a further packet of that message, with the bytes that follow. -/
  | fibrePart (seq i : Nat) (bytes : List Byte)
  /-- the acceptance of message `seq` returning to its sender with SENDW's status (R344). -/
  | accepted (seq : Nat) (status : Nat)
  /-- a q2 word on its way to the neighbour's q3 (R97). -/
  | channel (w : Word)
  /-- kinds 4-6: an access to the memory of another module through a tier-2 leaf (R129). -/
  | memAccess (rmod pa size : Nat) (write : Bool) (bytes : List Byte) (tag : Nat) (agent : AgentId)
  /-- kind 7: an atomic on the memory of another module through a tier-2 leaf (R129). -/
  | memAtomic (rmod pa : Nat) (op : AtomOp) (wide : Bool) (b e0 : Word) (tag : Nat) (agent : AgentId)
  /-- kind 7: the read of one location of a two-address atomic on another module, whose home port keeps it locked (R165). -/
  | memLock (rmod pa size : Nat) (tag : Nat) (agent : AgentId)
  /-- kind 7: what the two-address atomic leaves at that location, and the end of its lock (R165). -/
  | memUnlock (rmod pa : Nat) (bytes : List Byte) (tag : Nat) (agent : AgentId)
  /-- the answer, in place of a reply of a kind, to an access whose address is not backed or whose line is lost (R129, R50). -/
  | unbacked (kind : Nat) (pa : Option Nat) (tag : Nat) (agent : AgentId)
  /-- kinds 4, 5 and 7: the part of held request `req` that goes to the memory port of a physical address of this module (R442). -/
  | port (req kind pa len : Nat)
  /-- kinds 6, 8 and 9: the home port's answer to a held request of this module (R442). -/
  | portReply (req kind pa len : Nat)
  deriving DecidableEq, Repr

/-- Where a packet stands. -/
inductive NetPos where
  /-- at the router of a clause; `outbound` before the ring leg (R23). -/
  | mesh (die clause : Nat) (outbound : Bool)
  /-- at a ring stop, in a shared slot or in its virtual channel's escape slot (R20). -/
  | stop (n : Nat) (shared : Bool)
  /-- injected at a ring stop, not yet granted a slot (R21). -/
  | inject (n : Nat)
  /-- waiting to leave on a module link (R26). -/
  | link (l : Nat)
  /-- at its destination's interface. -/
  | arrived
  /-- refused by its destination at a cycle; sent again later (R161, R242). -/
  | refused (cyc : Nat)
  /-- discarded by a ring or link fault; the sending interface keeps its copy (R46). -/
  | lost
  deriving DecidableEq, Repr

/-- Flits of a packet in the slots of one ring stop (R20): shared slots, or one virtual channel's own. -/
structure RingSeg where
  stop : Nat
  shared : Bool
  vc : Bool
  flits : Nat
  deriving DecidableEq, Repr

/-- A packet's trip round the ring (R20, R22): the stop it entered at and when, its flits in slots, header first, and the flits
still to enter. -/
structure RingTrip where
  entry : Nat
  stamp : Nat
  segs : List RingSeg
  rest : Nat
  deriving DecidableEq, Repr

/-- A packet in flight (R16). -/
structure Packet where
  src : Node
  dst : Node
  ctx : Nat
  scope : Nat
  path : Nat
  mprio : Nat
  payload : Payload
  dir : Bool
  vc : Bool
  pos : NetPos
  /-- false: a flit whose SECDED check finds an uncorrectable error (R17). -/
  intact : Bool
  /-- The module link chosen for another module (R27). -/
  link : Option Nat
  /-- The reserved kind or reserved bits of a header that hardware never generates; 0 for every header it does (R17). -/
  reserved : Nat
  /-- The mesh router it came from; none at its first (R25). -/
  via : Option Nat
  ring : RingTrip
  deriving DecidableEq, Repr

/-- The access an event row performs: a request in flight at a home port, or a copy job's next piece. -/
inductive AccessRef where
  | request (n : Nat)
  | copy (clause tid : Nat)
  deriving DecidableEq, Repr

/-- A card's request at a root port (R31, R139, R146). -/
structure PortReq where
  port : Nat
  requester : Nat
  write : Bool
  va : Word
  bytes : List Byte
  len : Nat
  deriving DecidableEq, Repr

/-- The element instructions, which run only in the parser (R402); registers 0-7, targets below 64. -/
inductive ElInstr where
  | wait (kind target : Nat) | done | ldv (a : Nat) | stv (a : Nat) | ldx (a : Nat)
  | add (a b c : Nat) | fma (a b c : Nat) | div (a b c : Nat) | spdot (a : Nat) (subtract : Bool)
  | notify (op : Nat) | bz (a target : Nat) | jmp (target : Nat) | send (a : Nat)
  deriving DecidableEq, Repr

/-- The instructions and events. The operand-free words, the short forms and the events stand last: the compiled code of Lean
numbers at most 244 constructors with fields, so the decoder of short forms is noncomputable; the kernel evaluates it. -/
inductive Instr where
  /-- Adds two scalar registers (R284). -/
  | add (w : Bool) (a : SReg) (b : SReg) (c : SReg)
  /-- Subtracts sC from sB (R284). -/
  | sub (w : Bool) (a : SReg) (b : SReg) (c : SReg)
  /-- Bitwise AND (R284). -/
  | and (w : Bool) (a : SReg) (b : SReg) (c : SReg)
  /-- Bitwise OR (R284). -/
  | or (w : Bool) (a : SReg) (b : SReg) (c : SReg)
  /-- Bitwise XOR (R284). -/
  | xor (w : Bool) (a : SReg) (b : SReg) (c : SReg)
  /-- sB AND NOT sC (R284). -/
  | andn (w : Bool) (a : SReg) (b : SReg) (c : SReg)
  /-- Shift left by register (R284). -/
  | shl (w : Bool) (a : SReg) (b : SReg) (c : SReg)
  /-- Logical shift right by register (R284). -/
  | shr (w : Bool) (a : SReg) (b : SReg) (c : SReg)
  /-- Arithmetic shift right by register (R284). -/
  | sar (w : Bool) (a : SReg) (b : SReg) (c : SReg)
  /-- Rotate left by register (R284). -/
  | rotl (w : Bool) (a : SReg) (b : SReg) (c : SReg)
  /-- Low bits of the product (R284). -/
  | mul (w : Bool) (a : SReg) (b : SReg) (c : SReg)
  /-- High bits of the signed product (R284). -/
  | mulh (w : Bool) (a : SReg) (b : SReg) (c : SReg)
  /-- High bits of the unsigned product (R284). -/
  | mulhu (w : Bool) (a : SReg) (b : SReg) (c : SReg)
  /-- Signed division that never traps (R285). -/
  | div (w : Bool) (a : SReg) (b : SReg) (c : SReg)
  /-- Unsigned division that never traps (R285). -/
  | divu (w : Bool) (a : SReg) (b : SReg) (c : SReg)
  /-- Signed remainder (R285). -/
  | rem (w : Bool) (a : SReg) (b : SReg) (c : SReg)
  /-- Unsigned remainder (R285). -/
  | remu (w : Bool) (a : SReg) (b : SReg) (c : SReg)
  /-- Signed minimum (R284). -/
  | min (w : Bool) (a : SReg) (b : SReg) (c : SReg)
  /-- Signed maximum (R284). -/
  | max (w : Bool) (a : SReg) (b : SReg) (c : SReg)
  /-- Unsigned minimum (R284). -/
  | minu (w : Bool) (a : SReg) (b : SReg) (c : SReg)
  /-- Unsigned maximum (R284). -/
  | maxu (w : Bool) (a : SReg) (b : SReg) (c : SReg)
  /-- Signed less-than (R284). -/
  | slt (w : Bool) (a : SReg) (b : SReg) (c : SReg)
  /-- Unsigned less-than (R284). -/
  | sltu (w : Bool) (a : SReg) (b : SReg) (c : SReg)
  /-- Equality test (R284). -/
  | seq (w : Bool) (a : SReg) (b : SReg) (c : SReg)
  /-- Counts leading zero bits (R284). -/
  | clz (w : Bool) (a : SReg) (b : SReg)
  /-- Counts trailing zero bits (R284). -/
  | ctz (w : Bool) (a : SReg) (b : SReg)
  /-- Counts one bits (R284). -/
  | popc (w : Bool) (a : SReg) (b : SReg)
  /-- Reverses the bit order (R284). -/
  | brev (w : Bool) (a : SReg) (b : SReg)
  /-- Sign-extends a byte (R284). -/
  | sextb (a : SReg) (b : SReg)
  /-- Sign-extends a halfword (R284). -/
  | sexth (a : SReg) (b : SReg)
  /-- Sign-extends a word (R284). -/
  | sextw (a : SReg) (b : SReg)
  /-- Zero-extends a word (R284). -/
  | zextw (a : SReg) (b : SReg)
  /-- Adds a sign-extended immediate (R286). -/
  | addi (a : SReg) (b : SReg) (imm : BitVec 14)
  /-- ANDs a sign-extended immediate (R286). -/
  | andi (a : SReg) (b : SReg) (imm : BitVec 14)
  /-- ORs a sign-extended immediate (R286). -/
  | ori (a : SReg) (b : SReg) (imm : BitVec 14)
  /-- XORs a sign-extended immediate (R286). -/
  | xori (a : SReg) (b : SReg) (imm : BitVec 14)
  /-- Signed less-than against an immediate (R286). -/
  | slti (a : SReg) (b : SReg) (imm : BitVec 14)
  /-- Shift left by an immediate of 0-63 (R287). -/
  | shli (a : SReg) (b : SReg) (n : BitVec 6)
  /-- Logical shift right by an immediate (R287). -/
  | shri (a : SReg) (b : SReg) (n : BitVec 6)
  /-- Arithmetic shift right by an immediate (R287). -/
  | sari (a : SReg) (b : SReg) (n : BitVec 6)
  /-- Rotate left by an immediate (R287). -/
  | rotli (a : SReg) (b : SReg) (n : BitVec 6)
  /-- Loads sext(imm19 << 13) (R288). -/
  | lui (a : SReg) (imm : BitVec 19)
  /-- Adds sext(imm19 << 13) to pc (R288). -/
  | auipc (a : SReg) (imm : BitVec 19)
  /-- Writes an e-register from sB (R289). -/
  | oxset (a : EReg) (b : SReg)
  /-- Reads an e-register into sA (R289). -/
  | oxget (a : SReg) (b : EReg)
  /-- Clears an e-register (R289). -/
  | oxclr (a : EReg)
  /-- Loads n e-registers from memory, all or nothing (R290). -/
  | oxldm (a : EReg) (b : SReg) (m : BitVec 3)
  /-- Stores n e-registers to memory, all or nothing (R290). -/
  | oxstm (a : EReg) (b : SReg) (m : BitVec 3)
  /-- Loads a sign-extended byte (R292). -/
  | ldb (a : SReg) (b : SReg) (imm : BitVec 9)
  /-- Loads a zero-extended byte (R292). -/
  | ldbu (a : SReg) (b : SReg) (imm : BitVec 9)
  /-- Loads a sign-extended halfword (R292). -/
  | ldh (a : SReg) (b : SReg) (imm : BitVec 9)
  /-- Loads a zero-extended halfword (R292). -/
  | ldhu (a : SReg) (b : SReg) (imm : BitVec 9)
  /-- Loads a sign-extended word, or a window element (R292). -/
  | ldw (a : SReg) (b : SReg) (imm : BitVec 9)
  /-- Loads a zero-extended word (R292). -/
  | ldwu (a : SReg) (b : SReg) (imm : BitVec 9)
  /-- Loads a doubleword (R292). -/
  | ldd (a : SReg) (b : SReg) (imm : BitVec 9)
  /-- Stores a byte (R292). -/
  | stb (a : SReg) (b : SReg) (imm : BitVec 9)
  /-- Stores a halfword (R292). -/
  | sth (a : SReg) (b : SReg) (imm : BitVec 9)
  /-- Stores a word or a window element (R292). -/
  | stw (a : SReg) (b : SReg) (imm : BitVec 9)
  /-- Stores a doubleword (R292). -/
  | std (a : SReg) (b : SReg) (imm : BitVec 9)
  /-- Acquire load at a scope (R295). -/
  | lda (d : Bool) (sc : Scope) (a : SReg) (b : SReg)
  /-- Release store at a scope (R295). -/
  | stl (d : Bool) (sc : Scope) (a : SReg) (b : SReg)
  /-- Release store that is an ordered flag carrying path counts when it targets the remote raw aperture (R159). -/
  | stlf (d : Bool) (sc : Scope) (a : SReg) (b : SReg)
  /-- Acquire and release at a scope; empties the fetch buffer (R295). -/
  | fence (sc : Scope)
  /-- Atomic add (R299). -/
  | aadd (d : Bool) (sc : Scope) (a : SReg) (b : SReg) (c : SReg)
  /-- Atomic AND (R299). -/
  | aand (d : Bool) (sc : Scope) (a : SReg) (b : SReg) (c : SReg)
  /-- Atomic OR (R299). -/
  | aor (d : Bool) (sc : Scope) (a : SReg) (b : SReg) (c : SReg)
  /-- Atomic XOR (R299). -/
  | axor (d : Bool) (sc : Scope) (a : SReg) (b : SReg) (c : SReg)
  /-- Atomic signed minimum (R299). -/
  | amin (d : Bool) (sc : Scope) (a : SReg) (b : SReg) (c : SReg)
  /-- Atomic signed maximum (R299). -/
  | amax (d : Bool) (sc : Scope) (a : SReg) (b : SReg) (c : SReg)
  /-- Atomic unsigned minimum (R299). -/
  | aminu (d : Bool) (sc : Scope) (a : SReg) (b : SReg) (c : SReg)
  /-- Atomic unsigned maximum (R299). -/
  | amaxu (d : Bool) (sc : Scope) (a : SReg) (b : SReg) (c : SReg)
  /-- Atomic swap (R299). -/
  | aswp (d : Bool) (sc : Scope) (a : SReg) (b : SReg) (c : SReg)
  /-- Atomic compare-and-swap against e0 (R299). -/
  | acas (d : Bool) (sc : Scope) (a : SReg) (b : SReg) (c : SReg)
  /-- Double compare-and-swap on two locations (R300). -/
  | adcas (d : Bool) (sc : Scope) (a : SReg) (b : SReg) (c : SReg)
  /-- Atomically moves one location's value to another, leaving e0 behind (R301). -/
  | amove (d : Bool) (sc : Scope) (a : SReg) (b : SReg) (c : SReg)
  /-- Branch if equal (R303). -/
  | beq (a : SReg) (b : SReg) (imm : BitVec 14)
  /-- Branch if not equal (R303). -/
  | bne (a : SReg) (b : SReg) (imm : BitVec 14)
  /-- Branch if signed less (R303). -/
  | blt (a : SReg) (b : SReg) (imm : BitVec 14)
  /-- Branch if signed greater or equal (R303). -/
  | bge (a : SReg) (b : SReg) (imm : BitVec 14)
  /-- Branch if unsigned less (R303). -/
  | bltu (a : SReg) (b : SReg) (imm : BitVec 14)
  /-- Branch if unsigned greater or equal (R303). -/
  | bgeu (a : SReg) (b : SReg) (imm : BitVec 14)
  /-- Jump and link, pc-relative (R304). -/
  | jal (a : SReg) (imm : BitVec 19)
  /-- Jump and link to register plus offset (R304). -/
  | jalr (a : SReg) (b : SReg) (imm : BitVec 14)
  /-- Reads a control register (R305). -/
  | crd (a : SReg) (cr : BitVec 9)
  /-- Writes the RW fields of a control register that has no row of its own (R305). -/
  | cwr (a : SReg) (cr : BitVec 9)
  /-- Raises TRAP with the immediate in CR.TVAL (R309). -/
  | trap (n : BitVec 10)
  /-- Reads the cycle counter (R312). -/
  | cyc (a : SReg)
  /-- Stalls for sB cycles (R313). -/
  | sleep (b : SReg)
  /-- Joins a phrase of n cores and writes the status (R315). -/
  | fuse (a : SReg) (n : BitVec 2)
  /-- Dissolves a phrase, or jumps to sB outside one (R316). -/
  | split (b : SReg)
  /-- Raises BREAK with the immediate in CR.TVAL (R309). -/
  | bkpt (n : BitVec 10)
  /-- Pops the oldest word of qin or q3 (R340). -/
  | qpop (a : SReg) (q : BitVec 2)
  /-- Appends a word to qout or q2 (R340). -/
  | qpush (q : BitVec 2) (a : SReg)
  /-- Reads the oldest word of qin or q3 without removing it (R340). -/
  | qpeek (a : SReg) (q : BitVec 2)
  /-- Reads the number of words held in a queue (R340). -/
  | qlen (a : SReg) (q : BitVec 2)
  /-- Discards n words of a queue (R341). -/
  | qdrop (q : BitVec 2) (b : SReg)
  /-- Sends qout as one message to a logical core (R343). -/
  | send (sc : Scope) (b : SReg)
  /-- Sends as SEND, then waits for acceptance and writes the status (R344). -/
  | sendw (sc : Scope) (a : SReg) (b : SReg)
  /-- Sends qout to the message's sender (R345). -/
  | reply (sc : Scope)
  /-- Hands a launch descriptor to a launch unit and returns its status (R347). -/
  | launch (a : SReg) (b : SReg)
  /-- Reads one field of the work id (R349). -/
  | wid (a : SReg) (f : BitVec 3)
  /-- Reads the sender's logical address (R349). -/
  | srcid (a : SReg)
  /-- Waits until every masked event bit is set (R351). -/
  | evwait (a : SReg) (b : VRegN)
  /-- Sets event bits 192-255 at the home, as a release (R352). -/
  | evset (b : VRegN)
  /-- Clears event bits at the home (R352). -/
  | evclr (b : VRegN)
  /-- Tests the masked event bits without waiting (R350). -/
  | evtest (a : SReg) (b : VRegN)
  /-- Allocates a phaser and returns its handle (R354). -/
  | phnew (a : SReg)
  /-- Registers the context on its home core as a member, or changes its mode (R355). -/
  | phreg (b : SReg) (m : BitVec 2)
  /-- Ends the membership (R355). -/
  | phdrop (b : SReg)
  /-- Signals the current phase, as a release (R356). -/
  | phsig (b : SReg)
  /-- Waits for the member's target phase (R356). -/
  | phwait (a : SReg) (b : SReg)
  /-- Signals and waits as one action (R356). -/
  | phsw (a : SReg) (b : SReg)
  /-- Reads the phaser state (R356). -/
  | phread (a : SReg) (b : SReg)
  /-- Releases every waiter with status 1 and frees the phaser (R356). -/
  | phreset (b : SReg)
  /-- Arms a watch entry on a line (R360). -/
  | mon (b : SReg)
  /-- Waits for a watch wake, a timeout or a switch (R361). -/
  | mwait (a : SReg) (b : SReg)
  /-- Sleeps until a transfer completes or its promise passes (R363). -/
  | cpwait (b : SReg)
  /-- Reads a transfer's state and promise (R363). -/
  | cpstat (a : SReg) (b : SReg)
  /-- Cancels a transfer (R363). -/
  | cpcancel (b : SReg)
  /-- Starts a radix sort of 64-bit records from the copy shadow registers (R364). -/
  | cpsort (a : SReg) (k : BitVec 4)
  /-- Binds a gather window (R365). -/
  | gbind (sz : BitVec 2) (w : BitVec 4) (b : SReg)
  /-- Removes a gather-window binding (R365). -/
  | gunbind (w : BitVec 4)
  /-- Checks a collective descriptor and starts its program (R366). -/
  | collgo (b : SReg)
  /-- Waits for collective programs with a given mailbox, then reads the mailbox (R367). -/
  | collwait (a : SReg) (b : SReg)
  /-- Resumes a fibre record, or restarts a held engine job (R369). -/
  | fresume (b : SReg)
  /-- Reads the status of a fibre record or engine tag (R371). -/
  | fstat (a : SReg) (b : SReg)
  /-- Invalidates the translations of one address under one ASID at a scope (R373). -/
  | tlbinv (sc : Scope) (b : SReg) (c : SReg)
  /-- Invalidates every translation of one ASID at a scope (R373). -/
  | tlbinva (sc : Scope) (b : SReg)
  /-- Prefetches a line into the read-line buffer (R374). -/
  | xpref (b : SReg)
  /-- Ends a trapped fibre, or abandons a held engine job (R372). -/
  | fdrop (b : SReg)
  /-- Integer vector add (R322). -/
  | vadd (pr : PReg) (a : VRegN) (b : VRegN) (c : VRegN)
  /-- Integer vector subtract (R322). -/
  | vsub (pr : PReg) (a : VRegN) (b : VRegN) (c : VRegN)
  /-- Integer vector multiply, low bits (R322). -/
  | vmul (pr : PReg) (a : VRegN) (b : VRegN) (c : VRegN)
  /-- Integer vector multiply, signed high bits (R322). -/
  | vmulh (pr : PReg) (a : VRegN) (b : VRegN) (c : VRegN)
  /-- Vector AND (R322). -/
  | vand (pr : PReg) (a : VRegN) (b : VRegN) (c : VRegN)
  /-- Vector OR (R322). -/
  | vor (pr : PReg) (a : VRegN) (b : VRegN) (c : VRegN)
  /-- Vector XOR (R322). -/
  | vxor (pr : PReg) (a : VRegN) (b : VRegN) (c : VRegN)
  /-- Vector shift left (R322). -/
  | vshl (pr : PReg) (a : VRegN) (b : VRegN) (c : VRegN)
  /-- Vector logical shift right (R322). -/
  | vshr (pr : PReg) (a : VRegN) (b : VRegN) (c : VRegN)
  /-- Vector arithmetic shift right (R322). -/
  | vsar (pr : PReg) (a : VRegN) (b : VRegN) (c : VRegN)
  /-- Vector signed minimum (R322). -/
  | vmin (pr : PReg) (a : VRegN) (b : VRegN) (c : VRegN)
  /-- Vector signed maximum (R322). -/
  | vmax (pr : PReg) (a : VRegN) (b : VRegN) (c : VRegN)
  /-- Vector unsigned minimum (R322). -/
  | vminu (pr : PReg) (a : VRegN) (b : VRegN) (c : VRegN)
  /-- Vector unsigned maximum (R322). -/
  | vmaxu (pr : PReg) (a : VRegN) (b : VRegN) (c : VRegN)
  /-- Vector equality compare into a predicate (R322). -/
  | vceq (pr : PReg) (a : PReg) (b : VRegN) (c : VRegN)
  /-- Vector signed less-than compare into a predicate (R322). -/
  | vclt (pr : PReg) (a : PReg) (b : VRegN) (c : VRegN)
  /-- Vector unsigned less-than compare into a predicate (R322). -/
  | vcltu (pr : PReg) (a : PReg) (b : VRegN) (c : VRegN)
  /-- Adds a scalar to each lane (R322). -/
  | vadds (pr : PReg) (a : VRegN) (b : VRegN) (c : SReg)
  /-- Multiplies each lane by a scalar (R322). -/
  | vmuls (pr : PReg) (a : VRegN) (b : VRegN) (c : SReg)
  /-- Writes each lane's index (R322). -/
  | viota (pr : PReg) (a : VRegN)
  /-- Floating vector add (R323). -/
  | vfadd (t : Bool) (pr : PReg) (a : VRegN) (b : VRegN) (c : VRegN)
  /-- Floating vector subtract (R323). -/
  | vfsub (t : Bool) (pr : PReg) (a : VRegN) (b : VRegN) (c : VRegN)
  /-- Floating vector multiply (R323). -/
  | vfmul (t : Bool) (pr : PReg) (a : VRegN) (b : VRegN) (c : VRegN)
  /-- Fused multiply-add, rounded once (R323). -/
  | vfma (t : Bool) (pr : PReg) (a : VRegN) (b : VRegN) (c : VRegN)
  /-- Fused multiply-subtract (R323). -/
  | vfms (t : Bool) (pr : PReg) (a : VRegN) (b : VRegN) (c : VRegN)
  /-- Fused negated multiply-add (R323). -/
  | vfnma (t : Bool) (pr : PReg) (a : VRegN) (b : VRegN) (c : VRegN)
  /-- Floating vector divide (R323). -/
  | vfdiv (t : Bool) (pr : PReg) (a : VRegN) (b : VRegN) (c : VRegN)
  /-- Floating vector square root (R323). -/
  | vfsqrt (t : Bool) (pr : PReg) (a : VRegN) (b : VRegN)
  /-- Floating vector minimum (R323). -/
  | vfmin (t : Bool) (pr : PReg) (a : VRegN) (b : VRegN) (c : VRegN)
  /-- Floating vector maximum (R323). -/
  | vfmax (t : Bool) (pr : PReg) (a : VRegN) (b : VRegN) (c : VRegN)
  /-- Clears the sign bit of each lane (R323). -/
  | vfabs (t : Bool) (pr : PReg) (a : VRegN) (b : VRegN)
  /-- Inverts the sign bit of each lane (R323). -/
  | vfneg (t : Bool) (pr : PReg) (a : VRegN) (b : VRegN)
  /-- Floating equality compare into a predicate (R323). -/
  | vfceq (t : Bool) (pr : PReg) (a : PReg) (b : VRegN) (c : VRegN)
  /-- Floating less-than compare into a predicate (R323). -/
  | vfclt (t : Bool) (pr : PReg) (a : PReg) (b : VRegN) (c : VRegN)
  /-- Floating less-or-equal compare into a predicate (R323). -/
  | vfcle (t : Bool) (pr : PReg) (a : PReg) (b : VRegN) (c : VRegN)
  /-- Adds a scalar float to each lane (R323). -/
  | vfadds (t : Bool) (pr : PReg) (a : VRegN) (b : VRegN) (c : SReg)
  /-- Multiplies each lane by a scalar float (R323). -/
  | vfmuls (t : Bool) (pr : PReg) (a : VRegN) (b : VRegN) (c : SReg)
  /-- Moves the enabled lanes (R325). -/
  | vmov (pr : PReg) (a : VRegN) (b : VRegN)
  /-- Broadcasts a scalar to the enabled lanes (R325). -/
  | vsplat (pr : PReg) (a : VRegN) (b : SReg)
  /-- Moves one lane to a scalar (R325). -/
  | vmovs (a : SReg) (b : VRegN) (i : BitVec 4)
  /-- Inserts a scalar into one lane (R325). -/
  | vins (a : VRegN) (b : SReg) (i : BitVec 4)
  /-- Permutes lanes by an index vector (R325). -/
  | vperm (pr : PReg) (a : VRegN) (b : VRegN) (c : VRegN)
  /-- Slides lanes up by n (R325). -/
  | vslideup (pr : PReg) (a : VRegN) (b : VRegN) (c : SReg)
  /-- Slides lanes down by n (R325). -/
  | vslidedn (pr : PReg) (a : VRegN) (b : VRegN) (c : SReg)
  /-- Selects lanes by the predicate (R325). -/
  | vsel (pr : PReg) (a : VRegN) (b : VRegN) (c : VRegN)
  /-- Packs the enabled lanes downward (R325). -/
  | vcompress (pr : PReg) (a : VRegN) (b : VRegN)
  /-- Spreads consecutive lanes into the enabled lanes (R325). -/
  | vexpand (pr : PReg) (a : VRegN) (b : VRegN)
  /-- Exact integer sum of the enabled lanes (R326). -/
  | vredadd (pr : PReg) (a : SReg) (b : VRegN)
  /-- Floating sum of the enabled lanes, rounded once (R326). -/
  | vfredsum (t : Bool) (pr : PReg) (a : SReg) (b : VRegN)
  /-- Greatest enabled lane (R326). -/
  | vfredmax (pr : PReg) (a : SReg) (b : VRegN)
  /-- Dot product of the enabled lanes, rounded once (R326). -/
  | vfdot (t : Bool) (pr : PReg) (a : SReg) (b : VRegN) (c : VRegN)
  /-- Keeps 2 of 4 or 4 of 8 lanes by magnitude and writes the mask (R327). -/
  | vprune (a : VRegN) (b : VRegN) (m : Bool)
  /-- Vector load, at unit or register stride (R330). -/
  | vld (pr : PReg) (a : VRegN) (b : SReg) (c : SReg)
  /-- Vector store, at unit or register stride (R330). -/
  | vst (pr : PReg) (a : VRegN) (b : SReg) (c : SReg)
  /-- Loads eight 8-byte lanes (R330). -/
  | vldk (pr : PReg) (a : VRegN) (b : SReg) (c : SReg)
  /-- Stores eight 8-byte lanes (R330). -/
  | vstk (pr : PReg) (a : VRegN) (b : SReg) (c : SReg)
  /-- Gathers lanes by an index vector (R329). -/
  | vgath (pr : PReg) (a : VRegN) (b : SReg) (c : VRegN)
  /-- Scatters lanes by an index vector (R332). -/
  | vscat (pr : PReg) (a : VRegN) (b : SReg) (c : VRegN)
  /-- Stores through window 2 or 3, writing each block's scale byte (R334). -/
  | vstb (pr : PReg) (a : VRegN) (b : SReg)
  /-- Converts integers to floats (R335). -/
  | vcvtwf (t : Bool) (pr : PReg) (a : VRegN) (b : VRegN)
  /-- Converts floats to integers, ties to even (R336). -/
  | vcvtfw (t : Bool) (pr : PReg) (a : VRegN) (b : VRegN)
  /-- Widens binary32 lanes 0-7 to binary64 (R335). -/
  | vcvtfd (pr : PReg) (a : VRegN) (b : VRegN)
  /-- Narrows binary64 lanes to binary32 (R335). -/
  | vcvtdf (pr : PReg) (a : VRegN) (b : VRegN)
  /-- Accumulates converted terms into four X128 values (R337). -/
  | vxacc (t : Bool) (pr : PReg) (a : VRegN) (b : VRegN)
  /-- Rounds X128 values to floats (R338). -/
  | vxrnd (t : Bool) (pr : PReg) (a : VRegN) (b : VRegN)
  /-- Predicate AND (R339). -/
  | pand (a : PReg) (b : PReg) (c : PReg)
  /-- Predicate OR (R339). -/
  | por (a : PReg) (b : PReg) (c : PReg)
  /-- Predicate XOR (R339). -/
  | pxor (a : PReg) (b : PReg) (c : PReg)
  /-- Predicate NOT (R339). -/
  | pnot (a : PReg) (b : PReg)
  /-- Sets a predicate from a scalar (R339). -/
  | pset (a : PReg) (b : SReg)
  /-- Copies a predicate (R339). -/
  | pmov (a : PReg) (b : PReg)
  /-- Reads a predicate into a scalar (R339). -/
  | pget (a : SReg) (b : PReg)
  /-- Counts the set bits of a predicate (R339). -/
  | pcnt (a : SReg) (b : PReg)
  /-- Index of the lowest set bit of a predicate (R339). -/
  | pfirst (a : SReg) (b : PReg)
  /-- Takes a matrix lease of n tiles (R377). -/
  | mlease (nw : Bool) (a : SReg) (n : BitVec 3)
  /-- Queues a fill of B-store k-blocks (R379). -/
  | mldb (b : SReg)
  /-- Queues a load of the sparsity mask (R380). -/
  | mbmeta (b : VRegN)
  /-- Applies matrix passes to a lease tile (R381). -/
  | mma (g : BitVec 4) (t : BitVec 2) (b : SReg)
  /-- Applies lexicon codes through a gloss table to a tile (R382). -/
  | mmacode (t : BitVec 2) (b : SReg)
  /-- Queues zeroing of a tile (R383). -/
  | mzero (t : BitVec 2)
  /-- Drains a tile to a destination core and sends a wake (R384). -/
  | mdrain (t : BitVec 2) (b : SReg)
  /-- Reads the lease status (R378). -/
  | mstat (a : SReg)
  /-- Creates or reshapes a lexicon slot (R386). -/
  | lxcfg (a : SReg) (b : SReg) (c : SReg)
  /-- Replaces an atom as one event under the write lock (R387). -/
  | lxput (a : SReg) (b : SReg) (c : SReg)
  /-- Reads an atom out as binary32 (R387). -/
  | lxget (a : SReg) (b : SReg) (c : SReg)
  /-- Reads a slot's version and shape (R388). -/
  | lxver (a : SReg) (b : SReg)
  /-- Encodes a vector over a lexicon into scratchpad (R389). -/
  | lxenc (a : SReg) (b : SReg) (c : SReg)
  /-- Encodes a vector and sends it as a code message (R390). -/
  | lxsend (sc : Scope) (a : SReg) (b : SReg) (c : SReg)
  /-- Decodes a code into S binary32 values (R391). -/
  | lxdec (a : SReg) (b : SReg) (c : SReg)
  /-- Reads or takes a miss-queue entry (R392). -/
  | lxmiss (take : Bool) (a : SReg) (b : SReg)
  /-- Re-checks the parked entries of a key in order (R393). -/
  | lxretry (b : SReg)
  /-- Writes an atom's glosses into a gloss table (R394). -/
  | glset (a : SReg) (b : SReg) (c : SReg)
  /-- Clears gloss valid bits (R395). -/
  | glinv (b : SReg) (c : SReg)
  /-- Reads a gloss table's binding and valid count (R395). -/
  | glstat (a : SReg) (b : SReg)
  /-- Declares a parser descriptor and copies its element program (R397). -/
  | ecdecl (t : BitVec 2)
  /-- Starts a sweep of a descriptor (R399). -/
  | ecsweep (t : BitVec 2)
  /-- Sends a remote change to an element (R400). -/
  | ecwake (t : BitVec 2) (b : SReg) (c : SReg)
  /-- Reads a descriptor's sweep status (R401). -/
  | ecstat (a : SReg) (t : BitVec 2)
  /-- Stops a sweep at the next beat boundary (R399). -/
  | ecstop (t : BitVec 2)
  /-- Reads an element's context word (R401). -/
  | ecread (a : SReg) (b : SReg) (t : BitVec 2)
  /-- Takes, changes or ends a signature lease (R406). -/
  | sgcfg (a : SReg) (b : SReg)
  /-- Sets a slot to the tagged identity (R407). -/
  | sgzero (i : BitVec 2) (b : SReg)
  /-- Appends an increment to a slot (R408). -/
  | sgstep (i : BitVec 2) (b : VRegN)
  /-- Joins two abutting slots by the Chen product (R409). -/
  | sgjoin (i : BitVec 2) (j : BitVec 2) (k : BitVec 2)
  /-- Takes the logarithm of a slot (R410). -/
  | sglog (i : BitVec 2) (j : BitVec 2)
  /-- Loads a slot from a scratchpad image (R411). -/
  | sgld (i : BitVec 2) (b : SReg)
  /-- Stores a slot as a scratchpad image (R411). -/
  | sgst (i : BitVec 2) (b : SReg)
  /-- Sets a slot's tags (R407). -/
  | sgtag (i : BitVec 2) (b : SReg) (c : SReg)
  /-- Stalls until every earlier remote store and atomic is acknowledged (R297). -/
  | fencea
  /-- No effect (R309). -/
  | nop
  /-- Returns from a privileged trap (R310). -/
  | eret
  /-- Suspends the activation until any message arrives (R311). -/
  | halt
  /-- Waits for a message, a watch wake, an event-vector change or a timeout (R314). -/
  | wfe
  /-- Migrates a lean core's activation to a full core (R317). -/
  | migr
  /-- Gives up the core to a waiting context of equal or higher priority (R318). -/
  | yield
  /-- Ends the activation, triggering it if it has not triggered (R346). -/
  | endh
  /-- Triggers the activation's launch early (R348). -/
  | trig
  /-- Waits for the lease's commands, then ends the lease (R377). -/
  | mrelease
  /-- Short form of ADD sA, sB, s0 (R269). -/
  | cMov (a : SReg) (b : SReg)
  /-- Short two-operand ADD (R269). -/
  | cAdd (a : SReg) (b : SReg)
  /-- Short two-operand SUB (R269). -/
  | cSub (a : SReg) (b : SReg)
  /-- Short two-operand AND (R269). -/
  | cAnd (a : SReg) (b : SReg)
  /-- Short two-operand OR (R269). -/
  | cOr (a : SReg) (b : SReg)
  /-- Short two-operand XOR (R269). -/
  | cXor (a : SReg) (b : SReg)
  /-- Short ADDI with a 5-bit immediate (R269). -/
  | cAddi (a : SReg) (n : BitVec 5)
  /-- Short load of a 5-bit immediate (R269). -/
  | cLi (a : SReg) (n : BitVec 5)
  /-- Short SHLI (R269). -/
  | cShli (a : SReg) (n : BitVec 5)
  /-- Short SHRI (R269). -/
  | cShri (a : SReg) (n : BitVec 5)
  /-- Short SARI (R269). -/
  | cSari (a : SReg) (n : BitVec 5)
  /-- Short NOP (R269). -/
  | cNop
  /-- Short ENDH (R269). -/
  | cEndh
  /-- Short QPOP (R269). -/
  | cQpop (a : SReg) (q : BitVec 2)
  /-- Short QPUSH (R269). -/
  | cQpush (q : BitVec 2) (b : SReg)
  /-- Short LDD relative to s30 (R269). -/
  | cLdd (a : SReg) (n : BitVec 5)
  /-- Short STD relative to s30 (R269). -/
  | cStd (a : SReg) (n : BitVec 5)
  /-- Short LDW relative to s30 (R269). -/
  | cLdw (a : SReg) (n : BitVec 5)
  /-- Short STW relative to s30 (R269). -/
  | cStw (a : SReg) (n : BitVec 5)
  /-- Short LDD with offset 0 (R269). -/
  | cLddr (a : SReg) (b : SReg)
  /-- Short STD with offset 0 (R269). -/
  | cStdr (a : SReg) (b : SReg)
  /-- Short branch if zero (R269). -/
  | cBeqz (a : SReg) (n : BitVec 5)
  /-- Short branch if not zero (R269). -/
  | cBnez (a : SReg) (n : BitVec 5)
  /-- Short jump (R269). -/
  | cJ (n : BitVec 10)
  /-- Short jump to register (R269). -/
  | cJr (a : SReg)
  /-- Short jump and link to register (R269). -/
  | cJalr (a : SReg)
  /-- Unpredicated short VMOV (R269). -/
  | cVmov (a : VRegN) (b : VRegN)
  /-- EVENT. Power-on starts the management controller's start-up sequence from standby power (R32). -/
  | powerOn
  /-- EVENT. Completion of one start-up stage lets the next stage begin (R32). -/
  | startupStageComplete (failed : List Part) (checksumOk : Bool)
  /-- EVENT. The first write to FACC0 or FACC1 fixes the accepted feature set as the written value AND the offered set; later writes are ignored (R38). -/
  | faccWrite (high : Bool) (v : Word)
  /-- EVENT. The first write to MODNUM sets the module number and enables the module links (R36). -/
  | modnumWrite (v : Word)
  /-- EVENT. A write to CTXTAB sets the context table base, and is ignored while any context is live (R36). -/
  | ctxtabWrite (v : Word)
  /-- EVENT. A read of CR.CPGO snapshots the copy shadow registers, checks them, and starts the transfer or returns a refusal reason (R224). -/
  | cpgoRead (a : SReg)
  /-- EVENT. A packet's header flit arriving at a ring stop is placed in the shared pool or in an escape slot and moves on (R20). -/
  | ringPacketArrival (n : Nat)
  /-- EVENT. A flit group arriving on a module link is checked and delivered once and in order, or discarded before MODNUM is written (R26). -/
  | moduleLinkReceive (link : Nat) (ok : Bool) (pkt : Packet)
  /-- EVENT. A flit group that failed its check is sent again (R26). -/
  | linkGroupResend (link : Nat)
  /-- EVENT. When the averaged module draw or the core-rail current exceeds its limit, the controller withholds matrix passes from issue (R13). -/
  | passWithhold
  /-- EVENT. When the controller judges a part failed it fences the part, sets the status registers and sends a notice of kind 4 (R51). -/
  | partFailure (part : Part)
  /-- EVENT. The scrubber reads a line, corrects a correctable error in place and poisons a line with an uncorrectable error (R50). -/
  | scrubLine (line : Nat) (uncorrectable : Bool)
  /-- EVENT. A held notice is delivered to application core 0 once its receive queue has room (R44). -/
  | noticeDelivery
  /-- EVENT. An MSI-X vector from a root port becomes a message to the application core that the kernel named for it (R31). -/
  | msixVector (port vector : Nat)
  /-- EVENT. A card request at a root port is translated under its function entry and performed, or refused with a notice (R139). -/
  | portRequest (req : PortReq)
  /-- EVENT. A message to an application core enters its receive queue, is accepted and raises the message interrupt (R30). -/
  | hostMessageArrival (n : Nat)
  /-- EVENT. A launch unit reads the context entry and descriptor, checks them and journals the launch, or refuses it with a status (R61). -/
  | launchRequest (die : Nat)
  /-- EVENT. Both home ports acknowledge the journal entry; the launch is accepted and queued (R45). -/
  | launchJournaled (die : Nat)
  /-- EVENT. The home confirms to a non-home launch unit that a CONSUME launch's wait bits are still set (R62). -/
  | consumeConfirmation (die seq : Nat)
  /-- EVENT. A released launch generates the activation message of its next work id (R63). -/
  | activationMessageGenerate (die seq : Nat)
  /-- EVENT. The home launch unit updates a mirror of the event vector after a change (R55). -/
  | eventMirrorUpdate (ctx die : Nat)
  /-- EVENT. A message arriving at a core is buffered by context and becomes waiting (R73). -/
  | messageArrival (n : Nat)
  /-- EVENT. A refused code message is sent again once the miss queue has room (R242). -/
  | missQueueResend (n : Nat)
  /-- EVENT. A version-miss activation starts at CR.LXMISSH for the oldest failing entry of a key (R242). -/
  | versionMissStart (core : Nat)
  /-- EVENT. The receiver's acceptance returns to a stalled SENDW, which writes its status (R344). -/
  | messageAcceptanceNotice (n : Nat)
  /-- EVENT. A message copy lost in a ring or link fault is sent again, and the receiver discards duplicates (R46). -/
  | messageCopyResend (n : Nat)
  /-- EVENT. At an activation boundary or when idle, the core chooses the next waiting message and starts its activation (R74). -/
  | activationStart (core : Nat)
  /-- EVENT. A message of higher context priority pre-empts the active context at its next instruction boundary (R75). -/
  | preemption (core : Nat)
  /-- EVENT. A message that has waited another 2^20 cycles gains one level of effective priority (R77). -/
  | messageAging (core n : Nat)
  /-- EVENT. The active and shadow slots finish exchanging occupants (R79). -/
  | switchComplete (core : Nat)
  /-- EVENT. The streaming slot finishes loading a frame from the save area (R79). -/
  | streamInComplete (core : Nat)
  /-- EVENT. The streaming slot finishes storing its frame to the save area (R79). -/
  | streamOutComplete (core : Nat)
  /-- EVENT. A FUSE not joined by all members within CR.EVTMO cycles completes unfused with status 0 (R82). -/
  | fuseTimeout (core : Nat)
  /-- EVENT. A migration to the full core completes, and the full core re-executes the opcode (R86). -/
  | migrationComplete (core ctx : Nat)
  /-- EVENT. A donation that has run CR.DONATE cycles ends, and the core switches back to the waiter (R88). -/
  | donationLimit (core : Nat)
  /-- EVENT. An upcall without fibre, carrying an engine tag, starts on the core that issued the held job (R138). -/
  | engineUpcallStart (core : Nat)
  /-- EVENT. A walker translates a virtual address through three levels, checking each entry and the leaf permissions (R129). -/
  | pageWalk (core : Nat) (va : Word) (kind : AccKind)
  /-- EVENT. A walker waiting on M = 1 re-reads the entry every 64 cycles (R144). -/
  | walkMigratingReread (n : Nat)
  /-- EVENT. A walk still meeting M = 1 after 4,096 cycles ends with MIGRATING (R144). -/
  | walkMigratingTimeout (n : Nat)
  /-- EVENT. A line of the read-line buffer is dropped 4,096 cycles after it was filled (R151). -/
  | readLineExpire (core n : Nat)
  /-- EVENT. A home port performs a load or store request to its location (R148). -/
  | memoryAccessPerform (acc : AccessRef)
  /-- EVENT. A load reply returns to its issuing agent and fixes the loaded value (R150). -/
  | loadReplyArrival (n : Nat)
  /-- EVENT. A remote store arriving at a core port is performed, counted in the arrival table, or refused (R160). -/
  | remoteStoreArrival (n : Nat)
  /-- EVENT. An ordered flag or count packet arrives and is held until the arrival counts reach those it carries (R160). -/
  | orderedFlagArrival (n : Nat)
  /-- EVENT. A sending-table entry that has been idle for 4,096 cycles sends a count packet and is zeroed (R161). -/
  | countPacketSend (core n : Nat)
  /-- EVENT. A refused remote packet is sent again on the same path 64 cycles later (R161). -/
  | remoteNackResend (n : Nat)
  /-- EVENT. A home acknowledges a performed remote store or atomic to its sender (R153). -/
  | storeAcknowledgement (n : Nat)
  /-- EVENT. A single-address atomic is performed in its home port's write queue, with reductions merged (R164). -/
  | atomicPerform (n : Nat)
  /-- EVENT. ADCAS or AMOVE locks both home slices in address order, then reads, compares and writes them (R165). -/
  | twoAddressAtomicPerform (n : Nat)
  /-- EVENT. A q2 word arrives at the neighbour's q3 and is held per context (R97). -/
  | channelWordArrival (n : Nat)
  /-- EVENT. A waiting MLEASE is given a lease-table entry once one is free (R377). -/
  | mleaseGrant (clause : Nat)
  /-- EVENT. A lease's turn ends and the next turn goes to the waiting lease of highest priority (R218). -/
  | leaseTurn (clause : Nat)
  /-- EVENT. Parking or returning a tile completes after 768 cycles (R219). -/
  | tileMoveComplete (clause : Nat)
  /-- EVENT. The lease of a context that has left the active slot is forfeited and parked once its queued commands finish (R220). -/
  | leaseForfeit (clause : Nat)
  /-- EVENT. The matrix engine takes the current lease's next queued command and executes it (R218). -/
  | matrixCommandRun (clause : Nat)
  /-- EVENT. The destination port returns the drain area size, and the drain proceeds or raises DRAINDEST (R222). -/
  | drainSizeReply (clause : Nat)
  /-- EVENT. A drain write lands its A48 entries in the destination's drain area (R222). -/
  | drainWriteArrival (n : Nat)
  /-- EVENT. A copy completes with one store-release, then the mailbox store, the event bit and the upcall (R225). -/
  | copyTransferComplete (clause tid : Nat)
  /-- EVENT. A transfer not complete at its promise makes CPWAIT raise PROMISE and receives a new promise (R226). -/
  | copyPromiseExpire (clause tid : Nat)
  /-- EVENT. A cancelled transfer stops at an access boundary and completes with the cancel mailbox value (R363). -/
  | copyCancelStop (clause tid : Nat)
  /-- EVENT. The copy unit performs the next step of a collective program (R231). -/
  | collectiveStepRun (clause handle : Nat)
  /-- EVENT. A step packet arrives, is checked by its CRC word and buffered, or raises COLLMISMATCH (R232). -/
  | collectiveStepArrival (n : Nat)
  /-- EVENT. A rank receiving an abort notice aborts at its current step (R232). -/
  | collectiveAbortNotice (n : Nat)
  /-- EVENT. The parser reads a beat of 16 records, runs the satisfied lanes, and lands their writes and local notifies (R249). -/
  | sweepBeat (core : Nat)
  /-- EVENT. A remote DEC, SET or WAKE applies to an element between beats, or is dropped and counted (R251). -/
  | remoteChangeArrival (n : Nat)
  /-- EVENT. An EL.SEND value write applies between beats without touching the skip map (R404). -/
  | valueWriteArrival (n : Nat)
  /-- EVENT. A waiting SGCFG request is granted k free slots in order of priority and arrival (R257). -/
  | signatureLeaseGrant (clause : Nat)
  /-- EVENT. The signature engine executes the current lease's next queued command (R256). -/
  | signatureCommandRun (clause : Nat)
  /-- EVENT. An EVWAIT on bits 192-255 ends with timeout status after CR.EVTMO cycles (R72). -/
  | evwaitTimeout (core : Nat)
  /-- EVENT. An MWAIT returns reason 1 after its timeout (R361). -/
  | mwaitTimeout (core : Nat)
  /-- EVENT. A WFE ends after 65,536 cycles (R314). -/
  | wfeTimeout (core : Nat)
  /-- EVENT. A SLEEP ends once its cycle count has passed (R313). -/
  | sleepExpire (core : Nat)
  /-- EVENT. When the averaged module draw and the core-rail current fall back within their limits, the withheld matrix passes are issued in their original order (R13). -/
  | withheldPassesIssued
  /-- EVENT. A flit arriving at a clause router or edge port of the on-die mesh moves on along its packet's path and virtual channel, and credits are returned to the previous hop (R24). -/
  | meshPacketArrival (n : Nat)
  /-- EVENT. A TLBINV or TLBINVA finishes when no covered buffer holds the entry and every access translated through a removed entry has been performed, and the stalled instruction completes (R141). -/
  | invalidationComplete (n : Nat)
  /-- EVENT. When the kernel rewrites core-map entry 0, the context's event vector passes with its value to the launch unit that the new entry names before any further change is applied (R55). -/
  | eventVectorHomeMove (ctx : Nat)
  /-- EVENT. The kernel quiesces a core at an instruction boundary, holds arriving messages at their senders, moves its slots and scratchpad to the successor and forwards in-flight messages in order (R90). -/
  | coreRemoval (core successor : Nat)
  /-- EVENT. A fetched word or halfword that no format defines, including the reserved 32-bit space and element words outside a parser, raises ILLEGAL with the word in CR.TVAL (R280). -/
  | reservedEncoding (word : BitVec 32)
  /-- EVENT. An instruction fetch that fails translation or execute permission, or that names an address at or above 0x7D_0000_0000_0000, traps with CR.TPC = the fetch address (R107). -/
  | instructionFetchFault (cause : Cause) (va : Word)
  deriving DecidableEq, Repr

end Sys2Proof
end

