-- ==== Sys2Proof/WellFormed.lean ====
section
/-!
DEFINITION. WellFormed.lean: the limits that the operand types of `Instr` do not already hold (R273, R274, R277, R278),
and the ranges of the parts an event names (R8).
-/

namespace Sys2Proof

/-- The operands lie within the limits their form states. -/
def Instr.wellFormed (i : Instr) : Bool :=
  match i with
  | .add _ _ _ _ => true
  | .sub _ _ _ _ => true
  | .and _ _ _ _ => true
  | .or _ _ _ _ => true
  | .xor _ _ _ _ => true
  | .andn _ _ _ _ => true
  | .shl _ _ _ _ => true
  | .shr _ _ _ _ => true
  | .sar _ _ _ _ => true
  | .rotl _ _ _ _ => true
  | .mul _ _ _ _ => true
  | .mulh _ _ _ _ => true
  | .mulhu _ _ _ _ => true
  | .div _ _ _ _ => true
  | .divu _ _ _ _ => true
  | .rem _ _ _ _ => true
  | .remu _ _ _ _ => true
  | .min _ _ _ _ => true
  | .max _ _ _ _ => true
  | .minu _ _ _ _ => true
  | .maxu _ _ _ _ => true
  | .slt _ _ _ _ => true
  | .sltu _ _ _ _ => true
  | .seq _ _ _ _ => true
  | .clz _ _ _ => true
  | .ctz _ _ _ => true
  | .popc _ _ _ => true
  | .brev _ _ _ => true
  | .sextb _ _ => true
  | .sexth _ _ => true
  | .sextw _ _ => true
  | .zextw _ _ => true
  | .addi _ _ _ => true
  | .andi _ _ _ => true
  | .ori _ _ _ => true
  | .xori _ _ _ => true
  | .slti _ _ _ => true
  | .shli _ _ _ => true
  | .shri _ _ _ => true
  | .sari _ _ _ => true
  | .rotli _ _ _ => true
  | .lui _ _ => true
  | .auipc _ _ => true
  | .oxset _ _ => true
  | .oxget _ _ => true
  | .oxclr _ => true
  | .oxldm a _ m => decide (a.toNat + m.toNat ≤ 7)
  | .oxstm a _ m => decide (a.toNat + m.toNat ≤ 7)
  | .ldb _ _ _ => true
  | .ldbu _ _ _ => true
  | .ldh _ _ _ => true
  | .ldhu _ _ _ => true
  | .ldw _ _ _ => true
  | .ldwu _ _ _ => true
  | .ldd _ _ _ => true
  | .stb _ _ _ => true
  | .sth _ _ _ => true
  | .stw _ _ _ => true
  | .std _ _ _ => true
  | .lda _ _ _ _ => true
  | .stl _ _ _ _ => true
  | .stlf _ _ _ _ => true
  | .fence _ => true
  | .fencea => true
  | .aadd _ _ _ _ _ => true
  | .aand _ _ _ _ _ => true
  | .aor _ _ _ _ _ => true
  | .axor _ _ _ _ _ => true
  | .amin _ _ _ _ _ => true
  | .amax _ _ _ _ _ => true
  | .aminu _ _ _ _ _ => true
  | .amaxu _ _ _ _ _ => true
  | .aswp _ _ _ _ _ => true
  | .acas _ _ _ _ _ => true
  | .adcas _ _ _ _ _ => true
  | .amove _ _ _ _ _ => true
  | .beq _ _ _ => true
  | .bne _ _ _ => true
  | .blt _ _ _ => true
  | .bge _ _ _ => true
  | .bltu _ _ _ => true
  | .bgeu _ _ _ => true
  | .jal _ _ => true
  | .jalr _ _ _ => true
  | .crd _ _ => true
  | .cwr _ _ => true
  | .nop => true
  | .trap _ => true
  | .eret => true
  | .halt => true
  | .cyc _ => true
  | .sleep _ => true
  | .wfe => true
  | .fuse _ n => decide (n ≠ 0#2)
  | .split _ => true
  | .migr => true
  | .bkpt _ => true
  | .yield => true
  | .qpop _ q => decide (q = 0#2 ∨ q = 3#2)
  | .qpush q _ => decide (q = 1#2 ∨ q = 2#2)
  | .qpeek _ q => decide (q = 0#2 ∨ q = 3#2)
  | .qlen _ _ => true
  | .qdrop q _ => decide (q ≠ 2#2)
  | .send _ _ => true
  | .sendw _ _ _ => true
  | .reply _ => true
  | .endh => true
  | .launch _ _ => true
  | .trig => true
  | .wid _ f => decide (f.toNat ≤ 5)
  | .srcid _ => true
  | .evwait _ _ => true
  | .evset _ => true
  | .evclr _ => true
  | .evtest _ _ => true
  | .phnew _ => true
  | .phreg _ m => decide (m.toNat ≤ 2)
  | .phdrop _ => true
  | .phsig _ => true
  | .phwait _ _ => true
  | .phsw _ _ => true
  | .phread _ _ => true
  | .phreset _ => true
  | .mon _ => true
  | .mwait _ _ => true
  | .cpwait _ => true
  | .cpstat _ _ => true
  | .cpcancel _ => true
  | .cpsort _ _ => true
  | .gbind sz _ _ => decide (sz ≠ 3#2)
  | .gunbind _ => true
  | .collgo _ => true
  | .collwait _ _ => true
  | .fresume _ => true
  | .fstat _ _ => true
  | .tlbinv _ _ _ => true
  | .tlbinva _ _ => true
  | .xpref _ => true
  | .fdrop _ => true
  | .vadd _ _ _ _ => true
  | .vsub _ _ _ _ => true
  | .vmul _ _ _ _ => true
  | .vmulh _ _ _ _ => true
  | .vand _ _ _ _ => true
  | .vor _ _ _ _ => true
  | .vxor _ _ _ _ => true
  | .vshl _ _ _ _ => true
  | .vshr _ _ _ _ => true
  | .vsar _ _ _ _ => true
  | .vmin _ _ _ _ => true
  | .vmax _ _ _ _ => true
  | .vminu _ _ _ _ => true
  | .vmaxu _ _ _ _ => true
  | .vceq _ _ _ _ => true
  | .vclt _ _ _ _ => true
  | .vcltu _ _ _ _ => true
  | .vadds _ _ _ _ => true
  | .vmuls _ _ _ _ => true
  | .viota _ _ => true
  | .vfadd _ _ _ _ _ => true
  | .vfsub _ _ _ _ _ => true
  | .vfmul _ _ _ _ _ => true
  | .vfma _ _ _ _ _ => true
  | .vfms _ _ _ _ _ => true
  | .vfnma _ _ _ _ _ => true
  | .vfdiv _ _ _ _ _ => true
  | .vfsqrt _ _ _ _ => true
  | .vfmin _ _ _ _ _ => true
  | .vfmax _ _ _ _ _ => true
  | .vfabs _ _ _ _ => true
  | .vfneg _ _ _ _ => true
  | .vfceq _ _ _ _ _ => true
  | .vfclt _ _ _ _ _ => true
  | .vfcle _ _ _ _ _ => true
  | .vfadds _ _ _ _ _ => true
  | .vfmuls _ _ _ _ _ => true
  | .vmov _ _ _ => true
  | .vsplat _ _ _ => true
  | .vmovs _ _ _ => true
  | .vins _ _ _ => true
  | .vperm _ _ _ _ => true
  | .vslideup _ _ _ _ => true
  | .vslidedn _ _ _ _ => true
  | .vsel _ _ _ _ => true
  | .vcompress _ _ _ => true
  | .vexpand _ _ _ => true
  | .vredadd _ _ _ => true
  | .vfredsum _ _ _ _ => true
  | .vfredmax _ _ _ => true
  | .vfdot _ _ _ _ _ => true
  | .vprune _ _ _ => true
  | .vld _ _ _ _ => true
  | .vst _ _ _ _ => true
  | .vldk _ _ _ _ => true
  | .vstk _ _ _ _ => true
  | .vgath _ _ _ _ => true
  | .vscat _ _ _ _ => true
  | .vstb _ _ _ => true
  | .vcvtwf _ _ _ _ => true
  | .vcvtfw _ _ _ _ => true
  | .vcvtfd _ _ _ => true
  | .vcvtdf _ _ _ => true
  | .vxacc _ _ _ _ => true
  | .vxrnd _ _ _ _ => true
  | .pand _ _ _ => true
  | .por _ _ _ => true
  | .pxor _ _ _ => true
  | .pnot _ _ => true
  | .pset _ _ => true
  | .pmov _ _ => true
  | .pget _ _ => true
  | .pcnt _ _ => true
  | .pfirst _ _ => true
  | .mlease _ _ n => decide (1 ≤ n.toNat ∧ n.toNat ≤ 4)
  | .mrelease => true
  | .mldb _ => true
  | .mbmeta _ => true
  | .mma _ _ _ => true
  | .mmacode _ _ => true
  | .mzero _ => true
  | .mdrain _ _ => true
  | .mstat _ => true
  | .lxcfg _ _ _ => true
  | .lxput _ _ _ => true
  | .lxget _ _ _ => true
  | .lxver _ _ => true
  | .lxenc _ _ _ => true
  | .lxsend _ _ _ _ => true
  | .lxdec _ _ _ => true
  | .lxmiss _ _ _ => true
  | .lxretry _ => true
  | .glset _ _ _ => true
  | .glinv _ _ => true
  | .glstat _ _ => true
  | .ecdecl _ => true
  | .ecsweep _ => true
  | .ecwake _ _ _ => true
  | .ecstat _ _ => true
  | .ecstop _ => true
  | .ecread _ _ _ => true
  | .sgcfg _ _ => true
  | .sgzero _ _ => true
  | .sgstep _ _ => true
  | .sgjoin _ _ _ => true
  | .sglog _ _ => true
  | .sgld _ _ => true
  | .sgst _ _ => true
  | .sgtag _ _ _ => true
  | .cMov a _ => decide (a ≠ 0#5)
  | .cAdd a _ => decide (a ≠ 0#5)
  | .cSub a _ => decide (a ≠ 0#5)
  | .cAnd a _ => decide (a ≠ 0#5)
  | .cOr a _ => decide (a ≠ 0#5)
  | .cXor a _ => decide (a ≠ 0#5)
  | .cAddi a _ => decide (a ≠ 0#5)
  | .cLi a _ => decide (a ≠ 0#5)
  | .cShli a _ => decide (a ≠ 0#5)
  | .cShri a _ => decide (a ≠ 0#5)
  | .cSari a _ => decide (a ≠ 0#5)
  | .cNop => true
  | .cEndh => true
  | .cQpop a q => decide (a ≠ 0#5 ∧ (q = 0#2 ∨ q = 3#2))
  | .cQpush q _ => decide (q = 1#2 ∨ q = 2#2)
  | .cLdd a _ => decide (a ≠ 0#5)
  | .cStd _ _ => true
  | .cLdw a _ => decide (a ≠ 0#5)
  | .cStw _ _ => true
  | .cLddr a _ => decide (a ≠ 0#5)
  | .cStdr _ _ => true
  | .cBeqz _ _ => true
  | .cBnez _ _ => true
  | .cJ _ => true
  | .cJr a => decide (a ≠ 0#5)
  | .cJalr a => decide (a ≠ 0#5)
  | .cVmov _ _ => true
  | .powerOn => true
  | .startupStageComplete _ _ => true
  | .faccWrite _ _ => true
  | .modnumWrite _ => true
  | .ctxtabWrite _ => true
  | .cpgoRead _ => true
  | .ringPacketArrival _ => true
  | .moduleLinkReceive link _ _ => decide (link < 24)
  | .linkGroupResend link => decide (link < 24)
  | .passWithhold => true
  | .partFailure _ => true
  | .scrubLine _ _ => true
  | .noticeDelivery => true
  | .msixVector port _ => decide (port < 8)
  | .portRequest req => decide (req.port < 8 ∧ req.requester < 65536)
  | .hostMessageArrival _ => true
  | .launchRequest die => decide (die < 8)
  | .launchJournaled die => decide (die < 8)
  | .consumeConfirmation die _ => decide (die < 8)
  | .activationMessageGenerate die _ => decide (die < 8)
  | .eventMirrorUpdate _ die => decide (die < 8)
  | .messageArrival _ => true
  | .missQueueResend _ => true
  | .versionMissStart core => decide (core < 8224)
  | .messageAcceptanceNotice _ => true
  | .messageCopyResend _ => true
  | .activationStart core => decide (core < 8224)
  | .preemption core => decide (core < 8224)
  | .messageAging core _ => decide (core < 8224)
  | .switchComplete core => decide (core < 8224)
  | .streamInComplete core => decide (core < 8224)
  | .streamOutComplete core => decide (core < 8224)
  | .fuseTimeout core => decide (core < 8224)
  | .migrationComplete core _ => decide (core < 8224)
  | .donationLimit core => decide (core < 8224)
  | .engineUpcallStart core => decide (core < 8224)
  | .pageWalk core _ _ => decide (core < 8224)
  | .walkMigratingReread _ => true
  | .walkMigratingTimeout _ => true
  | .readLineExpire core _ => decide (core < 8224)
  | .memoryAccessPerform _ => true
  | .loadReplyArrival _ => true
  | .remoteStoreArrival _ => true
  | .orderedFlagArrival _ => true
  | .countPacketSend core _ => decide (core < 8224)
  | .remoteNackResend _ => true
  | .storeAcknowledgement _ => true
  | .atomicPerform _ => true
  | .twoAddressAtomicPerform _ => true
  | .channelWordArrival _ => true
  | .mleaseGrant clause => decide (clause < 1024)
  | .leaseTurn clause => decide (clause < 1024)
  | .tileMoveComplete clause => decide (clause < 1024)
  | .leaseForfeit clause => decide (clause < 1024)
  | .matrixCommandRun clause => decide (clause < 1024)
  | .drainSizeReply clause => decide (clause < 1024)
  | .drainWriteArrival _ => true
  | .copyTransferComplete clause _ => decide (clause < 1024)
  | .copyPromiseExpire clause _ => decide (clause < 1024)
  | .copyCancelStop clause _ => decide (clause < 1024)
  | .collectiveStepRun clause _ => decide (clause < 1024)
  | .collectiveStepArrival _ => true
  | .collectiveAbortNotice _ => true
  | .sweepBeat core => decide (core < 8224)
  | .remoteChangeArrival _ => true
  | .valueWriteArrival _ => true
  | .signatureLeaseGrant clause => decide (clause < 1024)
  | .signatureCommandRun clause => decide (clause < 1024)
  | .evwaitTimeout core => decide (core < 8224)
  | .mwaitTimeout core => decide (core < 8224)
  | .wfeTimeout core => decide (core < 8224)
  | .sleepExpire core => decide (core < 8224)
  | .withheldPassesIssued => true
  | .meshPacketArrival _ => true
  | .invalidationComplete _ => true
  | .eventVectorHomeMove _ => true
  | .coreRemoval core successor => decide (core < 8192 ∧ successor < 8192)
  | .reservedEncoding _ => true
  | .instructionFetchFault _ _ => true

/-- The proposition that an instruction is well formed. -/
abbrev Instr.WellFormed (i : Instr) : Prop := i.wellFormed = true

end Sys2Proof
end

