-- ==== Sys2Proof/Decode.lean ====
section
/-!
DEFINITION. Decode.lean: instruction words (R270-R278), the decoder, which is total on any bytes and names what it
rejects, and after it the encoder.
-/

namespace Sys2Proof

/-- Bits [hi:lo] of a word as a number (R2). -/
def bits (w : BitVec n) (hi lo : Nat) : Nat := w.toNat / 2 ^ lo % 2 ^ (hi + 1 - lo)

/-- Bit [i] of a word (R2). -/
def bit (w : BitVec n) (i : Nat) : Bool := w.toNat / 2 ^ i % 2 == 1

/-- A little-endian value of a list of bytes (R186). -/
def leNat : List Byte → Nat
  | [] => 0
  | b :: bs => b.toNat + 256 * leNat bs

/-- The `n` little-endian bytes of a value (R186). -/
def leBytes : Nat → Nat → List Byte
  | 0, _ => []
  | n + 1, v => BitVec.ofNat 8 v :: leBytes n (v / 256)

/-- The scope in bits [30:28]; codes 5-7 are undefined (R275). -/
def decodeScope (w : Nat) : Option Scope :=
  match w / 268435456 % 8 with
  | 0 => some .core
  | 1 => some .clause
  | 2 => some .die
  | 3 => some .package
  | 4 => some .system
  | _ => none

/-- Major 0x00 (R277). -/
def decodeAlu (w : Nat) : Option Instr :=
  match w / 8388608 % 32 with
  | 0 => if w / 536870912 = 0 then some (.add (w / 268435456 % 2 == 1) (.ofNat 5 (w / 256)) (.ofNat 5 (w / 8192)) (.ofNat 5 (w / 262144))) else none
  | 1 => if w / 536870912 = 0 then some (.sub (w / 268435456 % 2 == 1) (.ofNat 5 (w / 256)) (.ofNat 5 (w / 8192)) (.ofNat 5 (w / 262144))) else none
  | 2 => if w / 536870912 = 0 then some (.and (w / 268435456 % 2 == 1) (.ofNat 5 (w / 256)) (.ofNat 5 (w / 8192)) (.ofNat 5 (w / 262144))) else none
  | 3 => if w / 536870912 = 0 then some (.or (w / 268435456 % 2 == 1) (.ofNat 5 (w / 256)) (.ofNat 5 (w / 8192)) (.ofNat 5 (w / 262144))) else none
  | 4 => if w / 536870912 = 0 then some (.xor (w / 268435456 % 2 == 1) (.ofNat 5 (w / 256)) (.ofNat 5 (w / 8192)) (.ofNat 5 (w / 262144))) else none
  | 5 => if w / 536870912 = 0 then some (.andn (w / 268435456 % 2 == 1) (.ofNat 5 (w / 256)) (.ofNat 5 (w / 8192)) (.ofNat 5 (w / 262144))) else none
  | 6 => if w / 536870912 = 0 then some (.shl (w / 268435456 % 2 == 1) (.ofNat 5 (w / 256)) (.ofNat 5 (w / 8192)) (.ofNat 5 (w / 262144))) else none
  | 7 => if w / 536870912 = 0 then some (.shr (w / 268435456 % 2 == 1) (.ofNat 5 (w / 256)) (.ofNat 5 (w / 8192)) (.ofNat 5 (w / 262144))) else none
  | 8 => if w / 536870912 = 0 then some (.sar (w / 268435456 % 2 == 1) (.ofNat 5 (w / 256)) (.ofNat 5 (w / 8192)) (.ofNat 5 (w / 262144))) else none
  | 9 => if w / 536870912 = 0 then some (.rotl (w / 268435456 % 2 == 1) (.ofNat 5 (w / 256)) (.ofNat 5 (w / 8192)) (.ofNat 5 (w / 262144))) else none
  | 10 => if w / 536870912 = 0 then some (.mul (w / 268435456 % 2 == 1) (.ofNat 5 (w / 256)) (.ofNat 5 (w / 8192)) (.ofNat 5 (w / 262144))) else none
  | 11 => if w / 536870912 = 0 then some (.mulh (w / 268435456 % 2 == 1) (.ofNat 5 (w / 256)) (.ofNat 5 (w / 8192)) (.ofNat 5 (w / 262144))) else none
  | 12 => if w / 536870912 = 0 then some (.mulhu (w / 268435456 % 2 == 1) (.ofNat 5 (w / 256)) (.ofNat 5 (w / 8192)) (.ofNat 5 (w / 262144))) else none
  | 13 => if w / 536870912 = 0 then some (.div (w / 268435456 % 2 == 1) (.ofNat 5 (w / 256)) (.ofNat 5 (w / 8192)) (.ofNat 5 (w / 262144))) else none
  | 14 => if w / 536870912 = 0 then some (.divu (w / 268435456 % 2 == 1) (.ofNat 5 (w / 256)) (.ofNat 5 (w / 8192)) (.ofNat 5 (w / 262144))) else none
  | 15 => if w / 536870912 = 0 then some (.rem (w / 268435456 % 2 == 1) (.ofNat 5 (w / 256)) (.ofNat 5 (w / 8192)) (.ofNat 5 (w / 262144))) else none
  | 16 => if w / 536870912 = 0 then some (.remu (w / 268435456 % 2 == 1) (.ofNat 5 (w / 256)) (.ofNat 5 (w / 8192)) (.ofNat 5 (w / 262144))) else none
  | 17 => if w / 536870912 = 0 then some (.min (w / 268435456 % 2 == 1) (.ofNat 5 (w / 256)) (.ofNat 5 (w / 8192)) (.ofNat 5 (w / 262144))) else none
  | 18 => if w / 536870912 = 0 then some (.max (w / 268435456 % 2 == 1) (.ofNat 5 (w / 256)) (.ofNat 5 (w / 8192)) (.ofNat 5 (w / 262144))) else none
  | 19 => if w / 536870912 = 0 then some (.minu (w / 268435456 % 2 == 1) (.ofNat 5 (w / 256)) (.ofNat 5 (w / 8192)) (.ofNat 5 (w / 262144))) else none
  | 20 => if w / 536870912 = 0 then some (.maxu (w / 268435456 % 2 == 1) (.ofNat 5 (w / 256)) (.ofNat 5 (w / 8192)) (.ofNat 5 (w / 262144))) else none
  | 21 => if w / 536870912 = 0 then some (.slt (w / 268435456 % 2 == 1) (.ofNat 5 (w / 256)) (.ofNat 5 (w / 8192)) (.ofNat 5 (w / 262144))) else none
  | 22 => if w / 536870912 = 0 then some (.sltu (w / 268435456 % 2 == 1) (.ofNat 5 (w / 256)) (.ofNat 5 (w / 8192)) (.ofNat 5 (w / 262144))) else none
  | 23 => if w / 536870912 = 0 then some (.seq (w / 268435456 % 2 == 1) (.ofNat 5 (w / 256)) (.ofNat 5 (w / 8192)) (.ofNat 5 (w / 262144))) else none
  | 24 => if w / 262144 % 32 = 0 ∧ w / 536870912 = 0 then some (.clz (w / 268435456 % 2 == 1) (.ofNat 5 (w / 256)) (.ofNat 5 (w / 8192))) else none
  | 25 => if w / 262144 % 32 = 0 ∧ w / 536870912 = 0 then some (.ctz (w / 268435456 % 2 == 1) (.ofNat 5 (w / 256)) (.ofNat 5 (w / 8192))) else none
  | 26 => if w / 262144 % 32 = 0 ∧ w / 536870912 = 0 then some (.popc (w / 268435456 % 2 == 1) (.ofNat 5 (w / 256)) (.ofNat 5 (w / 8192))) else none
  | 27 => if w / 262144 % 32 = 0 ∧ w / 536870912 = 0 then some (.brev (w / 268435456 % 2 == 1) (.ofNat 5 (w / 256)) (.ofNat 5 (w / 8192))) else none
  | 28 => if w / 262144 % 32 = 0 ∧ w / 268435456 = 0 then some (.sextb (.ofNat 5 (w / 256)) (.ofNat 5 (w / 8192))) else none
  | 29 => if w / 262144 % 32 = 0 ∧ w / 268435456 = 0 then some (.sexth (.ofNat 5 (w / 256)) (.ofNat 5 (w / 8192))) else none
  | 30 => if w / 262144 % 32 = 0 ∧ w / 268435456 = 0 then some (.sextw (.ofNat 5 (w / 256)) (.ofNat 5 (w / 8192))) else none
  | 31 => if w / 262144 % 32 = 0 ∧ w / 268435456 = 0 then some (.zextw (.ofNat 5 (w / 256)) (.ofNat 5 (w / 8192))) else none
  | _ => none

/-- Major 0x05 (R277). -/
def decodeShiftImm (w : Nat) : Option Instr :=
  match w / 8388608 % 32 with
  | 0 => if w / 536870912 = 0 then some (.shli (.ofNat 5 (w / 256)) (.ofNat 5 (w / 8192)) (.ofNat 6 (w / 268435456 % 2 * 32 + w / 262144 % 32))) else none
  | 1 => if w / 536870912 = 0 then some (.shri (.ofNat 5 (w / 256)) (.ofNat 5 (w / 8192)) (.ofNat 6 (w / 268435456 % 2 * 32 + w / 262144 % 32))) else none
  | 2 => if w / 536870912 = 0 then some (.sari (.ofNat 5 (w / 256)) (.ofNat 5 (w / 8192)) (.ofNat 6 (w / 268435456 % 2 * 32 + w / 262144 % 32))) else none
  | 3 => if w / 536870912 = 0 then some (.rotli (.ofNat 5 (w / 256)) (.ofNat 5 (w / 8192)) (.ofNat 6 (w / 268435456 % 2 * 32 + w / 262144 % 32))) else none
  | _ => none

/-- Major 0x09 (R277). -/
def decodeOx (w : Nat) : Option Instr :=
  match w / 8388608 % 32 with
  | 0 => if w / 256 % 32 < 8 ∧ w / 262144 % 32 = 0 ∧ w / 268435456 = 0 then some (.oxset (.ofNat 3 (w / 256)) (.ofNat 5 (w / 8192))) else none
  | 1 => if w / 8192 % 32 < 8 ∧ w / 262144 % 32 = 0 ∧ w / 268435456 = 0 then some (.oxget (.ofNat 5 (w / 256)) (.ofNat 3 (w / 8192))) else none
  | 2 => if w / 256 % 32 < 8 ∧ w / 8192 % 32 = 0 ∧ w / 262144 % 32 = 0 ∧ w / 268435456 = 0 then some (.oxclr (.ofNat 3 (w / 256))) else none
  | 3 => if w / 256 % 32 < 8 ∧ w / 262144 % 32 < 8 ∧ w / 268435456 = 0 ∧ w / 256 % 8 + w / 262144 % 8 ≤ 7 then some (.oxldm (.ofNat 3 (w / 256)) (.ofNat 5 (w / 8192)) (.ofNat 3 (w / 262144))) else none
  | 4 => if w / 256 % 32 < 8 ∧ w / 262144 % 32 < 8 ∧ w / 268435456 = 0 ∧ w / 256 % 8 + w / 262144 % 8 ≤ 7 then some (.oxstm (.ofNat 3 (w / 256)) (.ofNat 5 (w / 8192)) (.ofNat 3 (w / 262144))) else none
  | _ => none

/-- Major 0x0A (R277). -/
def decodeLoad (w : Nat) : Option Instr :=
  match w / 262144 % 32 with
  | 0 => some (.ldb (.ofNat 5 (w / 256)) (.ofNat 5 (w / 8192)) (.ofNat 9 (w / 8388608)))
  | 1 => some (.ldbu (.ofNat 5 (w / 256)) (.ofNat 5 (w / 8192)) (.ofNat 9 (w / 8388608)))
  | 2 => some (.ldh (.ofNat 5 (w / 256)) (.ofNat 5 (w / 8192)) (.ofNat 9 (w / 8388608)))
  | 3 => some (.ldhu (.ofNat 5 (w / 256)) (.ofNat 5 (w / 8192)) (.ofNat 9 (w / 8388608)))
  | 4 => some (.ldw (.ofNat 5 (w / 256)) (.ofNat 5 (w / 8192)) (.ofNat 9 (w / 8388608)))
  | 5 => some (.ldwu (.ofNat 5 (w / 256)) (.ofNat 5 (w / 8192)) (.ofNat 9 (w / 8388608)))
  | 6 => some (.ldd (.ofNat 5 (w / 256)) (.ofNat 5 (w / 8192)) (.ofNat 9 (w / 8388608)))
  | _ => none

/-- Major 0x0B (R277). -/
def decodeStore (w : Nat) : Option Instr :=
  match w / 262144 % 32 with
  | 0 => some (.stb (.ofNat 5 (w / 256)) (.ofNat 5 (w / 8192)) (.ofNat 9 (w / 8388608)))
  | 1 => some (.sth (.ofNat 5 (w / 256)) (.ofNat 5 (w / 8192)) (.ofNat 9 (w / 8388608)))
  | 2 => some (.stw (.ofNat 5 (w / 256)) (.ofNat 5 (w / 8192)) (.ofNat 9 (w / 8388608)))
  | 3 => some (.std (.ofNat 5 (w / 256)) (.ofNat 5 (w / 8192)) (.ofNat 9 (w / 8388608)))
  | _ => none

/-- Major 0x0C (R277). -/
def decodeOrder (w : Nat) : Option Instr :=
  match w / 8388608 % 32 with
  | 0 => if w / 262144 % 32 = 0 then (decodeScope w).bind fun sc => some (.lda (w / 2147483648 % 2 == 1) sc (.ofNat 5 (w / 256)) (.ofNat 5 (w / 8192))) else none
  | 1 => if w / 262144 % 32 = 0 then (decodeScope w).bind fun sc => some (.stl (w / 2147483648 % 2 == 1) sc (.ofNat 5 (w / 256)) (.ofNat 5 (w / 8192))) else none
  | 2 => if w / 262144 % 32 = 0 then (decodeScope w).bind fun sc => some (.stlf (w / 2147483648 % 2 == 1) sc (.ofNat 5 (w / 256)) (.ofNat 5 (w / 8192))) else none
  | 3 => if w / 256 % 32 = 0 ∧ w / 8192 % 32 = 0 ∧ w / 262144 % 32 = 0 ∧ w / 2147483648 = 0 then (decodeScope w).bind fun sc => some (.fence sc) else none
  | 4 => if w / 256 % 32 = 0 ∧ w / 8192 % 32 = 0 ∧ w / 262144 % 32 = 0 ∧ w / 268435456 = 0 then some (.fencea) else none
  | _ => none

/-- Major 0x0D (R277). -/
def decodeAtomic (w : Nat) : Option Instr :=
  match w / 8388608 % 32 with
  | 0 => (decodeScope w).bind fun sc => some (.aadd (w / 2147483648 % 2 == 1) sc (.ofNat 5 (w / 256)) (.ofNat 5 (w / 8192)) (.ofNat 5 (w / 262144)))
  | 1 => (decodeScope w).bind fun sc => some (.aand (w / 2147483648 % 2 == 1) sc (.ofNat 5 (w / 256)) (.ofNat 5 (w / 8192)) (.ofNat 5 (w / 262144)))
  | 2 => (decodeScope w).bind fun sc => some (.aor (w / 2147483648 % 2 == 1) sc (.ofNat 5 (w / 256)) (.ofNat 5 (w / 8192)) (.ofNat 5 (w / 262144)))
  | 3 => (decodeScope w).bind fun sc => some (.axor (w / 2147483648 % 2 == 1) sc (.ofNat 5 (w / 256)) (.ofNat 5 (w / 8192)) (.ofNat 5 (w / 262144)))
  | 4 => (decodeScope w).bind fun sc => some (.amin (w / 2147483648 % 2 == 1) sc (.ofNat 5 (w / 256)) (.ofNat 5 (w / 8192)) (.ofNat 5 (w / 262144)))
  | 5 => (decodeScope w).bind fun sc => some (.amax (w / 2147483648 % 2 == 1) sc (.ofNat 5 (w / 256)) (.ofNat 5 (w / 8192)) (.ofNat 5 (w / 262144)))
  | 6 => (decodeScope w).bind fun sc => some (.aminu (w / 2147483648 % 2 == 1) sc (.ofNat 5 (w / 256)) (.ofNat 5 (w / 8192)) (.ofNat 5 (w / 262144)))
  | 7 => (decodeScope w).bind fun sc => some (.amaxu (w / 2147483648 % 2 == 1) sc (.ofNat 5 (w / 256)) (.ofNat 5 (w / 8192)) (.ofNat 5 (w / 262144)))
  | 8 => (decodeScope w).bind fun sc => some (.aswp (w / 2147483648 % 2 == 1) sc (.ofNat 5 (w / 256)) (.ofNat 5 (w / 8192)) (.ofNat 5 (w / 262144)))
  | 9 => (decodeScope w).bind fun sc => some (.acas (w / 2147483648 % 2 == 1) sc (.ofNat 5 (w / 256)) (.ofNat 5 (w / 8192)) (.ofNat 5 (w / 262144)))
  | 10 => (decodeScope w).bind fun sc => some (.adcas (w / 2147483648 % 2 == 1) sc (.ofNat 5 (w / 256)) (.ofNat 5 (w / 8192)) (.ofNat 5 (w / 262144)))
  | 11 => (decodeScope w).bind fun sc => some (.amove (w / 2147483648 % 2 == 1) sc (.ofNat 5 (w / 256)) (.ofNat 5 (w / 8192)) (.ofNat 5 (w / 262144)))
  | _ => none

/-- Major 0x18 (R277). -/
def decodeSystem (w : Nat) : Option Instr :=
  match w / 8388608 % 32 with
  | 0 => if w / 256 % 32 = 0 ∧ w / 8192 % 32 = 0 ∧ w / 262144 % 32 = 0 ∧ w / 268435456 = 0 then some (.nop) else none
  | 1 => if w / 256 % 32 = 0 ∧ w / 268435456 = 0 then some (.trap (.ofNat 10 (w / 8192 % 32 * 32 + w / 262144 % 32))) else none
  | 2 => if w / 256 % 32 = 0 ∧ w / 8192 % 32 = 0 ∧ w / 262144 % 32 = 0 ∧ w / 268435456 = 0 then some (.eret) else none
  | 3 => if w / 256 % 32 = 0 ∧ w / 8192 % 32 = 0 ∧ w / 262144 % 32 = 0 ∧ w / 268435456 = 0 then some (.halt) else none
  | 4 => if w / 8192 % 32 = 0 ∧ w / 262144 % 32 = 0 ∧ w / 268435456 = 0 then some (.cyc (.ofNat 5 (w / 256))) else none
  | 5 => if w / 256 % 32 = 0 ∧ w / 262144 % 32 = 0 ∧ w / 268435456 = 0 then some (.sleep (.ofNat 5 (w / 8192))) else none
  | 6 => if w / 256 % 32 = 0 ∧ w / 8192 % 32 = 0 ∧ w / 262144 % 32 = 0 ∧ w / 268435456 = 0 then some (.wfe) else none
  | 7 => if w / 8192 % 32 = 0 ∧ w / 262144 % 32 < 4 ∧ w / 268435456 = 0 ∧ w / 262144 % 4 ≠ 0 then some (.fuse (.ofNat 5 (w / 256)) (.ofNat 2 (w / 262144))) else none
  | 8 => if w / 256 % 32 = 0 ∧ w / 262144 % 32 = 0 ∧ w / 268435456 = 0 then some (.split (.ofNat 5 (w / 8192))) else none
  | 9 => if w / 256 % 32 = 0 ∧ w / 8192 % 32 = 0 ∧ w / 262144 % 32 = 0 ∧ w / 268435456 = 0 then some (.migr) else none
  | 10 => if w / 256 % 32 = 0 ∧ w / 268435456 = 0 then some (.bkpt (.ofNat 10 (w / 8192 % 32 * 32 + w / 262144 % 32))) else none
  | 11 => if w / 256 % 32 = 0 ∧ w / 8192 % 32 = 0 ∧ w / 262144 % 32 = 0 ∧ w / 268435456 = 0 then some (.yield) else none
  | _ => none

/-- Major 0x1A (R277). -/
def decodeQueue (w : Nat) : Option Instr :=
  match w / 8388608 % 32 with
  | 0 => if w / 8192 % 32 = 0 ∧ w / 262144 % 32 < 4 ∧ w / 268435456 = 0 ∧ (w / 262144 % 4 = 0 ∨ w / 262144 % 4 = 3) then some (.qpop (.ofNat 5 (w / 256)) (.ofNat 2 (w / 262144))) else none
  | 1 => if w / 8192 % 32 = 0 ∧ w / 262144 % 32 < 4 ∧ w / 268435456 = 0 ∧ (w / 262144 % 4 = 1 ∨ w / 262144 % 4 = 2) then some (.qpush (.ofNat 2 (w / 262144)) (.ofNat 5 (w / 256))) else none
  | 2 => if w / 8192 % 32 = 0 ∧ w / 262144 % 32 < 4 ∧ w / 268435456 = 0 ∧ (w / 262144 % 4 = 0 ∨ w / 262144 % 4 = 3) then some (.qpeek (.ofNat 5 (w / 256)) (.ofNat 2 (w / 262144))) else none
  | 3 => if w / 8192 % 32 = 0 ∧ w / 262144 % 32 < 4 ∧ w / 268435456 = 0 then some (.qlen (.ofNat 5 (w / 256)) (.ofNat 2 (w / 262144))) else none
  | 4 => if w / 256 % 32 = 0 ∧ w / 262144 % 32 < 4 ∧ w / 268435456 = 0 ∧ w / 262144 % 4 ≠ 2 then some (.qdrop (.ofNat 2 (w / 262144)) (.ofNat 5 (w / 8192))) else none
  | _ => none

/-- Major 0x1B (R277). -/
def decodeMessage (w : Nat) : Option Instr :=
  match w / 8388608 % 32 with
  | 0 => if w / 256 % 32 = 0 ∧ w / 262144 % 32 = 0 ∧ w / 2147483648 = 0 then (decodeScope w).bind fun sc => some (.send sc (.ofNat 5 (w / 8192))) else none
  | 1 => if w / 262144 % 32 = 0 ∧ w / 2147483648 = 0 then (decodeScope w).bind fun sc => some (.sendw sc (.ofNat 5 (w / 256)) (.ofNat 5 (w / 8192))) else none
  | 2 => if w / 256 % 32 = 0 ∧ w / 8192 % 32 = 0 ∧ w / 262144 % 32 = 0 ∧ w / 2147483648 = 0 then (decodeScope w).bind fun sc => some (.reply sc) else none
  | 3 => if w / 256 % 32 = 0 ∧ w / 8192 % 32 = 0 ∧ w / 262144 % 32 = 0 ∧ w / 268435456 = 0 then some (.endh) else none
  | 4 => if w / 262144 % 32 = 0 ∧ w / 268435456 = 0 then some (.launch (.ofNat 5 (w / 256)) (.ofNat 5 (w / 8192))) else none
  | 5 => if w / 256 % 32 = 0 ∧ w / 8192 % 32 = 0 ∧ w / 262144 % 32 = 0 ∧ w / 268435456 = 0 then some (.trig) else none
  | 6 => if w / 8192 % 32 = 0 ∧ w / 262144 % 32 < 8 ∧ w / 268435456 = 0 ∧ w / 262144 % 8 ≤ 5 then some (.wid (.ofNat 5 (w / 256)) (.ofNat 3 (w / 262144))) else none
  | 7 => if w / 8192 % 32 = 0 ∧ w / 262144 % 32 = 0 ∧ w / 268435456 = 0 then some (.srcid (.ofNat 5 (w / 256))) else none
  | _ => none

/-- Major 0x1C (R277). -/
def decodeEvent (w : Nat) : Option Instr :=
  match w / 8388608 % 32 with
  | 0 => if w / 262144 % 32 = 0 ∧ w / 268435456 = 0 then some (.evwait (.ofNat 5 (w / 256)) (.ofNat 5 (w / 8192))) else none
  | 1 => if w / 256 % 32 = 0 ∧ w / 262144 % 32 = 0 ∧ w / 268435456 = 0 then some (.evset (.ofNat 5 (w / 8192))) else none
  | 2 => if w / 256 % 32 = 0 ∧ w / 262144 % 32 = 0 ∧ w / 268435456 = 0 then some (.evclr (.ofNat 5 (w / 8192))) else none
  | 3 => if w / 262144 % 32 = 0 ∧ w / 268435456 = 0 then some (.evtest (.ofNat 5 (w / 256)) (.ofNat 5 (w / 8192))) else none
  | 4 => if w / 8192 % 32 = 0 ∧ w / 262144 % 32 = 0 ∧ w / 268435456 = 0 then some (.phnew (.ofNat 5 (w / 256))) else none
  | 5 => if w / 256 % 32 = 0 ∧ w / 262144 % 32 < 4 ∧ w / 268435456 = 0 ∧ w / 262144 % 4 ≤ 2 then some (.phreg (.ofNat 5 (w / 8192)) (.ofNat 2 (w / 262144))) else none
  | 6 => if w / 256 % 32 = 0 ∧ w / 262144 % 32 = 0 ∧ w / 268435456 = 0 then some (.phdrop (.ofNat 5 (w / 8192))) else none
  | 7 => if w / 256 % 32 = 0 ∧ w / 262144 % 32 = 0 ∧ w / 268435456 = 0 then some (.phsig (.ofNat 5 (w / 8192))) else none
  | 8 => if w / 262144 % 32 = 0 ∧ w / 268435456 = 0 then some (.phwait (.ofNat 5 (w / 256)) (.ofNat 5 (w / 8192))) else none
  | 9 => if w / 262144 % 32 = 0 ∧ w / 268435456 = 0 then some (.phsw (.ofNat 5 (w / 256)) (.ofNat 5 (w / 8192))) else none
  | 10 => if w / 262144 % 32 = 0 ∧ w / 268435456 = 0 then some (.phread (.ofNat 5 (w / 256)) (.ofNat 5 (w / 8192))) else none
  | 11 => if w / 256 % 32 = 0 ∧ w / 262144 % 32 = 0 ∧ w / 268435456 = 0 then some (.phreset (.ofNat 5 (w / 8192))) else none
  | 12 => if w / 256 % 32 = 0 ∧ w / 262144 % 32 = 0 ∧ w / 268435456 = 0 then some (.mon (.ofNat 5 (w / 8192))) else none
  | 13 => if w / 262144 % 32 = 0 ∧ w / 268435456 = 0 then some (.mwait (.ofNat 5 (w / 256)) (.ofNat 5 (w / 8192))) else none
  | _ => none

/-- Major 0x1D (R277). -/
def decodeCopy (w : Nat) : Option Instr :=
  match w / 8388608 % 32 with
  | 0 => if w / 256 % 32 = 0 ∧ w / 262144 % 32 = 0 ∧ w / 268435456 = 0 then some (.cpwait (.ofNat 5 (w / 8192))) else none
  | 1 => if w / 262144 % 32 = 0 ∧ w / 268435456 = 0 then some (.cpstat (.ofNat 5 (w / 256)) (.ofNat 5 (w / 8192))) else none
  | 2 => if w / 256 % 32 = 0 ∧ w / 262144 % 32 = 0 ∧ w / 268435456 = 0 then some (.cpcancel (.ofNat 5 (w / 8192))) else none
  | 3 => if w / 8192 % 32 = 0 ∧ w / 262144 % 32 < 16 ∧ w / 268435456 = 0 then some (.cpsort (.ofNat 5 (w / 256)) (.ofNat 4 (w / 262144))) else none
  | 4 => if w / 256 % 32 < 16 ∧ w / 262144 % 32 = 0 ∧ w / 1073741824 = 0 ∧ w / 268435456 % 4 ≠ 3 then some (.gbind (.ofNat 2 (w / 268435456)) (.ofNat 4 (w / 256)) (.ofNat 5 (w / 8192))) else none
  | 5 => if w / 256 % 32 < 16 ∧ w / 8192 % 32 = 0 ∧ w / 262144 % 32 = 0 ∧ w / 268435456 = 0 then some (.gunbind (.ofNat 4 (w / 256))) else none
  | 6 => if w / 256 % 32 = 0 ∧ w / 262144 % 32 = 0 ∧ w / 268435456 = 0 then some (.collgo (.ofNat 5 (w / 8192))) else none
  | 7 => if w / 262144 % 32 = 0 ∧ w / 268435456 = 0 then some (.collwait (.ofNat 5 (w / 256)) (.ofNat 5 (w / 8192))) else none
  | _ => none

/-- Major 0x1E (R277). -/
def decodeFibre (w : Nat) : Option Instr :=
  match w / 8388608 % 32 with
  | 0 => if w / 256 % 32 = 0 ∧ w / 262144 % 32 = 0 ∧ w / 268435456 = 0 then some (.fresume (.ofNat 5 (w / 8192))) else none
  | 1 => if w / 262144 % 32 = 0 ∧ w / 268435456 = 0 then some (.fstat (.ofNat 5 (w / 256)) (.ofNat 5 (w / 8192))) else none
  | 2 => if w / 256 % 32 = 0 ∧ w / 2147483648 = 0 then (decodeScope w).bind fun sc => some (.tlbinv sc (.ofNat 5 (w / 8192)) (.ofNat 5 (w / 262144))) else none
  | 3 => if w / 256 % 32 = 0 ∧ w / 262144 % 32 = 0 ∧ w / 2147483648 = 0 then (decodeScope w).bind fun sc => some (.tlbinva sc (.ofNat 5 (w / 8192))) else none
  | 4 => if w / 256 % 32 = 0 ∧ w / 262144 % 32 = 0 ∧ w / 268435456 = 0 then some (.xpref (.ofNat 5 (w / 8192))) else none
  | 5 => if w / 256 % 32 = 0 ∧ w / 262144 % 32 = 0 ∧ w / 268435456 = 0 then some (.fdrop (.ofNat 5 (w / 8192))) else none
  | _ => none

/-- Major 0x20 (R277). -/
def decodeVInt (w : Nat) : Option Instr :=
  match w / 8388608 % 32 with
  | 0 => if w / 268435456 % 2 = 0 then some (.vadd (.ofNat 3 (w / 536870912)) (.ofNat 5 (w / 256)) (.ofNat 5 (w / 8192)) (.ofNat 5 (w / 262144))) else none
  | 1 => if w / 268435456 % 2 = 0 then some (.vsub (.ofNat 3 (w / 536870912)) (.ofNat 5 (w / 256)) (.ofNat 5 (w / 8192)) (.ofNat 5 (w / 262144))) else none
  | 2 => if w / 268435456 % 2 = 0 then some (.vmul (.ofNat 3 (w / 536870912)) (.ofNat 5 (w / 256)) (.ofNat 5 (w / 8192)) (.ofNat 5 (w / 262144))) else none
  | 3 => if w / 268435456 % 2 = 0 then some (.vmulh (.ofNat 3 (w / 536870912)) (.ofNat 5 (w / 256)) (.ofNat 5 (w / 8192)) (.ofNat 5 (w / 262144))) else none
  | 4 => if w / 268435456 % 2 = 0 then some (.vand (.ofNat 3 (w / 536870912)) (.ofNat 5 (w / 256)) (.ofNat 5 (w / 8192)) (.ofNat 5 (w / 262144))) else none
  | 5 => if w / 268435456 % 2 = 0 then some (.vor (.ofNat 3 (w / 536870912)) (.ofNat 5 (w / 256)) (.ofNat 5 (w / 8192)) (.ofNat 5 (w / 262144))) else none
  | 6 => if w / 268435456 % 2 = 0 then some (.vxor (.ofNat 3 (w / 536870912)) (.ofNat 5 (w / 256)) (.ofNat 5 (w / 8192)) (.ofNat 5 (w / 262144))) else none
  | 7 => if w / 268435456 % 2 = 0 then some (.vshl (.ofNat 3 (w / 536870912)) (.ofNat 5 (w / 256)) (.ofNat 5 (w / 8192)) (.ofNat 5 (w / 262144))) else none
  | 8 => if w / 268435456 % 2 = 0 then some (.vshr (.ofNat 3 (w / 536870912)) (.ofNat 5 (w / 256)) (.ofNat 5 (w / 8192)) (.ofNat 5 (w / 262144))) else none
  | 9 => if w / 268435456 % 2 = 0 then some (.vsar (.ofNat 3 (w / 536870912)) (.ofNat 5 (w / 256)) (.ofNat 5 (w / 8192)) (.ofNat 5 (w / 262144))) else none
  | 10 => if w / 268435456 % 2 = 0 then some (.vmin (.ofNat 3 (w / 536870912)) (.ofNat 5 (w / 256)) (.ofNat 5 (w / 8192)) (.ofNat 5 (w / 262144))) else none
  | 11 => if w / 268435456 % 2 = 0 then some (.vmax (.ofNat 3 (w / 536870912)) (.ofNat 5 (w / 256)) (.ofNat 5 (w / 8192)) (.ofNat 5 (w / 262144))) else none
  | 12 => if w / 268435456 % 2 = 0 then some (.vminu (.ofNat 3 (w / 536870912)) (.ofNat 5 (w / 256)) (.ofNat 5 (w / 8192)) (.ofNat 5 (w / 262144))) else none
  | 13 => if w / 268435456 % 2 = 0 then some (.vmaxu (.ofNat 3 (w / 536870912)) (.ofNat 5 (w / 256)) (.ofNat 5 (w / 8192)) (.ofNat 5 (w / 262144))) else none
  | 14 => if w / 256 % 32 < 8 ∧ w / 268435456 % 2 = 0 then some (.vceq (.ofNat 3 (w / 536870912)) (.ofNat 3 (w / 256)) (.ofNat 5 (w / 8192)) (.ofNat 5 (w / 262144))) else none
  | 15 => if w / 256 % 32 < 8 ∧ w / 268435456 % 2 = 0 then some (.vclt (.ofNat 3 (w / 536870912)) (.ofNat 3 (w / 256)) (.ofNat 5 (w / 8192)) (.ofNat 5 (w / 262144))) else none
  | 16 => if w / 256 % 32 < 8 ∧ w / 268435456 % 2 = 0 then some (.vcltu (.ofNat 3 (w / 536870912)) (.ofNat 3 (w / 256)) (.ofNat 5 (w / 8192)) (.ofNat 5 (w / 262144))) else none
  | 17 => if w / 268435456 % 2 = 0 then some (.vadds (.ofNat 3 (w / 536870912)) (.ofNat 5 (w / 256)) (.ofNat 5 (w / 8192)) (.ofNat 5 (w / 262144))) else none
  | 18 => if w / 268435456 % 2 = 0 then some (.vmuls (.ofNat 3 (w / 536870912)) (.ofNat 5 (w / 256)) (.ofNat 5 (w / 8192)) (.ofNat 5 (w / 262144))) else none
  | 19 => if w / 8192 % 32 = 0 ∧ w / 262144 % 32 = 0 ∧ w / 268435456 % 2 = 0 then some (.viota (.ofNat 3 (w / 536870912)) (.ofNat 5 (w / 256))) else none
  | _ => none

/-- Major 0x21 (R277). -/
def decodeVFloat (w : Nat) : Option Instr :=
  match w / 8388608 % 32 with
  | 0 => some (.vfadd (w / 268435456 % 2 == 1) (.ofNat 3 (w / 536870912)) (.ofNat 5 (w / 256)) (.ofNat 5 (w / 8192)) (.ofNat 5 (w / 262144)))
  | 1 => some (.vfsub (w / 268435456 % 2 == 1) (.ofNat 3 (w / 536870912)) (.ofNat 5 (w / 256)) (.ofNat 5 (w / 8192)) (.ofNat 5 (w / 262144)))
  | 2 => some (.vfmul (w / 268435456 % 2 == 1) (.ofNat 3 (w / 536870912)) (.ofNat 5 (w / 256)) (.ofNat 5 (w / 8192)) (.ofNat 5 (w / 262144)))
  | 3 => some (.vfma (w / 268435456 % 2 == 1) (.ofNat 3 (w / 536870912)) (.ofNat 5 (w / 256)) (.ofNat 5 (w / 8192)) (.ofNat 5 (w / 262144)))
  | 4 => some (.vfms (w / 268435456 % 2 == 1) (.ofNat 3 (w / 536870912)) (.ofNat 5 (w / 256)) (.ofNat 5 (w / 8192)) (.ofNat 5 (w / 262144)))
  | 5 => some (.vfnma (w / 268435456 % 2 == 1) (.ofNat 3 (w / 536870912)) (.ofNat 5 (w / 256)) (.ofNat 5 (w / 8192)) (.ofNat 5 (w / 262144)))
  | 6 => some (.vfdiv (w / 268435456 % 2 == 1) (.ofNat 3 (w / 536870912)) (.ofNat 5 (w / 256)) (.ofNat 5 (w / 8192)) (.ofNat 5 (w / 262144)))
  | 7 => if w / 262144 % 32 = 0 then some (.vfsqrt (w / 268435456 % 2 == 1) (.ofNat 3 (w / 536870912)) (.ofNat 5 (w / 256)) (.ofNat 5 (w / 8192))) else none
  | 8 => some (.vfmin (w / 268435456 % 2 == 1) (.ofNat 3 (w / 536870912)) (.ofNat 5 (w / 256)) (.ofNat 5 (w / 8192)) (.ofNat 5 (w / 262144)))
  | 9 => some (.vfmax (w / 268435456 % 2 == 1) (.ofNat 3 (w / 536870912)) (.ofNat 5 (w / 256)) (.ofNat 5 (w / 8192)) (.ofNat 5 (w / 262144)))
  | 10 => if w / 262144 % 32 = 0 then some (.vfabs (w / 268435456 % 2 == 1) (.ofNat 3 (w / 536870912)) (.ofNat 5 (w / 256)) (.ofNat 5 (w / 8192))) else none
  | 11 => if w / 262144 % 32 = 0 then some (.vfneg (w / 268435456 % 2 == 1) (.ofNat 3 (w / 536870912)) (.ofNat 5 (w / 256)) (.ofNat 5 (w / 8192))) else none
  | 12 => if w / 256 % 32 < 8 then some (.vfceq (w / 268435456 % 2 == 1) (.ofNat 3 (w / 536870912)) (.ofNat 3 (w / 256)) (.ofNat 5 (w / 8192)) (.ofNat 5 (w / 262144))) else none
  | 13 => if w / 256 % 32 < 8 then some (.vfclt (w / 268435456 % 2 == 1) (.ofNat 3 (w / 536870912)) (.ofNat 3 (w / 256)) (.ofNat 5 (w / 8192)) (.ofNat 5 (w / 262144))) else none
  | 14 => if w / 256 % 32 < 8 then some (.vfcle (w / 268435456 % 2 == 1) (.ofNat 3 (w / 536870912)) (.ofNat 3 (w / 256)) (.ofNat 5 (w / 8192)) (.ofNat 5 (w / 262144))) else none
  | 15 => some (.vfadds (w / 268435456 % 2 == 1) (.ofNat 3 (w / 536870912)) (.ofNat 5 (w / 256)) (.ofNat 5 (w / 8192)) (.ofNat 5 (w / 262144)))
  | 16 => some (.vfmuls (w / 268435456 % 2 == 1) (.ofNat 3 (w / 536870912)) (.ofNat 5 (w / 256)) (.ofNat 5 (w / 8192)) (.ofNat 5 (w / 262144)))
  | _ => none

/-- Major 0x22 (R277). -/
def decodeVMove (w : Nat) : Option Instr :=
  match w / 8388608 % 32 with
  | 0 => if w / 262144 % 32 = 0 ∧ w / 268435456 % 2 = 0 then some (.vmov (.ofNat 3 (w / 536870912)) (.ofNat 5 (w / 256)) (.ofNat 5 (w / 8192))) else none
  | 1 => if w / 262144 % 32 = 0 ∧ w / 268435456 % 2 = 0 then some (.vsplat (.ofNat 3 (w / 536870912)) (.ofNat 5 (w / 256)) (.ofNat 5 (w / 8192))) else none
  | 2 => if w / 262144 % 32 < 16 ∧ w / 268435456 = 0 then some (.vmovs (.ofNat 5 (w / 256)) (.ofNat 5 (w / 8192)) (.ofNat 4 (w / 262144))) else none
  | 3 => if w / 262144 % 32 < 16 ∧ w / 268435456 = 0 then some (.vins (.ofNat 5 (w / 256)) (.ofNat 5 (w / 8192)) (.ofNat 4 (w / 262144))) else none
  | 4 => if w / 268435456 % 2 = 0 then some (.vperm (.ofNat 3 (w / 536870912)) (.ofNat 5 (w / 256)) (.ofNat 5 (w / 8192)) (.ofNat 5 (w / 262144))) else none
  | 5 => if w / 268435456 % 2 = 0 then some (.vslideup (.ofNat 3 (w / 536870912)) (.ofNat 5 (w / 256)) (.ofNat 5 (w / 8192)) (.ofNat 5 (w / 262144))) else none
  | 6 => if w / 268435456 % 2 = 0 then some (.vslidedn (.ofNat 3 (w / 536870912)) (.ofNat 5 (w / 256)) (.ofNat 5 (w / 8192)) (.ofNat 5 (w / 262144))) else none
  | 7 => if w / 268435456 % 2 = 0 then some (.vsel (.ofNat 3 (w / 536870912)) (.ofNat 5 (w / 256)) (.ofNat 5 (w / 8192)) (.ofNat 5 (w / 262144))) else none
  | 8 => if w / 262144 % 32 = 0 ∧ w / 268435456 % 2 = 0 then some (.vcompress (.ofNat 3 (w / 536870912)) (.ofNat 5 (w / 256)) (.ofNat 5 (w / 8192))) else none
  | 9 => if w / 262144 % 32 = 0 ∧ w / 268435456 % 2 = 0 then some (.vexpand (.ofNat 3 (w / 536870912)) (.ofNat 5 (w / 256)) (.ofNat 5 (w / 8192))) else none
  | 10 => if w / 262144 % 32 = 0 ∧ w / 268435456 % 2 = 0 then some (.vredadd (.ofNat 3 (w / 536870912)) (.ofNat 5 (w / 256)) (.ofNat 5 (w / 8192))) else none
  | 11 => if w / 262144 % 32 = 0 then some (.vfredsum (w / 268435456 % 2 == 1) (.ofNat 3 (w / 536870912)) (.ofNat 5 (w / 256)) (.ofNat 5 (w / 8192))) else none
  | 12 => if w / 262144 % 32 = 0 ∧ w / 268435456 % 2 = 0 then some (.vfredmax (.ofNat 3 (w / 536870912)) (.ofNat 5 (w / 256)) (.ofNat 5 (w / 8192))) else none
  | 13 => some (.vfdot (w / 268435456 % 2 == 1) (.ofNat 3 (w / 536870912)) (.ofNat 5 (w / 256)) (.ofNat 5 (w / 8192)) (.ofNat 5 (w / 262144)))
  | 14 => if w / 262144 % 32 < 2 ∧ w / 268435456 = 0 then some (.vprune (.ofNat 5 (w / 256)) (.ofNat 5 (w / 8192)) (w / 262144 % 2 == 1)) else none
  | _ => none

/-- Major 0x23 (R277). -/
def decodeVMem (w : Nat) : Option Instr :=
  match w / 8388608 % 32 with
  | 0 => if w / 268435456 % 2 = 0 then some (.vld (.ofNat 3 (w / 536870912)) (.ofNat 5 (w / 256)) (.ofNat 5 (w / 8192)) (.ofNat 5 (w / 262144))) else none
  | 1 => if w / 268435456 % 2 = 0 then some (.vst (.ofNat 3 (w / 536870912)) (.ofNat 5 (w / 256)) (.ofNat 5 (w / 8192)) (.ofNat 5 (w / 262144))) else none
  | 2 => if w / 268435456 % 2 = 0 then some (.vldk (.ofNat 3 (w / 536870912)) (.ofNat 5 (w / 256)) (.ofNat 5 (w / 8192)) (.ofNat 5 (w / 262144))) else none
  | 3 => if w / 268435456 % 2 = 0 then some (.vstk (.ofNat 3 (w / 536870912)) (.ofNat 5 (w / 256)) (.ofNat 5 (w / 8192)) (.ofNat 5 (w / 262144))) else none
  | 4 => if w / 268435456 % 2 = 0 then some (.vgath (.ofNat 3 (w / 536870912)) (.ofNat 5 (w / 256)) (.ofNat 5 (w / 8192)) (.ofNat 5 (w / 262144))) else none
  | 5 => if w / 268435456 % 2 = 0 then some (.vscat (.ofNat 3 (w / 536870912)) (.ofNat 5 (w / 256)) (.ofNat 5 (w / 8192)) (.ofNat 5 (w / 262144))) else none
  | 6 => if w / 262144 % 32 = 0 ∧ w / 268435456 % 2 = 0 then some (.vstb (.ofNat 3 (w / 536870912)) (.ofNat 5 (w / 256)) (.ofNat 5 (w / 8192))) else none
  | _ => none

/-- Major 0x24 (R277). -/
def decodeVConv (w : Nat) : Option Instr :=
  match w / 8388608 % 32 with
  | 0 => if w / 262144 % 32 = 0 then some (.vcvtwf (w / 268435456 % 2 == 1) (.ofNat 3 (w / 536870912)) (.ofNat 5 (w / 256)) (.ofNat 5 (w / 8192))) else none
  | 1 => if w / 262144 % 32 = 0 then some (.vcvtfw (w / 268435456 % 2 == 1) (.ofNat 3 (w / 536870912)) (.ofNat 5 (w / 256)) (.ofNat 5 (w / 8192))) else none
  | 2 => if w / 262144 % 32 = 0 ∧ w / 268435456 % 2 = 0 then some (.vcvtfd (.ofNat 3 (w / 536870912)) (.ofNat 5 (w / 256)) (.ofNat 5 (w / 8192))) else none
  | 3 => if w / 262144 % 32 = 0 ∧ w / 268435456 % 2 = 0 then some (.vcvtdf (.ofNat 3 (w / 536870912)) (.ofNat 5 (w / 256)) (.ofNat 5 (w / 8192))) else none
  | 4 => if w / 262144 % 32 = 0 then some (.vxacc (w / 268435456 % 2 == 1) (.ofNat 3 (w / 536870912)) (.ofNat 5 (w / 256)) (.ofNat 5 (w / 8192))) else none
  | 5 => if w / 262144 % 32 = 0 then some (.vxrnd (w / 268435456 % 2 == 1) (.ofNat 3 (w / 536870912)) (.ofNat 5 (w / 256)) (.ofNat 5 (w / 8192))) else none
  | _ => none

/-- Major 0x25 (R277). -/
def decodePred (w : Nat) : Option Instr :=
  match w / 8388608 % 32 with
  | 0 => if w / 256 % 32 < 8 ∧ w / 8192 % 32 < 8 ∧ w / 262144 % 32 < 8 ∧ w / 268435456 = 0 then some (.pand (.ofNat 3 (w / 256)) (.ofNat 3 (w / 8192)) (.ofNat 3 (w / 262144))) else none
  | 1 => if w / 256 % 32 < 8 ∧ w / 8192 % 32 < 8 ∧ w / 262144 % 32 < 8 ∧ w / 268435456 = 0 then some (.por (.ofNat 3 (w / 256)) (.ofNat 3 (w / 8192)) (.ofNat 3 (w / 262144))) else none
  | 2 => if w / 256 % 32 < 8 ∧ w / 8192 % 32 < 8 ∧ w / 262144 % 32 < 8 ∧ w / 268435456 = 0 then some (.pxor (.ofNat 3 (w / 256)) (.ofNat 3 (w / 8192)) (.ofNat 3 (w / 262144))) else none
  | 3 => if w / 256 % 32 < 8 ∧ w / 8192 % 32 < 8 ∧ w / 262144 % 32 = 0 ∧ w / 268435456 = 0 then some (.pnot (.ofNat 3 (w / 256)) (.ofNat 3 (w / 8192))) else none
  | 4 => if w / 256 % 32 < 8 ∧ w / 262144 % 32 = 0 ∧ w / 268435456 = 0 then some (.pset (.ofNat 3 (w / 256)) (.ofNat 5 (w / 8192))) else none
  | 5 => if w / 256 % 32 < 8 ∧ w / 8192 % 32 < 8 ∧ w / 262144 % 32 = 0 ∧ w / 268435456 = 0 then some (.pmov (.ofNat 3 (w / 256)) (.ofNat 3 (w / 8192))) else none
  | 6 => if w / 8192 % 32 < 8 ∧ w / 262144 % 32 = 0 ∧ w / 268435456 = 0 then some (.pget (.ofNat 5 (w / 256)) (.ofNat 3 (w / 8192))) else none
  | 7 => if w / 8192 % 32 < 8 ∧ w / 262144 % 32 = 0 ∧ w / 268435456 = 0 then some (.pcnt (.ofNat 5 (w / 256)) (.ofNat 3 (w / 8192))) else none
  | 8 => if w / 8192 % 32 < 8 ∧ w / 262144 % 32 = 0 ∧ w / 268435456 = 0 then some (.pfirst (.ofNat 5 (w / 256)) (.ofNat 3 (w / 8192))) else none
  | _ => none

/-- Major 0x28 (R277). -/
def decodeMatrix (w : Nat) : Option Instr :=
  match w / 8388608 % 32 with
  | 0 => if w / 8192 % 32 = 0 ∧ w / 262144 % 32 < 8 ∧ w / 536870912 = 0 ∧ 1 ≤ w / 262144 % 8 ∧ w / 262144 % 8 ≤ 4 then some (.mlease (w / 268435456 % 2 == 1) (.ofNat 5 (w / 256)) (.ofNat 3 (w / 262144))) else none
  | 1 => if w / 256 % 32 = 0 ∧ w / 8192 % 32 = 0 ∧ w / 262144 % 32 = 0 ∧ w / 268435456 = 0 then some (.mrelease) else none
  | 2 => if w / 256 % 32 = 0 ∧ w / 262144 % 32 = 0 ∧ w / 268435456 = 0 then some (.mldb (.ofNat 5 (w / 8192))) else none
  | 3 => if w / 256 % 32 = 0 ∧ w / 262144 % 32 = 0 ∧ w / 268435456 = 0 then some (.mbmeta (.ofNat 5 (w / 8192))) else none
  | 4 => if w / 256 % 32 < 4 ∧ w / 262144 % 32 = 0 then some (.mma (.ofNat 4 (w / 268435456)) (.ofNat 2 (w / 256)) (.ofNat 5 (w / 8192))) else none
  | 5 => if w / 256 % 32 < 4 ∧ w / 262144 % 32 = 0 ∧ w / 268435456 = 0 then some (.mmacode (.ofNat 2 (w / 256)) (.ofNat 5 (w / 8192))) else none
  | 6 => if w / 256 % 32 < 4 ∧ w / 8192 % 32 = 0 ∧ w / 262144 % 32 = 0 ∧ w / 268435456 = 0 then some (.mzero (.ofNat 2 (w / 256))) else none
  | 7 => if w / 256 % 32 < 4 ∧ w / 262144 % 32 = 0 ∧ w / 268435456 = 0 then some (.mdrain (.ofNat 2 (w / 256)) (.ofNat 5 (w / 8192))) else none
  | 8 => if w / 8192 % 32 = 0 ∧ w / 262144 % 32 = 0 ∧ w / 268435456 = 0 then some (.mstat (.ofNat 5 (w / 256))) else none
  | _ => none

/-- Major 0x29 (R277). -/
def decodeLexicon (w : Nat) : Option Instr :=
  match w / 8388608 % 32 with
  | 0 => if w / 268435456 = 0 then some (.lxcfg (.ofNat 5 (w / 256)) (.ofNat 5 (w / 8192)) (.ofNat 5 (w / 262144))) else none
  | 1 => if w / 268435456 = 0 then some (.lxput (.ofNat 5 (w / 256)) (.ofNat 5 (w / 8192)) (.ofNat 5 (w / 262144))) else none
  | 2 => if w / 268435456 = 0 then some (.lxget (.ofNat 5 (w / 256)) (.ofNat 5 (w / 8192)) (.ofNat 5 (w / 262144))) else none
  | 3 => if w / 262144 % 32 = 0 ∧ w / 268435456 = 0 then some (.lxver (.ofNat 5 (w / 256)) (.ofNat 5 (w / 8192))) else none
  | 4 => if w / 268435456 = 0 then some (.lxenc (.ofNat 5 (w / 256)) (.ofNat 5 (w / 8192)) (.ofNat 5 (w / 262144))) else none
  | 5 => if w / 2147483648 = 0 then (decodeScope w).bind fun sc => some (.lxsend sc (.ofNat 5 (w / 256)) (.ofNat 5 (w / 8192)) (.ofNat 5 (w / 262144))) else none
  | 6 => if w / 268435456 = 0 then some (.lxdec (.ofNat 5 (w / 256)) (.ofNat 5 (w / 8192)) (.ofNat 5 (w / 262144))) else none
  | 7 => if w / 262144 % 32 = 0 ∧ w / 536870912 = 0 then some (.lxmiss (w / 268435456 % 2 == 1) (.ofNat 5 (w / 256)) (.ofNat 5 (w / 8192))) else none
  | 8 => if w / 256 % 32 = 0 ∧ w / 262144 % 32 = 0 ∧ w / 268435456 = 0 then some (.lxretry (.ofNat 5 (w / 8192))) else none
  | 9 => if w / 268435456 = 0 then some (.glset (.ofNat 5 (w / 256)) (.ofNat 5 (w / 8192)) (.ofNat 5 (w / 262144))) else none
  | 10 => if w / 256 % 32 = 0 ∧ w / 268435456 = 0 then some (.glinv (.ofNat 5 (w / 8192)) (.ofNat 5 (w / 262144))) else none
  | 11 => if w / 262144 % 32 = 0 ∧ w / 268435456 = 0 then some (.glstat (.ofNat 5 (w / 256)) (.ofNat 5 (w / 8192))) else none
  | _ => none

/-- Major 0x2A (R277). -/
def decodeParser (w : Nat) : Option Instr :=
  match w / 8388608 % 32 with
  | 0 => if w / 256 % 32 < 4 ∧ w / 8192 % 32 = 0 ∧ w / 262144 % 32 = 0 ∧ w / 268435456 = 0 then some (.ecdecl (.ofNat 2 (w / 256))) else none
  | 1 => if w / 256 % 32 < 4 ∧ w / 8192 % 32 = 0 ∧ w / 262144 % 32 = 0 ∧ w / 268435456 = 0 then some (.ecsweep (.ofNat 2 (w / 256))) else none
  | 2 => if w / 256 % 32 < 4 ∧ w / 268435456 = 0 then some (.ecwake (.ofNat 2 (w / 256)) (.ofNat 5 (w / 8192)) (.ofNat 5 (w / 262144))) else none
  | 3 => if w / 8192 % 32 = 0 ∧ w / 262144 % 32 < 4 ∧ w / 268435456 = 0 then some (.ecstat (.ofNat 5 (w / 256)) (.ofNat 2 (w / 262144))) else none
  | 4 => if w / 256 % 32 < 4 ∧ w / 8192 % 32 = 0 ∧ w / 262144 % 32 = 0 ∧ w / 268435456 = 0 then some (.ecstop (.ofNat 2 (w / 256))) else none
  | 5 => if w / 262144 % 32 < 4 ∧ w / 268435456 = 0 then some (.ecread (.ofNat 5 (w / 256)) (.ofNat 5 (w / 8192)) (.ofNat 2 (w / 262144))) else none
  | _ => none

/-- Major 0x2C (R277). -/
def decodeSignature (w : Nat) : Option Instr :=
  match w / 8388608 % 32 with
  | 0 => if w / 262144 % 32 = 0 ∧ w / 268435456 = 0 then some (.sgcfg (.ofNat 5 (w / 256)) (.ofNat 5 (w / 8192))) else none
  | 1 => if w / 256 % 32 < 4 ∧ w / 262144 % 32 = 0 ∧ w / 268435456 = 0 then some (.sgzero (.ofNat 2 (w / 256)) (.ofNat 5 (w / 8192))) else none
  | 2 => if w / 256 % 32 < 4 ∧ w / 262144 % 32 = 0 ∧ w / 268435456 = 0 then some (.sgstep (.ofNat 2 (w / 256)) (.ofNat 5 (w / 8192))) else none
  | 3 => if w / 256 % 32 < 4 ∧ w / 8192 % 32 < 4 ∧ w / 262144 % 32 < 4 ∧ w / 268435456 = 0 then some (.sgjoin (.ofNat 2 (w / 256)) (.ofNat 2 (w / 8192)) (.ofNat 2 (w / 262144))) else none
  | 4 => if w / 256 % 32 < 4 ∧ w / 8192 % 32 < 4 ∧ w / 262144 % 32 = 0 ∧ w / 268435456 = 0 then some (.sglog (.ofNat 2 (w / 256)) (.ofNat 2 (w / 8192))) else none
  | 5 => if w / 256 % 32 < 4 ∧ w / 262144 % 32 = 0 ∧ w / 268435456 = 0 then some (.sgld (.ofNat 2 (w / 256)) (.ofNat 5 (w / 8192))) else none
  | 6 => if w / 256 % 32 < 4 ∧ w / 262144 % 32 = 0 ∧ w / 268435456 = 0 then some (.sgst (.ofNat 2 (w / 256)) (.ofNat 5 (w / 8192))) else none
  | 7 => if w / 256 % 32 < 4 ∧ w / 268435456 = 0 then some (.sgtag (.ofNat 2 (w / 256)) (.ofNat 5 (w / 8192)) (.ofNat 5 (w / 262144))) else none
  | _ => none

/-- A 32-bit word with [1:0] = 11, by its major opcode [7:2] (R272, R277). Majors that R277 reserves, and major 0x2B, whose
words run only in the parser (R280), give none. -/
def decode32 (w : Nat) : Option Instr :=
  match w / 4 % 64 with
  | 0 => decodeAlu w
  | 1 => some (.addi (.ofNat 5 (w / 256)) (.ofNat 5 (w / 8192)) (.ofNat 14 (w / 262144)))
  | 2 => some (.andi (.ofNat 5 (w / 256)) (.ofNat 5 (w / 8192)) (.ofNat 14 (w / 262144)))
  | 3 => some (.ori (.ofNat 5 (w / 256)) (.ofNat 5 (w / 8192)) (.ofNat 14 (w / 262144)))
  | 4 => some (.xori (.ofNat 5 (w / 256)) (.ofNat 5 (w / 8192)) (.ofNat 14 (w / 262144)))
  | 6 => some (.slti (.ofNat 5 (w / 256)) (.ofNat 5 (w / 8192)) (.ofNat 14 (w / 262144)))
  | 5 => decodeShiftImm w
  | 7 => some (.lui (.ofNat 5 (w / 256)) (.ofNat 19 (w / 8192)))
  | 8 => some (.auipc (.ofNat 5 (w / 256)) (.ofNat 19 (w / 8192)))
  | 9 => decodeOx w
  | 10 => decodeLoad w
  | 11 => decodeStore w
  | 12 => decodeOrder w
  | 13 => decodeAtomic w
  | 14 => some (.beq (.ofNat 5 (w / 256)) (.ofNat 5 (w / 8192)) (.ofNat 14 (w / 262144)))
  | 15 => some (.bne (.ofNat 5 (w / 256)) (.ofNat 5 (w / 8192)) (.ofNat 14 (w / 262144)))
  | 16 => some (.blt (.ofNat 5 (w / 256)) (.ofNat 5 (w / 8192)) (.ofNat 14 (w / 262144)))
  | 17 => some (.bge (.ofNat 5 (w / 256)) (.ofNat 5 (w / 8192)) (.ofNat 14 (w / 262144)))
  | 18 => some (.bltu (.ofNat 5 (w / 256)) (.ofNat 5 (w / 8192)) (.ofNat 14 (w / 262144)))
  | 19 => some (.bgeu (.ofNat 5 (w / 256)) (.ofNat 5 (w / 8192)) (.ofNat 14 (w / 262144)))
  | 20 => some (.jal (.ofNat 5 (w / 256)) (.ofNat 19 (w / 8192)))
  | 21 => some (.jalr (.ofNat 5 (w / 256)) (.ofNat 5 (w / 8192)) (.ofNat 14 (w / 262144)))
  | 22 => if w / 8192 % 32 = 0 ∧ w / 134217728 = 0 then some (.crd (.ofNat 5 (w / 256)) (.ofNat 9 (w / 262144))) else none
  | 23 => if w / 8192 % 32 = 0 ∧ w / 134217728 = 0 then some (.cwr (.ofNat 5 (w / 256)) (.ofNat 9 (w / 262144))) else none
  | 24 => decodeSystem w
  | 26 => decodeQueue w
  | 27 => decodeMessage w
  | 28 => decodeEvent w
  | 29 => decodeCopy w
  | 30 => decodeFibre w
  | 32 => decodeVInt w
  | 33 => decodeVFloat w
  | 34 => decodeVMove w
  | 35 => decodeVMem w
  | 36 => decodeVConv w
  | 37 => decodePred w
  | 40 => decodeMatrix w
  | 41 => decodeLexicon w
  | 42 => decodeParser w
  | 44 => decodeSignature w
  | _ => none

/-- A halfword of bank 0 (R278). -/
noncomputable def decodeBank0 (h : Nat) : Option Instr :=
  match h / 4 % 16 with
  | 1 => if h / 64 % 32 ≠ 0 then some (.cMov (.ofNat 5 (h / 64)) (.ofNat 5 (h / 2048))) else none
  | 2 => if h / 64 % 32 ≠ 0 then some (.cAdd (.ofNat 5 (h / 64)) (.ofNat 5 (h / 2048))) else none
  | 3 => if h / 64 % 32 ≠ 0 then some (.cSub (.ofNat 5 (h / 64)) (.ofNat 5 (h / 2048))) else none
  | 4 => if h / 64 % 32 ≠ 0 then some (.cAnd (.ofNat 5 (h / 64)) (.ofNat 5 (h / 2048))) else none
  | 5 => if h / 64 % 32 ≠ 0 then some (.cOr (.ofNat 5 (h / 64)) (.ofNat 5 (h / 2048))) else none
  | 6 => if h / 64 % 32 ≠ 0 then some (.cXor (.ofNat 5 (h / 64)) (.ofNat 5 (h / 2048))) else none
  | 7 => if h / 64 % 32 ≠ 0 then some (.cAddi (.ofNat 5 (h / 64)) (.ofNat 5 (h / 2048))) else none
  | 8 => if h / 64 % 32 ≠ 0 then some (.cLi (.ofNat 5 (h / 64)) (.ofNat 5 (h / 2048))) else none
  | 9 => if h / 64 % 32 ≠ 0 then some (.cShli (.ofNat 5 (h / 64)) (.ofNat 5 (h / 2048))) else none
  | 10 => if h / 64 % 32 ≠ 0 then some (.cShri (.ofNat 5 (h / 64)) (.ofNat 5 (h / 2048))) else none
  | 11 => if h / 64 % 32 ≠ 0 then some (.cSari (.ofNat 5 (h / 64)) (.ofNat 5 (h / 2048))) else none
  | 12 => if h / 64 % 32 = 0 ∧ h / 2048 % 32 = 0 then some (.cNop) else none
  | 13 => if h / 64 % 32 = 0 ∧ h / 2048 % 32 = 0 then some (.cEndh) else none
  | 14 => if h / 2048 % 32 < 4 ∧ h / 64 % 32 ≠ 0 ∧ (h / 2048 % 4 = 0 ∨ h / 2048 % 4 = 3) then some (.cQpop (.ofNat 5 (h / 64)) (.ofNat 2 (h / 2048))) else none
  | 15 => if h / 64 % 32 < 4 ∧ (h / 64 % 4 = 1 ∨ h / 64 % 4 = 2) then some (.cQpush (.ofNat 2 (h / 64)) (.ofNat 5 (h / 2048))) else none
  | _ => none

/-- A halfword of bank 1 (R278). -/
noncomputable def decodeBank1 (h : Nat) : Option Instr :=
  match h / 4 % 16 with
  | 0 => if h / 64 % 32 ≠ 0 then some (.cLdd (.ofNat 5 (h / 64)) (.ofNat 5 (h / 2048))) else none
  | 1 => some (.cStd (.ofNat 5 (h / 64)) (.ofNat 5 (h / 2048)))
  | 2 => if h / 64 % 32 ≠ 0 then some (.cLdw (.ofNat 5 (h / 64)) (.ofNat 5 (h / 2048))) else none
  | 3 => some (.cStw (.ofNat 5 (h / 64)) (.ofNat 5 (h / 2048)))
  | 4 => if h / 64 % 32 ≠ 0 then some (.cLddr (.ofNat 5 (h / 64)) (.ofNat 5 (h / 2048))) else none
  | 5 => some (.cStdr (.ofNat 5 (h / 64)) (.ofNat 5 (h / 2048)))
  | 6 => some (.cBeqz (.ofNat 5 (h / 64)) (.ofNat 5 (h / 2048)))
  | 7 => some (.cBnez (.ofNat 5 (h / 64)) (.ofNat 5 (h / 2048)))
  | 8 => some (.cJ (.ofNat 10 (h / 64 % 32 * 32 + h / 2048 % 32)))
  | 9 => if h / 2048 % 32 = 0 ∧ h / 64 % 32 ≠ 0 then some (.cJr (.ofNat 5 (h / 64))) else none
  | 10 => if h / 2048 % 32 = 0 ∧ h / 64 % 32 ≠ 0 then some (.cJalr (.ofNat 5 (h / 64))) else none
  | 11 => some (.cVmov (.ofNat 5 (h / 64)) (.ofNat 5 (h / 2048)))
  | _ => none

/-- Why bytes are no instruction. -/
inductive DecodeError where
  /-- a word with [1:0] = 01, of the reserved 32-bit space (R270). -/
  | reservedSpace (word : Nat)
  /-- an element word outside a parser (R280 step 2). -/
  | elementWord (word : Nat)
  /-- a 32-bit word that no format defines (R280 step 1). -/
  | undefinedWord (word : Nat)
  /-- a reserved value of a 16-bit form (R278). -/
  | reservedHalfword (half : Nat)
  /-- fewer bytes than the instruction needs. -/
  | truncated
  deriving DecidableEq, Repr

/-- The bits a rejected encoding puts in CR.TVAL, zero-extended (R280). -/
def DecodeError.word : DecodeError → Nat
  | .reservedSpace w => w
  | .elementWord w => w
  | .undefinedWord w => w
  | .reservedHalfword h => h
  | .truncated => 0

/-- Whether a first halfword begins a 32-bit word (R270). -/
def isLong (half : Nat) : Bool := half % 2 == 1

/-- Decode a first halfword and, for a 32-bit word, its second (R270). -/
noncomputable def decodeHalves (lo hi : Nat) : Except DecodeError (Instr × Nat) :=
  if isLong lo then
    let w := lo + 65536 * hi
    if w % 4 = 1 then .error (.reservedSpace w)
    else if w / 4 % 64 = 0x2B then .error (.elementWord w)
    else match decode32 w with
      | some i => .ok (i, 4)
      | none => .error (.undefinedWord w)
  else
    match (if lo % 4 = 0 then decodeBank0 lo else decodeBank1 lo) with
    | some i => .ok (i, 2)
    | none => .error (.reservedHalfword lo)

/-- Decode the instruction at the head of a list of bytes: the instruction and its length, or the named error. -/
noncomputable def decodeBytes (bs : List Byte) : Except DecodeError (Instr × Nat) :=
  match bs with
  | b0 :: b1 :: rest =>
    let lo := leNat [b0, b1]
    if isLong lo then
      match rest with
      | b2 :: b3 :: _ => decodeHalves lo (leNat [b2, b3])
      | _ => .error .truncated
    else decodeHalves lo 0
  | _ => .error .truncated

/-- The instruction the decoder reads from the table word `w` of `nbits` bits, laid out as the hardware stores it:
halfwords little-endian, the first at the lowest address (R270). Bits above `nbits` are 0. -/
noncomputable def decodeTableWord (nbits w : Nat) : Option Instr :=
  match decodeBytes (leBytes 4 (w % 2 ^ nbits)) with
  | .ok (i, _) => some i
  | .error _ => none

/-- The length in bytes and the word of an encoded instruction, written from R272-R278; an event row has none. -/
def encode (i : Instr) : Option (Nat × Nat) :=
  match i with
  | .add w a b c => some (4, 3 + 268435456 * w.toNat + 256 * a.toNat + 8192 * b.toNat + 262144 * c.toNat)
  | .sub w a b c => some (4, 8388611 + 268435456 * w.toNat + 256 * a.toNat + 8192 * b.toNat + 262144 * c.toNat)
  | .and w a b c => some (4, 16777219 + 268435456 * w.toNat + 256 * a.toNat + 8192 * b.toNat + 262144 * c.toNat)
  | .or w a b c => some (4, 25165827 + 268435456 * w.toNat + 256 * a.toNat + 8192 * b.toNat + 262144 * c.toNat)
  | .xor w a b c => some (4, 33554435 + 268435456 * w.toNat + 256 * a.toNat + 8192 * b.toNat + 262144 * c.toNat)
  | .andn w a b c => some (4, 41943043 + 268435456 * w.toNat + 256 * a.toNat + 8192 * b.toNat + 262144 * c.toNat)
  | .shl w a b c => some (4, 50331651 + 268435456 * w.toNat + 256 * a.toNat + 8192 * b.toNat + 262144 * c.toNat)
  | .shr w a b c => some (4, 58720259 + 268435456 * w.toNat + 256 * a.toNat + 8192 * b.toNat + 262144 * c.toNat)
  | .sar w a b c => some (4, 67108867 + 268435456 * w.toNat + 256 * a.toNat + 8192 * b.toNat + 262144 * c.toNat)
  | .rotl w a b c => some (4, 75497475 + 268435456 * w.toNat + 256 * a.toNat + 8192 * b.toNat + 262144 * c.toNat)
  | .mul w a b c => some (4, 83886083 + 268435456 * w.toNat + 256 * a.toNat + 8192 * b.toNat + 262144 * c.toNat)
  | .mulh w a b c => some (4, 92274691 + 268435456 * w.toNat + 256 * a.toNat + 8192 * b.toNat + 262144 * c.toNat)
  | .mulhu w a b c => some (4, 100663299 + 268435456 * w.toNat + 256 * a.toNat + 8192 * b.toNat + 262144 * c.toNat)
  | .div w a b c => some (4, 109051907 + 268435456 * w.toNat + 256 * a.toNat + 8192 * b.toNat + 262144 * c.toNat)
  | .divu w a b c => some (4, 117440515 + 268435456 * w.toNat + 256 * a.toNat + 8192 * b.toNat + 262144 * c.toNat)
  | .rem w a b c => some (4, 125829123 + 268435456 * w.toNat + 256 * a.toNat + 8192 * b.toNat + 262144 * c.toNat)
  | .remu w a b c => some (4, 134217731 + 268435456 * w.toNat + 256 * a.toNat + 8192 * b.toNat + 262144 * c.toNat)
  | .min w a b c => some (4, 142606339 + 268435456 * w.toNat + 256 * a.toNat + 8192 * b.toNat + 262144 * c.toNat)
  | .max w a b c => some (4, 150994947 + 268435456 * w.toNat + 256 * a.toNat + 8192 * b.toNat + 262144 * c.toNat)
  | .minu w a b c => some (4, 159383555 + 268435456 * w.toNat + 256 * a.toNat + 8192 * b.toNat + 262144 * c.toNat)
  | .maxu w a b c => some (4, 167772163 + 268435456 * w.toNat + 256 * a.toNat + 8192 * b.toNat + 262144 * c.toNat)
  | .slt w a b c => some (4, 176160771 + 268435456 * w.toNat + 256 * a.toNat + 8192 * b.toNat + 262144 * c.toNat)
  | .sltu w a b c => some (4, 184549379 + 268435456 * w.toNat + 256 * a.toNat + 8192 * b.toNat + 262144 * c.toNat)
  | .seq w a b c => some (4, 192937987 + 268435456 * w.toNat + 256 * a.toNat + 8192 * b.toNat + 262144 * c.toNat)
  | .clz w a b => some (4, 201326595 + 268435456 * w.toNat + 256 * a.toNat + 8192 * b.toNat)
  | .ctz w a b => some (4, 209715203 + 268435456 * w.toNat + 256 * a.toNat + 8192 * b.toNat)
  | .popc w a b => some (4, 218103811 + 268435456 * w.toNat + 256 * a.toNat + 8192 * b.toNat)
  | .brev w a b => some (4, 226492419 + 268435456 * w.toNat + 256 * a.toNat + 8192 * b.toNat)
  | .sextb a b => some (4, 234881027 + 256 * a.toNat + 8192 * b.toNat)
  | .sexth a b => some (4, 243269635 + 256 * a.toNat + 8192 * b.toNat)
  | .sextw a b => some (4, 251658243 + 256 * a.toNat + 8192 * b.toNat)
  | .zextw a b => some (4, 260046851 + 256 * a.toNat + 8192 * b.toNat)
  | .addi a b imm => some (4, 7 + 256 * a.toNat + 8192 * b.toNat + 262144 * imm.toNat)
  | .andi a b imm => some (4, 11 + 256 * a.toNat + 8192 * b.toNat + 262144 * imm.toNat)
  | .ori a b imm => some (4, 15 + 256 * a.toNat + 8192 * b.toNat + 262144 * imm.toNat)
  | .xori a b imm => some (4, 19 + 256 * a.toNat + 8192 * b.toNat + 262144 * imm.toNat)
  | .slti a b imm => some (4, 27 + 256 * a.toNat + 8192 * b.toNat + 262144 * imm.toNat)
  | .shli a b n => some (4, 23 + 256 * a.toNat + 8192 * b.toNat + 268435456 * (n.toNat / 32) + 262144 * (n.toNat % 32))
  | .shri a b n => some (4, 8388631 + 256 * a.toNat + 8192 * b.toNat + 268435456 * (n.toNat / 32) + 262144 * (n.toNat % 32))
  | .sari a b n => some (4, 16777239 + 256 * a.toNat + 8192 * b.toNat + 268435456 * (n.toNat / 32) + 262144 * (n.toNat % 32))
  | .rotli a b n => some (4, 25165847 + 256 * a.toNat + 8192 * b.toNat + 268435456 * (n.toNat / 32) + 262144 * (n.toNat % 32))
  | .lui a imm => some (4, 31 + 256 * a.toNat + 8192 * imm.toNat)
  | .auipc a imm => some (4, 35 + 256 * a.toNat + 8192 * imm.toNat)
  | .oxset a b => some (4, 39 + 256 * a.toNat + 8192 * b.toNat)
  | .oxget a b => some (4, 8388647 + 256 * a.toNat + 8192 * b.toNat)
  | .oxclr a => some (4, 16777255 + 256 * a.toNat)
  | .oxldm a b m => some (4, 25165863 + 256 * a.toNat + 8192 * b.toNat + 262144 * m.toNat)
  | .oxstm a b m => some (4, 33554471 + 256 * a.toNat + 8192 * b.toNat + 262144 * m.toNat)
  | .ldb a b imm => some (4, 43 + 256 * a.toNat + 8192 * b.toNat + 8388608 * imm.toNat)
  | .ldbu a b imm => some (4, 262187 + 256 * a.toNat + 8192 * b.toNat + 8388608 * imm.toNat)
  | .ldh a b imm => some (4, 524331 + 256 * a.toNat + 8192 * b.toNat + 8388608 * imm.toNat)
  | .ldhu a b imm => some (4, 786475 + 256 * a.toNat + 8192 * b.toNat + 8388608 * imm.toNat)
  | .ldw a b imm => some (4, 1048619 + 256 * a.toNat + 8192 * b.toNat + 8388608 * imm.toNat)
  | .ldwu a b imm => some (4, 1310763 + 256 * a.toNat + 8192 * b.toNat + 8388608 * imm.toNat)
  | .ldd a b imm => some (4, 1572907 + 256 * a.toNat + 8192 * b.toNat + 8388608 * imm.toNat)
  | .stb a b imm => some (4, 47 + 256 * a.toNat + 8192 * b.toNat + 8388608 * imm.toNat)
  | .sth a b imm => some (4, 262191 + 256 * a.toNat + 8192 * b.toNat + 8388608 * imm.toNat)
  | .stw a b imm => some (4, 524335 + 256 * a.toNat + 8192 * b.toNat + 8388608 * imm.toNat)
  | .std a b imm => some (4, 786479 + 256 * a.toNat + 8192 * b.toNat + 8388608 * imm.toNat)
  | .lda d sc a b => some (4, 51 + 2147483648 * d.toNat + 268435456 * sc.code + 256 * a.toNat + 8192 * b.toNat)
  | .stl d sc a b => some (4, 8388659 + 2147483648 * d.toNat + 268435456 * sc.code + 256 * a.toNat + 8192 * b.toNat)
  | .stlf d sc a b => some (4, 16777267 + 2147483648 * d.toNat + 268435456 * sc.code + 256 * a.toNat + 8192 * b.toNat)
  | .fence sc => some (4, 25165875 + 268435456 * sc.code)
  | .fencea => some (4, 33554483)
  | .aadd d sc a b c => some (4, 55 + 2147483648 * d.toNat + 268435456 * sc.code + 256 * a.toNat + 8192 * b.toNat + 262144 * c.toNat)
  | .aand d sc a b c => some (4, 8388663 + 2147483648 * d.toNat + 268435456 * sc.code + 256 * a.toNat + 8192 * b.toNat + 262144 * c.toNat)
  | .aor d sc a b c => some (4, 16777271 + 2147483648 * d.toNat + 268435456 * sc.code + 256 * a.toNat + 8192 * b.toNat + 262144 * c.toNat)
  | .axor d sc a b c => some (4, 25165879 + 2147483648 * d.toNat + 268435456 * sc.code + 256 * a.toNat + 8192 * b.toNat + 262144 * c.toNat)
  | .amin d sc a b c => some (4, 33554487 + 2147483648 * d.toNat + 268435456 * sc.code + 256 * a.toNat + 8192 * b.toNat + 262144 * c.toNat)
  | .amax d sc a b c => some (4, 41943095 + 2147483648 * d.toNat + 268435456 * sc.code + 256 * a.toNat + 8192 * b.toNat + 262144 * c.toNat)
  | .aminu d sc a b c => some (4, 50331703 + 2147483648 * d.toNat + 268435456 * sc.code + 256 * a.toNat + 8192 * b.toNat + 262144 * c.toNat)
  | .amaxu d sc a b c => some (4, 58720311 + 2147483648 * d.toNat + 268435456 * sc.code + 256 * a.toNat + 8192 * b.toNat + 262144 * c.toNat)
  | .aswp d sc a b c => some (4, 67108919 + 2147483648 * d.toNat + 268435456 * sc.code + 256 * a.toNat + 8192 * b.toNat + 262144 * c.toNat)
  | .acas d sc a b c => some (4, 75497527 + 2147483648 * d.toNat + 268435456 * sc.code + 256 * a.toNat + 8192 * b.toNat + 262144 * c.toNat)
  | .adcas d sc a b c => some (4, 83886135 + 2147483648 * d.toNat + 268435456 * sc.code + 256 * a.toNat + 8192 * b.toNat + 262144 * c.toNat)
  | .amove d sc a b c => some (4, 92274743 + 2147483648 * d.toNat + 268435456 * sc.code + 256 * a.toNat + 8192 * b.toNat + 262144 * c.toNat)
  | .beq a b imm => some (4, 59 + 256 * a.toNat + 8192 * b.toNat + 262144 * imm.toNat)
  | .bne a b imm => some (4, 63 + 256 * a.toNat + 8192 * b.toNat + 262144 * imm.toNat)
  | .blt a b imm => some (4, 67 + 256 * a.toNat + 8192 * b.toNat + 262144 * imm.toNat)
  | .bge a b imm => some (4, 71 + 256 * a.toNat + 8192 * b.toNat + 262144 * imm.toNat)
  | .bltu a b imm => some (4, 75 + 256 * a.toNat + 8192 * b.toNat + 262144 * imm.toNat)
  | .bgeu a b imm => some (4, 79 + 256 * a.toNat + 8192 * b.toNat + 262144 * imm.toNat)
  | .jal a imm => some (4, 83 + 256 * a.toNat + 8192 * imm.toNat)
  | .jalr a b imm => some (4, 87 + 256 * a.toNat + 8192 * b.toNat + 262144 * imm.toNat)
  | .crd a cr => some (4, 91 + 256 * a.toNat + 262144 * cr.toNat)
  | .cwr a cr => some (4, 95 + 256 * a.toNat + 262144 * cr.toNat)
  | .nop => some (4, 99)
  | .trap n => some (4, 8388707 + 8192 * (n.toNat / 32) + 262144 * (n.toNat % 32))
  | .eret => some (4, 16777315)
  | .halt => some (4, 25165923)
  | .cyc a => some (4, 33554531 + 256 * a.toNat)
  | .sleep b => some (4, 41943139 + 8192 * b.toNat)
  | .wfe => some (4, 50331747)
  | .fuse a n => some (4, 58720355 + 256 * a.toNat + 262144 * n.toNat)
  | .split b => some (4, 67108963 + 8192 * b.toNat)
  | .migr => some (4, 75497571)
  | .bkpt n => some (4, 83886179 + 8192 * (n.toNat / 32) + 262144 * (n.toNat % 32))
  | .yield => some (4, 92274787)
  | .qpop a q => some (4, 107 + 256 * a.toNat + 262144 * q.toNat)
  | .qpush q a => some (4, 8388715 + 262144 * q.toNat + 256 * a.toNat)
  | .qpeek a q => some (4, 16777323 + 256 * a.toNat + 262144 * q.toNat)
  | .qlen a q => some (4, 25165931 + 256 * a.toNat + 262144 * q.toNat)
  | .qdrop q b => some (4, 33554539 + 262144 * q.toNat + 8192 * b.toNat)
  | .send sc b => some (4, 111 + 268435456 * sc.code + 8192 * b.toNat)
  | .sendw sc a b => some (4, 8388719 + 268435456 * sc.code + 256 * a.toNat + 8192 * b.toNat)
  | .reply sc => some (4, 16777327 + 268435456 * sc.code)
  | .endh => some (4, 25165935)
  | .launch a b => some (4, 33554543 + 256 * a.toNat + 8192 * b.toNat)
  | .trig => some (4, 41943151)
  | .wid a f => some (4, 50331759 + 256 * a.toNat + 262144 * f.toNat)
  | .srcid a => some (4, 58720367 + 256 * a.toNat)
  | .evwait a b => some (4, 115 + 256 * a.toNat + 8192 * b.toNat)
  | .evset b => some (4, 8388723 + 8192 * b.toNat)
  | .evclr b => some (4, 16777331 + 8192 * b.toNat)
  | .evtest a b => some (4, 25165939 + 256 * a.toNat + 8192 * b.toNat)
  | .phnew a => some (4, 33554547 + 256 * a.toNat)
  | .phreg b m => some (4, 41943155 + 8192 * b.toNat + 262144 * m.toNat)
  | .phdrop b => some (4, 50331763 + 8192 * b.toNat)
  | .phsig b => some (4, 58720371 + 8192 * b.toNat)
  | .phwait a b => some (4, 67108979 + 256 * a.toNat + 8192 * b.toNat)
  | .phsw a b => some (4, 75497587 + 256 * a.toNat + 8192 * b.toNat)
  | .phread a b => some (4, 83886195 + 256 * a.toNat + 8192 * b.toNat)
  | .phreset b => some (4, 92274803 + 8192 * b.toNat)
  | .mon b => some (4, 100663411 + 8192 * b.toNat)
  | .mwait a b => some (4, 109052019 + 256 * a.toNat + 8192 * b.toNat)
  | .cpwait b => some (4, 119 + 8192 * b.toNat)
  | .cpstat a b => some (4, 8388727 + 256 * a.toNat + 8192 * b.toNat)
  | .cpcancel b => some (4, 16777335 + 8192 * b.toNat)
  | .cpsort a k => some (4, 25165943 + 256 * a.toNat + 262144 * k.toNat)
  | .gbind sz w b => some (4, 33554551 + 268435456 * sz.toNat + 256 * w.toNat + 8192 * b.toNat)
  | .gunbind w => some (4, 41943159 + 256 * w.toNat)
  | .collgo b => some (4, 50331767 + 8192 * b.toNat)
  | .collwait a b => some (4, 58720375 + 256 * a.toNat + 8192 * b.toNat)
  | .fresume b => some (4, 123 + 8192 * b.toNat)
  | .fstat a b => some (4, 8388731 + 256 * a.toNat + 8192 * b.toNat)
  | .tlbinv sc b c => some (4, 16777339 + 268435456 * sc.code + 8192 * b.toNat + 262144 * c.toNat)
  | .tlbinva sc b => some (4, 25165947 + 268435456 * sc.code + 8192 * b.toNat)
  | .xpref b => some (4, 33554555 + 8192 * b.toNat)
  | .fdrop b => some (4, 41943163 + 8192 * b.toNat)
  | .vadd pr a b c => some (4, 131 + 536870912 * pr.toNat + 256 * a.toNat + 8192 * b.toNat + 262144 * c.toNat)
  | .vsub pr a b c => some (4, 8388739 + 536870912 * pr.toNat + 256 * a.toNat + 8192 * b.toNat + 262144 * c.toNat)
  | .vmul pr a b c => some (4, 16777347 + 536870912 * pr.toNat + 256 * a.toNat + 8192 * b.toNat + 262144 * c.toNat)
  | .vmulh pr a b c => some (4, 25165955 + 536870912 * pr.toNat + 256 * a.toNat + 8192 * b.toNat + 262144 * c.toNat)
  | .vand pr a b c => some (4, 33554563 + 536870912 * pr.toNat + 256 * a.toNat + 8192 * b.toNat + 262144 * c.toNat)
  | .vor pr a b c => some (4, 41943171 + 536870912 * pr.toNat + 256 * a.toNat + 8192 * b.toNat + 262144 * c.toNat)
  | .vxor pr a b c => some (4, 50331779 + 536870912 * pr.toNat + 256 * a.toNat + 8192 * b.toNat + 262144 * c.toNat)
  | .vshl pr a b c => some (4, 58720387 + 536870912 * pr.toNat + 256 * a.toNat + 8192 * b.toNat + 262144 * c.toNat)
  | .vshr pr a b c => some (4, 67108995 + 536870912 * pr.toNat + 256 * a.toNat + 8192 * b.toNat + 262144 * c.toNat)
  | .vsar pr a b c => some (4, 75497603 + 536870912 * pr.toNat + 256 * a.toNat + 8192 * b.toNat + 262144 * c.toNat)
  | .vmin pr a b c => some (4, 83886211 + 536870912 * pr.toNat + 256 * a.toNat + 8192 * b.toNat + 262144 * c.toNat)
  | .vmax pr a b c => some (4, 92274819 + 536870912 * pr.toNat + 256 * a.toNat + 8192 * b.toNat + 262144 * c.toNat)
  | .vminu pr a b c => some (4, 100663427 + 536870912 * pr.toNat + 256 * a.toNat + 8192 * b.toNat + 262144 * c.toNat)
  | .vmaxu pr a b c => some (4, 109052035 + 536870912 * pr.toNat + 256 * a.toNat + 8192 * b.toNat + 262144 * c.toNat)
  | .vceq pr a b c => some (4, 117440643 + 536870912 * pr.toNat + 256 * a.toNat + 8192 * b.toNat + 262144 * c.toNat)
  | .vclt pr a b c => some (4, 125829251 + 536870912 * pr.toNat + 256 * a.toNat + 8192 * b.toNat + 262144 * c.toNat)
  | .vcltu pr a b c => some (4, 134217859 + 536870912 * pr.toNat + 256 * a.toNat + 8192 * b.toNat + 262144 * c.toNat)
  | .vadds pr a b c => some (4, 142606467 + 536870912 * pr.toNat + 256 * a.toNat + 8192 * b.toNat + 262144 * c.toNat)
  | .vmuls pr a b c => some (4, 150995075 + 536870912 * pr.toNat + 256 * a.toNat + 8192 * b.toNat + 262144 * c.toNat)
  | .viota pr a => some (4, 159383683 + 536870912 * pr.toNat + 256 * a.toNat)
  | .vfadd t pr a b c => some (4, 135 + 268435456 * t.toNat + 536870912 * pr.toNat + 256 * a.toNat + 8192 * b.toNat + 262144 * c.toNat)
  | .vfsub t pr a b c => some (4, 8388743 + 268435456 * t.toNat + 536870912 * pr.toNat + 256 * a.toNat + 8192 * b.toNat + 262144 * c.toNat)
  | .vfmul t pr a b c => some (4, 16777351 + 268435456 * t.toNat + 536870912 * pr.toNat + 256 * a.toNat + 8192 * b.toNat + 262144 * c.toNat)
  | .vfma t pr a b c => some (4, 25165959 + 268435456 * t.toNat + 536870912 * pr.toNat + 256 * a.toNat + 8192 * b.toNat + 262144 * c.toNat)
  | .vfms t pr a b c => some (4, 33554567 + 268435456 * t.toNat + 536870912 * pr.toNat + 256 * a.toNat + 8192 * b.toNat + 262144 * c.toNat)
  | .vfnma t pr a b c => some (4, 41943175 + 268435456 * t.toNat + 536870912 * pr.toNat + 256 * a.toNat + 8192 * b.toNat + 262144 * c.toNat)
  | .vfdiv t pr a b c => some (4, 50331783 + 268435456 * t.toNat + 536870912 * pr.toNat + 256 * a.toNat + 8192 * b.toNat + 262144 * c.toNat)
  | .vfsqrt t pr a b => some (4, 58720391 + 268435456 * t.toNat + 536870912 * pr.toNat + 256 * a.toNat + 8192 * b.toNat)
  | .vfmin t pr a b c => some (4, 67108999 + 268435456 * t.toNat + 536870912 * pr.toNat + 256 * a.toNat + 8192 * b.toNat + 262144 * c.toNat)
  | .vfmax t pr a b c => some (4, 75497607 + 268435456 * t.toNat + 536870912 * pr.toNat + 256 * a.toNat + 8192 * b.toNat + 262144 * c.toNat)
  | .vfabs t pr a b => some (4, 83886215 + 268435456 * t.toNat + 536870912 * pr.toNat + 256 * a.toNat + 8192 * b.toNat)
  | .vfneg t pr a b => some (4, 92274823 + 268435456 * t.toNat + 536870912 * pr.toNat + 256 * a.toNat + 8192 * b.toNat)
  | .vfceq t pr a b c => some (4, 100663431 + 268435456 * t.toNat + 536870912 * pr.toNat + 256 * a.toNat + 8192 * b.toNat + 262144 * c.toNat)
  | .vfclt t pr a b c => some (4, 109052039 + 268435456 * t.toNat + 536870912 * pr.toNat + 256 * a.toNat + 8192 * b.toNat + 262144 * c.toNat)
  | .vfcle t pr a b c => some (4, 117440647 + 268435456 * t.toNat + 536870912 * pr.toNat + 256 * a.toNat + 8192 * b.toNat + 262144 * c.toNat)
  | .vfadds t pr a b c => some (4, 125829255 + 268435456 * t.toNat + 536870912 * pr.toNat + 256 * a.toNat + 8192 * b.toNat + 262144 * c.toNat)
  | .vfmuls t pr a b c => some (4, 134217863 + 268435456 * t.toNat + 536870912 * pr.toNat + 256 * a.toNat + 8192 * b.toNat + 262144 * c.toNat)
  | .vmov pr a b => some (4, 139 + 536870912 * pr.toNat + 256 * a.toNat + 8192 * b.toNat)
  | .vsplat pr a b => some (4, 8388747 + 536870912 * pr.toNat + 256 * a.toNat + 8192 * b.toNat)
  | .vmovs a b i => some (4, 16777355 + 256 * a.toNat + 8192 * b.toNat + 262144 * i.toNat)
  | .vins a b i => some (4, 25165963 + 256 * a.toNat + 8192 * b.toNat + 262144 * i.toNat)
  | .vperm pr a b c => some (4, 33554571 + 536870912 * pr.toNat + 256 * a.toNat + 8192 * b.toNat + 262144 * c.toNat)
  | .vslideup pr a b c => some (4, 41943179 + 536870912 * pr.toNat + 256 * a.toNat + 8192 * b.toNat + 262144 * c.toNat)
  | .vslidedn pr a b c => some (4, 50331787 + 536870912 * pr.toNat + 256 * a.toNat + 8192 * b.toNat + 262144 * c.toNat)
  | .vsel pr a b c => some (4, 58720395 + 536870912 * pr.toNat + 256 * a.toNat + 8192 * b.toNat + 262144 * c.toNat)
  | .vcompress pr a b => some (4, 67109003 + 536870912 * pr.toNat + 256 * a.toNat + 8192 * b.toNat)
  | .vexpand pr a b => some (4, 75497611 + 536870912 * pr.toNat + 256 * a.toNat + 8192 * b.toNat)
  | .vredadd pr a b => some (4, 83886219 + 536870912 * pr.toNat + 256 * a.toNat + 8192 * b.toNat)
  | .vfredsum t pr a b => some (4, 92274827 + 268435456 * t.toNat + 536870912 * pr.toNat + 256 * a.toNat + 8192 * b.toNat)
  | .vfredmax pr a b => some (4, 100663435 + 536870912 * pr.toNat + 256 * a.toNat + 8192 * b.toNat)
  | .vfdot t pr a b c => some (4, 109052043 + 268435456 * t.toNat + 536870912 * pr.toNat + 256 * a.toNat + 8192 * b.toNat + 262144 * c.toNat)
  | .vprune a b m => some (4, 117440651 + 256 * a.toNat + 8192 * b.toNat + 262144 * m.toNat)
  | .vld pr a b c => some (4, 143 + 536870912 * pr.toNat + 256 * a.toNat + 8192 * b.toNat + 262144 * c.toNat)
  | .vst pr a b c => some (4, 8388751 + 536870912 * pr.toNat + 256 * a.toNat + 8192 * b.toNat + 262144 * c.toNat)
  | .vldk pr a b c => some (4, 16777359 + 536870912 * pr.toNat + 256 * a.toNat + 8192 * b.toNat + 262144 * c.toNat)
  | .vstk pr a b c => some (4, 25165967 + 536870912 * pr.toNat + 256 * a.toNat + 8192 * b.toNat + 262144 * c.toNat)
  | .vgath pr a b c => some (4, 33554575 + 536870912 * pr.toNat + 256 * a.toNat + 8192 * b.toNat + 262144 * c.toNat)
  | .vscat pr a b c => some (4, 41943183 + 536870912 * pr.toNat + 256 * a.toNat + 8192 * b.toNat + 262144 * c.toNat)
  | .vstb pr a b => some (4, 50331791 + 536870912 * pr.toNat + 256 * a.toNat + 8192 * b.toNat)
  | .vcvtwf t pr a b => some (4, 147 + 268435456 * t.toNat + 536870912 * pr.toNat + 256 * a.toNat + 8192 * b.toNat)
  | .vcvtfw t pr a b => some (4, 8388755 + 268435456 * t.toNat + 536870912 * pr.toNat + 256 * a.toNat + 8192 * b.toNat)
  | .vcvtfd pr a b => some (4, 16777363 + 536870912 * pr.toNat + 256 * a.toNat + 8192 * b.toNat)
  | .vcvtdf pr a b => some (4, 25165971 + 536870912 * pr.toNat + 256 * a.toNat + 8192 * b.toNat)
  | .vxacc t pr a b => some (4, 33554579 + 268435456 * t.toNat + 536870912 * pr.toNat + 256 * a.toNat + 8192 * b.toNat)
  | .vxrnd t pr a b => some (4, 41943187 + 268435456 * t.toNat + 536870912 * pr.toNat + 256 * a.toNat + 8192 * b.toNat)
  | .pand a b c => some (4, 151 + 256 * a.toNat + 8192 * b.toNat + 262144 * c.toNat)
  | .por a b c => some (4, 8388759 + 256 * a.toNat + 8192 * b.toNat + 262144 * c.toNat)
  | .pxor a b c => some (4, 16777367 + 256 * a.toNat + 8192 * b.toNat + 262144 * c.toNat)
  | .pnot a b => some (4, 25165975 + 256 * a.toNat + 8192 * b.toNat)
  | .pset a b => some (4, 33554583 + 256 * a.toNat + 8192 * b.toNat)
  | .pmov a b => some (4, 41943191 + 256 * a.toNat + 8192 * b.toNat)
  | .pget a b => some (4, 50331799 + 256 * a.toNat + 8192 * b.toNat)
  | .pcnt a b => some (4, 58720407 + 256 * a.toNat + 8192 * b.toNat)
  | .pfirst a b => some (4, 67109015 + 256 * a.toNat + 8192 * b.toNat)
  | .mlease nw a n => some (4, 163 + 268435456 * nw.toNat + 256 * a.toNat + 262144 * n.toNat)
  | .mrelease => some (4, 8388771)
  | .mldb b => some (4, 16777379 + 8192 * b.toNat)
  | .mbmeta b => some (4, 25165987 + 8192 * b.toNat)
  | .mma g t b => some (4, 33554595 + 268435456 * g.toNat + 256 * t.toNat + 8192 * b.toNat)
  | .mmacode t b => some (4, 41943203 + 256 * t.toNat + 8192 * b.toNat)
  | .mzero t => some (4, 50331811 + 256 * t.toNat)
  | .mdrain t b => some (4, 58720419 + 256 * t.toNat + 8192 * b.toNat)
  | .mstat a => some (4, 67109027 + 256 * a.toNat)
  | .lxcfg a b c => some (4, 167 + 256 * a.toNat + 8192 * b.toNat + 262144 * c.toNat)
  | .lxput a b c => some (4, 8388775 + 256 * a.toNat + 8192 * b.toNat + 262144 * c.toNat)
  | .lxget a b c => some (4, 16777383 + 256 * a.toNat + 8192 * b.toNat + 262144 * c.toNat)
  | .lxver a b => some (4, 25165991 + 256 * a.toNat + 8192 * b.toNat)
  | .lxenc a b c => some (4, 33554599 + 256 * a.toNat + 8192 * b.toNat + 262144 * c.toNat)
  | .lxsend sc a b c => some (4, 41943207 + 268435456 * sc.code + 256 * a.toNat + 8192 * b.toNat + 262144 * c.toNat)
  | .lxdec a b c => some (4, 50331815 + 256 * a.toNat + 8192 * b.toNat + 262144 * c.toNat)
  | .lxmiss take a b => some (4, 58720423 + 268435456 * take.toNat + 256 * a.toNat + 8192 * b.toNat)
  | .lxretry b => some (4, 67109031 + 8192 * b.toNat)
  | .glset a b c => some (4, 75497639 + 256 * a.toNat + 8192 * b.toNat + 262144 * c.toNat)
  | .glinv b c => some (4, 83886247 + 8192 * b.toNat + 262144 * c.toNat)
  | .glstat a b => some (4, 92274855 + 256 * a.toNat + 8192 * b.toNat)
  | .ecdecl t => some (4, 171 + 256 * t.toNat)
  | .ecsweep t => some (4, 8388779 + 256 * t.toNat)
  | .ecwake t b c => some (4, 16777387 + 256 * t.toNat + 8192 * b.toNat + 262144 * c.toNat)
  | .ecstat a t => some (4, 25165995 + 256 * a.toNat + 262144 * t.toNat)
  | .ecstop t => some (4, 33554603 + 256 * t.toNat)
  | .ecread a b t => some (4, 41943211 + 256 * a.toNat + 8192 * b.toNat + 262144 * t.toNat)
  | .sgcfg a b => some (4, 179 + 256 * a.toNat + 8192 * b.toNat)
  | .sgzero i b => some (4, 8388787 + 256 * i.toNat + 8192 * b.toNat)
  | .sgstep i b => some (4, 16777395 + 256 * i.toNat + 8192 * b.toNat)
  | .sgjoin i j k => some (4, 25166003 + 256 * i.toNat + 8192 * j.toNat + 262144 * k.toNat)
  | .sglog i j => some (4, 33554611 + 256 * i.toNat + 8192 * j.toNat)
  | .sgld i b => some (4, 41943219 + 256 * i.toNat + 8192 * b.toNat)
  | .sgst i b => some (4, 50331827 + 256 * i.toNat + 8192 * b.toNat)
  | .sgtag i b c => some (4, 58720435 + 256 * i.toNat + 8192 * b.toNat + 262144 * c.toNat)
  | .cMov a b => some (2, 4 + 64 * a.toNat + 2048 * b.toNat)
  | .cAdd a b => some (2, 8 + 64 * a.toNat + 2048 * b.toNat)
  | .cSub a b => some (2, 12 + 64 * a.toNat + 2048 * b.toNat)
  | .cAnd a b => some (2, 16 + 64 * a.toNat + 2048 * b.toNat)
  | .cOr a b => some (2, 20 + 64 * a.toNat + 2048 * b.toNat)
  | .cXor a b => some (2, 24 + 64 * a.toNat + 2048 * b.toNat)
  | .cAddi a n => some (2, 28 + 64 * a.toNat + 2048 * n.toNat)
  | .cLi a n => some (2, 32 + 64 * a.toNat + 2048 * n.toNat)
  | .cShli a n => some (2, 36 + 64 * a.toNat + 2048 * n.toNat)
  | .cShri a n => some (2, 40 + 64 * a.toNat + 2048 * n.toNat)
  | .cSari a n => some (2, 44 + 64 * a.toNat + 2048 * n.toNat)
  | .cNop => some (2, 48)
  | .cEndh => some (2, 52)
  | .cQpop a q => some (2, 56 + 64 * a.toNat + 2048 * q.toNat)
  | .cQpush q b => some (2, 60 + 64 * q.toNat + 2048 * b.toNat)
  | .cLdd a n => some (2, 2 + 64 * a.toNat + 2048 * n.toNat)
  | .cStd a n => some (2, 6 + 64 * a.toNat + 2048 * n.toNat)
  | .cLdw a n => some (2, 10 + 64 * a.toNat + 2048 * n.toNat)
  | .cStw a n => some (2, 14 + 64 * a.toNat + 2048 * n.toNat)
  | .cLddr a b => some (2, 18 + 64 * a.toNat + 2048 * b.toNat)
  | .cStdr a b => some (2, 22 + 64 * a.toNat + 2048 * b.toNat)
  | .cBeqz a n => some (2, 26 + 64 * a.toNat + 2048 * n.toNat)
  | .cBnez a n => some (2, 30 + 64 * a.toNat + 2048 * n.toNat)
  | .cJ n => some (2, 34 + 64 * (n.toNat / 32) + 2048 * (n.toNat % 32))
  | .cJr a => some (2, 38 + 64 * a.toNat)
  | .cJalr a => some (2, 42 + 64 * a.toNat)
  | .cVmov a b => some (2, 46 + 64 * a.toNat + 2048 * b.toNat)
  | .powerOn => none
  | .startupStageComplete _ _ => none
  | .faccWrite _ _ => none
  | .modnumWrite _ => none
  | .ctxtabWrite _ => none
  | .cpgoRead _ => none
  | .ringPacketArrival _ => none
  | .moduleLinkReceive _ _ _ => none
  | .linkGroupResend _ => none
  | .passWithhold => none
  | .partFailure _ => none
  | .scrubLine _ _ => none
  | .noticeDelivery => none
  | .msixVector _ _ => none
  | .portRequest _ => none
  | .hostMessageArrival _ => none
  | .launchRequest _ => none
  | .launchJournaled _ => none
  | .consumeConfirmation _ _ => none
  | .activationMessageGenerate _ _ => none
  | .eventMirrorUpdate _ _ => none
  | .messageArrival _ => none
  | .missQueueResend _ => none
  | .versionMissStart _ => none
  | .messageAcceptanceNotice _ => none
  | .messageCopyResend _ => none
  | .activationStart _ => none
  | .preemption _ => none
  | .messageAging _ _ => none
  | .switchComplete _ => none
  | .streamInComplete _ => none
  | .streamOutComplete _ => none
  | .fuseTimeout _ => none
  | .migrationComplete _ _ => none
  | .donationLimit _ => none
  | .engineUpcallStart _ => none
  | .pageWalk _ _ _ => none
  | .walkMigratingReread _ => none
  | .walkMigratingTimeout _ => none
  | .readLineExpire _ _ => none
  | .memoryAccessPerform _ => none
  | .loadReplyArrival _ => none
  | .remoteStoreArrival _ => none
  | .orderedFlagArrival _ => none
  | .countPacketSend _ _ => none
  | .remoteNackResend _ => none
  | .storeAcknowledgement _ => none
  | .atomicPerform _ => none
  | .twoAddressAtomicPerform _ => none
  | .channelWordArrival _ => none
  | .mleaseGrant _ => none
  | .leaseTurn _ => none
  | .tileMoveComplete _ => none
  | .leaseForfeit _ => none
  | .matrixCommandRun _ => none
  | .drainSizeReply _ => none
  | .drainWriteArrival _ => none
  | .copyTransferComplete _ _ => none
  | .copyPromiseExpire _ _ => none
  | .copyCancelStop _ _ => none
  | .collectiveStepRun _ _ => none
  | .collectiveStepArrival _ => none
  | .collectiveAbortNotice _ => none
  | .sweepBeat _ => none
  | .remoteChangeArrival _ => none
  | .valueWriteArrival _ => none
  | .signatureLeaseGrant _ => none
  | .signatureCommandRun _ => none
  | .evwaitTimeout _ => none
  | .mwaitTimeout _ => none
  | .wfeTimeout _ => none
  | .sleepExpire _ => none
  | .withheldPassesIssued => none
  | .meshPacketArrival _ => none
  | .invalidationComplete _ => none
  | .eventVectorHomeMove _ => none
  | .coreRemoval _ _ => none
  | .reservedEncoding _ => none
  | .instructionFetchFault _ _ => none

/-- The instruction word, zero-extended, as CR.TVAL holds it (R120, R280). -/
def Instr.tval (i : Instr) : Word :=
  match encode i with
  | some (_, w) => BitVec.ofNat 64 w
  | none => 0

/-- The bytes of an encoded instruction in ascending addresses (R270). -/
def encodeBytes (i : Instr) : List Byte :=
  match encode i with
  | some (n, w) => leBytes n w
  | none => []

/-- The element word's fields within their limits, for plen = `plen` (R281, R402). -/
def decodeEl (plen w : Nat) : Option ElInstr :=
  let a := w / 256 % 32
  let b := w / 8192 % 32
  let c := w / 262144 % 32
  let tg := b * 32 + c
  let tgOk := b < 2 ∧ tg ≤ plen
  if w % 256 ≠ 0xAF ∨ w / 268435456 ≠ 0 then none
  else match w / 8388608 % 32 with
    | 0 => if a ≤ 4 ∧ tgOk then some (.wait a tg) else none
    | 1 => if a = 0 ∧ b = 0 ∧ c = 0 then some .done else none
    | 2 => if a < 8 ∧ b = 0 ∧ c = 0 then some (.ldv a) else none
    | 3 => if a < 8 ∧ b = 0 ∧ c = 0 then some (.stv a) else none
    | 4 => if a < 8 ∧ b = 0 ∧ c = 0 then some (.ldx a) else none
    | 5 => if a < 8 ∧ b < 8 ∧ c < 8 then some (.add a b c) else none
    | 6 => if a < 8 ∧ b < 8 ∧ c < 8 then some (.fma a b c) else none
    | 7 => if a < 8 ∧ b < 8 ∧ c < 8 then some (.div a b c) else none
    | 8 => if a < 8 ∧ b = 0 ∧ c ≤ 1 then some (.spdot a (c == 1)) else none
    | 9 => if a = 0 ∧ b = 0 ∧ c ≤ 2 then some (.notify c) else none
    | 10 => if a < 8 ∧ tgOk then some (.bz a tg) else none
    | 11 => if a = 0 ∧ tgOk then some (.jmp tg) else none
    | 12 => if a < 8 ∧ b = 0 ∧ c = 0 then some (.send a) else none
    | _ => none

end Sys2Proof
end

