-- ==== Sys2Proof/Machine/State.lean ====
section
/-!
DEFINITION. Machine/State.lean: the state of one Falyon F9 module, as plain data, and the state right after reset.
Sparse parts are tables: association lists with strictly rising keys, read through the operations of Ops.lean.
-/

namespace Sys2Proof.Machine

/-- A sparse table: a list of (key, value) pairs with strictly rising keys. -/
abbrev Tab (α : Type) := List (Nat × α)

/-- A context's 256-bit event vector (R53, R55). -/
abbrev EvVec := BitVec 256

/-- What stops the machine. -/
inductive Fault where
  /-- An instruction is asked of a core that runs no activation, so there is no register file to run it on. Raised by every
  instruction's meaning; never by `step`, which issues only on a live activation. Safe. -/
  | noActivation
  /-- Start-up stopped under R33 (MODSTATE.halt = 1): the controller answers only over the boot flash interface. Raised by
  `step`. Safe. -/
  | halted
  deriving DecidableEq, Repr

/-- What the model gives no meaning. -/
inductive Refusal where
  /-- An instruction whose meaning is not written. Raised by `exec`. Safe. -/
  | notModelled (mnemonic : String)
  deriving DecidableEq, Repr

/-! ### The activation -/

/-- The control registers of one activation (R123, R100, R163). -/
structure ActCR where
  wid : Word
  wshape : Word
  msgsrc : Word
  msglen : Word
  fflags : Word
  tcause : Word
  tval : Word
  tpc : Word
  tstat : Word
  xfer : Word
  pathcnt : Word
  slot : Word
  deriving DecidableEq, Repr

/-- A blocked instruction (R78, R104): the instruction at pc is issued again until it completes. -/
structure Wait where
  /-- R104's wait code; 0 for a stall that R104 gives none. -/
  kind : Nat
  /-- CR.CYC when the instruction was first issued. -/
  start : Nat
  /-- R104's wait word 1. -/
  operand : Word
  /-- How far a many-stage instruction has come. -/
  stage : Nat
  /-- An event the wait listens for has come. -/
  woke : Bool
  /-- A setter disarmed since the last DEADWAIT check (R71). -/
  recheck : Bool
  /-- The activation was switched out since the instruction was issued. -/
  out : Bool
  /-- What an event has brought: a status or a loaded value. -/
  reply : Option Word
  /-- The bytes a request has brought. -/
  bytes : List Byte
  /-- The requests or packets the instruction still waits for. -/
  tags : List Nat
  /-- The virtual address that each request to another module's memory is for (R129); of a gather-window read, the index words whose
  loads have begun, by element (R228); of a two-address atomic, those of its two locations, in the order of `locs`. -/
  vas : List (Nat × Word)
  /-- The two locations of a two-address atomic that reaches another module, in the order in which they are locked: module and
  location (R165). Of a store of several parts, those that other modules have been asked about. -/
  locs : List (Option Nat × Nat)
  /-- A trap of the instruction at pc that waits for its fibre record's page (R116, R144): cause, CR.TVAL, and whether it split a
  phrase. -/
  trap : Option (Cause × Word × Bool)
  /-- The addresses of the parts of a load, or of the locations of a two-address atomic, that another module or a lost line has
  refused (R129, R50). -/
  refused : List Word
  deriving DecidableEq, Repr

/-- A 64-byte line of global memory held in the read-line buffer or the fetch buffer (R151, R282), by its key: `lineKey`. -/
structure LineBuf where
  line : Nat
  bytes : List Byte
  filled : Nat
  deriving DecidableEq, Repr

/-- One activation (R93, R98, R104). -/
structure Act where
  s : Vector Word 32
  v : Vector VReg 32
  p : Vector (BitVec 16) 8
  e : Vector Word 8
  pc : Word
  qin : List Word
  qout : List Word
  priv : Bool
  upcall : Bool
  cr : ActCR
  wait : Option Wait
  /-- The launch it belongs to, and whether it has triggered (R67). -/
  work : Option LaunchRef
  triggered : Bool
  /-- Read-line buffer of 8 lines, oldest first (R151). -/
  rlb : List LineBuf
  /-- Fetch buffer of 32 lines, oldest first (R282). -/
  fetch : List LineBuf
  /-- The first five message words, for the error records of R48. -/
  msg5 : List Word
  /-- The full core a migrated activation runs on (R86, R87). -/
  runsOn : Option Nat
  /-- The effective priority of the message that started it, for MWAIT (R361). -/
  startPrio : Nat
  /-- Its number as an agent (R147). -/
  serial : Nat
  deriving DecidableEq, Repr

/-- The control registers held per context per core (R123, R443). -/
structure CtxRegs where
  part : Word
  upcall : Word
  fibre : Word
  freel : Word
  wscale : Word
  wef : Word
  x128l : Word
  mswz : Word
  lxstop : Word
  lxesc : Word
  lxkmax : Word
  lxfmt : Word
  lxmissh : Word
  cpsrc : Word
  cpdst : Word
  cplen : Word
  cpstr : Word
  cpflags : Word
  cphnd : Word
  cpswz : Word
  trace : Word
  traceptr : Word
  deriving DecidableEq, Repr

/-- The values a core loads from the context entry (R40, R104). -/
structure CtxEntry where
  ctxgen : Word
  asid : Word
  ptroot : Word
  pmask : Word
  cmapb : Word
  cmapn : Word
  hlo : Word
  hhi : Word
  evtmo : Word
  donate : Word
  lease : Word
  migok : Word
  prio : Nat
  regions : Vector Word 16
  deriving DecidableEq, Repr

/-- A gather binding (R114, R228). -/
structure Bind where
  idx : Word
  base : Word
  size : Nat
  count : Nat
  deriving DecidableEq, Repr

/-- A held ordered flag or count packet (R160). -/
structure HeldFlag where
  packet : Packet
  deriving DecidableEq, Repr

/-- A park-map entry (R106): the lease's tile index and its passes; `moved` says whether data was moved (R219). -/
structure ParkEntry where
  tile : Nat
  passes : Nat
  deriving DecidableEq, Repr

/-- A declared tensor descriptor of the parser (R246, R253, R401). -/
structure Desc where
  e0 : Word
  e1 : Word
  e2 : Word
  e3 : Word
  prog : List ElInstr
  sweeps : Nat
  endCode : Nat
  /-- The sweep has ended but for the writes it sent to other cores, which its end releases (R253, R154). -/
  ending : Bool
  under : Bool
  active : Bool
  asleep : Bool
  stopping : Bool
  beat : Nat
  ran : Bool
  /-- A change fell on a beat that the running sweep had already read (R250). -/
  missed : Bool
  deriving DecidableEq, Repr

/-- What stays with an activation whose frame is streamed out and has no place in R104's layout. DESIGN CHOICE, log 59: safe. -/
structure Residue where
  wait : Option Wait
  work : Option LaunchRef
  triggered : Bool
  msg5 : List Word
  startPrio : Nat
  serial : Nat
  deriving DecidableEq, Repr

/-- What a context holds on one core outside its frame (R103), with the registers and entry values of its frame. -/
structure CtxCore where
  regs : CtxRegs
  entry : CtxEntry
  /-- Words readable from q3, oldest first (R97). -/
  q3 : List Word
  binds : Tab Bind
  /-- Arrival table: by source node, four counts (R160). -/
  arrivals : List (Node × List Nat)
  heldFlags : List HeldFlag
  parkMap : Tab ParkEntry
  descs : Tab Desc
  /-- Remote changes dropped, by descriptor number (R251). -/
  drops : Tab Nat
  /-- CR.PART of the allotment in which they are counted (R251). -/
  dropsAt : Option Word
  /-- A watch entry of the activation was evicted, and no MWAIT has returned since (R360, R361). -/
  watchLost : Bool
  residue : Option Residue
  deriving DecidableEq, Repr

/-- A context in a slot: its activation, if one is live (R79). -/
structure Frame where
  ctx : Nat
  act : Option Act
  deriving DecidableEq, Repr

/-- How a waiting message starts its activation. -/
inductive StartKind where
  /-- by its handler address (R99). -/
  | message
  /-- an engine upcall: tag, cause, address (R138). -/
  | engine (tag cause va : Word)
  /-- a copy's completion upcall at a handler: transfer id (R225). -/
  | copyDone (handler : Word) (id : Nat)
  /-- a version miss of a miss-queue entry (R242). -/
  | versionMiss (entry : Nat)
  /-- a fibre record to resume (R369): its address, the module if another's, the location and the bytes read. -/
  | fibre (record : Word) (rmod : Option Nat) (loc : Nat) (bytes : List Byte)
  /-- a trap's upcall: FIBRE, the saved s30, and the trap values TCAUSE, TVAL, TPC, TSTAT (R119). -/
  | trapped (fibre s30 tcause tval tpc tstat : Word)
  deriving DecidableEq, Repr

/-- A message waiting at a core (R73, R74). -/
structure Msg where
  id : Nat
  ctx : Nat
  words : List Word
  origin : Nat
  mprio : Nat
  nosrc : Bool
  src : Nat
  wid : Word
  wshape : Word
  work : Option LaunchRef
  start : StartKind
  /-- Levels gained by age and the cycle the last one is counted from (R77). -/
  aged : Nat
  since : Nat
  /-- The sender and its sequence number, for acceptance (R46). -/
  sender : Option (Node × Nat)
  deriving DecidableEq, Repr

/-- A watch entry (R360). -/
structure Watch where
  ctx : Nat
  line : Nat
  woken : Bool
  deriving DecidableEq, Repr

/-- A sending-table entry (R159, R161). -/
structure SendEntry where
  dst : Node
  ctx : Nat
  counts : List Nat
  used : Nat
  /-- Packets numbered from here on are counted in the entry. -/
  since : Nat
  deriving DecidableEq, Repr

/-- A translation buffer entry: a leaf (R134, R140). -/
structure TlbEntry where
  asid : Nat
  lvl : Nat
  vpage : Nat
  w0 : Word
  w1 : Word
  entryPa : Nat
  deriving DecidableEq, Repr

/-- A phrase (R82-R85): the block of cores, those that have finished the current instruction, the next pc, and its context. -/
structure Phrase where
  members : List Nat
  done : List Nat
  target : Option Word
  ctx : Nat
  deriving DecidableEq, Repr

/-- A FUSE that waits for its members (R82). -/
structure FuseWait where
  n : Nat
  ctx : Nat
  start : Nat
  deriving DecidableEq, Repr

/-- A donation in progress (R88). -/
structure Donation where
  waiter : Nat
  holder : Nat
  phaser : Word
  start : Nat
  deriving DecidableEq, Repr

/-- A message a core has sent and whose acceptance has not returned (R46). -/
structure Unacked where
  seq : Nat
  dst : Node
  packet : Packet
  deriving DecidableEq, Repr

/-- A compute core or application core; each has a CR.TVEC of its own. DESIGN CHOICE, log 73: unsafe. -/
structure Core where
  active : Option Frame
  shadow : Option Frame
  streaming : Option Frame
  /-- The active and shadow slots are exchanging (R79). -/
  switching : Bool
  /-- The context whose frame is being loaded, and whether the streaming slot is being stored (R79). -/
  streamIn : Option Nat
  streamOut : Bool
  /-- The context the core is to switch to once it is in the shadow slot (R75, R88, R318). -/
  goal : Option Nat
  /-- Contexts whose frame was refused (R102). -/
  refused : List Nat
  /-- Migrated activations of this home core (R87). -/
  away : List Frame
  /-- The contexts being migrated (R86). -/
  migrating : List Nat
  waiting : List Msg
  /-- Contexts that held the active slot, most recent first (R76). -/
  recency : List Nat
  ctxs : Tab CtxCore
  /-- Watch table, least recently armed first (R360). -/
  watch : List Watch
  sendTab : List SendEntry
  tlb : List TlbEntry
  saveb : Word
  tvec : Word
  /-- Quiesced for removal, and the successor (R90). -/
  quiesced : Bool
  successor : Option Nat
  phrase : Option Phrase
  fuse : Option FuseWait
  donation : Option Donation
  unacked : List Unacked
  /-- The sequence number of the last message taken from each source, by the core it was sent to (R46). -/
  lastSeq : List (Node × Node × Nat)
  hostq : List Msg
  msgIrq : Bool
  /-- Parser: descriptors that need a sweep, first the one that runs (R255). -/
  rotation : List (Nat × Nat)
  deriving DecidableEq, Repr

/-! ### The clause -/

/-- A translation fault that holds an engine job (R138). -/
structure Held where
  cause : Cause
  va : Word
  deriving DecidableEq, Repr

/-- A matrix command with its sampled operands (R375, R291). -/
inductive MatCmd where
  | mldb (src e0 : Word)
  | mbmeta (mask : VReg)
  | mma (t : Nat) (addr e0 e1 : Word) (g : Nat)
  | mmacode (t : Nat) (addr e0 : Word)
  | mzero (t : Nat)
  | mdrain (t : Nat) (dest e0 e1 e2 : Word)
  deriving DecidableEq, Repr

/-- Where a lease tile stands (R217, R219). -/
inductive TilePlace where
  | unassigned
  | phys (t : Nat)
  | parked (p : Nat)
  deriving DecidableEq, Repr

/-- A matrix lease (R217-R220). -/
structure Lease where
  core : Nat
  ctx : Nat
  places : List TilePlace
  passes : List Nat
  mask : VReg
  queue : List MatCmd
  /-- Commands issued in the current turn. -/
  turn : Nat
  waitSince : Nat
  lastCurrent : Nat
  out : Bool
  /-- Its context has left the active slot: so many of its queued commands are to finish before it is forfeited (R220). -/
  forfeit : Option Nat
  held : Option Held
  /-- A checked command of the issuing activation: the engine has taken it (R375). -/
  taken : Bool
  /-- How many blocks of the MLDB at the head of the queue have been stored (R138). -/
  progress : Nat
  deriving DecidableEq, Repr

/-- An activation waiting for a free lease-table entry (R377). -/
structure LeaseReq where
  core : Nat
  ctx : Nat
  tiles : Nat
  deriving DecidableEq, Repr

/-- A copy or sort in flight (R223-R227). -/
structure CopyJob where
  id : Nat
  core : Nat
  ctx : Nat
  regs : List Word
  /-- CPSORT's b. -/
  sort : Option Nat
  promise : Nat
  /-- The next piece to move. -/
  progress : Nat
  held : Option Held
  cancel : Bool
  /-- Its mailbox store has been made; the transfer ends once that is performed (R225, R154). -/
  mailed : Bool
  deriving DecidableEq, Repr

/-- A collective program in flight (R229-R233). -/
structure Coll where
  handle : Nat
  core : Nat
  ctx : Nat
  words : List Word
  step : Nat
  counters : List Nat
  /-- Packets sent to, and received from, each rank's core, for the sequence number of R232. -/
  sent : Tab Nat
  rcvd : Tab Nat
  /-- Step packets buffered: sender's node, check word, bytes. -/
  inbox : List (Nat × Nat × List Byte)
  /-- The current exchange's local elements were already sent. -/
  sentStep : Bool
  status : Nat
  held : Option Held
  /-- It has ended or is aborted with this status, and its mailbox store is still to be made (R232, R233). -/
  ending : Option Nat
  /-- That store has been made; the program goes once it is performed (R233, R154). -/
  mailed : Bool
  /-- The node whose step the current RECV or RRS is taking, and the bytes of that step (R231). -/
  awaits : Option (Nat × Nat)
  /-- The rank of another module whose step mismatched, which the abort notice tells so (R232). -/
  blame : Option Node
  /-- What the step in progress has stored over, by address, for an abort (R232). -/
  undo : List (Word × List Byte)
  deriving DecidableEq, Repr

/-- One physical signature slot (R256, R258): entries not listed are 0. -/
structure SigSlot where
  startTag : BitVec 32
  endTag : BitVec 32
  entries : Tab Lane
  deriving DecidableEq, Repr

/-- A queued signature command (R405). -/
inductive SigCmd where
  | zero (i : Nat) (tag : BitVec 32)
  | step (i : Nat) (delta : VReg)
  | log (i j : Nat)
  | tag (i : Nat) (s e : BitVec 32)
  | join (i j k : Nat)
  deriving DecidableEq, Repr

/-- A signature lease (R257). -/
structure SigLease where
  core : Nat
  ctx : Nat
  d : Nat
  n : Nat
  slots : List Nat
  queue : List SigCmd
  turn : Nat
  waitSince : Nat
  deriving DecidableEq, Repr

/-- A waiting SGCFG (R257). -/
structure SigReq where
  core : Nat
  ctx : Nat
  d : Nat
  n : Nat
  k : Nat
  deriving DecidableEq, Repr

/-- A lexicon slot (R234, R235): atoms, norms, generations and Gram entries not listed are 0. `base` is the first of its 64 KiB
units in the clause's lexicon store. -/
structure LexSlot where
  ctx : Nat
  id : Nat
  base : Nat
  version : Nat
  n : Nat
  s : Nat
  atoms : Tab (BitVec 16)
  norms : Tab Lane
  gens : Tab Nat
  gram : Tab Lane
  deriving DecidableEq, Repr

/-- Lines [lo, hi) of a clause's lexicon store that a context has written last (R49). -/
structure LexTag where
  lo : Nat
  hi : Nat
  ctx : Nat
  deriving DecidableEq, Repr

/-- A gloss table (R244). -/
structure Gloss where
  ctx : Nat
  id : Nat
  b : Nat
  j0 : Nat
  m : Nat
  n : Nat
  valid : List Nat
  deriving DecidableEq, Repr

/-- A parked code message (R241, R242). -/
structure MissEntry where
  core : Nat
  msg : Msg
  order : Nat
  /-- A version-miss activation has been started for it as the oldest of its key. -/
  started : Bool
  /-- Bits [63:0] of its packet's header flit, for a notice (R43). -/
  header : Word
  deriving DecidableEq, Repr

/-- A clause. -/
structure Clause where
  leases : List Lease
  leaseReqs : List LeaseReq
  current : Option (Nat × Nat)
  /-- Physical tiles, by tile: entries 128·column + row that are not +0 (R212). -/
  tiles : Tab (Tab A48)
  /-- Tile moves in progress (R219). -/
  moves : Nat
  copies : List CopyJob
  /-- Transfers started so far, and completed ids with that count at their completion; cancelled ids (R363). -/
  copySeq : Nat
  copyDone : List (Nat × Nat)
  cancelled : List (Nat × Nat)
  colls : List Coll
  sigSlots : Tab SigSlot
  sigLeases : List SigLease
  sigReqs : List SigReq
  sigCurrent : Option (Nat × Nat)
  lexicon : List LexSlot
  /-- Owner tags of the lexicon store, the latest write first (R49). -/
  lexTags : List LexTag
  glosses : Tab Gloss
  missQueue : Tab MissEntry
  tlb : List TlbEntry
  deriving DecidableEq, Repr

/-! ### The die and the module -/

/-- A phaser member's mode (R353). -/
inductive PhMode where
  | sig | wait | sigWait
  deriving DecidableEq, Repr

/-- A phaser member: a context and its home core (R355). `next` is a mode change, or a drop, due at the phase boundary. -/
structure PhMember where
  ctx : Nat
  core : Nat
  mode : PhMode
  /-- The member is in effect (a registration takes effect at the next boundary). -/
  live : Bool
  next : Option PhMode
  dropping : Bool
  /-- The phase last signalled (R356). -/
  psig : Option (BitVec 32)
  /-- Blocked in PHWAIT or PHSW on this phaser (R357). -/
  blocked : Bool
  deriving DecidableEq, Repr

/-- A phaser (R354). -/
structure Phaser where
  gen : Nat
  free : Bool
  ctx : Nat
  counter : BitVec 32
  members : List PhMember
  deriving DecidableEq, Repr

/-- A LAUNCH at its launch unit, before the unit has read the context entry (R61). -/
structure LaunchReq where
  agent : AgentId
  ctx : Nat
  hlo : Word
  hhi : Word
  words : List Word
  deriving DecidableEq, Repr

/-- How far a launch has come (R45, R61-R63). -/
inductive LaunchStage where
  | journaling
  | queued
  /-- a CONSUME launch that waits for the home's confirmation. -/
  | confirming
  /-- released: index of the next activation message. -/
  | generating (next : Nat)
  | retired
  deriving DecidableEq, Repr

/-- A launch and its journal entry (R45, R57). -/
structure Launch where
  die : Nat
  seq : Nat
  agent : AgentId
  ctx : Nat
  words : List Word
  /-- The clause list of R64 with the eligible cores of R65, as they stood at acceptance. -/
  deal : List (Nat × List Nat)
  stage : LaunchStage
  /-- The two HBM stacks of different compute dies that hold its journal entry (R45). -/
  journal : List Nat
  /-- Journal states 1, 2, 3 by activation; 0 not listed (R45). -/
  states : Tab Nat
  /-- The work indices recorded in the fault queue or triggered (R67). -/
  triggered : List Nat
  deriving DecidableEq, Repr

/-- A compute die. -/
structure Die where
  requests : List LaunchReq
  /-- Mirrors of event vectors by context (R55). -/
  mirrors : Tab EvVec
  phasers : Tab Phaser
  deriving DecidableEq, Repr

/-- What a memory request does at its home port. -/
inductive ReqOp where
  | load
  | store
  | atomic (op : AtomOp) (wide : Bool) (b e0 : Word)
  /-- ADCAS: expected values and new values. -/
  | adcas (wide : Bool) (e1 e2 nx ny : Word)
  | amove (wide : Bool) (vacated : Word)
  deriving DecidableEq, Repr

/-- An access in flight to its home port (R148, R150): pieces of (location, size, bytes to store), done pieces' bytes. -/
structure MemReq where
  agent : AgentId
  ctx : Nat
  op : ReqOp
  pieces : List (Nat × Nat × List Byte)
  result : List Byte
  performed : Bool
  /-- A line of it was lost when its port came to it (R50, R51). -/
  lost : Bool
  deriving DecidableEq, Repr

/-- A walk that waits: on M = 1 (R144), or for a free walker (R135). `unit` modulo 16 is 0 for an activation, 8 for its fetches, 1-6 for
the engine units of R138, 7 for a port, 9 for an error record; the quotient tells the jobs of one unit apart. -/
structure Walk where
  agent : AgentId
  unit : Nat
  va : Nat
  entryPa : Nat
  start : Nat
  /-- 0 waiting, 1 read M = 0, 2 timed out, 3 waiting for a free walker. -/
  st : Nat
  /-- Whose walker: a clause, 1,024 + a port, or 2,048 for application cores. -/
  pool : Nat
  deriving DecidableEq, Repr

/-- What an access of an agent to another module's memory or another core's scratchpad, or an access before a fault, has come to
(R129, R138, R225): a read's bytes, none while its answer is awaited; a store's are empty. -/
structure Memo where
  core : Nat
  ctx : Nat
  unit : Nat
  write : Bool
  /-- the virtual address and size. -/
  va : Nat
  size : Nat
  tag : Nat
  bytes : Option (List Byte)
  /-- the address is not backed there. -/
  bad : Bool
  deriving DecidableEq, Repr

/-- A location that a two-address atomic of another module, or of this one with its other location elsewhere, keeps locked (R165). -/
structure Lock where
  loc : Nat
  size : Nat
  agent : AgentId
  deriving DecidableEq, Repr

/-- An invalidation in progress (R141). -/
structure Inval where
  agent : AgentId
  scope : Scope
  asid : Nat
  /-- none: every address. -/
  va : Option Nat
  complete : Bool
  /-- Accesses numbered below it may have used an entry that the invalidation has removed. -/
  since : Nat
  deriving DecidableEq, Repr

/-- The activation parked in a fibre record: its number as an agent, and its launch, if it belongs to one (R116, R147, R349).
DEDUCED, log 6: safe. -/
structure FibreWork where
  ctx : Nat
  record : Word
  work : Option LaunchRef
  triggered : Bool
  serial : Nat
  deriving DecidableEq, Repr

/-- Undefined bytes [lo, hi) of the byte store, filled by the free value of one epoch (R100). DESIGN CHOICE, log 8: safe. -/
structure Undef where
  lo : Nat
  hi : Nat
  epoch : Nat
  deriving DecidableEq, Repr

/-- A completion a port returns to a card (R139). -/
structure PortDone where
  port : Nat
  requester : Nat
  /-- 0 success, 1 Unsupported Request, 2 Completer Abort. -/
  status : Nat
  bytes : List Byte
  deriving DecidableEq, Repr

/-- A card's request that waits at a port for a page that migrates or for an answer (R139, R144). -/
structure PortHeld where
  id : Nat
  req : PortReq
  deriving DecidableEq, Repr

/-- Which agent moves next. DESIGN CHOICE, log 4: unsafe. -/
inductive Agenda where
  /-- the activation in a core's active slot issues. -/
  | core (id : Nat)
  /-- a migrated activation of a home core issues. -/
  | away (home ctx : Nat)
  /-- an event happens. -/
  | event (i : Instr)
  /-- cycles pass. -/
  | pass (cycles : Nat)
  /-- the kernel loads the links to a destination module (R27, R28). -/
  | loadLinks (m : Nat) (links : List Nat)
  /-- the kernel names the application core of an MSI-X vector of a port (R31). -/
  | loadMsix (port vector core : Nat)
  /-- a flit of a packet in flight takes an uncorrectable error (R17). -/
  | damage (n : Nat)
  deriving DecidableEq, Repr

/-- The activation an instruction runs on: the active slot of a core, or a migrated activation of it. -/
structure Cur where
  core : Nat
  away : Option Nat
  deriving DecidableEq, Repr

/-- Registers and status of the module (R35-R38, R145, R32, R13). -/
structure Module where
  /-- 0 standby; n: stage n is complete (R32). -/
  stage : Nat
  /-- Power is on and start-up runs. -/
  powered : Bool
  halt : Bool
  facc0 : Option Word
  facc1 : Option Word
  /-- Contexts created before both FACC registers were written, which run with every feature (R38). -/
  early : List Nat
  modnum : Option Nat
  ctxtab : Word
  pftab : Word
  noticeh : Word
  fenced : List Part
  degraded : Bool
  replace : Bool
  /-- Matrix passes are withheld from issue (R13). -/
  withheld : Bool
  flash : List Byte
  flashEntry : Word
  flashSumOk : Bool
  /-- Words 1-5 of notices not yet delivered, and how many were discarded (R44). -/
  notices : List (List Word)
  noticesLost : Nat
  /-- Link sets by destination module (R27). -/
  linkTable : Tab (List Nat)
  /-- Parts that a ring or link fault names as its sender, not yet judged by the management controller (R17, R51). -/
  suspects : List Part
  /-- The application core of each MSI-X vector, by port · 65,536 + vector (R31). -/
  msix : Tab Nat
  /-- Translation buffers of the ports (R134). -/
  portTlb : Tab (List TlbEntry)
  /-- Port function entries in force, by index: words 0 and 1 (R146). -/
  portFns : Tab (Word × Word)
  portHeld : List PortHeld
  portDone : List PortDone
  deriving DecidableEq, Repr

/-- The state of one module. -/
structure State where
  /-- Bytes that differ from 0, by location (Ops.lean): physical memory, core pools, B-stores (R148). -/
  mem : List Host.Cell
  undef : List Undef
  /-- Owner tags that differ from 0, by line (R49), and poisoned lines (R50). -/
  owners : Tab Nat
  poison : List Nat
  cores : Tab Core
  clauses : Tab Clause
  dies : Tab Die
  module : Module
  evec : Tab EvVec
  evHome : Tab Nat
  /-- Mirror updates on their way: context, die, value (R55). -/
  mirrorQ : List (Nat × Nat × EvVec)
  launches : List Launch
  net : Tab Packet
  reqs : Tab MemReq
  walks : Tab Walk
  memos : List Memo
  locks : List Lock
  /-- Locations of the mailbox words that engine jobs have written (R154). -/
  mailboxes : List Nat
  /-- The last header grant of each ring stop, plane and direction: its cycle, and whether the injection input won (R21). -/
  grants : Tab (Nat × Bool)
  invals : Tab Inval
  fibres : List FibreWork
  /-- Error records written so far, by context, and records whose page is migrating (R48). -/
  faultCount : Tab Nat
  faultPending : List (Nat × Nat × List Word)
  /-- Ids given so far to packets, requests, walkers, messages and invalidations. -/
  ids : Nat
  launchSeq : Nat
  cyc : Nat
  freeCtr : Nat
  heldPorts : Bool
  agenda : List Agenda
  cur : Cur
  deriving DecidableEq, Repr

/-! ### Values at reset -/

/-- Activation control registers at reset (R123). -/
def ActCR.zero : ActCR := ⟨0, 0, 0, 0, 0, 0, 0, 0, 0, 0, 0, 0⟩

/-- An activation with every register at its reset value: 0 where the manual gives none.
DESIGN CHOICE, log 1: unsafe. -/
def Act.zero : Act where
  s := Vector.replicate 32 0
  v := Vector.replicate 32 (Vector.replicate 16 0)
  p := Vector.replicate 8 0
  e := Vector.replicate 8 0
  pc := 0
  qin := []
  qout := []
  priv := false
  upcall := false
  cr := ActCR.zero
  wait := none
  work := none
  triggered := false
  rlb := []
  fetch := []
  msg5 := []
  runsOn := none
  startPrio := 0
  serial := 0

/-- Per-context-per-core registers at reset (R102, R123, R220, R238): PART has sunits 8 and qunits 1. -/
def CtxRegs.init : CtxRegs where
  part := 0x80001#64
  upcall := 0
  fibre := 0
  freel := 0
  wscale := 0
  wef := 0
  x128l := 0
  mswz := 7#64
  lxstop := 0
  lxesc := 0
  lxkmax := 1#64
  lxfmt := 0
  lxmissh := 0
  cpsrc := 0
  cpdst := 0
  cplen := 0
  cpstr := 0
  cpflags := 0
  cphnd := 0
  cpswz := 0
  trace := 0
  traceptr := 0

/-- Context-entry values before an entry is loaded. DESIGN CHOICE, log 2: unsafe. -/
def CtxEntry.zero : CtxEntry where
  ctxgen := 0
  asid := 0
  ptroot := 0
  pmask := 0
  cmapb := 0
  cmapn := 0
  hlo := 0
  hhi := 0
  evtmo := 0
  donate := 0
  lease := 1#64
  migok := 0
  prio := 0
  regions := Vector.replicate 16 0

/-- A context that has not yet run on a core. -/
def CtxCore.init : CtxCore where
  regs := CtxRegs.init
  entry := CtxEntry.zero
  q3 := []
  binds := []
  arrivals := []
  heldFlags := []
  parkMap := []
  descs := []
  drops := []
  dropsAt := none
  watchLost := false
  residue := none

/-- A core right after reset: every table empty (R79, R145). -/
def Core.init : Core where
  active := none
  shadow := none
  streaming := none
  switching := false
  streamIn := none
  streamOut := false
  goal := none
  refused := []
  away := []
  migrating := []
  waiting := []
  recency := []
  ctxs := []
  watch := []
  sendTab := []
  tlb := []
  saveb := 0
  tvec := 0
  quiesced := false
  successor := none
  phrase := none
  fuse := none
  donation := none
  unacked := []
  lastSeq := []
  hostq := []
  msgIrq := false
  rotation := []

/-- A clause right after reset. -/
def Clause.init : Clause where
  leases := []
  leaseReqs := []
  current := none
  tiles := []
  moves := 0
  copies := []
  copySeq := 0
  copyDone := []
  cancelled := []
  colls := []
  sigSlots := []
  sigLeases := []
  sigReqs := []
  sigCurrent := none
  lexicon := []
  lexTags := []
  glosses := []
  missQueue := []
  tlb := []

/-- A die right after reset. -/
def Die.init : Die where
  requests := []
  mirrors := []
  phasers := []

/-- The module at standby (R32, R35-R38); the boot flash holds an empty image that matches its checksum, and the
link table and the MSI-X names are empty.
DESIGN CHOICE, log 3: unsafe. DESIGN CHOICE, log 66: unsafe. -/
def Module.init : Module where
  stage := 0
  powered := false
  halt := false
  facc0 := none
  facc1 := none
  early := []
  modnum := none
  ctxtab := 0
  pftab := 0
  noticeh := 0
  fenced := []
  degraded := false
  replace := false
  withheld := false
  flash := []
  flashEntry := 0
  flashSumOk := true
  notices := []
  noticesLost := 0
  linkTable := []
  suspects := []
  msix := []
  portTlb := []
  portFns := []
  portHeld := []
  portDone := []

/-- The machine right after reset: standby power, before POWER_ON (R32). -/
def State.reset : State where
  mem := []
  undef := []
  owners := []
  poison := []
  cores := []
  clauses := []
  dies := []
  module := Module.init
  evec := []
  evHome := []
  mirrorQ := []
  launches := []
  net := []
  reqs := []
  walks := []
  memos := []
  locks := []
  mailboxes := []
  grants := []
  invals := []
  fibres := []
  faultCount := []
  faultPending := []
  ids := 0
  launchSeq := 0
  cyc := 0
  freeCtr := 0
  heldPorts := true
  agenda := []
  cur := ⟨Config.computeCores, none⟩

end Sys2Proof.Machine
end

