-- ==== Sys2Proof/Machine/Store.lean ====
section
/-!
DEFINITION. Machine/Store.lean: sparse tables, and the bytes of the module: locations, reads, writes, owner tags (R148, R49).
-/

namespace Sys2Proof.Machine

/-! ### Tables -/

/-- The entry of a table at a key. -/
def tget (t : Tab α) (k : Nat) : Option α :=
  match t with
  | [] => none
  | (j, x) :: r => if j = k then some x else tget r k

/-- The entry of a table at a key, or a default. -/
def tgetD (t : Tab α) (k : Nat) (d : α) : α := (tget t k).getD d

/-- Sets the entry of a table, keeping the keys rising. -/
def tset (t : Tab α) (k : Nat) (x : α) : Tab α :=
  match t with
  | [] => [(k, x)]
  | (j, y) :: r => if k < j then (k, x) :: (j, y) :: r else if j = k then (k, x) :: r else (j, y) :: tset r k x

/-- Removes the entry of a table. -/
def tdel (t : Tab α) (k : Nat) : Tab α :=
  match t with
  | [] => []
  | (j, y) :: r => if j = k then r else (j, y) :: tdel r k

/-- Changes the entry of a table, taking a default where there is none. -/
def tmod (t : Tab α) (k : Nat) (d : α) (f : α → α) : Tab α := tset t k (f (tgetD t k d))

/-- The keys of a table rise strictly above a bound. -/
def risingFrom (lo : Nat) : Tab α → Bool
  | [] => true
  | (j, _) :: r => lo ≤ j && risingFrom (j + 1) r

/-- Replaces the first element of a list that meets a test. -/
def replaceFirst (p : α → Bool) (f : α → α) : List α → List α
  | [] => []
  | x :: r => if p x then f x :: r else x :: replaceFirst p f r

/-- Removes the first element of a list that meets a test. -/
def removeFirst (p : α → Bool) : List α → List α
  | [] => []
  | x :: r => if p x then r else x :: removeFirst p r

/-- Sorts a list, keeping the order of equals. -/
def sortBy (lt : α → α → Bool) : List α → List α
  | [] => []
  | x :: r =>
    let rec insertFront (x : α) : List α → List α
      | [] => [x]
      | y :: r => if lt y x then y :: insertFront x r else x :: y :: r
    insertFront x (sortBy lt r)

/-- The best element of a list under a strict order; the first among equals. -/
def bestBy (better : α → α → Bool) : List α → Option α
  | [] => none
  | x :: r =>
    match bestBy better r with
    | none => some x
    | some y => if better y x then some y else some x

/-! ### Locations -/

/-- The location of a byte of a core's pool (R148). -/
def poolLoc (core off : Nat) : Nat := 2 ^ 48 + core * 2 ^ 20 + off

/-- The location of a byte of a clause's B-store (R148, R213). -/
def bstoreLoc (clause off : Nat) : Nat := 2 ^ 49 + clause * 2 ^ 22 + off

/-- The location of a byte of a clause's lexicon store (R148, R234). -/
def lexLoc (clause off : Nat) : Nat := 2 ^ 50 + clause * 2 ^ 27 + off

/-- A physical address lies in the HBM range (R10). -/
def inHbm (pa : Nat) : Bool := pa < Config.hbmBytes

/-- A physical address lies in the second-tier range (R10). -/
def inTier2 (pa : Nat) : Bool := Config.tier2Base ≤ pa && pa < Config.tier2Base + Config.tier2Bytes

/-- A physical address is backed by a stack or a package (R10). -/
def backed (pa : Nat) : Bool := inHbm pa || inTier2 pa

/-- The HBM stack that holds a physical address (R10). -/
def stackOf (pa : Nat) : Nat := pa / 4096 % 12

/-- The second-tier package that holds a physical address (R10). -/
def packageOf (pa : Nat) : Nat := (pa - Config.tier2Base) / 4096 % 48

/-- The 64-byte line of a location. -/
def lineOf (loc : Nat) : Nat := loc / 64

/-- The key of a line of global memory in a read-line or fetch buffer: of this module, or of another's memory (R129, R151). -/
def lineKey (rmod : Option Nat) (pa : Nat) : Nat :=
  match rmod with
  | none => pa / 64
  | some m => (m + 1) * 2 ^ 48 + pa / 64

/-- Two agents are one: one job of a core, or one activation, which may have been resumed on another core (R147). -/
def sameAgent (a b : AgentId) : Bool := a.serial == b.serial && a.ctx == b.ctx && (a.serial % 2 == 0 || a.core == b.core)

/-! ### Bytes -/

/-- The undefined interval that covers a location (R100). -/
def undefAt (us : List Undef) (loc : Nat) : Option Undef := us.find? (fun u => u.lo ≤ loc && loc < u.hi)

/-- Removes a location from the undefined intervals. -/
def undefCut (us : List Undef) (loc : Nat) : List Undef :=
  us.flatMap (fun u =>
    if u.lo ≤ loc && loc < u.hi then
      (if u.lo < loc then [{ u with hi := loc }] else []) ++ (if loc + 1 < u.hi then [{ u with lo := loc + 1 }] else [])
    else [u])

/-- What a byte that nothing has written reads as: start-up writes every line with zero data (R32 stage 5).
DESIGN CHOICE, log 7: unsafe. -/
def unlistedByte : Byte := 0

/-- Reads a byte of the byte list. -/
def memGet (m : List Host.Cell) (loc : Nat) : Byte := tgetD m loc unlistedByte

/-- Writes a byte of the byte list, keeping its canonical form. -/
def memSet (m : List Host.Cell) (loc : Nat) (b : Byte) : List Host.Cell :=
  if b = unlistedByte then tdel m loc else tset m loc b

/-- The canonical form of the byte list: addresses strictly rising, and no entry equal to an unlisted byte. -/
def Memory.wf (m : List Host.Cell) : Bool := risingFrom 0 m && m.all (fun c => c.2 != unlistedByte)

/-- Reads one byte: the one operation by which the machine reads memory. -/
def readByte (s : State) (loc : Nat) : Byte :=
  match undefAt s.undef loc with
  | some u => Config.freeByte u.epoch loc
  | none => memGet s.mem loc

/-- Writes one byte and its line's owner tag (R49). A line that is lost stays lost (R50). DESIGN CHOICE, log 91: unsafe. -/
def writeByte (s : State) (ctx loc : Nat) (b : Byte) : State :=
  { s with
    mem := memSet s.mem loc b
    undef := undefCut s.undef loc
    owners := if ctx = 0 then tdel s.owners (lineOf loc) else tset s.owners (lineOf loc) ctx }

/-- Reads `n` bytes from a location up. -/
def readBytes (s : State) (loc n : Nat) : List Byte := (List.range n).map (fun i => readByte s (loc + i))

/-- Writes bytes from a location up. -/
def writeBytes (s : State) (ctx loc : Nat) : List Byte → State
  | [] => s
  | b :: bs => writeBytes (writeByte s ctx loc b) ctx (loc + 1) bs

/-- Reads an `n`-byte little-endian value (R186). -/
def readNat (s : State) (loc n : Nat) : Nat := leNat (readBytes s loc n)

/-- Reads a 64-bit word. -/
def readWord (s : State) (loc : Nat) : Word := BitVec.ofNat 64 (readNat s loc 8)

/-- Writes a 64-bit word. -/
def writeWord (s : State) (ctx loc : Nat) (w : Word) : State := writeBytes s ctx loc (leBytes 8 w.toNat)

/-- Makes the bytes of an interval undefined: they read as the free value of a new epoch (R100). -/
def makeUndef (s : State) (lo hi : Nat) : State :=
  if lo < hi then
    { s with
      mem := s.mem.filter (fun c => !(lo ≤ c.1 && c.1 < hi))
      undef := s.undef.flatMap (fun u =>
          (if u.lo < lo && u.lo < u.hi then [{ u with hi := Nat.min u.hi lo }] else []) ++
          (if hi < u.hi then [{ u with lo := Nat.max u.lo hi }] else [])) ++ [⟨lo, hi, s.freeCtr⟩] }
  else s

/-- Bytes of a lexicon slot, in whole units of 64 KiB (R235). -/
def LexSlot.units (l : LexSlot) : Nat := (2 * l.n * l.s + 6 * l.n + 4 * l.n * l.n + 65535) / 65536

/-- The owner tag of a line of a lexicon store: that of the last write there (R49). -/
def lexOwner (s : State) (clause off : Nat) : Nat :=
  (((tgetD s.clauses clause Clause.init).lexTags.find? (fun t => t.lo ≤ off / 64 && off / 64 < t.hi)).map (·.ctx)).getD 0

/-- Lines [lo, hi) are written: what earlier writes tagged there alone is forgotten. -/
def lexTagged (ts : List LexTag) (t : LexTag) : List LexTag := t :: ts.filter (fun u => u.lo < t.lo || t.hi < u.hi)

/-- The owner tag of a line (R49). -/
def ownerOf (s : State) (loc : Nat) : Nat :=
  if 2 ^ 50 ≤ loc then lexOwner s ((loc - 2 ^ 50) / 2 ^ 27) ((loc - 2 ^ 50) % 2 ^ 27) else tgetD s.owners (lineOf loc) 0

/-! ### Parts -/

/-- The compute die of a local compute core. -/
def dieOfCore (core : Nat) : Nat := core / 1024

/-- The clause, 0 to 1,023, of a local compute core. -/
def clauseOfCore (core : Nat) : Nat := core / 8

/-- A local core number names an application core (R29). -/
def isApp (core : Nat) : Bool := Config.computeCores ≤ core

/-- The compute die that carries an HBM stack (R9). -/
def dieOfStack (st : Nat) : Nat :=
  match st with
  | 0 => 0 | 1 => 0 | 2 => 1 | 3 => 2 | 4 => 3 | 5 => 3 | 6 => 4 | 7 => 4 | 8 => 5 | 9 => 6 | _ => 7

/-- A part is fenced, by itself or with the part it lies in (R51). -/
def partFenced (fs : List Part) (p : Part) : Bool :=
  fs.contains p ||
  match p with
  | .core n => !isApp n && (fs.contains (.clause (clauseOfCore n)) || fs.contains (.die (dieOfCore n)))
  | .clause n => fs.contains (.die (n / 128))
  | .stack n => fs.contains (.die (dieOfStack n))
  | .package n => fs.contains (.die (n / 6))
  | .link n => fs.contains (.ioDie (n / 12))
  | _ => false

/-- The part that holds a location (R8, R9, R148). -/
def partOfLoc (loc : Nat) : Option Part :=
  if 2 ^ 50 ≤ loc then some (.clause ((loc - 2 ^ 50) / 2 ^ 27))
  else if 2 ^ 49 ≤ loc then some (.clause ((loc - 2 ^ 49) / 2 ^ 22))
  else if 2 ^ 48 ≤ loc then some (.core ((loc - 2 ^ 48) / 2 ^ 20))
  else if inHbm loc then some (.stack (stackOf loc))
  else if inTier2 loc then some (.package (packageOf loc))
  else none

/-- A location's line reads as poisoned: an uncorrectable error, or a line of a fenced part (R50, R51). -/
def poisoned (s : State) (loc : Nat) : Bool :=
  s.poison.contains (lineOf loc) ||
  match partOfLoc loc with
  | some p => partFenced s.module.fenced p
  | none => false

/-- Some line may read as poisoned. -/
def poisonAbout (s : State) : Bool := !s.poison.isEmpty || !s.module.fenced.isEmpty

/-- The first of some bytes whose line reads as poisoned. -/
def poisonedIn (s : State) (loc n : Nat) : Option Nat :=
  if poisonAbout s then ((List.range n).map (loc + ·)).find? (poisoned s) else none

/-- A value that hardware reads for itself from a table of the kernel's: of a context entry, a core map or a function entry. Of a lost
line nothing is read: its valid bits are 0 (R50, R51). DEDUCED, log 83: unsafe. -/
def tableNat (s : State) (loc n : Nat) : Nat := if (poisonedIn s loc n).isSome then 0 else readNat s loc n

/-- A word of such a table. -/
def tableWord (s : State) (loc : Nat) : Word := BitVec.ofNat 64 (tableNat s loc 8)

/-! ### Cores, clauses, dies, contexts -/

/-- A core of the module. -/
def coreOf (s : State) (c : Nat) : Core := tgetD s.cores c Core.init

/-- Sets a core. -/
def setCore (s : State) (c : Nat) (x : Core) : State := { s with cores := tset s.cores c x }

/-- Changes a core. -/
def modCore (s : State) (c : Nat) (f : Core → Core) : State := setCore s c (f (coreOf s c))

/-- A clause of the module. -/
def clauseOf (s : State) (c : Nat) : Clause := tgetD s.clauses c Clause.init

/-- Changes a clause. -/
def modClause (s : State) (c : Nat) (f : Clause → Clause) : State :=
  { s with clauses := tset s.clauses c (f (clauseOf s c)) }

/-- A compute die of the module. -/
def dieOf (s : State) (d : Nat) : Die := tgetD s.dies d Die.init

/-- Changes a die. -/
def modDie (s : State) (d : Nat) (f : Die → Die) : State := { s with dies := tset s.dies d (f (dieOf s d)) }

/-- A context's part of a core's allotment and registers. -/
def ctxOf (s : State) (core ctx : Nat) : CtxCore := tgetD (coreOf s core).ctxs ctx CtxCore.init

/-- Changes a context's part of a core. -/
def modCtx (s : State) (core ctx : Nat) (f : CtxCore → CtxCore) : State :=
  modCore s core (fun c => { c with ctxs := tset c.ctxs ctx (f (ctxOf s core ctx)) })

/-- Draws the next number of the counter of free values. -/
def nextFree (s : State) : State := { s with freeCtr := s.freeCtr + 1 }

/-- A feature bit is accepted (R38): every offered bit until both FACC0 and FACC1 are written, then the offered bits
that FACC0 holds. DEDUCED, log 17: unsafe. -/
def featureOn (s : State) (b : Nat) : Bool :=
  match s.module.facc0, s.module.facc1 with
  | some f, some _ => bit f b && bit Config.feat0 b
  | _, _ => bit Config.feat0 b

/-- A feature bit is accepted for a context: one created before both FACC registers were written runs as if every bit were
(R38). -/
def featureFor (s : State) (ctx b : Nat) : Bool := featureOn s b || (s.module.early.contains ctx && bit Config.feat0 b)

/-- The module's number, 0 until MODNUM is written or without feature bit 10 (R34, R39). -/
def moduleNumber (s : State) : Nat := if featureOn s 10 then s.module.modnum.getD 0 else 0

/-- The module links are up (R34, R39): MODNUM has been written and feature bit 10 is accepted. -/
def linksUp (s : State) : Bool := s.module.modnum.isSome && featureOn s 10

/-- The global address of a local compute core, or an application core as a node (R4, R16). -/
def nodeOf (s : State) (core : Nat) : Node :=
  if isApp core then ⟨true, moduleNumber s * 8192 + (core - Config.computeCores)⟩
  else ⟨false, moduleNumber s * 8192 + core⟩

/-- The local core a node names, if it lies on this module. -/
def localOf (s : State) (n : Node) : Option Nat :=
  if n.addr / 8192 = moduleNumber s then
    some (if n.host then Config.computeCores + n.addr % 32 else n.addr % 8192)
  else none

/-- CR.ID of a core (R92). -/
def coreIdWord (s : State) (core : Nat) : Word :=
  let n := nodeOf s core
  BitVec.ofNat 64 (n.addr + if n.host then 2 ^ 21 else 0)

/-- A core carries extension D (R92). -/
def hasExtD (core : Nat) : Bool := isApp core || core % 8 ≥ 6

/-- A core carries extension S (R92). -/
def hasExtS (core : Nat) : Bool := !isApp core && core % 8 ≥ 6

end Sys2Proof.Machine
end

