-- ==== Sys2Proof/Machine/Flags.lean ====
section
/-!
DEFINITION. Machine/Flags.lean: number formats, exact values, the one rounding, and the status flags that roundings and
conversions set (R186-R211).
-/

namespace Sys2Proof.Machine

/-! ### Exact values -/

/-- An exact value, or a special one (R203): (−1)^neg · num / den · 2^exp; `bad` is a product 0 · ∞. -/
inductive Xv where
  | nan
  | bad
  | inf (neg : Bool)
  | fin (neg : Bool) (num den : Nat) (exp : Int)
  deriving DecidableEq, Repr

/-- Status flags as CR.FFLAGS numbers them (R199). -/
def fInexact : Nat := 1
/-- underflow (R199). -/
def fUnderflow : Nat := 2
/-- overflow (R199). -/
def fOverflow : Nat := 4
/-- divide (R199). -/
def fDivide : Nat := 8
/-- invalid (R199). -/
def fInvalid : Nat := 16
/-- xsat (R199). -/
def fXsat : Nat := 32
/-- xnan (R199). -/
def fXnan : Nat := 64

/-- The exact value of an integer times a power of two. -/
def Xv.ofInt (n : Int) (e : Int) : Xv := .fin (decide (n < 0)) n.natAbs 1 e

/-- +0. -/
def Xv.zero : Xv := .fin false 0 1 0

/-- 1. -/
def Xv.one : Xv := .fin false 1 1 0

/-- The value with its sign changed. -/
def Xv.neg : Xv → Xv
  | .nan => .nan
  | .bad => .bad
  | .inf n => .inf (!n)
  | .fin n a b e => .fin (!n) a b e

/-- The magnitude. -/
def Xv.abs : Xv → Xv
  | .nan => .nan
  | .bad => .bad
  | .inf _ => .inf false
  | .fin _ a b e => .fin false a b e

/-- The exact product (R189, R203). -/
def Xv.mul : Xv → Xv → Xv
  | .nan, _ => .nan
  | _, .nan => .nan
  | .bad, _ => .bad
  | _, .bad => .bad
  | .inf m, .inf n => .inf (m != n)
  | .inf m, .fin n a _ _ => if a = 0 then .bad else .inf (m != n)
  | .fin m a _ _, .inf n => if a = 0 then .bad else .inf (m != n)
  | .fin m a b e, .fin n c d f => .fin (m != n) (a * c) (b * d) (e + f)

/-- The value times 2^k. -/
def Xv.scale (x : Xv) (k : Int) : Xv :=
  match x with
  | .fin n a b e => .fin n a b (e + k)
  | y => y

/-- The finite value divided by a positive integer. -/
def Xv.divNat (x : Xv) (k : Nat) : Xv :=
  match x with
  | .fin n a b e => .fin n a (b * k) e
  | y => y

/-- The exact sum of two finite values; a zero sum is −0 only if both are −0 (R189). -/
def Xv.addFin (m : Bool) (a b : Nat) (e : Int) (n : Bool) (c d : Nat) (f : Int) : Xv :=
  let lo := min e f
  let x : Int := (if m then -1 else 1) * (a * d * 2 ^ (e - lo).toNat : Nat)
  let y : Int := (if n then -1 else 1) * (c * b * 2 ^ (f - lo).toNat : Nat)
  let s := x + y
  .fin (if s = 0 then m && n else decide (s < 0)) s.natAbs (b * d) lo

/-- The exact sum of terms, with specials resolved in the order of R203; the flag is invalid when R203 item 2 applies. -/
def xsum (ts : List Xv) : Xv × Nat :=
  if ts.contains .nan then (.nan, 0)
  else if ts.contains .bad || (ts.contains (.inf false) && ts.contains (.inf true)) then (.nan, fInvalid)
  else if ts.contains (.inf false) then (.inf false, 0)
  else if ts.contains (.inf true) then (.inf true, 0)
  else
    match ts with
    | [] => (Xv.zero, 0)
    | t :: r =>
      (r.foldl (fun acc x => match acc, x with
        | .fin m a b e, .fin n c d f => Xv.addFin m a b e n c d f
        | y, _ => y) t, 0)

/-- Ordering of two values that are not NaN: less, equal, greater. -/
def xcmp (x y : Xv) : Ordering :=
  let cls : Xv → Int := fun z => match z with
    | .inf true => -2 | .inf false => 2
    | _ => 0
  if cls x ≠ 0 || cls y ≠ 0 then compare (cls x) (cls y)
  else
    match (xsum [x, y.neg]).1 with
    | .fin n a _ _ => if a = 0 then .eq else if n then .lt else .gt
    | _ => .eq

/-- max or min of two values: the canonical NaN if either is NaN; −0 is below +0. -/
def pickNum (max_ : Bool) (x y : Xv) : Xv :=
  let less : Xv → Xv → Bool := fun a b => match xcmp a b with
    | .lt => true
    | .eq => (match a, b with
      | .fin true _ _ _, .fin false _ _ _ => true
      | _, _ => false)
    | .gt => false
  match x, y with
  | .nan, _ => .nan
  | _, .nan => .nan
  | .bad, _ => .nan
  | _, .bad => .nan
  | _, _ => if max_ then (if less x y then y else x) else (if less y x then y else x)

/-- The exact value of num / den · 2^e lies below 2^k. -/
def below (num den : Nat) (e : Int) (k : Int) : Bool :=
  let d := e - k
  if 0 ≤ d then num * 2 ^ d.toNat < den else num < den * 2 ^ (-d).toNat

/-- ⌊log2 (num / den)⌋ for a positive value. -/
def floorLog (num den : Nat) : Int :=
  let k : Int := (Nat.log2 num : Int) - (Nat.log2 den : Int)
  if below num den 0 k then k - 1 else k

/-- Rounds num / den · 2^e to the nearest multiple of 2^q, ties to even: the multiple, and whether it is inexact (R198). -/
def roundAt (num den : Nat) (e q : Int) : Nat × Bool :=
  let d := e - q
  let n := if 0 ≤ d then num * 2 ^ d.toNat else num
  let m := if 0 ≤ d then den else den * 2 ^ (-d).toNat
  let f := n / m
  let r := n % m
  (if 2 * r > m || (2 * r = m && f % 2 = 1) then f + 1 else f, r != 0)

/-! ### IEEE formats and A48 -/

/-- An IEEE-style format: exponent and fraction widths (R187). -/
structure Fmt where
  ebits : Nat
  fbits : Nat
  deriving DecidableEq, Repr

/-- binary64 (R187). -/
def f64 : Fmt := ⟨11, 52⟩
/-- binary32 (R187). -/
def f32 : Fmt := ⟨8, 23⟩
/-- binary16 (R187). -/
def f16 : Fmt := ⟨5, 10⟩
/-- bfloat16 (R187). -/
def bf16 : Fmt := ⟨8, 7⟩
/-- A48 (R187). -/
def a48 : Fmt := ⟨11, 36⟩
/-- The layout of E4M3 codes; its top code is NaN and it has no infinity (R191). -/
def e4m3 : Fmt := ⟨4, 3⟩
/-- The layout of E2M1 codes; it has no NaN and no infinity (R193). -/
def e2m1 : Fmt := ⟨2, 1⟩

/-- The bias (R187, R191, R193). -/
def Fmt.bias (f : Fmt) : Int := 2 ^ (f.ebits - 1) - 1

/-- The spacing of subnormals, as an exponent. -/
def Fmt.qmin (f : Fmt) : Int := 1 - f.bias - f.fbits

/-- The code of +∞ in an IEEE format. -/
def Fmt.infCode (f : Fmt) : Nat := (2 ^ f.ebits - 1) * 2 ^ f.fbits

/-- The canonical NaN (R187). -/
def Fmt.nanCode (f : Fmt) : Nat := f.infCode + 2 ^ (f.fbits - 1)

/-- The sign bit. -/
def Fmt.signBit (f : Fmt) : Nat := 2 ^ (f.ebits + f.fbits)

/-- The exact value of a finite code. -/
def Fmt.finite (f : Fmt) (c : Nat) : Xv :=
  let neg := c / f.signBit % 2 == 1
  let e := c / 2 ^ f.fbits % 2 ^ f.ebits
  let m := c % 2 ^ f.fbits
  if e = 0 then .fin neg m 1 f.qmin else .fin neg (2 ^ f.fbits + m) 1 (f.qmin + (e - 1 : Nat))

/-- The exact value of a code of an IEEE format (R187). -/
def Fmt.decode (f : Fmt) (c : Nat) : Xv :=
  if c / 2 ^ f.fbits % 2 ^ f.ebits = 2 ^ f.ebits - 1 then
    if c % 2 ^ f.fbits = 0 then .inf (c / f.signBit % 2 == 1) else .nan
  else f.finite c

/-- A code is a signalling NaN (R187). -/
def Fmt.signalling (f : Fmt) (c : Nat) : Bool :=
  c / 2 ^ f.fbits % 2 ^ f.ebits == 2 ^ f.ebits - 1 && c % 2 ^ f.fbits != 0 && c / 2 ^ (f.fbits - 1) % 2 == 0

/-- The magnitude code nearest to a non-zero value in the layout of a format, without a limit, and its flags (R198, R200). -/
def Fmt.nearest (f : Fmt) (num den : Nat) (e : Int) : Nat × Nat :=
  let q := max (floorLog num den + e - f.fbits) f.qmin
  let (sig, inex) := roundAt num den e q
  let tiny := below num den e (1 - f.bias)
  ((q - f.qmin).toNat * 2 ^ f.fbits + sig, if inex then (if tiny then fInexact + fUnderflow else fInexact) else 0)

/-- Rounds an exact value once to an IEEE format: the code and the flags (R188, R189, R198, R200). -/
def Fmt.round (f : Fmt) (x : Xv) : Nat × Nat :=
  match x with
  | .nan => (f.nanCode, 0)
  | .bad => (f.nanCode, fInvalid)
  | .inf n => (f.infCode + if n then f.signBit else 0, 0)
  | .fin n a b e =>
    let sg := if n then f.signBit else 0
    if a = 0 then (sg, 0)
    else
      let (c, fl) := f.nearest a b e
      if f.infCode ≤ c then (f.infCode + sg, fOverflow + fInexact) else (c + sg, fl)

/-- The sum of terms, rounded once (R202, R203): code and flags. -/
def Fmt.sum (f : Fmt) (ts : List Xv) : Nat × Nat :=
  let (x, fl) := xsum ts
  let (c, fr) := f.round x
  (c, fl ||| fr)

/-! ### Small formats -/

/-- |x| exceeds an integer bound. -/
def exceeds (num den : Nat) (e : Int) (k : Nat) : Bool :=
  if 0 ≤ e then k * den < num * 2 ^ e.toNat else k * den * 2 ^ (-e).toNat < num

/-- The value of an E4M3 byte (R191). -/
def e4m3Value (c : Nat) : Xv := if c % 128 = 127 then .nan else e4m3.finite c

/-- Encodes an exact value to E4M3 (R192). -/
def e4m3Encode (x : Xv) : Nat × Nat :=
  match x with
  | .fin n a b e =>
    let sg := if n then 128 else 0
    if a = 0 then (sg, 0)
    else if exceeds a b e 448 then (126 + sg, fOverflow + fInexact)
    else let (c, fl) := e4m3.nearest a b e; (c + sg, fl)
  | _ => (127, fInvalid)

/-- The value of an E2M1 nibble (R193). -/
def e2m1Value (c : Nat) : Xv := e2m1.finite c

/-- Encodes an exact value to E2M1 (R194). -/
def e2m1Encode (x : Xv) : Nat × Nat :=
  match x with
  | .fin n a b e =>
    let sg := if n then 8 else 0
    if a = 0 then (sg, 0)
    else if exceeds a b e 6 then (7 + sg, fOverflow + fInexact)
    else let (c, fl) := e2m1.nearest a b e; (c + sg, fl)
  | .inf n => (7 + (if n then 8 else 0), fInvalid)
  | _ => (0, fInvalid)

/-- The lowest exponent of T8 class h, plus 16 (R195). -/
def t8Lo (h : Nat) : Nat :=
  match h with
  | 0 => 0 | 1 => 1 | 3 => 3 | 5 => 7 | 6 => 15 | 4 => 23 | _ => 27

/-- The magnitude of a T8 payload in units of 2^−16 (R195): every one is a whole number of them. -/
def t8Mag (p : Nat) : Nat :=
  if p = 0 then 0
  else
    let h := Nat.log2 p
    let wf := h / 2
    let low := p - 2 ^ h
    (2 ^ wf + low % 2 ^ wf) * 2 ^ (t8Lo h + low / 2 ^ wf) / 2 ^ wf

/-- The value of a T8 byte (R195): NaR is NaN. -/
def t8Value (c : Nat) : Xv := if c % 256 = 128 then .nan else .fin (c / 128 % 2 == 1) (t8Mag (c % 128)) 1 (-16)

/-- The payloads in ascending magnitude (R195). -/
def t8Order : List Nat :=
  [0, 1, 2, 3] ++ (List.range 8).map (· + 8) ++ (List.range 96).map (· + 32) ++ (List.range 16).map (· + 16) ++ [4, 5, 6, 7]

/-- The payload nearest to a magnitude, given the payload below: the first candidate at or above it decides (R197, R198). -/
def t8Nearest (num den : Nat) (e : Int) (prev : Nat) : List Nat → Nat
  | [] => prev
  | p :: r =>
    -- twice the value against the sum of the neighbours, in units of 2^-16
    let n := if 0 ≤ e + 16 then num * 2 ^ (e + 16).toNat else num
    let d := if 0 ≤ e + 16 then den else den * 2 ^ (-(e + 16)).toNat
    if t8Mag p * d < n then t8Nearest num den e p r
    else
      let mid := (t8Mag prev + t8Mag p) * d
      if 2 * n < mid || (2 * n = mid && prev % 2 = 0) then prev else p

/-- The magnitude of payload p equals the value. -/
def t8Exact (num den : Nat) (e : Int) (p : Nat) : Bool :=
  if 0 ≤ e + 16 then t8Mag p * den == num * 2 ^ (e + 16).toNat else t8Mag p * den * 2 ^ (-(e + 16)).toNat == num

/-- Encodes an exact value to T8 (R197). -/
def t8Encode (x : Xv) : Nat × Nat :=
  match x with
  | .fin n a b e =>
    let sg := if n then 128 else 0
    if a = 0 then (0, 0)
    else if exceeds a b e 6144 then (7 + sg, fOverflow + fInexact)
    else
      let p := t8Nearest a b e 0 t8Order
      let fl := if t8Exact a b e p then 0 else if below a b e (-16) then fInexact + fUnderflow else fInexact
      (if p = 0 then 0 else p + sg, fl)
  | _ => (128, fInvalid)

/-- The scale exponent of an E8M0 byte; none for 0xFF (R190). -/
def e8m0 (v : Nat) : Option Int := if v % 256 = 255 then none else some ((v % 256 : Nat) - 127)

/-! ### Integers and square roots -/

/-- Rounds an exact finite value to the nearest integer, ties to even, and whether that changed it (R198). -/
def roundInt (neg : Bool) (num den : Nat) (e : Int) : Int × Bool :=
  let (n, i) := roundAt num den e 0
  (if neg then -(n : Int) else n, i)

/-- ⌊√n⌋, bit by bit from bit `b − 1` down. -/
def isqrtFrom (n : Nat) : Nat → Nat → Nat
  | 0, r => r
  | b + 1, r => if (r + 2 ^ b) * (r + 2 ^ b) ≤ n then isqrtFrom n b (r + 2 ^ b) else isqrtFrom n b r

/-- ⌊√n⌋. -/
def isqrt (n : Nat) : Nat := isqrtFrom n (Nat.log2 n / 2 + 1) 0

/-- A value that rounds as the square root of num · 2^e does in every format of the F9: twice the root of a scaled number,
plus one when the root is inexact. -/
def sqrtVal (num : Nat) (e : Int) : Xv :=
  let k : Nat := 130 + (if (e - 130) % 2 = 0 then 0 else 1)
  let n := num * 2 ^ k
  let r := isqrt n
  .fin false (2 * r + if r * r = n then 0 else 1) 1 ((e - k) / 2 - 1)

/-- The square root of a value, rounded once (R188, R323). -/
def Fmt.sqrt (f : Fmt) (x : Xv) : Nat × Nat :=
  match x with
  | .fin n a b e => if a = 0 then f.round x else if n then (f.nanCode, fInvalid) else f.round (sqrtVal (a / b) e)
  | .inf false => f.round x
  | .inf true => (f.nanCode, fInvalid)
  | _ => (f.nanCode, 0)

/-- The quotient of two values, rounded once (R188, R199, R324). -/
def Fmt.div (f : Fmt) (x y : Xv) : Nat × Nat :=
  match x, y with
  | .nan, _ => (f.nanCode, 0)
  | _, .nan => (f.nanCode, 0)
  | .bad, _ => (f.nanCode, fInvalid)
  | _, .bad => (f.nanCode, fInvalid)
  | .inf _, .inf _ => (f.nanCode, fInvalid)
  | .inf m, .fin n _ _ _ => f.round (.inf (m != n))
  | .fin m _ _ _, .inf n => f.round (.fin (m != n) 0 1 0)
  | .fin m a b e, .fin n c d g =>
    if c = 0 then if a = 0 then (f.nanCode, fInvalid) else ((f.round (.inf (m != n))).1, fDivide)
    else f.round (.fin (m != n) (a * d) (b * c) (e - g))

/-! ### X128 -/

/-- Converts a value to X128 under scale exponent L: the 128 bits and the flags (R209). -/
def toX128 (x : Xv) (l : Int) : Nat × Nat :=
  match x with
  | .fin n a b e =>
    let (q, i) := roundInt n a b (e - l)
    if q > 2 ^ 127 - 1 then (2 ^ 127 - 1, fXsat)
    else if q < -(2 ^ 127) then (2 ^ 127, fXsat)
    else ((q % 2 ^ 128).toNat, if i then fInexact else 0)
  | .inf false => (2 ^ 127 - 1, fXsat)
  | .inf true => (2 ^ 127, fXsat)
  | _ => (0, fXnan)

/-- The signed value of 128 bits. -/
def x128Int (q : Nat) : Int := if q < 2 ^ 127 then q else (q : Int) - 2 ^ 128

/-- X128 addition: wraps modulo 2^128 and raises xsat when it leaves the range (R210). -/
def x128Add (a b : Nat) : Nat × Nat :=
  let s := x128Int a + x128Int b
  ((a + b) % 2 ^ 128, if s > 2 ^ 127 - 1 || s < -(2 ^ 127) then fXsat else 0)

/-- The exact value of an X128 number (R208). -/
def x128Value (q : Nat) (l : Int) : Xv := Xv.ofInt (x128Int q) l

/-- L of CR.X128L: 12-bit two's complement (R208). -/
def x128L (w : Word) : Int := (BitVec.ofNat 12 w.toNat).toInt

end Sys2Proof.Machine
end

