-- ==== Sys2Proof/Machine/Trans.lean ====
section
/-!
DEFINITION. Machine/Trans.lean: address translation (R125-R136, R140, R144): the walk, the translation buffers, and the
all-or-nothing check of every page of an access.
-/

namespace Sys2Proof.Machine

/-- Where an agent's translations are buffered (R134). -/
inductive TlbHome where
  | core (n : Nat)
  | clause (n : Nat)
  | port (n : Nat)
  deriving DecidableEq, Repr

/-- The agent that translates: its space, position and privilege (R130, R134). `unit` is that of `Walk`. -/
structure Who where
  agent : AgentId
  unit : Nat
  ctx : Nat
  asid : Nat
  root : Nat
  priv : Bool
  group : Option Nat
  tlb : TlbHome
  /-- The source its packets carry (R15). -/
  node : Node
  deriving DecidableEq, Repr

/-- The outcome of translating one address (R129). -/
inductive WalkRes where
  | ok (pa : Nat) (remote : Option Nat) (leaf : TlbEntry)
  | fault (c : Cause)
  | migrating (entryPa : Nat)
  /-- no walker is free (R135). -/
  | busy
  deriving DecidableEq, Repr

/-- The group of a local compute core (R54, R130); application cores belong to none. -/
def groupOfCore (core : Nat) : Option Nat :=
  if isApp core then none else some (dieOfCore core * 8 + clauseOfCore core % 128 / 16)

/-- The page-table index of a level (R125). -/
def walkIndex (lvl va : Nat) : Nat :=
  match lvl with
  | 1 => va / 2 ^ 42 % 8192
  | 2 => va / 2 ^ 29 % 8192
  | _ => va / 2 ^ 16 % 8192

/-- Offset bits that a leaf of a level carries (R125). -/
def leafBits (lvl : Nat) : Nat :=
  match lvl with
  | 1 => 42 | 2 => 29 | _ => 16

/-- A frame lies in its tier's range (R128). -/
def frameInTier (tier pa : Nat) : Bool :=
  match tier with
  | 0 => inHbm pa
  | 1 => inTier2 pa
  | _ => true

/-- Some must-be-zero bit of word 0 is set, or its tier is reserved (R127). -/
def entryBad (w0 : Word) : Bool :=
  bits w0 63 58 != 0 || bits w0 51 48 != 0 || bits w0 15 13 != 0 || bits w0 11 10 == 3 ||
  (bits w0 57 52 != 0 && !(bit w0 1 && bits w0 11 10 == 2))

/-- The frame of word 0 as a physical address. -/
def entryPa (w0 : Word) : Nat := bits w0 47 16 * 2 ^ 16

/-- The bits an access kind sets in word 0 (R131): accessed, and dirty for a store or atomic. -/
def kindBits (k : AccKind) : Nat :=
  match k with
  | .load => 256 | .fetch => 256 | .store => 384 | .atomic => 384 | .prefetch => 0

/-- The permission check of an access kind at a leaf (R131). -/
def checkLeaf (who : Who) (w0 w1 : Word) (k : AccKind) : Option Cause :=
  if bit w0 6 && !who.priv then some .priv
  else if (match who.group with | some g => !bit w1 g | none => false) then some .group
  else
    match k with
    | .load => if bit w0 2 then none else some .read
    | .store => if bit w0 3 then none else some .write
    | .atomic => if !bit w0 3 then some .write else if !bit w0 5 then some .atomic else if bit w0 2 then none else some .read
    | .fetch => if bit w0 4 then none else some .exec
    | .prefetch => none

/-- The physical address, or the remote module's, that a leaf gives (R129). -/
def leafRes (s : State) (who : Who) (e : TlbEntry) (va : Nat) (k : AccKind) : WalkRes :=
  match checkLeaf who e.w0 e.w1 k with
  | some c => .fault c
  | none =>
    let pa := entryPa e.w0 + va % 2 ^ leafBits e.lvl
    if bits e.w0 11 10 = 2 then
      let m := bits e.w0 57 52
      if m = moduleNumber s then (if backed pa then .ok pa none e else .fault .notmapped) else .ok pa (some m) e
    else if backed pa then .ok pa none e else .fault .notmapped

/-- An uncorrectable line among the bytes of a part (R50): its outcome for the reading agent. DEDUCED, log 50: unsafe. -/
def poisonFault (s : State) (who : Who) (va pa n : Nat) : Option (Cause × Word) :=
  match poisonedIn s pa n with
  | none => none
  | some x =>
    if ownerOf s x = who.ctx ∧ who.ctx ≠ 0 then some (.uncorrectable, BitVec.ofNat 64 (x / 64 * 64))
    else some (.notmapped, BitVec.ofNat 64 (va + (x - pa)))

/-- One level of the walk and those below it (R129): `left` levels remain after this one. An entry whose line is lost ends it (R50).
It is read at once. DESIGN CHOICE, log 80: unsafe. -/
def walkFrom (s : State) (who : Who) (va : Nat) (k : AccKind) (node : Nat) : Nat → WalkRes
  | 0 => .fault .notmapped
  | left + 1 =>
    let lvl := 3 - left
    let at_ := node + 16 * walkIndex lvl va
    let w0 := readWord s at_
    match poisonFault s who at_ at_ 16 with
    | some (c, _) => .fault c
    | none =>
    if !bit w0 0 then .fault .notmapped
    else if bit w0 9 then .migrating at_
    else if entryBad w0 then .fault .notmapped
    else if !bit w0 1 then
      if left = 0 then .fault .notmapped
      else if bit w0 12 then .fault .walknonres
      else if bits w0 11 10 = 2 then .fault .walkremote
      else if bit w0 16 || !frameInTier (bits w0 11 10) (entryPa w0) then .fault .notmapped
      else walkFrom s who va k (entryPa w0) left
    else if entryPa w0 % 2 ^ leafBits lvl ≠ 0 || !frameInTier (bits w0 11 10) (entryPa w0) then .fault .notmapped
    else leafRes s who ⟨who.asid, lvl, va / 2 ^ leafBits lvl, w0, readWord s (at_ + 8), at_⟩ va k

/-- The buffered entries an agent may hit (R134). -/
def tlbOf (s : State) (h : TlbHome) : List TlbEntry :=
  match h with
  | .core c => (coreOf s c).tlb ++ (if isApp c then [] else (clauseOf s (clauseOfCore c)).tlb)
  | .clause c => (clauseOf s c).tlb
  | .port p => tgetD s.module.portTlb p []

/-- A buffered leaf covers an address under an address-space identifier. -/
def tlbCovers (asid va : Nat) (e : TlbEntry) : Bool := e.asid == asid && e.vpage == va / 2 ^ leafBits e.lvl

/-- Whose walkers an agent uses (R135): its clause's, or its port's. -/
def walkPool (who : Who) : Nat :=
  match who.tlb with
  | .core c => if isApp c then 2048 else clauseOfCore c
  | .clause c => c
  | .port p => 1024 + p

/-- Walkers of a pool (R135); the manual counts none for application cores, whose walks never wait for one. -/
def walkersOf (pool : Nat) : Nat := if pool < 1024 then 8 else 16

/-- The state of the walker that waits for an agent at an address, if one does (R144). -/
def walkState (s : State) (who : Who) (va : Nat) : Option (Nat × Walk) :=
  s.walks.find? (fun w => w.2.agent == who.agent && w.2.unit == who.unit && w.2.va == va)

/-- A walk waits for a free walker, and its agent still wants it: an activation that has been switched out asks again. -/
def queuedWalk (s : State) (pool : Nat) (w : Walk) : Bool :=
  w.st == 3 && w.pool == pool &&
  (w.unit % 8 != 0 ||
    let k := tgetD s.cores w.agent.core Core.init
    k.away.any (fun f => f.ctx == w.agent.ctx) ||
    match k.active with
    | some f => f.ctx == w.agent.ctx
    | none => false)

/-- A walk of an agent may go on: its walker is its own already, or one is free and no earlier request waits for it (R135). -/
def walkerFree (s : State) (who : Who) (va : Nat) : Bool :=
  let pool := walkPool who
  if s.walks.isEmpty || pool = 2048 then true
  else
    let busy := (s.walks.filter (fun w => w.2.pool == pool && w.2.st ≤ 1)).length
    let ahead := fun n => (s.walks.filter (fun w => w.1 < n && queuedWalk s pool w.2)).length
    match walkState s who va with
    | some (n, w) => if w.st = 3 then busy + ahead n < walkersOf pool else true
    | none => busy + ahead s.ids < walkersOf pool

/-- Translates one address: by a buffered leaf whose bits the access needs are set, else by a walk (R129, R133, R134). -/
def translate1 (s : State) (who : Who) (va : Nat) (k : AccKind) : WalkRes :=
  if 2 ^ 55 ≤ va then .fault .notmapped
  else
    match (tlbOf s who.tlb).find? (tlbCovers who.asid va) with
    | some e =>
      if e.w0.toNat &&& kindBits k = kindBits k || (checkLeaf who e.w0 e.w1 k).isSome then leafRes s who e va k
      else if walkerFree s who va then walkFrom s who va k who.root 3
      else .busy
    | none => if walkerFree s who va then walkFrom s who va k who.root 3 else .busy

/-- The walker that waited for an agent at an address has ended the walk with MIGRATING: 4,096 cycles have passed since it first
read M = 1, and it has not read M = 0 (R144). -/
def walkOver (s : State) (who : Who) (va : Nat) : Bool :=
  match walkState s who va with
  | some (_, w) => w.st == 2
  | none => false

/-- A waiting walker's entry reads M = 0, or its line is lost: the walk goes on there (R144, R50). -/
def movedOn (s : State) (w : Walk) : Bool := !bit (readWord s w.entryPa) 9 || (poisonedIn s w.entryPa 16).isSome

/-- What a waiting walker has done when some cycles have passed: it has read its entry again every 64 cycles, has gone on once it read
M = 0, and has ended the walk 4,096 cycles after its first reading of M = 1 (R144). -/
def walkPassed (s : State) (n : Nat) (w : Walk) : Walk :=
  let reads : Nat → Nat := fun c => Nat.min 64 ((c - w.start) / 64)
  if w.st ≠ 0 then w
  else if reads s.cyc < reads (s.cyc + n) && movedOn s w then { w with st := 1 }
  else if w.start + 4096 ≤ s.cyc + n then { w with st := 2 }
  else w

/-- Cycles pass for the waiting walkers (R144). -/
def passWalks (s : State) (n : Nat) : State :=
  if s.walks.isEmpty then s else { s with walks := s.walks.map (fun w => (w.1, walkPassed s n w.2)) }

/-- What an access waits for. -/
inductive Hold where
  /-- M = 1 at an entry (R144). -/
  | migrating (entryPa : Nat)
  /-- a free walker (R135). -/
  | walker
  /-- a location that a two-address atomic has locked (R165), or an earlier access of the same agent to it (R150). -/
  | earlier
  deriving DecidableEq, Repr

/-- The outcome of translating every page of an access (R136). -/
inductive TransRes where
  /-- per piece, its parts: location, remote module, size. -/
  | ok (parts : List (List (Nat × Option Nat × Nat))) (leaves : List TlbEntry)
  | fault (c : Cause) (tval : Word)
  | wait (va : Nat) (h : Hold)
  deriving DecidableEq, Repr

/-- A location is locked by a two-address atomic of another agent (R165). -/
def lockedFor (s : State) (agent : AgentId) (loc n : Nat) : Bool :=
  s.locks.any (fun l => !sameAgent l.agent agent && l.loc < loc + n && loc < l.loc + l.size)

/-- Cuts a piece at the 64 KiB boundaries inside it. -/
def segments (va size : Nat) : List (Nat × Nat) :=
  let first := 65536 - va % 65536
  if size ≤ first then [(va, size)] else [(va, first), (va + first, size - first)]

/-- Checks the segments of an access in ascending order; the first that has not passed decides (R136). A store to a lost line is refused
as a load of it is (R50). DESIGN CHOICE, log 91: unsafe. -/
def checkSegs (s : State) (who : Who) (k : AccKind) : List (Nat × Nat) → TransRes
  | [] => .ok [] []
  | (va, n) :: r =>
    match (if walkOver s who va then .fault .migrating else translate1 s who va k) with
    | .fault c => .fault c (BitVec.ofNat 64 va)
    | .migrating e => .wait va (.migrating e)
    | .busy => .wait va .walker
    | .ok pa rm leaf =>
      match (if rm.isNone then poisonFault s who va pa n else none) with
      | some (c, t) => .fault c t
      | none =>
        if rm.isNone && lockedFor s who.agent pa n then .wait va .earlier
        else
          match checkSegs s who k r with
          | .ok ps ls => .ok ([(pa, rm, n)] :: ps) (leaf :: ls)
          | x => x

/-- The parts of a segment, found by its address and size. -/
def partsOf (segs : List (Nat × Nat)) (ps : List (List (Nat × Option Nat × Nat))) (g : Nat × Nat) : List (Nat × Option Nat × Nat) :=
  match segs, ps with
  | a :: r, p :: q => if a = g then p else partsOf r q g
  | _, _ => []

/-- Translates and checks every page that an access of some pieces (address, size) touches, in address order (R136). -/
def translateAll (s : State) (who : Who) (k : AccKind) (pieces : List (Nat × Nat)) : TransRes :=
  let segs := sortBy (fun a b => a.1 < b.1) (pieces.flatMap (fun p => segments p.1 p.2))
  match checkSegs s who k segs with
  | .ok ps ls => .ok (pieces.map (fun p => (segments p.1 p.2).flatMap (fun g => partsOf segs ps g))) ls
  | x => x

/-- Puts an entry at the head of a buffer of a given size. DESIGN CHOICE, log 15: unsafe. -/
def tlbPush (size : Nat) (e : TlbEntry) (l : List TlbEntry) : List TlbEntry :=
  (e :: l.filter (fun x => !(x.asid == e.asid && x.lvl == e.lvl && x.vpage == e.vpage))).take size

/-- Holds a leaf in the buffers of an agent (R134, R140). -/
def tlbFill (s : State) (h : TlbHome) (e : TlbEntry) : State :=
  match h with
  | .core c =>
    let s := modCore s c (fun x => { x with tlb := tlbPush 64 e x.tlb })
    if isApp c then s else modClause s (clauseOfCore c) (fun x => { x with tlb := tlbPush 1024 e x.tlb })
  | .clause c => modClause s c (fun x => { x with tlb := tlbPush 1024 e x.tlb })
  | .port p => { s with module := { s.module with portTlb := tmod s.module.portTlb p [] (tlbPush 512 e) } }

/-- Sets accessed and dirty at an entry's home port, if word 0 still equals what the walk read (R133); the line's owner
tag becomes 0. DESIGN CHOICE, log 71: unsafe. -/
def setLeafBits (s : State) (k : AccKind) (e : TlbEntry) : State × TlbEntry :=
  let w0 : Word := e.w0 ||| BitVec.ofNat 64 (kindBits k)
  if w0 = e.w0 then (s, e)
  else if readWord s e.entryPa = e.w0 then (writeWord s 0 e.entryPa w0, { e with w0 := w0 })
  else (s, e)

/-- Frees the walkers of an agent: its access has ended. -/
def endWalks (s : State) (who : Who) : State :=
  if s.walks.isEmpty then s
  else { s with walks := s.walks.filter (fun w => !(w.2.agent == who.agent && w.2.unit == who.unit)) }

/-- Sets the bits of each leaf and buffers it. -/
def setLeaves (s : State) (who : Who) (k : AccKind) : List TlbEntry → State
  | [] => s
  | e :: r =>
    let (s, e) := setLeafBits s k e
    setLeaves (tlbFill s who.tlb e) who k r

/-- After every page has passed: sets the bits of each leaf and buffers it; the agent's walkers are freed (R133, R135). -/
def commitLeaves (s : State) (who : Who) (k : AccKind) (ls : List TlbEntry) : State := setLeaves (endWalks s who) who k ls

/-- An access starts to wait: a walker on M = 1 (R144), or its request for a walker (R135). -/
def startWalk (s : State) (who : Who) (va : Nat) (h : Hold) : State :=
  let put : Walk → State := fun w => match walkState s who va with
    | some (n, _) => { s with walks := tset s.walks n w }
    | none => { s with walks := tset s.walks s.ids w, ids := s.ids + 1 }
  match h with
  | .earlier => s
  | .walker =>
    match walkState s who va with
    | some _ => s
    | none => put ⟨who.agent, who.unit, va, 0, s.cyc, 3, walkPool who⟩
  | .migrating ePa =>
    match walkState s who va with
    | some (_, w) =>
      if w.st = 3 then put { w with st := 0, entryPa := ePa, start := s.cyc }
      else if w.st = 1 then put { w with st := 0, entryPa := ePa }
      else s
    | none => put ⟨who.agent, who.unit, va, ePa, s.cyc, 0, walkPool who⟩

/-- An invalidation names a buffered entry (R141). -/
def tlbNamed (asid : Nat) (va : Option Nat) (e : TlbEntry) : Bool :=
  match va with
  | some a => tlbCovers asid a e
  | none => e.asid == asid

/-- Removes what an invalidation names from a buffer (R141). -/
def tlbRemove (asid : Nat) (va : Option Nat) (l : List TlbEntry) : List TlbEntry := l.filter (fun e => !tlbNamed asid va e)

/-- A core lies within a scope of another (R152). -/
def coreInScope (sc : Scope) (x y : Nat) : Bool :=
  match sc with
  | .core => x == y
  | .clause => x == y || (!isApp x && !isApp y && clauseOfCore x == clauseOfCore y)
  | .die => x == y || (isApp x && isApp y) || (!isApp x && !isApp y && dieOfCore x == dieOfCore y)
  | .package => true
  | .system => true

/-- A clause's buffers lie within a scope of a core (R141). -/
def clauseInScope (sc : Scope) (x k : Nat) : Bool :=
  match sc with
  | .core => false
  | .clause => !isApp x && clauseOfCore x == k
  | .die => !isApp x && dieOfCore x == k / 128
  | .package => true
  | .system => true

/-- A scope takes in the memory ports of the module (R141). -/
def portsInScope (sc : Scope) : Bool := sc == .package || sc == .system

/-- Some covered buffer holds an entry that an invalidation names (R141). -/
def entriesLeft (s : State) (sc : Scope) (core asid : Nat) (va : Option Nat) : Bool :=
  s.cores.any (fun c => coreInScope sc core c.1 && c.2.tlb.any (tlbNamed asid va)) ||
  s.clauses.any (fun c => clauseInScope sc core c.1 && c.2.tlb.any (tlbNamed asid va)) ||
  (portsInScope sc && s.module.portTlb.any (fun p => p.2.any (tlbNamed asid va)))

/-- Invalidates every covered buffer (R141). -/
def invalidate (s : State) (sc : Scope) (core asid : Nat) (va : Option Nat) : State :=
  { s with
    cores := s.cores.map (fun c => (c.1, if coreInScope sc core c.1 then { c.2 with tlb := tlbRemove asid va c.2.tlb } else c.2))
    clauses := s.clauses.map (fun c =>
      (c.1, if clauseInScope sc core c.1 then { c.2 with tlb := tlbRemove asid va c.2.tlb } else c.2))
    module := if portsInScope sc then { s.module with portTlb := s.module.portTlb.map (fun p => (p.1, tlbRemove asid va p.2)) }
      else s.module }

end Sys2Proof.Machine
end

