-- ==== Sys2Proof/Machine/Route.lean ====
section
/-!
DEFINITION. Machine/Route.lean: packets and their routes over mesh, ring and links (R14-R28, R442), and what agents have asked of
another module's memory or another core's scratchpad and not yet used (R129, R225).
-/

namespace Sys2Proof.Machine

/-! ### Routes -/

/-- The physical address a memory packet carries (R15, R16). -/
def memoryAddr (p : Packet) : Option Nat :=
  match p.payload with
  | .memAccess _ pa _ _ _ _ _ => some pa
  | .memAtomic _ pa _ _ _ _ _ _ => some pa
  | .memLock _ pa _ _ _ => some pa
  | .memUnlock _ pa _ _ _ => some pa
  | .port _ _ pa _ => some pa
  | .portReply _ _ pa _ => some pa
  | .reply _ pa _ _ _ => pa
  | .unbacked _ pa _ _ => pa
  | _ => none

/-- A packet bound for a memory port (R442). -/
def toMemory (pl : Payload) : Bool :=
  match pl with
  | .memAccess _ _ _ _ _ _ _ => true
  | .memAtomic _ _ _ _ _ _ _ _ => true
  | .memLock _ _ _ _ _ => true
  | .memUnlock _ _ _ _ _ => true
  | .port _ _ _ _ => true
  | _ => false

/-- The compute die whose ring stop holds the memory port of a physical address (R9, R10, R442). -/
def dieOfMemory (pa : Nat) : Nat := if inTier2 pa then packageOf pa / 6 else dieOfStack (stackOf pa)

/-- The ring plane of a packet (R15): physical address bits [9:6], or bits of the two core addresses. -/
def planeOf (p : Packet) : Nat :=
  match memoryAddr p with
  | some pa => pa / 64 % 16
  | none => (p.src.addr ^^^ p.dst.addr) % 16

/-- The clause router, row · 16 + column, at which the edge port of a ring plane sits (R23). -/
def portRouter (plane : Nat) : Nat := plane % 8 * 16 + if plane < 8 then 0 else 15

/-- The next router of a mesh leg on a path: XY moves along the row of columns first (R24). -/
def meshNext (path from_ to_ : Nat) : Nat :=
  let r := from_ / 16
  let c := from_ % 16
  let tr := to_ / 16
  let tc := to_ % 16
  let col := if c < tc then c + 1 else if tc < c then c - 1 else c
  let row := if r < tr then r + 1 else if tr < r then r - 1 else r
  if path % 2 = 0 then (if c ≠ tc then r * 16 + col else row * 16 + c)
  else (if r ≠ tr then row * 16 + c else r * 16 + col)

/-- The ring stop of a node of this module (R14). -/
def stopOf (n : Node) : Nat := if n.host then Config.hostStop else Config.dieStop (n.addr % 8192 / 1024)

/-- The clause of a compute node inside its die. -/
def clauseInDie (n : Node) : Nat := n.addr % 1024 / 8

/-- The module of a node. -/
def moduleOf (n : Node) : Nat := n.addr / 8192

/-- The way round the ring that is shorter: true is descending (R18). -/
def ringDir (from_ to_ : Nat) : Bool := (to_ + Config.ringStops - from_) % Config.ringStops > 5

/-- The next stop in a direction. -/
def ringNext (n : Nat) (down : Bool) : Nat :=
  if down then (n + Config.ringStops - 1) % Config.ringStops else (n + 1) % Config.ringStops

/-- The hop between two stops crosses the dateline, between stop 10 and stop 0 (R14). -/
def crosses (n : Nat) (down : Bool) : Bool := if down then n == 0 else n == 10

/-- A packet keeps its order on the links and takes the lowest-numbered one (R25, R28): every kind but remote stores and
remote load requests; a count packet counts as the remote store that its kind says. DEDUCED, log 84: unsafe. -/
def keepsOrder (p : Packet) : Bool :=
  match p.payload with
  | .store _ _ _ _ => false
  | .flag _ _ _ _ => false
  | .count _ _ => false
  | .loadReq _ _ _ _ => false
  | _ => true

/-- Payload flits of a packet (R16): the words, bytes or operands it carries.
DESIGN CHOICE, log 13: unsafe. -/
def lenOf (p : Packet) : Nat :=
  match p.payload with
  | .message ws _ _ _ _ _ _ _ _ => (8 * ws.length + 63) / 64
  | .store _ bs _ _ => (bs.length + 63) / 64
  | .flag _ bs _ _ => (bs.length + 63) / 64
  | .count _ _ => 0
  | .loadReq _ _ _ _ => 0
  | .reply _ _ _ bs _ => (bs.length + 63) / 64
  | .atomic _ _ _ _ _ _ _ => 1
  | .ack _ _ _ => 0
  | .step _ _ _ bs => (bs.length + 63) / 64
  | .abort _ _ => 0
  | .drain _ _ es => (6 * es.length + 63) / 64
  | .wake _ _ _ => 1
  | .change _ _ _ => 1
  | .value _ _ _ => 1
  | .fibre _ _ _ bs _ => (bs.length + 63) / 64
  | .fibrePart _ _ bs => (bs.length + 63) / 64
  | .accepted _ _ => 0
  | .channel _ => 1
  | .memAccess _ _ _ _ bs _ _ => (bs.length + 63) / 64
  | .memAtomic _ _ _ _ _ _ _ _ => 1
  | .memLock _ _ _ _ _ => 0
  | .memUnlock _ _ bs _ _ => (bs.length + 63) / 64
  | .unbacked _ _ _ _ => 0
  | .port _ kind _ len => if kind = 5 then 0 else (len + 63) / 64
  | .portReply _ kind _ len => if kind = 9 then 0 else (len + 63) / 64

/-- Flits of a packet: its header and its payload (R16). -/
def flitsOf (p : Packet) : Nat := 1 + lenOf p

/-- Flits that stand at a link and have not been taken by its other end, against its free credits (R27).
DESIGN CHOICE, log 68: unsafe. -/
def linkLoad (s : State) (l : Nat) : Nat :=
  s.net.foldl (fun n q => if q.2.pos == .link l then n + flitsOf q.2 else n) 0

/-- The link by which a packet leaves for another module (R27, R28): the lowest of the set, or the one with most free credits,
the links being equally deep. -/
def linkFor (s : State) (p : Packet) : Option Nat :=
  let set := tgetD s.module.linkTable (moduleOf p.dst) []
  let load : Nat → Nat := linkLoad s
  if keepsOrder p then bestBy (fun a b => a < b) set
  else bestBy (fun a b => load a < load b || (load a == load b && a < b)) set

/-- The ring stop a packet leaves the ring at; none if no link has been chosen for its module. -/
def exitStop (s : State) (p : Packet) : Option Nat :=
  if moduleOf p.dst = moduleNumber s then
    match toMemory p.payload, memoryAddr p with
    | true, some pa => some (Config.dieStop (dieOfMemory pa))
    | _, _ => some (stopOf p.dst)
  else p.link.map Config.linkStop

/-- A launch unit sends a packet: an activation message of a launch, which leaves from the unit's ring stop (R15, R63). -/
def fromUnit (pl : Payload) : Bool :=
  match pl with
  | .message _ _ _ _ _ _ _ work _ => work.isSome
  | _ => false

/-- Where a packet starts (R23, R442): the router of its source's clause, or its ring stop for the host die or a launch unit. -/
def startPos (src dst : Node) (pl : Payload) : NetPos :=
  if src.host then (if dst.host && moduleOf src == moduleOf dst then .arrived else .inject Config.hostStop)
  else if fromUnit pl then
    let die := src.addr % 8192 / 1024
    if src.addr / 1024 = dst.addr / 1024 && !dst.host then .mesh die (portRouter ((src.addr ^^^ dst.addr) % 16)) false
    else .inject (Config.dieStop die)
  else
    let out := toMemory pl || dst.host || moduleOf src != moduleOf dst || src.addr / 1024 != dst.addr / 1024
    .mesh (src.addr % 8192 / 1024) (clauseInDie src) out

/-- Puts a packet on its way; its number is the next id. -/
def launchPacket (s : State) (p : Packet) : State := { s with net := tset s.net s.ids p, ids := s.ids + 1 }

/-- A packet that is not on the ring. -/
def RingTrip.off : RingTrip := ⟨0, 0, [], 0⟩

/-- A packet from a source to a destination on a path (R16); for another module it travels at system scope (R26). -/
def mkPacket (src dst : Node) (ctx scope path mprio : Nat) (pl : Payload) : Packet :=
  { src := src, dst := dst, ctx := ctx, scope := if moduleOf src = moduleOf dst then scope else 4, path := path, mprio := mprio,
    payload := pl, dir := false, vc := false, pos := startPos src dst pl, intact := true, link := none, reserved := 0,
    via := none, ring := RingTrip.off }

/-- Takes a packet off the network. -/
def takePkt (s : State) (n : Nat) : State := { s with net := tdel s.net n }

/-- Moves a packet. -/
def movePkt (s : State) (n : Nat) (p : Packet) (pos : NetPos) : State := { s with net := tset s.net n { p with pos := pos } }

/-- Sends a packet again from its source (R46, R161, R242). -/
def restart (s : State) (n : Nat) (p : Packet) : State :=
  movePkt s n { p with intact := true, link := none, vc := false, dir := false, via := none, ring := RingTrip.off }
    (startPos p.src p.dst p.payload)

/-- Sends a packet on mesh path 0 (R25). -/
def sendPkt (s : State) (src dst : Node) (ctx scope mprio : Nat) (pl : Payload) : State :=
  launchPacket s (mkPacket src dst ctx scope 0 mprio pl)

/-- A node of another module, as the destination of an access to its memory (R129). -/
def moduleNode (m : Nat) : Node := ⟨false, m * 8192⟩

/-! ### What an agent has asked (R129, R138, R225) -/

/-- What an agent's access has come to, if it has been made. -/
def memoOf (s : State) (w : Who) (write : Bool) (va size : Nat) : Option Memo :=
  if s.memos.isEmpty then none
  else s.memos.find? (fun m => m.core == w.agent.core && m.ctx == w.ctx && m.unit == w.unit && m.write == write && m.va == va && m.size == size)

/-- Notes an access of an agent: asked under a tag, or done with its bytes. -/
def addMemo (s : State) (w : Who) (write : Bool) (va size tag : Nat) (bytes : Option (List Byte)) : State :=
  { s with memos := s.memos ++ [⟨w.agent.core, w.ctx, w.unit, write, va, size, tag, bytes, false⟩] }

/-- Forgets an agent's accesses: its command, or the part of it that would be done again, is complete. -/
def forget (s : State) (core ctx unit : Nat) : State :=
  if s.memos.isEmpty then s
  else { s with memos := s.memos.filter (fun m => !(m.core == core && m.ctx == ctx && m.unit == unit)) }

/-- An answer reaches what was asked under a tag. -/
def answerMemo (s : State) (tag : Nat) (bytes : List Byte) (bad : Bool) : State :=
  if s.memos.isEmpty then s
  else { s with memos := s.memos.map (fun m => if m.bytes.isNone && m.tag == tag then { m with bytes := some bytes, bad := bad } else m) }

/-- Asks a memory port for a read or write (R129, R442): its tag is the next id. -/
def askMemory (s : State) (w : Who) (write : Bool) (va m pa size : Nat) (bs : List Byte) : State :=
  let s' := addMemo s w write va size s.ids none
  launchPacket s' (mkPacket w.node (moduleNode m) w.ctx 4 0 0 (.memAccess m pa size write bs s.ids w.agent))

/-- What a run of accesses comes to. -/
inductive Eng (α : Type) where
  | ok (s : State) (x : α)
  | fault (s : State) (c : Cause) (va : Word)
  /-- an answer, a walker or an earlier access is awaited. -/
  | wait (s : State)

/-- Goes on with a value. -/
def Eng.bind (g : Eng α) (f : State → α → Eng β) : Eng β :=
  match g with
  | .ok s x => f s x
  | .fault s c t => .fault s c t
  | .wait s => .wait s

/-- The pieces of some bytes inside 64-byte lines. -/
def linePieces (at_ n : Nat) : Nat → List (Nat × Nat)
  | 0 => []
  | fuel + 1 =>
    if n = 0 then []
    else
      let k := Nat.min n (64 - at_ % 64)
      (at_, k) :: linePieces (at_ + k) (n - k) fuel

/-- Reads pieces of global memory at its home ports, one request after another (R129, R442). -/
def farRead (s : State) (w : Who) (va m : Nat) : List (Nat × Nat) → Eng (List Byte)
  | [] => .ok s []
  | (pa, n) :: r =>
    match memoOf s w false va n with
    | some x =>
      match x.bytes with
      | none => .wait s
      | some bs => if x.bad then .fault s .notmapped (BitVec.ofNat 64 va) else
        (farRead s w (va + n) m r).bind (fun s rest => .ok s (bs ++ rest))
    | none => .wait (askMemory s w false va m pa n [])

/-- Writes pieces of global memory at its home ports, one request after another (R129, R442). -/
def farWrite (s : State) (w : Who) (va m : Nat) : List (Nat × Nat) → List Byte → Eng Unit
  | [], _ => .ok s ()
  | (pa, n) :: r, bs =>
    match memoOf s w true va n with
    | some x =>
      if x.bytes.isNone then .wait s
      else if x.bad then .fault s .notmapped (BitVec.ofNat 64 va)
      else farWrite s w (va + n) m r (bs.drop n)
    | none => .wait (askMemory s w true va m pa n (bs.take n))

end Sys2Proof.Machine
end

