-- ==== Sys2Proof/Machine/Ops.lean ====
section
/-!
DEFINITION. Machine/Ops.lean: the named operations over registers and memory, taking an exception (R115-R122) and returning
from one (R310), the end of a context (R48, R50), and `issue`, the one frame of every instruction (R280, R83-R85, R78).
-/

namespace Sys2Proof.Machine

/-! ### The current activation -/

/-- The activation at a place. -/
def actAt (s : State) (c : Cur) : Option Act :=
  match c.away with
  | none =>
    match (coreOf s c.core).active with
    | some f => f.act
    | none => none
  | some x =>
    match (coreOf s c.core).away.find? (fun f => f.ctx == x) with
    | some f => f.act
    | none => none

/-- The context at a place. -/
def ctxAt (s : State) (c : Cur) : Nat :=
  match c.away with
  | none =>
    match (coreOf s c.core).active with
    | some f => f.ctx
    | none => 0
  | some x => x

/-- Sets the activation at a place. -/
def setActAt (s : State) (c : Cur) (a : Option Act) : State :=
  match c.away with
  | none => modCore s c.core (fun k => { k with active := k.active.map (fun f => { f with act := a }) })
  | some x => modCore s c.core (fun k => { k with away := replaceFirst (fun f => f.ctx == x) (fun f => { f with act := a }) k.away })

/-- The current activation. -/
def act (s : State) : Act := (actAt s s.cur).getD Act.zero

/-- Sets the current activation. -/
def setAct (s : State) (a : Act) : State := setActAt s s.cur (some a)

/-- Changes the current activation. -/
def modAct (s : State) (f : Act → Act) : State := setAct s (f (act s))

/-- The current activation's context. -/
def ctxId (s : State) : Nat := ctxAt s s.cur

/-- The home core of the current activation. -/
def home (s : State) : Nat := s.cur.core

/-- The core the current activation runs on (R86). -/
def runCore (s : State) : Nat := (act s).runsOn.getD s.cur.core

/-- What the current activation's context holds on its home core. -/
def ctxNow (s : State) : CtxCore := ctxOf s (home s) (ctxId s)

/-- The per-context-per-core registers of the current activation (R443). -/
def regs (s : State) : CtxRegs := (ctxNow s).regs

/-- Changes them. -/
def modRegs (s : State) (f : CtxRegs → CtxRegs) : State :=
  modCtx s (home s) (ctxId s) (fun x => { x with regs := f x.regs })

/-- The context-entry values of the current activation. -/
def entry (s : State) : CtxEntry := (ctxNow s).entry

/-! ### Registers (R93) -/

/-- Reads a scalar register; s0 reads 0. -/
def Act.getS (a : Act) (i : SReg) : Word := if i = 0 then 0 else a.s[i.toNat]'(i.isLt)

/-- Writes a scalar register; writes to s0 are discarded. -/
def Act.setS (a : Act) (i : SReg) (w : Word) : Act := if i = 0 then a else { a with s := a.s.set i.toNat w i.isLt }

/-- Reads a vector register. -/
def Act.getV (a : Act) (i : VRegN) : VReg := a.v[i.toNat]'(i.isLt)

/-- Writes a vector register. -/
def Act.setV (a : Act) (i : VRegN) (x : VReg) : Act := { a with v := a.v.set i.toNat x i.isLt }

/-- Reads a predicate register; p0 reads 0xFFFF. -/
def Act.getP (a : Act) (i : PReg) : BitVec 16 := if i = 0 then 0xFFFF#16 else a.p[i.toNat]'(i.isLt)

/-- Writes a predicate register; writes to p0 are discarded. -/
def Act.setP (a : Act) (i : PReg) (x : BitVec 16) : Act := if i = 0 then a else { a with p := a.p.set i.toNat x i.isLt }

/-- Reads an operand-extension register. -/
def Act.getE (a : Act) (i : EReg) : Word := a.e[i.toNat]'(i.isLt)

/-- Writes an operand-extension register. -/
def Act.setE (a : Act) (i : EReg) (w : Word) : Act := { a with e := a.e.set i.toNat w i.isLt }

/-- Reads a scalar register of the current activation. -/
def rS (s : State) (i : SReg) : Word := (act s).getS i

/-- Writes a scalar register of the current activation. -/
def wS (s : State) (i : SReg) (w : Word) : State := setAct s ((act s).setS i w)

/-- Reads a vector register of the current activation. -/
def rV (s : State) (i : VRegN) : VReg := (act s).getV i

/-- Writes a vector register of the current activation. -/
def wV (s : State) (i : VRegN) (x : VReg) : State := setAct s ((act s).setV i x)

/-- Reads a predicate register of the current activation. -/
def rP (s : State) (i : PReg) : BitVec 16 := (act s).getP i

/-- Writes a predicate register of the current activation. -/
def wP (s : State) (i : PReg) (x : BitVec 16) : State := setAct s ((act s).setP i x)

/-- Reads an e-register of the current activation. -/
def rE (s : State) (i : EReg) : Word := (act s).getE i

/-- Writes an e-register of the current activation. -/
def wE (s : State) (i : EReg) (w : Word) : State := setAct s ((act s).setE i w)

/-- Raises status flags of the current activation (R199): flags are sticky. -/
def raiseFlags (s : State) (f : Nat) : State :=
  modAct s (fun a => { a with cr := { a.cr with fflags := a.cr.fflags ||| BitVec.ofNat 64 f } })

/-! ### Scratchpad geometry (R102, R105) -/

/-- The base unit of an allotment. -/
def partBase (p : Word) : Nat := bits p 37 32
/-- The park area in tiles. -/
def partPark (p : Word) : Nat := bits p 26 24
/-- Scratchpad units. -/
def partS (p : Word) : Nat := bits p 21 16
/-- Accumulator units. -/
def partA (p : Word) : Nat := bits p 13 8
/-- Register-and-queue units. -/
def partQ (p : Word) : Nat := bits p 5 0

/-- The limits of CR.PART (R102). -/
def partOk (p : Word) : Bool :=
  bits p 63 38 == 0 && bits p 31 27 == 0 && bits p 23 22 == 0 && bits p 15 14 == 0 && bits p 7 6 == 0 &&
  8 ≤ partS p && partA p ≤ 48 && 1 ≤ partQ p && partQ p ≤ 8 && partPark p ≤ 4 && 6 * partPark p ≤ partA p &&
  partBase p + partQ p + partA p + partS p ≤ 64

/-- Scratchpad size in bytes. -/
def scratchSize (p : Word) : Nat := partS p * 16384

/-- The location of scratchpad offset 0 on a core. -/
def scratchBase (core : Nat) (p : Word) : Nat := poolLoc core ((partBase p + partQ p + partA p) * 16384)

/-- The location of accumulator entry 0 on a core (R105). -/
def accBase (core : Nat) (p : Word) : Nat := poolLoc core ((partBase p + partQ p) * 16384)

/-- Entries of the drain area, E (R105). -/
def drainEntries (p : Word) : Nat := (partA p - 6 * partPark p) * 8192 / 3

/-- The physical address of a context's frame in a core's save area (R145). -/
def frameLoc (s : State) (core ctx : Nat) : Nat := bits (coreOf s core).saveb 47 12 * 4096 + 4096 * ctx

/-- A context holds a slot of a core, or runs away from it. -/
def holdsSlot (k : Core) (ctx : Nat) : Bool :=
  let has : Option Frame → Bool := fun f => match f with
    | some x => x.ctx == ctx
    | none => false
  has k.active || has k.shadow || has k.streaming || k.away.any (fun f => f.ctx == ctx)

/-- CR.PART of a context on a core: of its frame, in a slot or in the save area (R102, R104). -/
def partOf (s : State) (core ctx : Nat) : Word :=
  if holdsSlot (coreOf s core) ctx || (coreOf s core).saveb = 0 then (ctxOf s core ctx).regs.part
  else tableWord s (frameLoc s core ctx + 0x980)

/-- CR.PART of the current activation's home core. -/
def partNow (s : State) : Word := (regs s).part

/-! ### Ranges of the address map (R107, R108) -/

/-- The first address of the upper ranges. -/
def gatherBase : Nat := 0x7D00000000000000 / 256
/-- The remote raw aperture. -/
def apertureBase : Nat := 0x7E00000000000000 / 256
/-- The local format windows. -/
def windowBase : Nat := 0x7F00000000000000 / 256

/-- The range an address falls in (R107). -/
inductive Range where
  | unmapped
  | paged
  | gather
  | aperture
  | window (w : Nat)
  deriving DecidableEq, Repr

/-- The range of an address: bits [63:55] not zero map nothing. -/
def rangeOf (a : Word) : Range :=
  let n := a.toNat
  if 2 ^ 55 ≤ n then .unmapped
  else if n < gatherBase then .paged
  else if n < apertureBase then .gather
  else if n < windowBase then .aperture
  else .window ((n - windowBase) / 2 ^ 24)

/-- The offset inside a local window. -/
def windowOff (a : Word) : Nat := a.toNat % 2 ^ 24

/-! ### Who translates -/

/-- The agent of the activation at a place (R130, R134): its home core's entry, the group of the core it runs on. -/
def whoAt (s : State) (c : Cur) : Who :=
  let ctx := ctxAt s c
  let e := (ctxOf s c.core ctx).entry
  let a := (actAt s c).getD Act.zero
  let on := a.runsOn.getD c.core
  { agent := ⟨c.core, ctx, a.serial⟩, unit := 0, ctx := ctx, asid := e.asid.toNat % 65536, root := bits e.ptroot 47 16 * 65536,
    priv := a.priv, group := groupOfCore on, tlb := .core on, node := nodeOf s on }

/-- The agent of the current activation. -/
def who (s : State) : Who := whoAt s s.cur

/-- The unit number of an engine job: the unit of R138, and what tells its jobs apart (a transfer id or a handle). -/
def jobUnit (unit id : Nat) : Nat := unit + 16 * id

/-- The agent of an engine job that a core issued (R147). -/
def unitAgent (core ctx unit : Nat) : AgentId := ⟨core, ctx, 2 * unit + 1⟩

/-- An engine of a core's clause that works for a context (R130, R134); its packets carry the issuing core (R15). -/
def engineWho (s : State) (core ctx unit : Nat) : Who :=
  let e := (ctxOf s core ctx).entry
  { agent := unitAgent core ctx unit, unit := unit, ctx := ctx, asid := e.asid.toNat % 65536, root := bits e.ptroot 47 16 * 65536,
    priv := ctx == 0, group := groupOfCore core, tlb := .clause (clauseOfCore core), node := nodeOf s core }

/-- The core that stands for a removed one: its successor, and so on (R66, R90). -/
def redirect (s : State) (c : Nat) : Nat → Nat
  | 0 => c
  | fuel + 1 =>
    match (coreOf s c).successor with
    | some d => redirect s d fuel
    | none => c

/-- The core of this module that takes the packets to a node: the core it names, or the successor of that core (R90). -/
def takerOf (s : State) (d : Node) : Option Nat := (localOf s d).map (fun c => redirect s c 64)

/-- The pool bytes of this module that a remote store, ordered flag or atomic is to change. -/
def packetSpan (s : State) (p : Packet) : Option (AgentId × Nat × Nat) :=
  let at_ : AgentId → Nat → Nat → Option (AgentId × Nat × Nat) := fun a off n =>
    (takerOf s p.dst).map (fun c => (a, scratchBase c (partOf s c p.ctx) + off, n))
  match p.payload with
  | .store off bs _ a => at_ a off bs.length
  | .flag off bs _ a => at_ a off bs.length
  | .atomic off _ wide _ _ _ a => at_ a off (if wide then 8 else 4)
  | _ => none

/-- An agent's earlier access to some bytes of this module is not yet performed: a request held at a home port, or a remote
store, flag or atomic on its way or held (R150). -/
def ownPending (s : State) (agent : AgentId) (loc n : Nat) : Bool :=
  let meets : AgentId × Nat × Nat → Bool := fun x => sameAgent x.1 agent && x.2.1 < loc + n && loc < x.2.1 + x.2.2
  s.reqs.any (fun r => !r.2.performed && r.2.pieces.any (fun p => meets (r.2.agent, p.1, p.2.1))) ||
  (2 ^ 48 ≤ loc && (
    s.net.any (fun p => ((packetSpan s p.2).map meets).getD false) ||
    s.cores.any (fun c => c.2.ctxs.any (fun x => x.2.heldFlags.any (fun h => ((packetSpan s h.packet).map meets).getD false)))))

/-- Where the bytes of a plain access to page-mapped memory or window 0 lie: parts (location, remote module, size). Records and the
operands of engines lie in no other range. DESIGN CHOICE, log 86: unsafe. -/
def resolve (s : State) (w : Who) (k : AccKind) (a : Word) (n : Nat) : TransRes :=
  match rangeOf a with
  | .unmapped => .fault .notmapped a
  | .paged => translateAll s w k [(a.toNat, n)]
  | .window 0 =>
    let p := (ctxOf s w.agent.core w.agent.ctx).regs.part
    if windowOff a + n ≤ scratchSize p then
      let loc := scratchBase w.agent.core p + windowOff a
      match poisonFault s w a.toNat loc n with
      | some (c, t) => .fault c t
      | none => .ok [[(loc, none, n)]] []
    else .fault .window (BitVec.ofNat 64 (Nat.max a.toNat (windowBase + scratchSize p)))
  | _ => .fault .window a

/-- The module by whose packets an agent's access of a part travels: another module's memory (R129), and, where ports hold accesses, this
module's (R442); pools and B-stores are reached at once. DESIGN CHOICE, log 5: safe. -/
def byPacket (s : State) (rmod : Option Nat) (pa : Nat) : Option Nat :=
  if rmod.isNone && s.heldPorts && pa < 2 ^ 48 then some (moduleNumber s) else rmod

/-- Reads resolved parts, at once or by packets; an access of the agent to the same bytes that is still under way goes first (R150). -/
def readParts (s : State) (w : Who) (va : Nat) : List (Nat × Option Nat × Nat) → Eng (List Byte)
  | [] => .ok s []
  | (pa, none, n) :: r =>
    if ownPending s w.agent pa n then .wait s
    else
      match byPacket s none pa with
      | some m => (farRead s w va m (linePieces pa n (n + 1))).bind (fun s xs => (readParts s w (va + n) r).bind (fun s bs => .ok s (xs ++ bs)))
      | none => (readParts s w (va + n) r).bind (fun t bs => .ok t (readBytes s pa n ++ bs))
  | (pa, some m, n) :: r =>
    (farRead s w va m (linePieces pa n (n + 1))).bind (fun s xs => (readParts s w (va + n) r).bind (fun s bs => .ok s (xs ++ bs)))

/-- A plain read of page-mapped memory or window 0 by an agent: translated, checked, its bits set, and made (R129, R136). -/
def readMem (s : State) (w : Who) (a : Word) (n : Nat) : Eng (List Byte) :=
  match resolve s w .load a n with
  | .ok ps ls => readParts (commitLeaves s w .load ls) w a.toNat ps.flatten
  | .fault c t => .fault (endWalks s w) c t
  | .wait va h => .wait (startWalk s w va h)

/-! ### Waits and wakes -/

/-- Changes every blocked wait on a core, by context and activation; a wait in the save area by what stays of its frame. -/
def mapWaits (k : Core) (f : Nat → Act → Wait → Wait) : Core :=
  let g : Frame → Frame := fun x => { x with act := x.act.map (fun a => { a with wait := a.wait.map (f x.ctx a) }) }
  { k with
    active := k.active.map g
    shadow := k.shadow.map g
    streaming := k.streaming.map g
    away := k.away.map g
    ctxs := k.ctxs.map (fun x => (x.1, { x.2 with residue := x.2.residue.map (fun r =>
      { r with wait := r.wait.map (f x.1 { Act.zero with startPrio := r.startPrio }) }) })) }

/-- A store has been performed on the lines of some bytes: wakes their watch entries (R360). -/
def wakeLines (s : State) (loc n : Nat) : State :=
  if s.cores.all (fun c => c.2.watch.isEmpty) then s
  else
    { s with cores := s.cores.map (fun c =>
        (c.1, { c.2 with watch := c.2.watch.map (fun w =>
          if loc / 64 ≤ w.line && w.line ≤ (loc + n - 1) / 64 then { w with woken := true } else w) })) }

/-- A home performs a store: the bytes, the owner tag, the watch entries (R148, R49, R360). -/
def storeAt (s : State) (ctx loc : Nat) (bs : List Byte) : State :=
  if bs.isEmpty then s else wakeLines (writeBytes s ctx loc bs) loc bs.length

/-- Stores bytes over resolved parts, at once or by packets, each awaited (R129, R442). -/
def writeParts (s : State) (w : Who) (va : Nat) : List (Nat × Option Nat × Nat) → List Byte → Eng Unit
  | [], _ => .ok s ()
  | (pa, none, n) :: r, bs =>
    if ownPending s w.agent pa n then .wait s
    else
      match byPacket s none pa with
      | some m => (farWrite s w va m (linePieces pa n (n + 1)) (bs.take n)).bind (fun s _ => writeParts s w (va + n) r (bs.drop n))
      | none => writeParts (storeAt s w.ctx pa (bs.take n)) w (va + n) r (bs.drop n)
  | (pa, some m, n) :: r, bs =>
    (farWrite s w va m (linePieces pa n (n + 1)) (bs.take n)).bind (fun s _ => writeParts s w (va + n) r (bs.drop n))

/-- A plain store to page-mapped memory or window 0 by an agent: translated, checked, its bits set, and made (R129, R136). -/
def writeMem (s : State) (w : Who) (a : Word) (bs : List Byte) : Eng Unit :=
  match resolve s w .store a bs.length with
  | .ok ps ls => writeParts (commitLeaves s w .store ls) w a.toNat ps.flatten bs
  | .fault c t => .fault (endWalks s w) c t
  | .wait va h => .wait (startWalk s w va h)

/-- A fresh id. -/
def newId (s : State) : State := { s with ids := s.ids + 1 }

/-! ### The end of a context -/

/-- The physical address of a context's table entry (R40). -/
def ctxEntryLoc (s : State) (ctx : Nat) : Nat := bits s.module.ctxtab 47 20 * 2 ^ 20 + 256 * ctx

/-- A word of a context's table entry. -/
def ctxWord (s : State) (ctx i : Nat) : Word := tableWord s (ctxEntryLoc s ctx + 8 * i)

/-- A context's state in the table (R40). -/
def ctxState (s : State) (ctx : Nat) : Nat := bits (ctxWord s ctx 0) 1 0

/-- Removes a context from the slots and tables of a core. -/
def endCtxCore (k : Core) (ctx : Nat) : Core :=
  let keep : Option Frame → Option Frame := fun f => match f with
    | some x => if x.ctx = ctx then none else some x
    | none => none
  { k with
    active := keep k.active
    shadow := keep k.shadow
    streaming := keep k.streaming
    streamIn := if k.streamIn = some ctx then none else k.streamIn
    goal := if k.goal = some ctx then none else k.goal
    refused := k.refused.filter (· != ctx)
    donation := match k.donation with
      | some d => if d.waiter = ctx || d.holder = ctx then none else some d
      | none => none
    away := k.away.filter (fun f => f.ctx != ctx)
    migrating := k.migrating.filter (· != ctx)
    waiting := k.waiting.filter (fun m => m.ctx != ctx)
    recency := k.recency.filter (· != ctx)
    watch := k.watch.filter (fun w => w.ctx != ctx)
    ctxs := tdel k.ctxs ctx
    phrase := if (match k.phrase with | some p => p.ctx == ctx | none => false) then none else k.phrase
    fuse := if (match k.fuse with | some f => f.ctx == ctx | none => false) then none else k.fuse
    rotation := k.rotation.filter (fun r => r.1 != ctx) }

/-- Removes a context from a clause: leases, jobs, slots, glosses and miss entries (R217, R234, R243). -/
def endCtxClause (k : Clause) (ctx : Nat) : Clause :=
  let gone := (k.leases.filter (fun l => l.ctx == ctx)).flatMap (fun l => l.places.filterMap (fun p => match p with
    | .phys t => some t
    | _ => none))
  { k with
    leases := k.leases.filter (fun l => l.ctx != ctx)
    leaseReqs := k.leaseReqs.filter (fun r => r.ctx != ctx)
    current := match k.current with
      | some (c, x) => if x = ctx then none else some (c, x)
      | none => none
    tiles := k.tiles.filter (fun t => !gone.contains t.1)
    copies := k.copies.filter (fun j => j.ctx != ctx)
    colls := k.colls.filter (fun j => j.ctx != ctx)
    sigLeases := k.sigLeases.filter (fun l => l.ctx != ctx)
    sigReqs := k.sigReqs.filter (fun r => r.ctx != ctx)
    sigCurrent := match k.sigCurrent with
      | some (c, x) => if x = ctx then none else some (c, x)
      | none => none
    lexicon := k.lexicon.filter (fun l => l.ctx != ctx)
    glosses := k.glosses.filter (fun g => g.2.ctx != ctx)
    missQueue := k.missQueue.filter (fun m => m.2.msg.ctx != ctx) }

/-- The free form of a phaser: the generation advances, skipping 0 (R354). -/
def freePhaser (p : Phaser) : Phaser :=
  { p with gen := if p.gen % 65535 = 0 then 1 else p.gen + 1, free := true, ctx := 0, members := [] }

/-- A context ends (R48, R50): its slots, messages, jobs, leases, phasers and miss entries are freed, and its table entry's
state becomes 2, ending, so that no message reaches it. DEDUCED, log 20: unsafe. -/
def contextEnd (s : State) (ctx : Nat) : State :=
  let s := { s with
    cores := s.cores.map (fun c => (c.1, endCtxCore c.2 ctx))
    clauses := s.clauses.map (fun c => (c.1, endCtxClause c.2 ctx))
    dies := s.dies.map (fun d => (d.1, { d.2 with
      requests := d.2.requests.filter (fun r => r.ctx != ctx)
      mirrors := tdel d.2.mirrors ctx
      phasers := d.2.phasers.map (fun p => (p.1, if !p.2.free && p.2.ctx == ctx then freePhaser p.2 else p.2)) }))
    launches := s.launches.filter (fun l => l.ctx != ctx)
    evec := tdel s.evec ctx
    evHome := tdel s.evHome ctx
    mirrorQ := s.mirrorQ.filter (fun m => m.1 != ctx)
    memos := s.memos.filter (fun m => m.ctx != ctx)
    locks := s.locks.filter (fun l => l.agent.ctx != ctx)
    fibres := s.fibres.filter (fun f => f.ctx != ctx)
    faultCount := tdel s.faultCount ctx
    module := { s.module with early := s.module.early.filter (· != ctx) }
    walks := s.walks.filter (fun w => w.2.agent.ctx != ctx)
    faultPending := s.faultPending.filter (fun r => r.2.1 != ctx) }
  let w := ctxWord s ctx 0
  if bits w 1 0 = 1 then writeWord s 0 (ctxEntryLoc s ctx) (w + 1) else s

/-- The agent that stores a context's error records (R48). -/
def recordWho (s : State) (core ctx : Nat) : Who :=
  { agent := unitAgent core ctx 9, unit := 9, ctx := ctx, asid := bits (ctxWord s ctx 0) 47 32, root := bits (ctxWord s ctx 1) 47 16 * 65536,
    priv := ctx == 0, group := groupOfCore core, tlb := .core core, node := nodeOf s core }

/-- Writes an error record to the context's fault queue; ends the context if the queue is full or its store fails (R48). A
record whose page is migrating waits (R144). DESIGN CHOICE, log 14: safe. -/
def errorRecord (s : State) (core ctx : Nat) (ws : List Word) : State :=
  let n := tgetD s.faultCount ctx 0
  if (ctxWord s ctx 10).toNat ≤ n then contextEnd s ctx
  else
    let a := ctxWord s ctx 9 + BitVec.ofNat 64 (64 * n)
    let w := recordWho s core ctx
    match writeMem s w a (ws.flatMap (fun x => leBytes 8 x.toNat)) with
    | .ok s _ => { forget s core ctx 9 with faultCount := tset s.faultCount ctx (n + 1) }
    | .fault s _ _ => contextEnd s ctx
    | .wait s => { s with faultPending := s.faultPending ++ [(core, ctx, ws)] }

/-- Tries the waiting error records again. -/
def flushRecords (s : State) : State :=
  s.faultPending.foldl (fun s r => errorRecord s r.1 r.2.1 r.2.2) { s with faultPending := [] }

/-! ### The context entry (R40, R41) -/

/-- CR.LEASE as it is loaded: 1 to 64 (R220). -/
def leaseBudget (n : Nat) : Word := BitVec.ofNat 64 (if n = 0 then 1 else Nat.min n 64)

/-- The entry values of a context as the table holds them (R40). -/
def tableEntry (s : State) (ctx : Nat) : CtxEntry :=
  let w := fun i => ctxWord s ctx i
  { ctxgen := BitVec.ofNat 64 (bits (w 0) 63 48)
    asid := BitVec.ofNat 64 (bits (w 0) 47 32)
    ptroot := BitVec.ofNat 64 (bits (w 1) 47 16 * 2 ^ 16)
    pmask := w 2
    cmapb := BitVec.ofNat 64 (bits (w 3) 47 2 * 4)
    cmapn := BitVec.ofNat 64 (bits (w 4) 21 0)
    hlo := w 5
    hhi := w 6
    evtmo := w 11
    donate := w 12
    lease := leaseBudget (bits (w 13) 14 8)
    migok := BitVec.ofNat 64 (bits (w 13) 0 0)
    prio := bits (w 0) 14 12
    regions := Vector.ofFn (fun i => w (16 + i.val)) }

/-- Reloads a context's entry on a core if its generation differs from CR.CTXGEN (R41). -/
def loadEntry (s : State) (core ctx : Nat) : State :=
  if (ctxOf s core ctx).entry.ctxgen.toNat = bits (ctxWord s ctx 0) 63 48 then s
  else modCtx s core ctx (fun x => { x with
    entry := tableEntry s ctx
    regs := { x.regs with upcall := ctxWord s ctx 7, lxmissh := ctxWord s ctx 8 } })

/-! ### Starting an activation's state (R98, R100, R119) -/

/-- The stack top: offset + size of region 15 in window 0 (R100, R101). -/
def stackTop (e : CtxEntry) : Word :=
  let r := e.regions[15]
  BitVec.ofNat 64 (windowBase + bits r 31 0 + bits r 63 32)

/-- An activation whose registers are undefined: each is the free value of an epoch (R100). DESIGN CHOICE, log 8: safe. -/
def freshAct (epoch : Nat) : Act :=
  { Act.zero with
    s := Vector.ofFn (fun i => if i.val = 0 then 0 else Config.freeWord epoch i.val)
    v := Vector.ofFn (fun i => Vector.ofFn (fun l => (Config.freeWord epoch (100 + 16 * i.val + l.val)).setWidth 32))
    p := Vector.ofFn (fun i => if i.val = 0 then 0xFFFF#16 else (Config.freeWord epoch (700 + i.val)).setWidth 16)
    e := Vector.ofFn (fun i => Config.freeWord epoch (800 + i.val)) }

/-- The intervals of [0, size) outside the named regions (R100, R101). -/
def unnamed (size : Nat) (rs : List (Nat × Nat)) : List (Nat × Nat) :=
  let sorted := sortBy (fun a b => a.1 < b.1) (rs.filter (fun r => r.2 != 0))
  let rec go (at_ : Nat) : List (Nat × Nat) → List (Nat × Nat)
    | [] => [(at_, size)]
    | (o, n) :: r => (at_, Nat.min o size) :: go (Nat.max at_ (o + n)) r
  (go 0 sorted).filter (fun i => i.1 < i.2)

/-- Every scratchpad byte outside the named regions becomes undefined (R100). DESIGN CHOICE, log 8: safe. -/
def clearScratch (s : State) (core ctx : Nat) : State :=
  let x := ctxOf s core ctx
  let base := scratchBase core x.regs.part
  let rs := x.entry.regions.toList.map (fun r => (bits r 31 0, bits r 63 32))
  (unnamed (scratchSize x.regs.part) rs).foldl (fun s i => makeUndef s (base + i.1) (base + i.2)) s

/-- Puts a new activation of a context in the active slot of a core: undefined registers and scratchpad, then `f` (R100). -/
def beginAct (s : State) (core ctx : Nat) (f : Act → Act) : State :=
  let s := clearScratch s core ctx
  let top := stackTop (ctxOf s core ctx).entry
  let a := { ((freshAct s.freeCtr).setS 30 top).setS 1 0 with priv := ctx == 0 || isApp core, serial := 2 * s.freeCtr + 2 }
  modCore (nextFree s) core (fun k => { k with active := some ⟨ctx, some (f a)⟩ })

/-- CR.MSGSRC (R100). -/
def msgsrcWord (origin mprio : Nat) (nosrc : Bool) (src : Nat) : Word :=
  BitVec.ofNat 64 (origin * 2 ^ 62 + mprio * 2 ^ 22 + (if nosrc then 2 ^ 21 else src % 2 ^ 21))

/-! ### Exceptions (R115-R121) -/

/-- CR.TSTAT (R121). -/
def tstatWord (escalated phrase migrated priv : Bool) : Word :=
  BitVec.ofNat 64 ((if escalated then 8 else 0) + (if phrase then 4 else 0) + (if migrated then 2 else 0) + (if priv then 1 else 0))

/-- An address as pc holds it: even (R271). -/
def evenPc (w : Word) : Word := w &&& ~~~1#64

/-- A privileged trap: sets the trap registers, enters privileged mode at CR.TVEC (R307, R118). -/
def privTrap (s : State) (escalated phrase : Bool) (c : Cause) (tval : Word) : State :=
  let tvec := (coreOf s (home s)).tvec
  modAct s (fun a => { a with
    cr := { a.cr with
      tcause := BitVec.ofNat 64 c.code
      tval := tval
      tpc := a.pc
      tstat := tstatWord escalated phrase a.runsOn.isSome a.priv }
    priv := true
    wait := none
    pc := evenPc tvec })

/-- The bytes of a fibre record (R117): word 0 is 0 once taken. -/
def recordBytes (a : Act) (homeLogical : Nat) (c : Cause) (tval tstat : Word) : List Byte :=
  let w8 : Word → List Byte := fun w => leBytes 8 w.toNat
  let pad : Nat → List Byte → List Byte := fun n l => l ++ List.replicate (n - l.length) 0
  let counts := BitVec.ofNat 64 (a.qin.length * 2 ^ 16 + a.qout.length * 2 ^ 8)
  let head := [0, a.pc, BitVec.ofNat 64 c.code, tval, tstat, a.cr.wid, a.cr.wshape, a.cr.msgsrc, a.cr.msglen, a.cr.fflags,
    a.cr.xfer, counts, BitVec.ofNat 64 homeLogical]
  pad 0x80 (head.flatMap w8) ++
  pad 0x100 ((List.finRange 32).flatMap (fun i => w8 (if i.val = 0 then 0 else a.s[i]))) ++
  pad 0x40 (a.e.toList.flatMap w8) ++
  pad 0x40 ((List.range 8).flatMap (fun i => leBytes 2 (a.getP (BitVec.ofNat 3 i)).toNat)) ++
  pad 0x800 (a.v.toList.flatMap (fun x => x.toList.flatMap (fun l => leBytes 4 l.toNat))) ++
  pad 0x200 (a.qin.flatMap w8) ++ pad 0x200 (a.qout.flatMap w8) ++ List.replicate 0x200 0

/-- The logical address of a local core in a context's core map, if it has one (R42). -/
def logicalOf (s : State) (e : CtxEntry) (n : Node) : Option Nat :=
  let base := bits e.cmapb 47 2 * 4
  (List.range (Nat.min e.cmapn.toNat 0x200000)).find? (fun l =>
    let w := tableNat s (base + 4 * l) 4
    w / 2 ^ 31 % 2 == 1 && w / 2 ^ 21 % 512 == 0 && (w / 2 ^ 30 % 2 == 1) == n.host && w % 2 ^ 21 == n.addr)

/-- A core-map entry: the node a logical address names (R42); a module above 63 names no core (R4). -/
def cmapEntry (s : State) (e : CtxEntry) (l : Nat) : Option Node :=
  if e.cmapn.toNat ≤ l then none
  else
    let w := tableNat s (bits e.cmapb 47 2 * 4 + 4 * l) 4
    if w / 2 ^ 31 % 2 = 0 || w / 2 ^ 21 % 512 ≠ 0 then none
    else if 64 ≤ w % 2 ^ 21 / 8192 then none
    else if w / 2 ^ 30 % 2 = 1 then (if w / 32 % 256 ≠ 0 then none else some ⟨true, w % 2 ^ 21⟩)
    else some ⟨false, w % 2 ^ 21⟩

/-- The activation of an upcall: in user mode (R119). -/
def upcallAct (a : Act) (hdl s1 s2 s3 s30 wid wshape tpc tstat : Word) : Act :=
  { (((a.setS 1 s1).setS 2 s2).setS 3 s3).setS 30 s30 with
    pc := hdl
    priv := false
    upcall := true
    startPrio := 3
    cr := { ActCR.zero with
      wid := wid
      wshape := wshape
      msgsrc := msgsrcWord 3 0 true 0
      tcause := s2
      tval := s3
      tpc := tpc
      tstat := tstat } }

/-! ### Frames (R104) -/

/-- A wait that only holds the activation while an event is awaited. -/
def Wait.plain (start : Nat) : Wait := ⟨0, start, 0, 0, false, false, false, none, [], [], [], [], none, []⟩

/-- The state word of a frame. -/
def stateWord (a : Option Act) : Word :=
  match a with
  | none => 0
  | some a =>
    BitVec.ofNat 64 (a.qout.length * 2 ^ 24 + a.qin.length * 2 ^ 16 + (match a.wait with
      | some w => w.kind % 16 * 256
      | none => 0) + (if a.upcall then 4 else 0) + (if a.priv then 2 else 0) + 1)

/-- The 4 KiB of a frame. -/
def frameBytes (r : CtxRegs) (e : CtxEntry) (o : Option Act) : List Byte :=
  let a := o.getD Act.zero
  let w8 : Word → List Byte := fun w => leBytes 8 w.toNat
  let pad : Nat → List Byte → List Byte := fun n l => l ++ List.replicate (n - l.length) 0
  let w := a.wait.getD (Wait.plain 0)
  (a.v.toList.flatMap (fun x => x.toList.flatMap (fun l => leBytes 4 l.toNat))) ++
  ((List.range 32).flatMap (fun i => w8 (a.getS (BitVec.ofNat 5 i)))) ++
  (a.e.toList.flatMap w8) ++
  ((List.range 8).flatMap (fun i => leBytes 2 (if o.isSome then (a.getP (BitVec.ofNat 3 i)).toNat else 0))) ++
  ([a.pc, stateWord o, BitVec.ofNat 64 (w.start % 2 ^ 48), w.operand, 0, 0].flatMap w8) ++
  ([r.part, a.cr.wid, a.cr.wshape, a.cr.msgsrc, a.cr.msglen, a.cr.fflags, a.cr.tcause, a.cr.tval, a.cr.tpc, a.cr.tstat,
    a.cr.xfer, r.upcall, r.fibre, r.freel, r.wscale, r.wef, r.x128l, r.mswz, r.lxstop, r.lxesc, r.lxkmax, r.lxfmt, r.lxmissh,
    r.cpsrc, r.cpdst, r.cplen, r.cpstr, r.cpflags, r.cphnd, r.cpswz, r.trace, r.traceptr, a.cr.pathcnt, a.cr.slot,
    0, 0].flatMap w8) ++
  ([e.ctxgen, e.asid, e.ptroot, e.pmask, e.cmapb, e.cmapn, e.hlo, e.hhi, e.evtmo, e.donate, e.lease, e.migok, 0, 0, 0, 0].flatMap w8) ++
  (e.regions.toList.flatMap w8) ++
  pad 0x1F8 (a.qin.flatMap w8) ++ pad 0x200 (a.qout.flatMap w8) ++ List.replicate 0x68 0

/-- Stores a frame in a core's save area (R104), and keeps what has no place in it. -/
def saveFrame (s : State) (core : Nat) (f : Frame) : State :=
  let x := ctxOf s core f.ctx
  let s := storeAt s 0 (frameLoc s core f.ctx) (frameBytes x.regs x.entry f.act)
  modCtx s core f.ctx (fun x => { x with residue := f.act.map (fun a => ⟨a.wait, a.work, a.triggered, a.msg5, a.startPrio, a.serial⟩) })

/-- Disarms the current activation's watch entries (R360). -/
def dropWatch (s : State) : State :=
  let ctx := ctxId s
  let s := modCore s (home s) (fun k => { k with watch := k.watch.filter (fun w => w.ctx != ctx) })
  if (ctxNow s).watchLost then modCtx s (home s) ctx (fun x => { x with watchLost := false }) else s

/-- The fetches of an activation, as an agent beside its data accesses: their walks and what they have asked are their own (R144). -/
def fetchWho (s : State) : Who := { who s with unit := 8 }

/-- Ends the current activation on its core: its frame holds none, its watch entries are disarmed (R346, R116). A migrated one leaves its
home's registers of the context in the save area, if no slot holds them (R443). -/
def dropAct (s : State) : State :=
  let s := dropWatch (forget (forget (endWalks (endWalks s (who s)) (fetchWho s)) (home s) (ctxId s) 0) (home s) (ctxId s) 8)
  match s.cur.away with
  | none => setActAt s s.cur none
  | some x =>
    let s := modCore s (home s) (fun k => { k with away := k.away.filter (fun f => f.ctx != x) })
    if holdsSlot (coreOf s (home s)) x || (coreOf s (home s)).saveb = 0 then s else saveFrame s (home s) ⟨x, none⟩

/-- A handler address is even and lies in [HLO, HHI) (R99). -/
def handlerOk (e : CtxEntry) (h : Word) : Bool := h.toNat % 2 == 0 && e.hlo.toNat ≤ h.toNat && h.toNat < e.hhi.toNat

/-- What trap delivery does to the trapping activation. -/
inductive Delivery where
  | done (s : State)
  | wait (s : State)
  deriving DecidableEq, Repr

/-- The parts that hold the first bytes of an access. -/
def headPart (ps : List (Nat × Option Nat × Nat)) (n : Nat) : List (Nat × Option Nat × Nat) :=
  match ps with
  | [] => []
  | (pa, m, k) :: r => if n ≤ k then [(pa, m, n)] else (pa, m, k) :: headPart r (n - k)

/-- A fault of a record access escalates (R116, R118); an uncorrectable line of the context ends it (R50, R115). -/
def recordFault (s : State) (phrase : Bool) (c : Cause) (tval : Word) (met : Cause) : State :=
  if met = .uncorrectable then contextEnd s (ctxId s) else privTrap s true phrase c tval

/-- The upcall address that an upcall of a context on a core would start at is a handler, as its entry stands (R41, R118). -/
def upcallOk (s : State) (core ctx : Nat) : Bool :=
  let x := ctxOf (loadEntry s core ctx) core ctx
  handlerOk x.entry x.regs.upcall

/-- A user upcall with fibre (R116), or its escalation (R118), on the home core. A record access that faults after the link was
read leaves CR.FREEL as it was. DESIGN CHOICE, log 74: unsafe. Where no core-map entry names the home core, the record's home logical
address is 0. DESIGN CHOICE, log 85: unsafe. -/
def userUpcall (s : State) (phrase : Bool) (c : Cause) (tval : Word) : Delivery :=
  let rec_ := (regs s).freel
  let a := act s
  let core := home s
  let ctx := ctxId s
  if rec_ = 0 || rec_.toNat % 4096 ≠ 0 || !upcallOk s core ctx then .done (privTrap s true phrase c tval)
  else
    let w := who s
    match resolve s w .load rec_ 4096, resolve s w .store rec_ 4096 with
    | .ok ps _, .ok qs ls =>
      let tstat := tstatWord false phrase a.runsOn.isSome a.priv
      let logical := (logicalOf s (entry s) (nodeOf s core)).getD 0
      match (readParts (commitLeaves s w .store ls) w rec_.toNat (headPart ps.flatten 8)).bind (fun s next =>
          (writeParts s w rec_.toNat qs.flatten (recordBytes a logical c tval tstat)).bind (fun s _ => .ok s next)) with
      | .fault s met _ => .done (recordFault s phrase c tval met)
      | .wait s => .wait s
      | .ok s next =>
        let s := modRegs s (fun x => { x with freel := BitVec.ofNat 64 (leNat next), fibre := rec_ })
        let s := { s with fibres := s.fibres.filter (fun f => !(f.ctx == ctx && f.record == rec_)) ++ [⟨ctx, rec_, a.work, a.triggered, a.serial⟩] }
        let s := dropAct s
        let s30 := (a.getS 30 - 256#64) &&& ~~~(15#64)
        let tc := BitVec.ofNat 64 c.code
        match s.cur.away with
        | none =>
          let s := loadEntry s core ctx
          .done (beginAct s core ctx (fun b =>
            upcallAct b (ctxOf s core ctx).regs.upcall rec_ tc tval s30 a.cr.wid a.cr.wshape a.pc tstat))
        | some _ =>
          .done (modCore (newId s) core (fun k => { k with waiting :=
            ⟨s.ids, ctx, [], 3, 4, true, 0, a.cr.wid, a.cr.wshape, none, .trapped rec_ s30 tc tval a.pc tstat, 0, s.cyc, none⟩ :: k.waiting }))
    | .fault met _, _ => .done (recordFault (endWalks s w) phrase c tval met)
    | .wait va h, _ => .wait (startWalk s w va h)
    | _, .fault met _ => .done (recordFault (endWalks s w) phrase c tval met)
    | _, .wait va h => .wait (startWalk s w va h)

/-- TAKES AN EXCEPTION of the current activation's instruction (R115). -/
def takeTrap (s : State) (phrase : Bool) (c : Cause) (tval : Word) : Delivery :=
  if c = .uncorrectable then .done (contextEnd s (ctxId s))
  else if (act s).priv then .done (privTrap s false phrase c tval)
  else userUpcall s phrase c tval

/-- Returns from a privileged trap (R310): the next state, or the misaligned address. -/
def returnTrap (s : State) : Except Word State :=
  let a := act s
  let t := a.cr.tpc
  if t.toNat % 2 = 1 then .error t
  else .ok (setAct s { a with
    priv := if bit a.cr.tstat 0 then a.priv else false
    cr := { a.cr with tstat := a.cr.tstat &&& ~~~(8#64) }
    pc := t
    wait := none })

/-! ### Issuing an instruction -/

/-- What an instruction's own effect comes to. -/
inductive Res where
  /-- complete: pc moves past the instruction. -/
  | ok (s : State)
  /-- complete: pc becomes the target. -/
  | jump (s : State) (t : Word)
  /-- SPLIT of a phrase member: it resumes alone at the target (R316). -/
  | leave (s : State) (t : Word)
  /-- blocked: issued again later (R78). -/
  | stall (s : State) (w : Wait)
  /-- a trap; the state holds only partial effects that the description states (R115). -/
  | trap (s : State) (c : Cause) (tval : Word)
  /-- the activation has left the core. -/
  | gone (s : State)
  /-- a migration to the full core begins (R86). -/
  | migrate (s : State)
  deriving DecidableEq, Repr

/-- What decode needs to know of an encoding (R279, R280, R39). -/
structure Gate where
  word : Word
  len : Nat
  /-- extension D, extension S. -/
  extD : Bool
  extS : Bool
  /-- names a unit that application cores lack (R29). -/
  engine : Bool
  /-- feature bits that must be accepted (R39). -/
  feats : List Nat
  /-- privileged: CR.TVAL of its PRIV. -/
  priv : Option Word
  deriving DecidableEq, Repr

/-- A base encoding. -/
def baseGate (i : Instr) : Gate := ⟨i.tval, 4, false, false, false, [], none⟩

/-- A 16-bit form: base, of two bytes, with no unit, feature or privilege that decode could refuse. -/
def shortGate : Gate := ⟨0, 2, false, false, false, [], none⟩

/-- The full core a lean core's activation migrates to (R86): one that is neither fenced nor removed. -/
def migrateTarget (s : State) (core : Nat) : Option Nat :=
  let base := core / 8 * 8 + 6
  let first := base + core % 2
  let other := base + (core + 1) % 2
  let up : Nat → Bool := fun c => !partFenced s.module.fenced (.core c) && !(coreOf s c).quiesced
  if up first then some first else if up other then some other else none

/-- Migration to a full core is on for the current activation, and a full core is up (R86, R39). -/
def canMigrate (s : State) : Bool :=
  bit (entry s).migok 0 && featureFor s (ctxId s) 4 && (migrateTarget s (home s)).isSome

/-- The core that the current activation runs on lacks the gate's extension (R279). -/
def lacksExt (s : State) (g : Gate) : Bool :=
  (g.extD && !hasExtD (runCore s)) || (g.extS && !hasExtS (runCore s))

/-- Decode's fates in the order of R280, then the body. -/
def gated (g : Gate) (body : State → Res) (s : State) : Res :=
  if isApp (runCore s) && g.engine then .trap s .illegal g.word
  else if g.feats.any (fun b => !featureFor s (ctxId s) b) then .trap s .illegal g.word
  else if lacksExt s g then if canMigrate s then .migrate s else .trap s .extabsent g.word
  else
    match g.priv with
    | some t => if (act s).priv then body s else .trap s .priv t
    | none => body s

/-- A trap that waits for its fibre record's page (R116). -/
def Wait.trapped (start : Nat) (c : Cause) (tval : Word) (phrase : Bool) : Wait :=
  { Wait.plain start with trap := some (c, tval, phrase) }

/-- Delivers a trap, or leaves it waiting at the instruction (R115, R116). -/
def deliverTrap (s : State) (phrase : Bool) (c : Cause) (tval : Word) : State :=
  match takeTrap s phrase c tval with
  | .done s => s
  | .wait s => modAct s (fun a => { a with wait := some (Wait.trapped s.cyc c tval phrase) })

/-- The activation's wait, or a new one of a kind that starts now; a wait of no kind, for the instruction's release, takes the kind of
what it waits for next (R104). -/
def waitOr (s : State) (kind : Nat) (operand : Word) : Wait :=
  match (act s).wait with
  | some w => if w.kind = 0 ∧ kind ≠ 0 then { w with kind := kind, operand := operand } else w
  | none => { Wait.plain s.cyc with kind := kind, operand := operand }

/-- A member of a phrase holds its core: a donation may have switched to another context (R88). -/
def inPhrase (s : State) (p : Phrase) (c : Nat) : Bool :=
  match (coreOf s c).active with
  | some f => f.ctx == p.ctx && f.act.isSome
  | none => false

/-- The phrase the current core belongs to, if its active activation is a member. -/
def phraseNow (s : State) : Option Phrase :=
  match s.cur.away, (coreOf s (home s)).phrase with
  | none, some p => if inPhrase s p (home s) then some p else none
  | _, _ => none

/-- The current core follows a phrase's leader (R83). -/
def isFollower (s : State) : Bool :=
  match phraseNow s with
  | some p => p.members.head? != some (home s)
  | none => false

/-- Dissolves a phrase: members that have finished the current instruction go on after it (R85). -/
def dissolve (s : State) (p : Phrase) : State :=
  p.members.foldl (fun s c =>
    let s := modCore s c (fun k => { k with phrase := none })
    if p.done.contains c then
      match actAt s ⟨c, none⟩, p.target with
      | some a, some t => setActAt s ⟨c, none⟩ (some { a with pc := t, wait := none })
      | _, _ => s
    else s) s

/-- Ends one instruction of an activation outside any phrase. -/
def finish (g : Gate) (r : Res) : State :=
  match r with
  | .ok s => modAct s (fun a => { a with pc := a.pc + BitVec.ofNat 64 g.len, wait := none })
  | .jump s t => modAct s (fun a => { a with pc := t, wait := none })
  | .leave s t => modAct s (fun a => { a with pc := t, wait := none })
  | .stall s w => modAct s (fun a => { a with wait := some w })
  | .trap s c t => deliverTrap s false c t
  | .gone s => s
  | .migrate s =>
    modCore (modAct s (fun a => { a with wait := none })) (home s) (fun k => { k with migrating := k.migrating ++ [ctxId s] })

/-- The phrase after a change, set in every member. -/
def setPhrase (s : State) (p : Phrase) : State :=
  p.members.foldl (fun s c => modCore s c (fun k => { k with phrase := some p })) s

/-- One member's part of a phrase's instruction (R83, R85): the state, and the phrase unless it has dissolved. -/
def memberStep (g : Gate) (body : State → Res) (s : State) (p : Phrase) (c : Nat) : State × Option Phrase :=
  let s := { s with cur := ⟨c, none⟩ }
  let mark : State → Option Word → State × Option Phrase := fun s t =>
    let p := { p with
      done := p.done ++ [c]
      target := if p.members.head? = some c then t else p.target.orElse (fun _ => t) }
    (setPhrase (modAct s (fun a => { a with wait := none })) p, some p)
  match gated g body s with
  | .ok s => mark s (some ((act s).pc + BitVec.ofNat 64 g.len))
  | .jump s t => mark s (some t)
  | .leave s t =>
    (modCore (modAct s (fun a => { a with pc := t, wait := none })) c (fun k => { k with phrase := none }),
      some { p with members := p.members.filter (· != c) })
  | .stall s w => (modAct s (fun a => { a with wait := some w }), some p)
  | .trap s cause t =>
    let after := p.target.getD ((act s).pc + BitVec.ofNat 64 g.len)
    (dissolve (modCore (deliverTrap s true cause t) c (fun k => { k with phrase := none }))
      { p with members := p.members.filter (· != c), target := some after }, none)
  | .gone s => (p.members.foldl (fun s m => modCore s m (fun k => { k with phrase := none })) s, none)
  | .migrate s => (p.members.foldl (fun s m => modCore s m (fun k => { k with phrase := none })) s, none)

/-- The members of a phrase take the instruction in turn until one leaves the phrase. -/
def phraseStep (g : Gate) (body : State → Res) (s : State) (p : Phrase) : List Nat → State × Option Phrase
  | [] => (s, some p)
  | c :: r =>
    if p.done.contains c || !inPhrase s p c then phraseStep g body s p r
    else
      match memberStep g body s p c with
      | (s, some p) => phraseStep g body s p r
      | (s, none) =>
        -- the phrase has split at this instruction: every other member completes it alone (R85)
        (r.foldl (fun s m =>
          let s := { s with cur := ⟨m, none⟩ }
          match actAt s s.cur with
          | some _ => if p.done.contains m || ctxAt s s.cur != p.ctx then s else finish g (gated g body s)
          | none => s) s, none)

/-- A phrase issues its leader's instruction in every member; an extension opcode splits it before (R83-R85). -/
def issuePhrase (g : Gate) (body : State → Res) (s : State) (p : Phrase) : State :=
  let cur := s.cur
  if g.extD || g.extS then
    let s := dissolve s p
    finish g (gated g body { s with cur := cur })
  else
    let (s, q) := phraseStep g body s p p.members
    let s := match q with
      | none => s
      | some p =>
        if p.members.all (fun c => p.done.contains c) then
          match p.target with
          | none => p.members.foldl (fun s c => modCore s c (fun k => { k with phrase := none })) s
          | some t =>
            setPhrase (p.members.foldl (fun s c => match actAt s ⟨c, none⟩ with
              | some a => setActAt s ⟨c, none⟩ (some { a with pc := t, wait := none })
              | none => s) s) { p with done := [], target := none }
        else s
    { s with cur := cur }

/-- Issues an instruction on the current activation: every instruction's meaning is one call of this.
DESIGN CHOICE, log 56: unsafe. -/
def issue (g : Gate) (body : State → Res) (s : State) : Host.Outcome State Fault Refusal :=
  match actAt s s.cur with
  | none => .fault .noActivation
  | some _ =>
    match phraseNow s with
    | some p => .next (issuePhrase g body s p)
    | none => .next (finish g (gated g body s))

end Sys2Proof.Machine
end

