-- ==== Sys2Proof/Machine/Alu.lean ====
section
/-!
DEFINITION. Machine/Alu.lean: integer register operations, immediates, shifts, LUI and AUIPC (R283-R288).
-/

namespace Sys2Proof.Machine

/-- Division rounded toward zero; divisor 0 gives all ones (R284, R285). -/
def sdivF (x y : BitVec n) : BitVec n := if y = 0 then BitVec.allOnes n else x.sdiv y

/-- Unsigned division; divisor 0 gives all ones (R284, R285). -/
def udivF (x y : BitVec n) : BitVec n := if y = 0 then BitVec.allOnes n else x.udiv y

/-- The high half of the signed product (R284). -/
def mulhF (x y : BitVec n) : BitVec n := BitVec.ofInt n (x.toInt * y.toInt / 2 ^ n)

/-- The high half of the unsigned product (R284). -/
def mulhuF (x y : BitVec n) : BitVec n := BitVec.ofNat n (x.toNat * y.toNat / 2 ^ n)

/-- Rotation left by y modulo the width (R284). -/
def rotlF (x y : BitVec n) : BitVec n := x.rotateLeft (y.toNat % n)

/-- 1 or 0 (R284). -/
def flagF (b : Bool) : BitVec n := if b then 1#n else 0#n

/-- Leading zero bits; the width for 0 (R284). -/
def clzF (x : BitVec n) : BitVec n := BitVec.ofNat n (if x = 0 then n else n - 1 - Nat.log2 x.toNat)

/-- Trailing zero bits; the width for 0 (R284). -/
def ctzF (x : BitVec n) : BitVec n := BitVec.ofNat n (((List.range n).find? (fun i => bit x i)).getD n)

/-- One bits (R284). -/
def popcF (x : BitVec n) : BitVec n := BitVec.ofNat n ((List.range n).filter (fun i => bit x i)).length

/-- Bit i moved to bit n − 1 − i (R284). -/
def brevF (x : BitVec n) : BitVec n := BitVec.ofNat n ((List.range n).foldl (fun acc i => 2 * acc + (bit x i).toNat) 0)

/-- The value of a two-source operation: on 64 bits, or on the low 32 bits and sign-extended (R284). -/
def aluValue (w : Bool) (f : (n : Nat) → BitVec n → BitVec n → BitVec n) (x y : Word) : Word :=
  if w then (f 32 (x.setWidth 32) (y.setWidth 32)).signExtend 64 else f 64 x y

/-- Issues a two-source ALU operation (R283, R284). -/
def alu2 (i : Instr) (w : Bool) (a b c : SReg) (f : (n : Nat) → BitVec n → BitVec n → BitVec n) (s : State) :
    Host.Outcome State Fault Refusal :=
  issue (baseGate i) (fun s => .ok (wS s a (aluValue w f (rS s b) (rS s c)))) s

/-- Issues an operation of sB alone (R284, R286-R288). -/
def alu1 (i : Instr) (a b : SReg) (f : Word → Word) (s : State) : Host.Outcome State Fault Refusal :=
  issue (baseGate i) (fun s => .ok (wS s a (f (rS s b)))) s

/-- ADD (R284). -/
def execAdd (w : Bool) (a b c : SReg) (s : State) : Host.Outcome State Fault Refusal :=
  alu2 (.add w a b c) w a b c (fun _ x y => x + y) s

/-- SUB (R284). -/
def execSub (w : Bool) (a b c : SReg) (s : State) : Host.Outcome State Fault Refusal :=
  alu2 (.sub w a b c) w a b c (fun _ x y => x - y) s

/-- AND (R284). -/
def execAnd (w : Bool) (a b c : SReg) (s : State) : Host.Outcome State Fault Refusal :=
  alu2 (.and w a b c) w a b c (fun _ x y => x &&& y) s

/-- OR (R284). -/
def execOr (w : Bool) (a b c : SReg) (s : State) : Host.Outcome State Fault Refusal :=
  alu2 (.or w a b c) w a b c (fun _ x y => x ||| y) s

/-- XOR (R284). -/
def execXor (w : Bool) (a b c : SReg) (s : State) : Host.Outcome State Fault Refusal :=
  alu2 (.xor w a b c) w a b c (fun _ x y => x ^^^ y) s

/-- ANDN (R284). -/
def execAndn (w : Bool) (a b c : SReg) (s : State) : Host.Outcome State Fault Refusal :=
  alu2 (.andn w a b c) w a b c (fun _ x y => x &&& ~~~y) s

/-- SHL (R284). -/
def execShl (w : Bool) (a b c : SReg) (s : State) : Host.Outcome State Fault Refusal :=
  alu2 (.shl w a b c) w a b c (fun n x y => x <<< (y.toNat % n)) s

/-- SHR (R284). -/
def execShr (w : Bool) (a b c : SReg) (s : State) : Host.Outcome State Fault Refusal :=
  alu2 (.shr w a b c) w a b c (fun n x y => x >>> (y.toNat % n)) s

/-- SAR (R284). -/
def execSar (w : Bool) (a b c : SReg) (s : State) : Host.Outcome State Fault Refusal :=
  alu2 (.sar w a b c) w a b c (fun n x y => x.sshiftRight (y.toNat % n)) s

/-- ROTL (R284). -/
def execRotl (w : Bool) (a b c : SReg) (s : State) : Host.Outcome State Fault Refusal :=
  alu2 (.rotl w a b c) w a b c (fun _ x y => rotlF x y) s

/-- MUL (R284). -/
def execMul (w : Bool) (a b c : SReg) (s : State) : Host.Outcome State Fault Refusal :=
  alu2 (.mul w a b c) w a b c (fun _ x y => x * y) s

/-- MULH (R284). -/
def execMulh (w : Bool) (a b c : SReg) (s : State) : Host.Outcome State Fault Refusal :=
  alu2 (.mulh w a b c) w a b c (fun _ x y => mulhF x y) s

/-- MULHU (R284). -/
def execMulhu (w : Bool) (a b c : SReg) (s : State) : Host.Outcome State Fault Refusal :=
  alu2 (.mulhu w a b c) w a b c (fun _ x y => mulhuF x y) s

/-- DIV (R284, R285). -/
def execDiv (w : Bool) (a b c : SReg) (s : State) : Host.Outcome State Fault Refusal :=
  alu2 (.div w a b c) w a b c (fun _ x y => sdivF x y) s

/-- DIVU (R284, R285). -/
def execDivu (w : Bool) (a b c : SReg) (s : State) : Host.Outcome State Fault Refusal :=
  alu2 (.divu w a b c) w a b c (fun _ x y => udivF x y) s

/-- REM (R284, R285). -/
def execRem (w : Bool) (a b c : SReg) (s : State) : Host.Outcome State Fault Refusal :=
  alu2 (.rem w a b c) w a b c (fun _ x y => x.srem y) s

/-- REMU (R284, R285). -/
def execRemu (w : Bool) (a b c : SReg) (s : State) : Host.Outcome State Fault Refusal :=
  alu2 (.remu w a b c) w a b c (fun _ x y => x % y) s

/-- MIN (R284). -/
def execMin (w : Bool) (a b c : SReg) (s : State) : Host.Outcome State Fault Refusal :=
  alu2 (.min w a b c) w a b c (fun _ x y => if x.slt y then x else y) s

/-- MAX (R284). -/
def execMax (w : Bool) (a b c : SReg) (s : State) : Host.Outcome State Fault Refusal :=
  alu2 (.max w a b c) w a b c (fun _ x y => if x.slt y then y else x) s

/-- MINU (R284). -/
def execMinu (w : Bool) (a b c : SReg) (s : State) : Host.Outcome State Fault Refusal :=
  alu2 (.minu w a b c) w a b c (fun _ x y => if x.ult y then x else y) s

/-- MAXU (R284). -/
def execMaxu (w : Bool) (a b c : SReg) (s : State) : Host.Outcome State Fault Refusal :=
  alu2 (.maxu w a b c) w a b c (fun _ x y => if x.ult y then y else x) s

/-- SLT (R284). -/
def execSlt (w : Bool) (a b c : SReg) (s : State) : Host.Outcome State Fault Refusal :=
  alu2 (.slt w a b c) w a b c (fun _ x y => flagF (x.slt y)) s

/-- SLTU (R284). -/
def execSltu (w : Bool) (a b c : SReg) (s : State) : Host.Outcome State Fault Refusal :=
  alu2 (.sltu w a b c) w a b c (fun _ x y => flagF (x.ult y)) s

/-- SEQ (R284). -/
def execSeq (w : Bool) (a b c : SReg) (s : State) : Host.Outcome State Fault Refusal :=
  alu2 (.seq w a b c) w a b c (fun _ x y => flagF (x == y)) s

/-- CLZ (R284). -/
def execClz (w : Bool) (a b : SReg) (s : State) : Host.Outcome State Fault Refusal :=
  alu1 (.clz w a b) a b (fun x => aluValue w (fun _ x _ => clzF x) x 0) s

/-- CTZ (R284). -/
def execCtz (w : Bool) (a b : SReg) (s : State) : Host.Outcome State Fault Refusal :=
  alu1 (.ctz w a b) a b (fun x => aluValue w (fun _ x _ => ctzF x) x 0) s

/-- POPC (R284). -/
def execPopc (w : Bool) (a b : SReg) (s : State) : Host.Outcome State Fault Refusal :=
  alu1 (.popc w a b) a b (fun x => aluValue w (fun _ x _ => popcF x) x 0) s

/-- BREV (R284). -/
def execBrev (w : Bool) (a b : SReg) (s : State) : Host.Outcome State Fault Refusal :=
  alu1 (.brev w a b) a b (fun x => aluValue w (fun _ x _ => brevF x) x 0) s

/-- SEXTB (R284). -/
def execSextb (a b : SReg) (s : State) : Host.Outcome State Fault Refusal :=
  alu1 (.sextb a b) a b (fun x => (x.setWidth 8).signExtend 64) s

/-- SEXTH (R284). -/
def execSexth (a b : SReg) (s : State) : Host.Outcome State Fault Refusal :=
  alu1 (.sexth a b) a b (fun x => (x.setWidth 16).signExtend 64) s

/-- SEXTW (R284). -/
def execSextw (a b : SReg) (s : State) : Host.Outcome State Fault Refusal :=
  alu1 (.sextw a b) a b (fun x => (x.setWidth 32).signExtend 64) s

/-- ZEXTW (R284). -/
def execZextw (a b : SReg) (s : State) : Host.Outcome State Fault Refusal :=
  alu1 (.zextw a b) a b (fun x => (x.setWidth 32).setWidth 64) s

/-- ADDI (R286). -/
def execAddi (a b : SReg) (imm : BitVec 14) (s : State) : Host.Outcome State Fault Refusal :=
  alu1 (.addi a b imm) a b (fun x => x + imm.signExtend 64) s

/-- ANDI (R286). -/
def execAndi (a b : SReg) (imm : BitVec 14) (s : State) : Host.Outcome State Fault Refusal :=
  alu1 (.andi a b imm) a b (fun x => x &&& imm.signExtend 64) s

/-- ORI (R286). -/
def execOri (a b : SReg) (imm : BitVec 14) (s : State) : Host.Outcome State Fault Refusal :=
  alu1 (.ori a b imm) a b (fun x => x ||| imm.signExtend 64) s

/-- XORI (R286). -/
def execXori (a b : SReg) (imm : BitVec 14) (s : State) : Host.Outcome State Fault Refusal :=
  alu1 (.xori a b imm) a b (fun x => x ^^^ imm.signExtend 64) s

/-- SLTI (R286). -/
def execSlti (a b : SReg) (imm : BitVec 14) (s : State) : Host.Outcome State Fault Refusal :=
  alu1 (.slti a b imm) a b (fun x => flagF (x.slt (imm.signExtend 64))) s

/-- SHLI (R287). -/
def execShli (a b : SReg) (n : BitVec 6) (s : State) : Host.Outcome State Fault Refusal :=
  alu1 (.shli a b n) a b (fun x => x <<< n.toNat) s

/-- SHRI (R287). -/
def execShri (a b : SReg) (n : BitVec 6) (s : State) : Host.Outcome State Fault Refusal :=
  alu1 (.shri a b n) a b (fun x => x >>> n.toNat) s

/-- SARI (R287). -/
def execSari (a b : SReg) (n : BitVec 6) (s : State) : Host.Outcome State Fault Refusal :=
  alu1 (.sari a b n) a b (fun x => x.sshiftRight n.toNat) s

/-- ROTLI (R287). -/
def execRotli (a b : SReg) (n : BitVec 6) (s : State) : Host.Outcome State Fault Refusal :=
  alu1 (.rotli a b n) a b (fun x => x.rotateLeft n.toNat) s

/-- sext(imm19 << 13) (R288). -/
def upperImm (imm : BitVec 19) : Word := (BitVec.ofNat 32 (imm.toNat * 2 ^ 13)).signExtend 64

/-- LUI (R288). -/
def execLui (a : SReg) (imm : BitVec 19) (s : State) : Host.Outcome State Fault Refusal :=
  issue (baseGate (.lui a imm)) (fun s => .ok (wS s a (upperImm imm))) s

/-- AUIPC (R288). -/
def execAuipc (a : SReg) (imm : BitVec 19) (s : State) : Host.Outcome State Fault Refusal :=
  issue (baseGate (.auipc a imm)) (fun s => .ok (wS s a ((act s).pc + upperImm imm))) s

end Sys2Proof.Machine
end

