-- ==== Sys2Proof/Machine/Net.lean ====
section
/-!
DEFINITION. Machine/Net.lean: the order of packets in flight (R22, R25, R46), the sending table and its count packets (R158-R161),
messages and their acceptance (R42-R46, R73), header flits (R16), and what an ordering instruction waits for (R150, R153).
-/

namespace Sys2Proof.Machine

/-! ### Order in flight -/

/-- A packet carries a message (R46). -/
def isMessage (p : Packet) : Bool :=
  match p.payload with
  | .message _ _ _ _ _ _ _ _ _ => true
  | .fibre _ _ _ _ _ => true
  | .fibrePart _ _ _ => true
  | .wake _ _ _ => true
  | _ => false

/-- The clause whose engine sent a drain write or wake (R222). -/
def drainOf (p : Packet) : Option Nat :=
  match p.payload with
  | .drain _ _ _ => some (p.src.addr / 8)
  | .wake _ _ _ => some (p.src.addr / 8)
  | _ => none

/-- The scratchpad line that a remote store or load request touches. -/
def farLine (p : Packet) : Option Nat :=
  match p.payload with
  | .store off _ _ _ => some (off / 64)
  | .flag off _ _ _ => some (off / 64)
  | .loadReq off _ _ _ => some (off / 64)
  | _ => none

/-- Two packets that the receiving interface takes in order of arrival: steps of one collective, and packets of every other
kind; an abort notice waits for nothing (R25, R232). -/
def takenInOrder (p q : Packet) : Bool :=
  match p.payload, q.payload with
  | .abort _ _, _ => false
  | _, .abort _ _ => false
  | .step i _ _ _, .step j _ _ _ => i == j
  | .step _ _ _ _, _ => false
  | _, .step _ _ _ _ => false
  | _, _ => true

/-- The node a packet goes to now: the successor's, once its core is removed (R66, R90). -/
def liveDst (s : State) (d : Node) : Node :=
  match takerOf s d with
  | some c => if localOf s d = some c then d else nodeOf s c
  | none => d

/-- Two packets come from one source: one node, or the node that a removed one's work has passed to (R90, R91). -/
def sameSource (s : State) (p q : Packet) : Bool := p.src == q.src || liveDst s p.src == liveDst s q.src

/-- Two packets on one trip round the ring: one plane and direction, from one stop to one stop (R22). -/
def sameTrip (s : State) (p q : Packet) : Bool :=
  planeOf p == planeOf q && p.dir == q.dir && p.ring.entry == q.ring.entry && exitStop s p == exitStop s q

/-- An earlier packet must go first. On the ring: one that entered it earlier on the same trip (R22). At the destination: one of the
same source and path (R25), an earlier message of the same source wherever it stands (R46, R242), or an earlier remote access of the
source to the same line (R150, R158), or an earlier drain packet of the same engine (R222). On the mesh: one of the same source,
destination and path. DESIGN CHOICE, log 13: unsafe. -/
def behind (s : State) (n : Nat) (p : Packet) : Bool :=
  match p.pos with
  | .stop k _ =>
    s.net.any (fun m => (match m.2.pos with
      | .stop j _ => j == k && m.2.ring.stamp < p.ring.stamp && sameTrip s m.2 p
      | _ => false))
  | .arrived =>
    s.net.any (fun m => m.1 < n && liveDst s m.2.dst == liveDst s p.dst &&
      ((sameSource s m.2 p && ((m.2.path == p.path && m.2.pos == .arrived && takenInOrder m.2 p) ||
       (isMessage m.2 && isMessage p) || (m.2.ctx == p.ctx && (farLine p).isSome && farLine m.2 == farLine p))) ||
       ((drainOf p).isSome && drainOf m.2 == drainOf p)))
  | pos => s.net.any (fun m => m.1 < n && m.2.src == p.src && m.2.dst == p.dst && m.2.path == p.path && m.2.pos == pos)

/-- A core takes packets: it is neither fenced nor quiesced (R51, R90). -/
def coreTakes (s : State) (c : Nat) : Bool := !(coreOf s c).quiesced && !partFenced s.module.fenced (.core c)

/-- A packet answers one that its destination has sent. -/
def isAnswer (p : Packet) : Bool :=
  match p.payload with
  | .ack _ _ _ => true
  | .reply _ _ _ _ _ => true
  | .unbacked _ _ _ _ => true
  | .accepted _ _ => true
  | .portReply _ _ _ _ => true
  | _ => false

/-- A core takes a packet: a quiesced core takes answers alone, so that its accesses come to an end (R90, R162). -/
def takes (s : State) (c : Nat) (p : Packet) : Bool :=
  coreTakes s c || (isAnswer p && !partFenced s.module.fenced (.core c))

/-- A packet that has arrived at a core of this module and is the next to be taken there, with that core. -/
def arrivedAt (s : State) (n : Nat) : Option (Packet × Nat) :=
  match tget s.net n with
  | none => none
  | some p =>
    match takerOf s p.dst with
    | none => none
    | some c => if p.pos = .arrived ∧ !behind s n p ∧ takes s c p then some (p, c) else none

/-! ### Remote stores and their paths (R158, R159, R161) -/

/-- The path of an unacknowledged remote store of a source to a line of a context at a destination, if there is one (R158). -/
def openPath (s : State) (src dst : Node) (ctx line : Nat) : Option Nat :=
  let ofPkt : Packet → Option Nat := fun p =>
    if p.ctx ≠ ctx then none
    else
      match p.payload with
      | .store off _ _ _ => if p.src = src ∧ p.dst = dst ∧ off / 64 = line then some p.path else none
      | .flag off _ _ _ => if p.src = src ∧ p.dst = dst ∧ off / 64 = line then some p.path else none
      | .ack _ off path => if p.src = dst ∧ p.dst = src ∧ off / 64 = line then some path else none
      | _ => none
  let held : List Packet := match takerOf s dst with
    | some c => (coreOf s c).ctxs.flatMap (fun x => x.2.heldFlags.map (·.packet))
    | none => []
  ((s.net.map (·.2)) ++ held).findSome? ofPkt

/-- Flits that a router has sent on a path's channel to the next router, or to its edge port where it is the last, and that the next
hop has not passed on: what the channel's credits have fallen by (R25). -/
def channelUse (s : State) (die from_ path next_ plane : Nat) (last : Bool) : Nat :=
  s.net.foldl (fun n q =>
    let here := match q.2.pos with
      | .mesh d c _ => !last && d == die && c == next_
      | .inject k => last && k == Config.dieStop die && planeOf q.2 == plane
      | _ => false
    if here && q.2.path == path && q.2.via == some from_ then n + flitsOf q.2 else n) 0

/-- The path of a remote store or load request: the open one, else the one whose first output has most free credits, the
channels of a router being equally deep (R25, R158). DESIGN CHOICE, log 22: unsafe. -/
def choosePath (s : State) (src dst : Node) (ctx line : Nat) : Nat :=
  match openPath s src dst ctx line with
  | some p => p
  | none =>
    if src.host then 0
    else
      let plane := planeOf (mkPacket src dst 0 0 0 0 (.abort 0 false))
      let from_ := clauseInDie src
      let near := src.addr / 1024 == dst.addr / 1024 && !dst.host
      let to_ := if near then clauseInDie dst else portRouter plane
      if near && from_ == to_ then 0
      else
        let use : Nat → Nat := fun k => channelUse s (src.addr % 8192 / 1024) from_ k (meshNext k from_ to_) plane (from_ == to_)
        (bestBy (fun a b => use a < use b) [0, 1, 2, 3]).getD 0

/-- Adds one to a path's count. -/
def bumpPath (cs : List Nat) (path : Nat) : List Nat :=
  (List.range 4).map (fun i => cs.getD i 0 + if i = path then 1 else 0)

/-- Sends a count packet for a sending-table entry (R161): path 0, ordflag, nothing stored. -/
def sendCount (s : State) (core : Nat) (e : SendEntry) (agent : AgentId) : State :=
  sendPkt s (nodeOf s core) e.dst e.ctx 4 0 (.count e.counts agent)

/-- The sending-table entry of a core for a destination core and context (R159). -/
def sendEntry (s : State) (core : Nat) (dst : Node) (ctx : Nat) : Option SendEntry :=
  (coreOf s core).sendTab.find? (fun e => e.dst == dst && e.ctx == ctx)

/-- Counts a remote store on a path, the packet of a number, in the sending table of a core (R159, R161). -/
def countSend (s : State) (core : Nat) (dst : Node) (ctx path : Nat) (agent : AgentId) (num : Nat) : State :=
  let is : SendEntry → Bool := fun e => e.dst == dst && e.ctx == ctx
  let fresh : SendEntry := ⟨dst, ctx, bumpPath [0, 0, 0, 0] path, s.cyc, num⟩
  match sendEntry s core dst ctx with
  | some e =>
    if e.counts.getD path 0 = 65535 then
      modCore (sendCount s core e agent) core (fun k => { k with sendTab := replaceFirst is (fun _ => fresh) k.sendTab })
    else
      modCore s core (fun k => { k with sendTab := replaceFirst is (fun e => { e with counts := bumpPath e.counts path, used := s.cyc }) k.sendTab })
  | none =>
    if (coreOf s core).sendTab.length < 16 then modCore s core (fun k => { k with sendTab := k.sendTab ++ [fresh] })
    else
      match bestBy (fun a b => a.used < b.used) (coreOf s core).sendTab with
      | none => s
      | some old =>
        modCore (sendCount s core old agent) core (fun k => { k with sendTab := removeFirst (· == old) k.sendTab ++ [fresh] })

/-- Sends one remote store, counted on its path (R113, R158, R159). -/
def remoteStore (s : State) (core : Nat) (dst : Node) (ctx scope off : Nat) (bs : List Byte) (holes : List Nat)
    (agent : AgentId) : State :=
  let src := nodeOf s core
  let path := choosePath s src dst ctx (off / 64)
  let t := launchPacket s (mkPacket src dst ctx scope path 0 (.store off bs holes agent))
  countSend t core dst ctx path agent s.ids

/-- CR.PATHCNT of four counts (R163). -/
def pathWord (cs : List Nat) : Word :=
  BitVec.ofNat 64 (cs.getD 0 0 + cs.getD 1 0 * 2 ^ 16 + cs.getD 2 0 * 2 ^ 32 + cs.getD 3 0 * 2 ^ 48)

/-- Sends an ordered flag with its entry's counts and zeroes the entry (R159): the counts sent. -/
def remoteFlag (s : State) (core : Nat) (dst : Node) (ctx scope off : Nat) (bs : List Byte) (agent : AgentId) : State × List Nat :=
  let is : SendEntry → Bool := fun e => e.dst == dst && e.ctx == ctx
  let cs := match sendEntry s core dst ctx with
    | some e => e.counts
    | none => [0, 0, 0, 0]
  let src := nodeOf s core
  let path := choosePath s src dst ctx (off / 64)
  let s := launchPacket s (mkPacket src dst ctx scope path 0 (.flag off bs cs agent))
  (modCore s core (fun k => { k with sendTab := k.sendTab.filter (fun e => !is e) }), cs)

/-! ### What releases wait for (R150, R152, R153) -/

/-- The agent of an access in the network that its home has not performed. -/
def pendingAgent (p : Packet) : Option AgentId :=
  match p.payload with
  | .store _ _ _ a => some a
  | .flag _ _ _ a => some a
  | .atomic _ _ _ _ _ _ a => some a
  | .loadReq _ _ _ a => some a
  | .memAccess _ _ _ _ _ _ a => some a
  | .memAtomic _ _ _ _ _ _ _ a => some a
  | .memLock _ _ _ _ a => some a
  | .memUnlock _ _ _ _ a => some a
  | _ => none

/-- An access of an agent that its home has not performed: still in the network. -/
def remotePending (agent : AgentId) (p : Packet) : Bool :=
  match pendingAgent p with
  | some a => sameAgent a agent
  | none => false

/-- Ordered flags of an agent held at their destinations (R160). -/
def flagsHeld (s : State) (agent : AgentId) : Bool :=
  s.cores.any (fun c => c.2.ctxs.any (fun x => x.2.heldFlags.any (fun h => remotePending agent h.packet)))

/-- A packet is a remote store counted in a sending-table entry: one to its destination and context, sent since the entry's counts
were last zeroed (R159, R161). -/
def countedIn (e : Option SendEntry) (n : Nat) (p : Packet) : Bool :=
  match e, p.payload with
  | some e, .store _ _ _ _ => p.dst == e.dst && p.ctx == e.ctx && e.since ≤ n
  | _, _ => false

/-- Every earlier access of an agent has been performed at its home, but for the remote stores counted in an entry (R159). -/
def performedBut (s : State) (agent : AgentId) (e : Option SendEntry) : Bool :=
  !s.reqs.any (fun r => sameAgent r.2.agent agent && !r.2.performed) &&
  !s.net.any (fun p => remotePending agent p.2 && !countedIn e p.1 p.2) &&
  !flagsHeld s agent

/-- A remote store, atomic or flag of an agent, or its acknowledgement on the way back (R153). -/
def unackedPkt (agent : AgentId) (p : Packet) : Bool :=
  match p.payload with
  | .loadReq _ _ _ _ => false
  | .ack a _ _ => sameAgent a agent
  | .reply 8 _ _ _ a => sameAgent a agent
  | .reply 9 _ _ _ a => sameAgent a agent
  | .unbacked _ _ _ a => sameAgent a agent
  | _ => remotePending agent p

/-- Some remote store or remote atomic of an agent has not been acknowledged by its home (R153). -/
def unackedAny (s : State) (agent : AgentId) : Bool := flagsHeld s agent || s.net.any (fun p => unackedPkt agent p.2)

/-- Every earlier access of an agent has been performed at its home: what a release waits for (R152). -/
def performed (s : State) (agent : AgentId) : Bool := performedBut s agent none

/-- The current activation's agent. -/
def agentNow (s : State) : AgentId := (who s).agent

/-- A release of the current activation may go on, whatever its scope and that of the acquire (R156). DESIGN CHOICE, log 78: unsafe. -/
def released (s : State) : Bool := performed s (agentNow s)

/-- An acquire of the current activation empties its read-line buffer (R151). -/
def acquire (s : State) : State := modAct s (fun a => { a with rlb := [] })

/-! ### Messages (R42-R46, R73) -/

/-- Bytes a message takes in the register-and-queue units: its words and a header line. -/
def msgBytes (m : Msg) : Nat := 64 + 8 * m.words.length

/-- The room a core's units leave for messages of a context: all of them. DEDUCED, log 23: unsafe. -/
def msgRoom (s : State) (core ctx : Nat) : Nat := partQ (partOf s core ctx) * 16384

/-- Bytes of a context's messages buffered at a core or on their way to it. -/
def msgLoad (s : State) (core ctx : Nat) : Nat :=
  let here := ((coreOf s core).waiting.filter (fun m => m.ctx == ctx)).foldl (fun n m => n + msgBytes m) 0
  let node := nodeOf s core
  s.net.foldl (fun n p => match p.2.payload with
    | .message ws _ _ _ _ _ _ _ _ => if p.2.dst = node ∧ p.2.ctx = ctx then n + 64 + 8 * ws.length else n
    | .wake ws _ _ => if p.2.dst = node ∧ p.2.ctx = ctx then n + 64 + 8 * ws.length else n
    | _ => n) here

/-- Messages in an application core's receive queue or on their way to it (R30). -/
def hostLoad (s : State) (core : Nat) : Nat :=
  let node := nodeOf s core
  (coreOf s core).hostq.length + (s.net.filter (fun p => p.2.dst == node)).length

/-- The receiver of a message can buffer it (R343, R30, R73). -/
def canBuffer (s : State) (dst : Node) (ctx words : Nat) : Bool :=
  match takerOf s dst with
  | none => true
  | some c => if isApp c then hostLoad s c < 256 else msgLoad s c ctx + 64 + 8 * words ≤ msgRoom s c ctx

/-- Sends a message from a core (R343): it is unacknowledged until its acceptance returns (R46). -/
def sendMsg (s : State) (core : Nat) (dst : Node) (ctx scope mprio : Nat) (ws : List Word) (code : Bool) (nosrc : Bool) (src : Nat) : State :=
  let node := nodeOf s core
  let p := mkPacket node dst ctx scope 0 mprio (.message ws code 1 nosrc src 0 0 none s.ids)
  let seq := s.ids
  modCore (launchPacket s p) core (fun k => { k with unacked := k.unacked ++ [⟨seq, dst, p⟩] })

/-- Returns a message's acceptance to its sender, with SENDW's status (R46, R344). -/
def acceptMsg (s : State) (core : Nat) (m : Msg) (status : Nat) : State :=
  match m.sender with
  | some (n, seq) => sendPkt s (nodeOf s core) n m.ctx 4 0 (.accepted seq status)
  | none => s

/-- A message for a context, as it waits at a core. -/
def engineMsg (s : State) (ctx : Nat) (ws : List Word) (origin mprio : Nat) (st : StartKind) : Msg :=
  ⟨s.ids, ctx, ws, origin, mprio, true, 0, 0, 0, none, st, 0, s.cyc, none⟩

/-- Puts a message among a core's waiting ones, in arrival order. -/
def enqueueMsg (s : State) (core : Nat) (m : Msg) : State :=
  modCore (newId s) core (fun k => { k with waiting := k.waiting ++ [{ m with id := s.ids }] })

/-- The highest effective priority of a message that counts for MWAIT and R74 within a context (R77). -/
def effPrio (m : Msg) : Nat := Nat.min 3 (m.mprio + m.aged)

/-- What a message's arrival at a core does to its blocked activations: WFE and HALT end; MWAIT of the same context ends
with reason 2 if the message's priority suffices (R311, R314, R361). -/
def arrivalWakes (s : State) (core ctx prio : Nat) : State :=
  modCore s core (fun k => mapWaits k (fun c a w =>
    if w.kind = 8 || w.kind = 9 || w.kind = 15 then { w with woke := true }
    else if w.kind = 5 && c == ctx && a.startPrio ≤ prio then { w with out := true }
    else w))

/-- Application core 0's receive queue is full (R30). -/
def noticeQueueFull (s : State) : Bool := 256 ≤ (coreOf s Config.computeCores).hostq.length

/-- Puts a notice of a kind to application core 0 (R44): delivered in order; while its receive queue is full, at most 64 are held. -/
def notice (s : State) (kind : Nat) (ws : List Word) : State :=
  if s.module.notices.length < 64 || !noticeQueueFull s then
    { s with module := { s.module with notices := s.module.notices ++ [BitVec.ofNat 64 kind :: ws] } }
  else { s with module := { s.module with noticesLost := s.module.noticesLost + 1 } }

/-- The packet kind of R16. DESIGN CHOICE, log 13: unsafe. -/
def kindOf (p : Packet) : Nat :=
  match p.payload with
  | .message _ _ _ _ _ _ _ _ _ => 0 | .store _ _ _ _ => 1 | .flag _ _ _ _ => 1 | .count _ _ => 1 | .loadReq _ _ _ _ => 2
  | .reply k _ _ _ _ => k | .memAccess _ _ _ w _ _ _ => (if w then 4 else 5) | .atomic _ _ _ _ _ _ _ => 7
  | .memAtomic _ _ _ _ _ _ _ _ => 7 | .memLock _ _ _ _ _ => 7 | .memUnlock _ _ _ _ _ => 7 | .unbacked k _ _ _ => k | .ack _ _ _ => 9
  | .port _ k _ _ => k | .portReply _ k _ _ => k
  | .step _ _ _ _ => 10 | .abort _ _ => 10 | .drain _ _ _ => 11 | .wake _ _ _ => 12 | .change _ _ _ => 1 | .value _ _ _ => 1
  | .accepted _ _ => 9 | .channel _ => 0 | .fibre _ _ _ _ _ => 0 | .fibrePart _ _ _ => 0

/-- Bits [63:0] of a packet's header flit (R16). -/
def headerWord (p : Packet) : Word :=
  let ord := match p.payload with
    | .flag _ _ _ _ => 1 | .count _ _ => 1
    | _ => 0
  let code := match p.payload with
    | .message _ c _ _ _ _ _ _ _ => c.toNat
    | _ => 0
  BitVec.ofNat 64 (kindOf p + lenOf p % 32 * 2 ^ 4 + p.vc.toNat * 2 ^ 9 + p.dir.toNat * 2 ^ 10 + code * 2 ^ 11 + ord * 2 ^ 12 +
    p.mprio % 4 * 2 ^ 13 + p.path % 4 * 2 ^ 15 + p.scope % 8 * 2 ^ 17 + p.ctx % 4096 * 2 ^ 20 +
    (if (memoryAddr p).isSome then 0 else p.dst.addr % 2 ^ 21 * 2 ^ 32) +
    p.src.addr % 2 ^ 21 * 2 ^ 53)

/-- The scratchpad offset a core-addressed packet names, for its header (R16). -/
def headerOff (p : Packet) : Nat :=
  match p.payload with
  | .store off _ _ _ => off
  | .flag off _ _ _ => off
  | .loadReq off _ _ _ => off
  | .atomic off _ _ _ _ _ _ => off
  | .ack _ off _ => off
  | _ => 0

/-- The counts a flag or count packet carries (R159, R161). -/
def carried (p : Packet) : List Nat :=
  match p.payload with
  | .flag _ _ cs _ => cs
  | .count cs _ => cs
  | _ => []

/-- A packet's header flit of 512 bits (R16): `reserved` holds what a damaged header has in its reserved fields. -/
def headerFlit (p : Packet) : BitVec 512 :=
  let check := match p.payload with
    | .step _ _ c _ => c
    | _ => 0
  let addr := match memoryAddr p with
    | some pa => pa % 2 ^ 48
    | none => headerOff p % 2 ^ 20
  BitVec.ofNat 512 ((headerWord p).toNat + p.src.addr / 2 ^ 11 % 2 ^ 10 * 2 ^ 64 + p.src.host.toNat * 2 ^ 74 + p.dst.host.toNat * 2 ^ 75 +
    addr * 2 ^ 80 + (pathWord (carried p)).toNat * 2 ^ 128 + check % 2 ^ 32 * 2 ^ 224 + p.reserved % 2 ^ 256 * 2 ^ 256)

/-- The event-vector home of a context: the die entry 0 of its core map names, on this module (R55). -/
def homeDie (s : State) (ctx : Nat) : Option Nat :=
  let e := { CtxEntry.zero with cmapb := ctxWord s ctx 3, cmapn := ctxWord s ctx 4 }
  match cmapEntry s e 0 with
  | some n => if n.host then none else some (n.addr / 1024)
  | none => none

/-- A sender's copy of a message goes: its acceptance has come, or it is discarded (R46). -/
def dropCopy (s : State) (core seq : Nat) : State :=
  modCore s core (fun k => { k with unacked := k.unacked.filter (fun u => u.seq != seq) })

/-- A message of a context whose state is not 1 is discarded at its destination: a notice of kind 1 with its header and first word, and
its sender's copy goes (R43). -/
def discardMsg (s : State) (header : Word) (m : Msg) (dst : Nat) : State :=
  let s := notice s 1 [header, m.words.headD 0, BitVec.ofNat 64 m.ctx, BitVec.ofNat 64 dst]
  match m.sender.bind (fun d => (takerOf s d.1).map (fun c => (c, d.2))) with
  | some (c, seq) => dropCopy s c seq
  | none => s

end Sys2Proof.Machine
end

