-- ==== Sys2Proof/Machine/Launch.lean ====
section
/-!
DEFINITION. Machine/Launch.lean: event vectors (R55, R56, R70, R71) and launches from acceptance to retirement (R57-R69, R45).
-/

namespace Sys2Proof.Machine

/-! ### The descriptor (R57-R59) -/

/-- The width of field f of a shape word (R58). -/
def fieldWidth (shape : Word) (f : Nat) : Nat := bits shape (6 * f + 5) (6 * f)

/-- The lowest bit of field f of a work id (R59). -/
def fieldOff (shape : Word) (f : Nat) : Nat := ((List.range f).map (fieldWidth shape)).sum

/-- The extent of field f (R59). -/
def extent (shape ext : Word) (f : Nat) : Nat := ext.toNat / 2 ^ fieldOff shape f % 2 ^ fieldWidth shape f + 1

/-- The number of activations of a launch (R59). -/
def launchTotal (ws : List Word) : Nat :=
  (List.range 6).foldl (fun n f => n * extent (ws.getD 1 0) (ws.getD 2 0) f) 1

/-- The work id of an index in order of generation: field 0 is innermost (R59, R63). -/
def workId (shape ext : Word) (idx : Nat) : Word :=
  BitVec.ofNat 64 ((List.range 6).foldl (fun (acc : Nat × Nat) f =>
    let x := extent shape ext f
    (acc.1 + acc.2 % x * 2 ^ fieldOff shape f, acc.2 / x)) (0, idx)).1

/-- A 256-bit mask of four descriptor words (R57). -/
def maskOf (ws : List Word) (first : Nat) : EvVec :=
  BitVec.ofNat 256 ((ws.getD first 0).toNat + (ws.getD (first + 1) 0).toNat * 2 ^ 64 +
    (ws.getD (first + 2) 0).toNat * 2 ^ 128 + (ws.getD (first + 3) 0).toNat * 2 ^ 192)

/-- The wait mask. -/
def Launch.waitMask (l : Launch) : EvVec := maskOf l.words 4
/-- The set mask. -/
def Launch.setMask (l : Launch) : EvVec := maskOf l.words 8
/-- The shape word. -/
def Launch.shape (l : Launch) : Word := l.words.getD 1 0
/-- CONSUME (R58). -/
def Launch.consume (l : Launch) : Bool := bit l.shape 38
/-- RERUN (R58). -/
def Launch.rerun (l : Launch) : Bool := bit l.shape 39

/-- The core that an activation index goes to (R64, R65), by the deal as it stood at acceptance. -/
def dealt (l : Launch) (idx : Nat) : Nat :=
  let x0 := extent l.shape (l.words.getD 2 0) 0
  let g := idx / x0
  let f0 := idx % x0
  let cl := l.deal.getD (g % Nat.max l.deal.length 1) (0, [])
  cl.2.getD (f0 % Nat.max cl.2.length 1) 0

/-- The clauses of a core-group mask on this module with their eligible cores, sorted by die · 128 + clause (R64, R65). -/
def clauseDeal (s : State) (mask : Word) (needD needS : Bool) : List (Nat × List Nat) :=
  ((List.range 64).filter (fun g => bit mask g)).flatMap (fun g =>
    (List.range 16).filterMap (fun i =>
      let cl := g / 8 * 128 + g % 8 * 16 + i
      let cores := (List.range 8).filterMap (fun k =>
        let c := cl * 8 + k
        if partFenced s.module.fenced (.core c) || (needD && !hasExtD c) || (needS && !hasExtS c) then none else some c)
      if cores.isEmpty then none else some (cl, cores)))

/-! ### Event vectors -/

/-- The launch unit's die that serves a core, if it is a compute core of this module. -/
def unitOf (core : Nat) : Option Nat := if isApp core then none else some (dieOfCore core)

/-- The launch unit that holds a die's queues: its own, or that of the next live die after a die fault (R47). -/
def liveDie (s : State) (d : Nat) : Nat :=
  (((List.range 8).map (fun i => (d + i) % 8)).find? (fun d => !partFenced s.module.fenced (.die d))).getD d

/-- The live local die that stands for a die of the system, if it belongs to this module. -/
def localDie (s : State) (d : Nat) : Option Nat := if d / 8 = moduleNumber s then some (liveDie s (d % 8)) else none

/-- The local die that is the home of a context's vector. DESIGN CHOICE, log 34: unsafe. -/
def localHome (s : State) (ctx : Nat) : Option Nat := (homeDie s ctx).bind (localDie s)

/-- The vector as a launch unit holds it: as home, or its mirror (R55, R350). -/
def vectorAt (s : State) (ctx : Nat) (die : Option Nat) : EvVec :=
  match die with
  | some d => if localHome s ctx = some d then tgetD s.evec ctx 0 else tgetD (dieOf s d).mirrors ctx (tgetD s.evec ctx 0)
  | none => tgetD s.evec ctx 0

/-- N of a descriptor (R246). -/
def Desc.count (d : Desc) : Nat := bits d.e0 35 20 + 1

/-- The location of record i of a descriptor (R247). -/
def recordLoc (s : State) (core ctx : Nat) (d : Desc) (i : Nat) : Nat :=
  scratchBase core (partOf s core ctx) + bits d.e0 19 0 + 16 * i

/-- The context word of element i (R247). -/
def elemWord (s : State) (core ctx : Nat) (d : Desc) (i : Nat) : Word := readWord s (recordLoc s core ctx d i + 8)

/-- Some element of a descriptor awaits an event bit that is set (R248). -/
def evtDue (s : State) (core ctx : Nat) (d : Desc) (v : EvVec) : Bool :=
  (List.range d.count).any (fun i =>
    let w := elemWord s core ctx d i
    bits w 11 8 == 3 && bit v (bits w 39 32))

/-- Some element of a descriptor awaits an event bit (R248). -/
def evtLane (s : State) (core ctx : Nat) (d : Desc) : Bool := (List.range d.count).any (fun i => bits (elemWord s core ctx d i) 11 8 == 3)

/-- A sweep needs to run: its descriptor joins the rotation at its tail, from beat 0 (R253, R255). -/
def needSweep (s : State) (core ctx t : Nat) : State :=
  let s := modCtx s core ctx (fun x => { x with descs := match tget x.descs t with
    | some d => tset x.descs t { d with active := true, asleep := false, beat := 0, ran := false, missed := false }
    | none => x.descs })
  modCore s core (fun k => { k with rotation := k.rotation ++ [(ctx, t)] })

/-- Sleeping sweeps of a context that await an event bit which is now set start their next sweep (R253). -/
def parserWakes (s : State) (ctx die : Nat) (v : EvVec) : State :=
  let due := s.cores.flatMap (fun c =>
    if unitOf c.1 = some die then
      ((tgetD c.2.ctxs ctx CtxCore.init).descs.filter (fun d => d.2.asleep && evtDue s c.1 ctx d.2 v)).map (fun d => (c.1, d.1))
    else [])
  due.foldl (fun s d => needSweep s d.1 ctx d.2) s

/-- WFE of a context ends when the vector changes at its core's launch unit (R314), and sleeping sweeps may wake (R253). -/
def vectorWakes (s : State) (ctx : Nat) (die : Nat) : State :=
  let s := { s with cores := s.cores.map (fun c =>
      (c.1, if unitOf c.1 = some die || isApp c.1 then
        mapWaits c.2 (fun x _ w => if x == ctx && w.kind == 9 then { w with woke := true } else w)
      else c.2)) }
  parserWakes s ctx die (vectorAt s ctx (some die))

/-- Changes a launch. -/
def modLaunch (s : State) (die seq : Nat) (f : Launch → Launch) : State :=
  { s with launches := replaceFirst (fun l => l.die == die && l.seq == seq) f s.launches }

/-- A launch. -/
def launchOf (s : State) (die seq : Nat) : Option Launch := s.launches.find? (fun l => l.die == die && l.seq == seq)

/-- The vector passes to the unit that core-map entry 0 names now, which ends its mirror: what the change shows there that the mirror did
not, waits and sweeps see; the old home keeps a mirror, for the launches it holds and the waits it serves (R55). -/
def homeMoved (s : State) (ctx : Nat) : State :=
  match homeDie s ctx with
  | none => s
  | some d =>
    if tget s.evHome ctx = some d then s
    else
      let old := (tget s.evHome ctx).bind (localDie s)
      let new := localDie s d
      let v := tgetD s.evec ctx 0
      let s := { s with evHome := tset s.evHome ctx d }
      let s := match new with
        | some h =>
          let seen := tgetD (dieOf s h).mirrors ctx v
          let s := { modDie s h (fun k => { k with mirrors := tdel k.mirrors ctx }) with
            mirrorQ := s.mirrorQ.filter (fun m => !(m.1 == ctx && m.2.1 == h)) }
          if seen = v then s else vectorWakes s ctx h
        | none => s
      match old with
      | some o => if new = some o then s else modDie s o (fun k => { k with mirrors := tset k.mirrors ctx v })
      | none => s

/-- A launch unit that is not the home holds a mirror of a vector from now on (R55). -/
def ensureMirror (s : State) (ctx die : Nat) : State :=
  let s := homeMoved s ctx
  if localHome s ctx = some die || (tget (dieOf s die).mirrors ctx).isSome then s
  else modDie s die (fun d => { d with mirrors := tset d.mirrors ctx (tgetD s.evec ctx 0) })

/-- The launch unit of a core holds a mirror for what waits there on the vector: an EVWAIT (R55), a WFE, or a sleeping sweep with an EVT
lane. DESIGN CHOICE, log 90: unsafe. -/
def mirrorFor (s : State) (ctx core : Nat) : State :=
  match unitOf core with
  | none => s
  | some d => ensureMirror s ctx d

/-- Sets the vector at its home, and sends a change to every mirror, in the order of the changes (R55). -/
def putVector (s : State) (ctx : Nat) (v : EvVec) : State :=
  let s := homeMoved s ctx
  if tgetD s.evec ctx 0 = v then s
  else
    let s := { s with evec := tset s.evec ctx v }
    let homeD := localHome s ctx
    let dies := (s.dies.filter (fun d => homeD != some d.1 && (tget d.2.mirrors ctx).isSome)).map (·.1)
    let s := { s with mirrorQ := s.mirrorQ ++ dies.map (fun d => (ctx, d, v)) }
    match homeD with
    | some d => vectorWakes s ctx d
    | none => s

/-- The bits that launches accepted earlier at a unit have asked the home to confirm: later ones do not see them (R62). -/
def confirming (s : State) (ctx die seq : Nat) : EvVec :=
  s.launches.foldl (fun m l =>
    if l.ctx == ctx && l.stage == .confirming && l.seq < seq && liveDie s l.die == die then m ||| l.waitMask else m) 0

/-- Evaluates the queued launches of a context at a launch unit, one at a time, in order of acceptance (R62). -/
def evalLaunches (s : State) (ctx die : Nat) : State :=
  let isHome := localHome s ctx == some die
  ((s.launches.filter (fun l => liveDie s l.die == die && l.ctx == ctx && l.stage == .queued)).map (fun l => (l.die, l.seq))).foldl
    (fun s k =>
      match launchOf s k.1 k.2 with
      | none => s
      | some l =>
        let v := vectorAt s ctx (some die) &&& ~~~(confirming s ctx die l.seq)
        if v &&& l.waitMask = l.waitMask then
          if l.consume then
            if isHome then
              modLaunch (putVector s ctx (tgetD s.evec ctx 0 &&& ~~~l.waitMask)) k.1 k.2 (fun l => { l with stage := .generating 0 })
            else modLaunch s k.1 k.2 (fun l => { l with stage := .confirming })
          else modLaunch s k.1 k.2 (fun l => { l with stage := .generating 0 })
        else s) s

/-- A change of the vector applied at the home, and the evaluation it causes there (R62). -/
def changeVector (s : State) (ctx : Nat) (v : EvVec) : State :=
  let s := putVector s ctx v
  match localHome s ctx with
  | some d => evalLaunches s ctx d
  | none => s

/-- The bits below 192 that a mask names. -/
def maskBits (m : EvVec) (below : Nat) : List Nat := (List.range below).filter (fun i => bit m i)

/-- Bits of a context that some armed setter will set (R70). -/
def armedBits (s : State) (ctx : Nat) : List Nat :=
  (s.launches.filter (fun l => l.ctx == ctx && l.stage != .retired && l.stage != .journaling)).flatMap (fun l => maskBits l.setMask 192) ++
  s.clauses.flatMap (fun k =>
    (k.2.copies.filter (fun j => j.ctx == ctx && bit (j.regs.getD 4 0) 2)).map (fun j => bits (j.regs.getD 4 0) 23 16) ++
    (k.2.colls.filter (fun j => j.ctx == ctx && bit (j.words.getD 3 0) 8)).map (fun j => bits (j.words.getD 3 0) 7 0)) ++
  s.cores.flatMap (fun c => (tgetD c.2.ctxs ctx CtxCore.init).descs.filterMap (fun d =>
    if (d.2.active || d.2.asleep) && bit d.2.e0 46 then some (bits d.2.e0 45 38) else none))

/-- Setters of some bits have disarmed: EVWAITs for a clear one that no armed setter is left for are re-checked (R71). -/
def disarm (s : State) (ctx : Nat) (bs : List Nat) : State :=
  if bs.isEmpty then s
  else
    let v := tgetD s.evec ctx 0
    let armed := armedBits s ctx
    let dead := bs.filter (fun b => !bit v b && !armed.contains b)
    if dead.isEmpty then s
    else
      { s with cores := s.cores.map (fun c => (c.1, mapWaits c.2 (fun x _ w =>
          if x == ctx && w.kind == 3 && w.tags.any (fun t => dead.contains t) then { w with recheck := true } else w))) }

/-- A completion event of a copy, sweep or collective: sets its bit if the context has a home, then disarms (R55, R56, R71). -/
def completionEvent (s : State) (ctx : Nat) (b : Nat) : State :=
  let s := match homeDie s ctx with
    | some _ => changeVector s ctx (tgetD s.evec ctx 0 ||| (1#256 <<< b))
    | none => s
  disarm s ctx [b]

/-! ### Triggering (R67-R69, R45) -/

/-- The journal state of an activation (R45). -/
def setWorkState (s : State) (w : LaunchRef) (st : Nat) : State :=
  modLaunch s w.die w.seq (fun l => { l with states := tset l.states w.idx st })

/-- When the last activation has triggered, the set mask is applied once and the launch is retired (R68, R69), whether or not the context
has a home then (R55). DESIGN CHOICE, log 90: unsafe. -/
def retireIf (s : State) (die seq : Nat) : State :=
  match launchOf s die seq with
  | none => s
  | some l =>
    if l.triggered.length = launchTotal l.words ∧ l.stage ≠ .retired then
      let s := modLaunch s die seq (fun l => { l with stage := .retired })
      let s := if l.setMask = 0 then s else changeVector s l.ctx (tgetD s.evec l.ctx 0 ||| l.setMask)
      disarm s l.ctx (maskBits l.setMask 192)
    else s

/-- An activation's launch counts it as triggered, once (R67). -/
def triggerWork (s : State) (w : LaunchRef) : State :=
  match launchOf s w.die w.seq with
  | none => s
  | some l =>
    if l.triggered.contains w.idx then s
    else retireIf (modLaunch s w.die w.seq (fun l => { l with triggered := l.triggered ++ [w.idx] })) w.die w.seq

/-- The current activation triggers if it belongs to a launch and has not (R67, R348). -/
def triggerNow (s : State) : State :=
  match (act s).work with
  | some w =>
    if (act s).triggered then s
    else triggerWork (setWorkState (modAct s (fun a => { a with triggered := true })) w 2) w
  | none => s

/-! ### The launch unit (R60, R61) -/

/-- The status of a launch request against a context's entry and the queues (R60). -/
def launchStatus (s : State) (die : Nat) (r : LaunchReq) : Nat :=
  let w1 := r.words.getD 1 0
  let w2 := r.words.getD 2 0
  let mask := r.words.getD 3 0
  let widths := fieldOff w1 6
  let pmask := ctxWord s r.ctx 2
  if ctxState s r.ctx ≠ 1 || (homeDie s r.ctx).isNone then 5
  else if mask = 0 then 1
  else if widths > 64 || bits w1 63 42 ≠ 0 || w2.toNat / 2 ^ widths ≠ 0 || mask &&& ~~~pmask ≠ 0 ||
      (clauseDeal s mask (bit w1 36) (bit w1 37)).isEmpty then 3
  else if (r.words.getD 0 0).toNat < r.hlo.toNat || r.hhi.toNat ≤ (r.words.getD 0 0).toNat then 4
  else if 256 ≤ (s.launches.filter (fun l => l.die == die && l.ctx == r.ctx &&
      (l.stage == .queued || l.stage == .journaling || l.stage == .confirming))).length then 1
  else 0

/-- Brings an answer to a blocked activation. -/
def answer (s : State) (ag : AgentId) (f : Wait → Wait) : State :=
  modCore s ag.core (fun k => mapWaits k (fun x _ w => if x == ag.ctx then f w else w))

/-- Brings a status to a blocked LAUNCH. -/
def answerStatus (s : State) (ag : AgentId) (v : Word) : State := answer s ag (fun w => { w with reply := some v })

/-- EVENT LAUNCH_REQUEST (R61): the unit reads the context entry and checks the descriptor; it journals or refuses it. -/
def launchRequest (s : State) (die : Nat) : State :=
  match (dieOf s die).requests with
  | [] => s
  | r :: rest =>
    let s := modDie s die (fun d => { d with requests := rest })
    let st := launchStatus s die r
    if st ≠ 0 then answerStatus s r.agent (BitVec.ofNat 64 st)
    else
      let w1 := r.words.getD 1 0
      let l : Launch := ⟨die, s.launchSeq, r.agent, r.ctx, r.words, clauseDeal s (r.words.getD 3 0) (bit w1 36) (bit w1 37), .journaling, [], [], []⟩
      { homeMoved s r.ctx with launches := s.launches ++ [l], launchSeq := s.launchSeq + 1 }

/-- Two working HBM stacks of different compute dies, for a journal entry (R45): the lowest, and the lowest of another die. -/
def journalStacks (s : State) : List Nat :=
  match (List.range 12).filter (fun n => !partFenced s.module.fenced (.stack n)) with
  | [] => []
  | a :: r =>
    match r.find? (fun b => dieOfStack b != dieOfStack a) with
    | some b => [a, b]
    | none => []

/-- EVENT LAUNCH_JOURNALED (R45, R62): both home ports acknowledge; the launch is accepted, queued and evaluated. With no two
stacks of different dies left, a part has failed before acceptance: status 2. -/
def launchJournaled (s : State) (die : Nat) : State :=
  match s.launches.find? (fun l => l.die == die && l.stage == .journaling) with
  | none => s
  | some l =>
    let on := journalStacks s
    if on.isEmpty then
      answerStatus { s with launches := removeFirst (fun k => k.die == die && k.seq == l.seq) s.launches } l.agent 2
    else
      let s := modLaunch s die l.seq (fun l => { l with stage := .queued, journal := on })
      let at_ := liveDie s die
      evalLaunches (ensureMirror (answerStatus s l.agent 0) l.ctx at_) l.ctx at_

/-- A unit's mirror, and the changes on their way to it, no longer show bits that a launch of the unit has consumed (R62). -/
def consumed (s : State) (ctx die : Nat) (m : EvVec) : State :=
  let s := { s with mirrorQ := s.mirrorQ.map (fun q => if q.1 = ctx ∧ q.2.1 = die then (q.1, q.2.1, q.2.2 &&& ~~~m) else q) }
  modDie s die (fun d => match tget d.mirrors ctx with
    | some v => { d with mirrors := tset d.mirrors ctx (v &&& ~~~m) }
    | none => d)

/-- EVENT CONSUME_CONFIRMATION (R62): the home confirms that the wait bits are still set, clears them and releases. -/
def consumeConfirm (s : State) (die seq : Nat) : State :=
  match launchOf s die seq with
  | none => s
  | some l =>
    if l.stage ≠ .confirming then s
    else
      let v := tgetD s.evec l.ctx 0
      if v &&& l.waitMask = l.waitMask then
        modLaunch (consumed (putVector s l.ctx (v &&& ~~~l.waitMask)) l.ctx (liveDie s l.die) l.waitMask) die seq (fun l => { l with stage := .generating 0 })
      else modLaunch s die seq (fun l => { l with stage := .queued })

/-- EVENT EVENT_MIRROR_UPDATE (R55): the oldest change on its way to a die's mirror arrives; the die evaluates its launches. -/
def mirrorUpdate (s : State) (ctx die : Nat) : State :=
  match s.mirrorQ.find? (fun m => m.1 == ctx && m.2.1 == die) with
  | none => s
  | some m =>
    let s := { s with mirrorQ := removeFirst (fun m => m.1 == ctx && m.2.1 == die) s.mirrorQ }
    let s := modDie s die (fun d => { d with mirrors := tset d.mirrors ctx m.2.2 })
    evalLaunches (vectorWakes s ctx die) ctx die

/-- EVENT EVENT_VECTOR_HOME_MOVE (R55): the vector passes to the unit that core-map entry 0 names; both units evaluate their
launches. -/
def homeMove (s : State) (ctx : Nat) : State :=
  let old := (tget s.evHome ctx).bind (localDie s)
  let s := homeMoved s ctx
  let s := match localHome s ctx with
    | some h => evalLaunches s ctx h
    | none => s
  match old with
  | some o => if localHome s ctx = some o then s else evalLaunches s ctx o
  | none => s

/-- EVENT ACTIVATION_MESSAGE_GENERATE (R63): the next activation message of a released launch goes out from the unit. -/
def generateMessage (s : State) (die seq : Nat) : State :=
  match launchOf s die seq with
  | none => s
  | some l =>
    match l.stage with
    | .generating n =>
      let core := redirect s (dealt l n) 64
      let unit := liveDie s die
      if launchTotal l.words ≤ n || !canBuffer s (nodeOf s core) l.ctx 5 then s
      else
        let src : Node := ⟨false, moduleNumber s * 8192 + unit * 1024⟩
        let wid := workId l.shape (l.words.getD 2 0) n
        let ws := [l.words.getD 0 0, l.words.getD 12 0, l.words.getD 13 0, l.words.getD 14 0, l.words.getD 15 0]
        let pl : Payload := .message ws false 0 true 0 wid l.shape (some ⟨die, seq, n⟩) s.ids
        let p := mkPacket src (nodeOf s core) l.ctx 4 0 (bits l.shape 41 40) pl
        let s := launchPacket s p
        modLaunch s die seq (fun l => { l with stage := .generating (n + 1) })
    | _ => s

end Sys2Proof.Machine
end

