-- ==== Sys2Proof/Machine/Sched.lean ====
section
/-!
DEFINITION. Machine/Sched.lean: the core's scheduler: context entries (R41), frames (R104), the choice of the next activation
(R74-R77), its start (R99, R100, R119, R138, R225, R242, R369), context slots (R79, R80), pre-emption (R75), phrases (R82),
migration (R86, R87) and donation (R88).
-/

namespace Sys2Proof.Machine

/-! ### The context entry (R40, R41) -/

/-- A context's priority as a core knows it: of its loaded entry in a slot, of the table otherwise. -/
def prioOf (s : State) (core ctx : Nat) : Nat :=
  if holdsSlot (coreOf s core) ctx then (ctxOf s core ctx).entry.prio else bits (ctxWord s ctx 0) 14 12

/-! ### Frames (R104) -/

/-- A value held between two limits. -/
def clamp (lo hi x : Nat) : Nat := Nat.max lo (Nat.min hi x)

/-- CR.X128L as held: the 12-bit field, limited (R208, R305). -/
def x128lField (w : Word) : Word :=
  let v := x128L w
  let v : Int := if v < -1100 then -1100 else if 1000 < v then 1000 else v
  BitVec.ofNat 64 (v % 4096).toNat

/-- CR.MSWZ as held: enable, and s from 7 to 16 (R220, R305). -/
def mswzField (w : Word) : Word := BitVec.ofNat 64 (bits w 8 8 * 256 + clamp 7 16 (bits w 4 0))

/-- The per-context registers with their fields alone, as a CWR leaves them (R199, R208, R220, R238, R305). -/
def CtxRegs.held (r : CtxRegs) : CtxRegs :=
  { r with
    wscale := BitVec.ofNat 64 (bits r.wscale 19 0)
    wef := r.wef &&& 0x3E#64
    x128l := x128lField r.x128l
    mswz := mswzField r.mswz
    lxstop := BitVec.ofNat 64 (bits r.lxstop 31 0)
    lxesc := BitVec.ofNat 64 (bits r.lxesc 31 0)
    lxkmax := BitVec.ofNat 64 (clamp 1 32 (bits r.lxkmax 5 0))
    lxfmt := BitVec.ofNat 64 (bits r.lxfmt 1 0 % 3)
    trace := r.trace &&& 0xFF003#64 }

/-- CR.FFLAGS as held (R199). -/
def fflagsField (w : Word) : Word := w &&& 0x7F#64

/-- The registers of a frame at a location, each with its fields alone. -/
def frameRegs (s : State) (at_ : Nat) : CtxRegs :=
  let w : Nat → Word := fun i => readWord s (at_ + 0x980 + 8 * i)
  let r : CtxRegs :=
  { part := w 0, upcall := w 11, fibre := w 12, freel := w 13, wscale := w 14, wef := w 15, x128l := w 16, mswz := w 17,
    lxstop := w 18, lxesc := w 19, lxkmax := w 20, lxfmt := w 21, lxmissh := w 22, cpsrc := w 23, cpdst := w 24, cplen := w 25,
    cpstr := w 26, cpflags := w 27, cphnd := w 28, cpswz := w 29, trace := w 30, traceptr := w 31 }
  r.held

/-- The context-entry values of a frame; the priority, which a frame does not hold, is that of the table. -/
def frameEntry (s : State) (at_ ctx : Nat) : CtxEntry :=
  let w : Nat → Word := fun i => readWord s (at_ + 0xAA0 + 8 * i)
  { ctxgen := w 0, asid := w 1, ptroot := w 2, pmask := w 3, cmapb := w 4, cmapn := w 5, hlo := w 6, hhi := w 7, evtmo := w 8,
    donate := w 9, lease := w 10, migok := w 11, prio := bits (ctxWord s ctx 0) 14 12, regions := Vector.ofFn (fun i => w (16 + i.val)) }

/-- Words read from a location up. -/
def readWords (s : State) (at_ n : Nat) : List Word := (List.range n).map (fun i => readWord s (at_ + 8 * i))

/-- The cycle not after now whose low 48 bits are given: the start of a blocked wait as its frame holds it (R104, R313). -/
def cycleOf (s : State) (low : Nat) : Nat := s.cyc - (s.cyc + 2 ^ 48 - low) % 2 ^ 48

/-- The activation of a frame, if its live bit is set; what has no place in a frame comes from what stayed at the core. -/
def frameAct (s : State) (at_ : Nat) (res : Option Residue) : Option Act :=
  let st := readWord s (at_ + 0x958)
  if !bit st 0 then none
  else
    let w : Nat → Word := fun i => readWord s (at_ + 0x980 + 8 * i)
    let kind := bits st 11 8
    let start := cycleOf s (bits (readWord s (at_ + 0x960)) 47 0)
    let old := (res.bind (·.wait)).getD (Wait.plain start)
    some {
      s := Vector.ofFn (fun i => readWord s (at_ + 0x800 + 8 * i.val))
      v := Vector.ofFn (fun i => Vector.ofFn (fun l => BitVec.ofNat 32 (readNat s (at_ + 64 * i.val + 4 * l.val) 4)))
      p := Vector.ofFn (fun i => BitVec.ofNat 16 (readNat s (at_ + 0x940 + 2 * i.val) 2))
      e := Vector.ofFn (fun i => readWord s (at_ + 0x900 + 8 * i.val))
      pc := evenPc (readWord s (at_ + 0x950))
      qin := readWords s (at_ + 0xBA0) (bits st 23 16)
      qout := readWords s (at_ + 0xD98) (bits st 31 24)
      priv := bit st 1
      upcall := bit st 2
      cr := { wid := w 1, wshape := w 2, msgsrc := w 3, msglen := w 4, fflags := fflagsField (w 5), tcause := w 6, tval := w 7, tpc := w 8,
              tstat := w 9, xfer := w 10, slot := w 33, pathcnt := w 32 }
      wait := if kind = 0 ∧ (res.bind (·.wait)).isNone then none
              else some { old with kind := kind, start := start, operand := readWord s (at_ + 0x968), out := true }
      work := res.bind (·.work)
      triggered := (res.map (·.triggered)).getD false
      rlb := []
      fetch := []
      msg5 := (res.map (·.msg5)).getD []
      runsOn := none
      startPrio := (res.map (·.startPrio)).getD 0
      serial := (res.map (·.serial)).getD (2 * s.freeCtr + 2) }

/-! ### Starting an activation -/

/-- Marks a context as the one that holds the active slot (R76). -/
def touch (k : Core) (ctx : Nat) : Core := { k with recency := ctx :: k.recency.filter (· != ctx) }

/-- An upcall's activation starts (R119): at CR.UPCALL, or escalated to CR.TVEC where that address is not a handler (R118).
DEDUCED, log 37: unsafe. -/
def startUpcall (s : State) (core ctx : Nat) (s1 cause va s30 wid wshape tpc tstat : Word) : State :=
  let x := ctxOf s core ctx
  let ok := handlerOk x.entry x.regs.upcall
  beginAct s core ctx (fun a =>
    let b := upcallAct a x.regs.upcall s1 cause va s30 wid wshape tpc tstat
    if ok then b else { b with cr := { b.cr with tstat := tstat ||| tstatWord true false false false } })
  |> fun s => if ok then s else
    modCore s core (fun k => { k with active := k.active.map (fun f => { f with act := f.act.map (fun a =>
      { a with pc := evenPc k.tvec, priv := true }) }) })

/-- An upcall without fibre (R99, R138). -/
def bareUpcall (s : State) (core ctx : Nat) (s1 cause va tpc s30 : Word) : State := startUpcall s core ctx s1 cause va s30 0 0 tpc 0

/-- Starts an activation at a handler address, or records the message and starts the HBOUNDS upcall (R99, R100). -/
def startAtHandler (s : State) (core : Nat) (m : Msg) (ws : List Word) (s1 xfer : Word) (up : Bool) : State :=
  let h := ws.headD 0
  if handlerOk (ctxOf s core m.ctx).entry h then
    let s := acceptMsg s core m 0
    let s := match m.work with
      | some w => setWorkState s w 1
      | none => s
    beginAct s core m.ctx (fun a =>
      { ((a.setS 1 s1).setS 2 (BitVec.ofNat 64 ws.length)) with
        pc := h
        qin := ws.tail
        upcall := up
        work := m.work
        msg5 := ws.take 5
        startPrio := effPrio m
        cr := { ActCR.zero with
          wid := m.wid
          wshape := m.wshape
          msgsrc := msgsrcWord m.origin m.mprio m.nosrc m.src
          msglen := BitVec.ofNat 64 ws.length
          xfer := xfer } })
  else
    let w2 := match m.work with
      | some w => BitVec.ofNat 64 w.seq
      | none => 0
    let s := errorRecord s core m.ctx ([0x36#64, m.wid, w2] ++ (List.range 5).map (fun i => ws.getD i 0))
    let s := acceptMsg s core m 1
    let s := match m.work with
      | some w => triggerWork (setWorkState s w 3) w
      | none => s
    match (coreOf s core).active with
    | some f =>
      if f.ctx = m.ctx then bareUpcall s core m.ctx 0 0x36#64 h h (stackTop (ctxOf s core m.ctx).entry) else s
    | none => s

/-- The activation that the bytes of a fibre record hold (R117, R369); a record that holds none of this module's activations takes a
number of its own. DEDUCED, log 29: unsafe. -/
def recordAct (s : State) (bs : List Byte) (ctx : Nat) (w : Option FibreWork) : Act :=
  let num : Nat → Nat → Nat := fun o n => leNat ((bs.drop o).take n)
  let r : Nat → Word := fun i => BitVec.ofNat 64 (num (8 * i) 8)
  let n := r 11
  let words : Nat → Nat → List Word := fun o k => (List.range k).map (fun i => BitVec.ofNat 64 (num (o + 8 * i) 8))
  { s := Vector.ofFn (fun i => BitVec.ofNat 64 (num (0x80 + 8 * i.val) 8))
    v := Vector.ofFn (fun i => Vector.ofFn (fun l => BitVec.ofNat 32 (num (0x200 + 64 * i.val + 4 * l.val) 4)))
    p := Vector.ofFn (fun i => BitVec.ofNat 16 (num (0x1C0 + 2 * i.val) 2))
    e := Vector.ofFn (fun i => BitVec.ofNat 64 (num (0x180 + 8 * i.val) 8))
    pc := evenPc (r 1)
    qin := words 0xA00 (bits n 21 16)
    qout := words 0xC00 (bits n 14 8)
    priv := ctx == 0
    upcall := bits (r 7) 63 62 == 3
    cr := { ActCR.zero with wid := r 5, wshape := r 6, msgsrc := r 7, msglen := r 8, fflags := fflagsField (r 9), tcause := r 2,
                            tval := r 3, tpc := r 1, tstat := r 4, xfer := r 10 }
    wait := none
    work := w.bind (·.work)
    triggered := (w.map (·.triggered)).getD false
    rlb := []
    fetch := []
    msg5 := []
    runsOn := none
    startPrio := bits (r 7) 23 22
    serial := (w.map (·.serial)).getD (2 * s.freeCtr + 2) }

/-- Returns a record to a core's free list: word 0 takes the list's head, in this module's memory or, by a store that is not awaited,
in another's (R369, R372). -/
def returnRecord (s : State) (core ctx : Nat) (agent : AgentId) (rec_ : Word) (rmod : Option Nat) (loc : Nat) : State :=
  let link := leBytes 8 (ctxOf s core ctx).regs.freel.toNat
  let s := match rmod with
    | none => storeAt s ctx loc link
    | some m => launchPacket s (mkPacket (nodeOf s core) (moduleNode m) ctx 4 0 0 (.memAccess m loc 8 true link s.ids agent))
  modCtx s core ctx (fun x => { x with regs := { x.regs with freel := rec_ } })

/-- Resumes a fibre record in the active slot of a core and returns it to that core's free list (R369). -/
def resumeRecord (s : State) (core ctx : Nat) (rec_ : Word) (rmod : Option Nat) (loc : Nat) (bs : List Byte) : State :=
  let w := s.fibres.find? (fun f => f.ctx == ctx && f.record == rec_)
  let a := recordAct s bs ctx w
  let s := { nextFree s with fibres := s.fibres.filter (fun f => !(f.ctx == ctx && f.record == rec_)) }
  let s := returnRecord s core ctx ⟨core, ctx, a.serial⟩ rec_ rmod loc
  modCore s core (fun k => { k with active := some ⟨ctx, some a⟩ })

/-- Starts the activation of a waiting message of the context in the active slot. DEDUCED, log 28: unsafe. -/
def startMsg (s : State) (core : Nat) (m : Msg) : State :=
  let s := modCore s core (fun k => touch { k with waiting := k.waiting.filter (fun x => x.id != m.id) } m.ctx)
  let s := loadEntry s core m.ctx
  let x := ctxOf s core m.ctx
  match m.start with
  | .message => startAtHandler s core m m.words m.wid 0 false
  | .copyDone h id => startAtHandler s core m [h] (BitVec.ofNat 64 id) (BitVec.ofNat 64 id) true
  | .versionMiss n => startAtHandler s core m (x.regs.lxmissh :: m.words.take 2) (BitVec.ofNat 64 n) 0 false
  | .engine tag cause va =>
    let s := modCtx s core m.ctx (fun x => { x with regs := { x.regs with fibre := tag } })
    bareUpcall s core m.ctx tag cause va 0 (stackTop x.entry)
  | .fibre rec_ rmod loc bs => resumeRecord (acceptMsg s core m 0) core m.ctx rec_ rmod loc bs
  | .trapped rec_ s30 tc tval tpc tstat => startUpcall s core m.ctx rec_ tc tval s30 m.wid m.wshape tpc tstat

/-! ### The choice (R74, R76, R77) -/

/-- The context holds a live activation that stands in no active slot: its messages do not start (R74). -/
def suspended (s : State) (core ctx : Nat) : Bool :=
  let k := coreOf s core
  let live : Option Frame → Bool := fun f => match f with
    | some f => f.ctx == ctx && f.act.isSome
    | none => false
  live k.shadow || live k.streaming ||
  (!holdsSlot k ctx && k.saveb != 0 && bit (readWord s (frameLoc s core ctx + 0x958)) 0)

/-- The activations that have migrated to a full core, in the order of their homes (R86, R87). -/
def guestsOf (s : State) (core : Nat) : List Cur :=
  if core % 8 < 6 then []
  else s.cores.flatMap (fun k => k.2.away.filterMap (fun f => match f.act with
    | some a => if a.runsOn = some core then some ⟨k.1, some f.ctx⟩ else none
    | none => none))

/-- A core may go on with a suspended activation of a context: none of its activations runs away from it, and its frame is accepted.
DEDUCED, log 31: unsafe. -/
def resumable (s : State) (core ctx : Nat) : Bool :=
  let k := coreOf s core
  let at_ := frameLoc s core ctx
  !k.away.any (fun f => f.ctx == ctx) && !k.migrating.contains ctx &&
  (!k.refused.contains ctx || ((poisonedIn s at_ 4096).isNone && partOk (readWord s (at_ + 0x980))))

/-- A core may start activations of a context: it may go on with one, and none has migrated to it, which is then its context's current
activation there (R74, R87). -/
def startable (s : State) (core ctx : Nat) : Bool := resumable s core ctx && !(guestsOf s core).any (fun g => ctxAt s g == ctx)

/-- Context-priority levels a message has gained by age (R77). -/
def agedLevels (m : Msg) : Nat := m.aged - (3 - Nat.min 3 m.mprio)

/-- The rank of a waiting message (R74, R77): its context's priority, raised by age. -/
def rankOf (s : State) (core : Nat) (m : Msg) : Nat := Nat.min 7 (prioOf s core m.ctx + agedLevels m)

/-- The context of highest rank among some. Among contexts of equal rank the one the core is turning to keeps its place (R75, R318), then
the one that least recently held the active slot (R76). DEDUCED, log 11: unsafe. -/
def pickCtx (k : Core) (cands : List (Nat × Nat)) : Option Nat :=
  match bestBy (fun a b => b.2 < a.2) cands with
  | none => none
  | some top =>
    let age : Nat → Nat := fun c => k.recency.findIdx (· == c)
    let tied := cands.filter (fun c => c.2 == top.2)
    ((tied.find? (fun c => k.goal == some c.1)).orElse (fun _ => bestBy (fun a b => age b.1 < age a.1) tied)).map (·.1)

/-- The next context to run and the message to start, if it has no suspended activation (R74, R76). -/
def choose (s : State) (core : Nat) : Option (Nat × Option Msg) :=
  let k := coreOf s core
  let ms := k.waiting.filter (fun m => startable s core m.ctx)
  match ms.find? (fun m => 4 ≤ m.mprio) with
  | some m => some (m.ctx, some m)
  | none =>
    let sus := ((k.ctxs.map (·.1)).filter (fun c => resumable s core c && suspended s core c)).map (fun c => (c, prioOf s core c))
    match pickCtx k (sus ++ ms.map (fun m => (m.ctx, rankOf s core m))) with
    | none => none
    | some ctx =>
      if suspended s core ctx then some (ctx, none)
      else
        (bestBy (fun a b => rankOf s core b < rankOf s core a ||
          (rankOf s core a == rankOf s core b && effPrio b < effPrio a)) (ms.filter (fun m => m.ctx == ctx))).map
          (fun m => (ctx, some m))

/-- The rank of a context in the choice. -/
def ctxRank (s : State) (core ctx : Nat) : Nat :=
  ((coreOf s core).waiting.filter (fun m => m.ctx == ctx)).foldl (fun n m => Nat.max n (rankOf s core m))
    (if suspended s core ctx then prioOf s core ctx else 0)

/-! ### Slots (R79, R80) -/

/-- The context of a frame. -/
def frameCtx (f : Option Frame) : Option Nat := f.map (·.ctx)

/-- The core turns to a context: it switches to it in the shadow slot, or streams it in; a stream-in of another context that has not
completed is abandoned (R75, R79, R80). Only a context that the core turns to is streamed in. DESIGN CHOICE, log 72: unsafe. -/
def engage (s : State) (core ctx : Nat) : State :=
  modCore s core (fun k =>
    let k := { k with goal := some ctx }
    if frameCtx k.active = some ctx then k
    else if frameCtx k.shadow = some ctx then { k with switching := true, streamIn := none }
    else if k.streamOut || frameCtx k.streaming = some ctx then k
    else { k with streamIn := some ctx })

/-- The active slot of a core holds no live activation. -/
def idle (k : Core) : Bool :=
  match k.active with
  | some f => f.act.isNone
  | none => true

/-- The priority of a migrated activation's context (R87). -/
def guestPrio (s : State) (g : Cur) : Nat := prioOf s g.core (ctxAt s g)

/-- The migrated activations of a core that may take it now: no activation of their context on the core itself is unfinished (R74). -/
def readyGuests (s : State) (core : Nat) : List Cur :=
  let own := match (coreOf s core).active with
    | some f => if f.act.isSome then some f.ctx else none
    | none => none
  (guestsOf s core).filter (fun g => !suspended s core (ctxAt s g) && own != some (ctxAt s g))

/-- A migrated activation holds a full core against its context: it is of at least that priority, and the core has not turned to the
context (R74, R75, R87, R318). DEDUCED, log 89: unsafe. -/
def guestHolds (s : State) (core ctx : Nat) : Bool :=
  (coreOf s core).goal != some ctx && (readyGuests s core).any (fun g => prioOf s core ctx ≤ guestPrio s g)

/-- Whether a migrated activation has its turn on its full core: no activation of at least its priority is unfinished in the core's active
slot, no other migrated one goes before it, and the core neither is pre-empted nor turns to a context that outranks it (R74, R75, R87).
DEDUCED, log 89: unsafe. -/
def guestTurn (s : State) (core : Nat) (g : Cur) : Bool :=
  let k := coreOf s core
  let p := guestPrio s g
  let open_ : Nat → Bool := fun c => k.waiting.any (fun m => m.ctx == c && startable s core c) || (resumable s core c && suspended s core c)
  let own := match k.active with
    | some f => f.act.isSome && p ≤ prioOf s core f.ctx
    | none => false
  let outranked := k.waiting.any (fun m => startable s core m.ctx && p < prioOf s core m.ctx)
  let turned := match k.goal with
    | some c => p ≤ prioOf s core c && open_ c
    | none => false
  let first := (readyGuests s core).find? (fun h => !(readyGuests s core).any (fun j => guestPrio s h < guestPrio s j))
  !own && !outranked && !turned && first == some g

/-- A migrated activation outranks the activation in a core's active slot (R75, R87). -/
def guestAbove (s : State) (core : Nat) : Bool :=
  match (coreOf s core).active with
  | some f => (readyGuests s core).any (fun g => prioOf s core f.ctx < guestPrio s g)
  | none => false

/-- An activation that leaves the core it runs on (R78, R123): SLOT counts it, its wait knows it, its buffers are emptied. -/
def switchedOut (a : Act) : Act :=
  let n := bits a.cr.slot 15 0
  { a with
    cr := { a.cr with slot := BitVec.ofNat 64 (Nat.min (n + 1) 65535 + 2 ^ 16) }
    wait := a.wait.map (fun w => { w with out := true })
    rlb := []
    fetch := [] }

/-- The migrated activations of a core give it up to one of its own. -/
def guestsOut (s : State) (core : Nat) : State :=
  (guestsOf s core).foldl (fun s g => setActAt s g ((actAt s g).map switchedOut)) s

/-- EVENT ACTIVATION_START (R74): an idle core starts the next activation, or turns to its context. -/
def activationStart (s : State) (core : Nat) : State :=
  let k := coreOf s core
  if !idle k || k.switching || k.quiesced || isApp core then s
  else
    match choose s core with
    | none =>
      match k.goal with
      | some g => if frameCtx k.active = some g then modCore s core (fun k => { k with goal := none }) else engage s core g
      | none => s
    | some (ctx, m) =>
      if guestHolds s core ctx then s else
      let keep : Option Nat := match k.goal with
        | some g => if g ≠ ctx ∧ (suspended s core g) ∧ rankOf' s core ctx m ≤ ctxRank s core g then some g else none
        | none => none
      match keep with
      | some g => engage s core g
      | none =>
        match m with
        | some m =>
          if frameCtx k.active = some ctx then startMsg (modCore (guestsOut s core) core (fun k => { k with goal := none })) core m
          else engage s core ctx
        | none => engage s core ctx
where
  /-- The rank of what was chosen. -/
  rankOf' (s : State) (core ctx : Nat) (m : Option Msg) : Nat :=
    match m with
    | some m => rankOf s core m
    | none => prioOf s core ctx

/-- A context leaves the active slot: its lease is to be forfeited (R220). -/
def leaveActive (s : State) (core ctx : Nat) : State :=
  if isApp core then s
  else modClause s (clauseOfCore core) (fun c => { c with
    leases := c.leases.map (fun l => if l.core == core && l.ctx == ctx && !l.out then { l with forfeit := some l.queue.length } else l) })

/-- EVENT SWITCH_COMPLETE (R79): active and shadow exchange occupants; the read-line buffer of the incoming one is empty (R151). -/
def switchComplete (s : State) (core : Nat) : State :=
  let k := coreOf s core
  if !k.switching then s
  else if k.shadow.isNone then modCore s core (fun k => { k with switching := false })
  else
    let s := match k.active with
      | some f => leaveActive s core f.ctx
      | none => s
    let s := modCore s core (fun k => { k with
      active := k.shadow.map (fun f => { f with act := f.act.map (fun a => { a with rlb := [] }) })
      shadow := k.active.map (fun f => { f with act := f.act.map switchedOut })
      switching := false
      goal := match k.shadow with
        | some f => if f.act.isNone then some f.ctx else none
        | none => none
      fuse := none
      donation := match k.donation, k.shadow with
        | some d, some f => if f.ctx = d.holder then some { d with start := s.cyc } else none
        | _, _ => none })
    match (coreOf s core).active with
    | some f => loadEntry (modCore s core (fun k => touch k f.ctx)) core f.ctx
    | none => s

/-- EVENT STREAM_IN_COMPLETE (R79, R102): the frame is loaded, unless its CR.PART breaks a limit, and the streaming and shadow
slots exchange roles; a shadow occupant is then streamed out, and a migration of it that has not completed begins again when it is
back. While the core switches, the exchange waits. The registers of a context whose activation has migrated are those of its home
(R443). A frame of which a line is lost is not loaded (R50). DEDUCED, log 83: unsafe. -/
def streamInComplete (s : State) (core : Nat) : State :=
  let k := coreOf s core
  match (if k.switching then none else k.streamIn) with
  | none => s
  | some ctx =>
    let at_ := frameLoc s core ctx
    let kept := k.away.any (fun f => f.ctx == ctx)
    let regs := if kept then (ctxOf s core ctx).regs else frameRegs s at_
    let s := modCore s core (fun k => { k with streamIn := none })
    if (poisonedIn s at_ 4096).isSome then
      modCore s core (fun k => { k with
        refused := k.refused.filter (· != ctx) ++ [ctx]
        goal := if k.goal = some ctx then none else k.goal
        ctxs := tset k.ctxs ctx (ctxOf s core ctx) })
    else if !partOk regs.part then
      notice (modCore s core (fun k => { k with
        refused := k.refused.filter (· != ctx) ++ [ctx]
        goal := if k.goal = some ctx then none else k.goal
        ctxs := tset k.ctxs ctx (ctxOf s core ctx) })) 2
        [BitVec.ofNat 64 (nodeOf s core).addr, BitVec.ofNat 64 ctx, regs.part, 0]
    else
      let x := ctxOf s core ctx
      let a := (frameAct s at_ x.residue).map (fun a => { a with cr := { a.cr with slot := BitVec.ofNat 64 (bits a.cr.slot 15 0 + 2 ^ 17) } })
      let a := if kept then none else a
      let s := modCtx (nextFree s) core ctx (fun x => { x with
        regs := regs, entry := if kept then x.entry else frameEntry s at_ ctx, residue := none })
      modCore s core (fun k => { k with
        refused := k.refused.filter (· != ctx)
        streaming := k.shadow
        shadow := some ⟨ctx, a⟩
        streamOut := k.shadow.isSome
        migrating := k.migrating.filter (fun c => frameCtx k.shadow != some c)
        switching := k.goal == some ctx })

/-- EVENT STREAM_OUT_COMPLETE (R79): the streaming slot's frame is stored in the save area. -/
def streamOutComplete (s : State) (core : Nat) : State :=
  let k := coreOf s core
  match k.streamOut, k.streaming with
  | true, some f =>
    let x := ctxOf s core f.ctx
    let s := storeAt s 0 (frameLoc s core f.ctx) (frameBytes x.regs x.entry f.act)
    let s := modCtx s core f.ctx (fun x => { x with residue := f.act.map (fun a => ⟨a.wait, a.work, a.triggered, a.msg5, a.startPrio, a.serial⟩) })
    let s := modCore s core (fun k => { k with streaming := none, streamOut := false })
    match (coreOf s core).goal with
    | some g => engage s core g
    | none => s
  | _, _ => modCore s core (fun k => { k with streamOut := false })

/-- An activation has a trap that waits for its fibre record: it is taken before any pre-emption (R122). -/
def trapPending (o : Option Act) : Bool :=
  match o with
  | some a => (a.wait.bind (·.trap)).isSome
  | none => false

/-- The context that pre-empts the active context of a core (R75): among those of waiting messages whose priority is higher than its own
and than that of what has migrated there, the one that ranks highest (R74, R80). -/
def preemptBy (s : State) (core : Nat) : Option Nat :=
  let k := coreOf s core
  match k.active with
  | none => none
  | some f =>
    if f.act.isNone || k.switching || k.quiesced || k.waiting.isEmpty || trapPending f.act then none
    else
      let p := (readyGuests s core).foldl (fun p g => Nat.max p (guestPrio s g)) (prioOf s core f.ctx)
      let ms := k.waiting.filter (fun m => m.ctx != f.ctx && startable s core m.ctx && p < prioOf s core m.ctx)
      pickCtx k (ms.map (fun m => (m.ctx, rankOf s core m)))

/-- A pre-emption is due at a core before its next instruction: the core has not yet turned to the context that outranks (R75). -/
def preemptDue (s : State) (core : Nat) : Bool :=
  match preemptBy s core with
  | some c => (coreOf s core).goal != some c
  | none => false

/-- EVENT PREEMPTION (R75, R85): a waiting message of a higher context priority takes the core at an instruction boundary; a
phrase splits there, and a donation ends (R88). -/
def preempt (s : State) (core : Nat) : State :=
  match preemptBy s core with
  | none => s
  | some c =>
    let s := match (coreOf s core).phrase with
      | some p => if inPhrase s p core then dissolve s p else s
      | none => s
    engage (modCore s core (fun k => { k with donation := none })) core c

/-! ### Donation (R88, R358) -/

/-- A donation ends: the core switches back to the waiter. -/
def endDonation (s : State) (core : Nat) : State :=
  match (coreOf s core).donation with
  | none => s
  | some d => engage (modCore s core (fun k => { k with donation := none })) core d.waiter

/-- EVENT DONATION_LIMIT (R88). -/
def donationLimit (s : State) (core : Nat) : State :=
  match (coreOf s core).donation with
  | none => s
  | some d =>
    if frameCtx (coreOf s core).active = some d.holder ∧
        (ctxOf s core d.waiter).entry.donate.toNat ≤ s.cyc - d.start then endDonation s core
    else s

/-- The current activation has done what a donation to it ran for: signalled the phaser, or ended. -/
def donationOver (s : State) (core ctx : Nat) (ph : Option Word) : State :=
  match (coreOf s core).donation with
  | some d => if d.holder = ctx ∧ (ph = none ∨ ph = some d.phaser) then endDonation s core else s
  | none => s

/-! ### The end of an activation (R346) -/

/-- ENDH's effect on the current activation after its release: it triggers, its queues, watch entries and buffers go. -/
def endAct (s : State) : State :=
  let s := triggerNow s
  let s := match (act s).work with
    | some w => setWorkState s w 3
    | none => s
  donationOver (dropAct s) (home s) (ctxId s) none

/-! ### Migration (R86, R87, R162) -/

/-- EVENT MIGRATION_COMPLETE: the activation, in the active or the shadow slot, goes on at the full core once every access it issued
has been performed (R162); with no full core left it stays. -/
def migrationComplete (s : State) (core ctx : Nat) : State :=
  let k := coreOf s core
  let stay := modCore s core (fun k => { k with migrating := k.migrating.filter (· != ctx) })
  let live : Option Frame → Option Act := fun f => match f with
    | some x => if x.ctx = ctx then x.act else none
    | none => none
  let left : Option Frame → Option Frame := fun f => match f with
    | some x => if x.ctx = ctx then some { x with act := none } else some x
    | none => none
  if !k.migrating.contains ctx then s
  else
    match (live k.active).orElse (fun _ => live k.shadow) with
    | none => stay
    | some a =>
      let ag : AgentId := ⟨core, ctx, a.serial⟩
      if !performed s ag || unackedAny s ag then s
      else
        match migrateTarget s core with
        | none => stay
        | some c => modCore stay core (fun k => { k with
            active := left k.active
            shadow := left k.shadow
            away := k.away ++ [⟨ctx, some { a with runsOn := some c, wait := none, rlb := [], fetch := [] }⟩] })

/-! ### FUSE (R82, R315) -/

/-- Completes the FUSE of a waiting core with a status, at the leader's next instruction if a phrase forms; the register that takes
it stands in the wait. -/
def endFuse (s : State) (core status : Nat) (to_ : Option Word) : State :=
  let s := modCore s core (fun k => { k with fuse := none })
  match actAt s ⟨core, none⟩ with
  | some a =>
    match a.wait with
    | some w => setActAt s ⟨core, none⟩
        (some { a.setS (BitVec.ofNat 5 w.stage) (BitVec.ofNat 64 status) with pc := to_.getD (a.pc + 4), wait := none })
    | none => s
  | none => s

/-- The aligned block of n cores of a clause that contains a core. -/
def fuseBlock (core n : Nat) : List Nat := (List.range n).map (· + core / n * n)

/-- EVENT FUSE_TIMEOUT (R82). -/
def fuseTimeout (s : State) (core : Nat) : State :=
  let k := coreOf s core
  match k.fuse, k.active with
  | some f, some a =>
    let t := (ctxOf s core a.ctx).entry.evtmo.toNat
    if t ≠ 0 ∧ t ≤ s.cyc - f.start then endFuse s core 0 none else s
  | _, _ => s

end Sys2Proof.Machine
end

