-- ==== Sys2Proof/Machine/Control.lean ====
section
/-!
DEFINITION. Machine/Control.lean: branches and jumps (R303, R304) and the system group (R308-R318).
-/

namespace Sys2Proof.Machine

/-! ### Branches and jumps -/

/-- The target of a branch or JAL: pc plus twice the sign-extended immediate (R303, R304). -/
def relTarget (s : State) (imm : BitVec n) : Word := (act s).pc + imm.signExtend 64 * 2#64

/-- The effect of a conditional branch (R303). -/
def branchBody (imm : BitVec n) (cond : State → Bool) (s : State) : Res :=
  if cond s then .jump s (relTarget s imm) else .ok s

/-- Issues a conditional branch on sA and sB (R303). -/
def branchOp (i : Instr) (a b : SReg) (imm : BitVec 14) (cond : Word → Word → Bool) (s : State) : Host.Outcome State Fault Refusal :=
  issue (baseGate i) (branchBody imm (fun s => cond (rS s a) (rS s b))) s

/-- BEQ (R303). -/
def execBeq (a b : SReg) (imm : BitVec 14) (s : State) : Host.Outcome State Fault Refusal := branchOp (.beq a b imm) a b imm (fun x y => x == y) s
/-- BNE (R303). -/
def execBne (a b : SReg) (imm : BitVec 14) (s : State) : Host.Outcome State Fault Refusal := branchOp (.bne a b imm) a b imm (fun x y => x != y) s
/-- BLT (R303). -/
def execBlt (a b : SReg) (imm : BitVec 14) (s : State) : Host.Outcome State Fault Refusal := branchOp (.blt a b imm) a b imm (fun x y => x.slt y) s
/-- BGE (R303). -/
def execBge (a b : SReg) (imm : BitVec 14) (s : State) : Host.Outcome State Fault Refusal := branchOp (.bge a b imm) a b imm (fun x y => !x.slt y) s
/-- BLTU (R303). -/
def execBltu (a b : SReg) (imm : BitVec 14) (s : State) : Host.Outcome State Fault Refusal := branchOp (.bltu a b imm) a b imm (fun x y => x.ult y) s
/-- BGEU (R303). -/
def execBgeu (a b : SReg) (imm : BitVec 14) (s : State) : Host.Outcome State Fault Refusal := branchOp (.bgeu a b imm) a b imm (fun x y => !x.ult y) s

/-- JAL (R304). -/
def execJal (a : SReg) (imm : BitVec 19) (s : State) : Host.Outcome State Fault Refusal :=
  issue (baseGate (.jal a imm)) (fun s => .jump (wS s a ((act s).pc + 4)) (relTarget s imm)) s

/-- The effect of a jump to a register with a link of `len` bytes on (R304). A phrase's followers go where the leader goes, so
only the leader's target is checked (R83). -/
def jumpBody (link : Option SReg) (len : Nat) (target : State → Word) (s : State) : Res :=
  let t := target s
  if bit t 0 && !isFollower s then .trap s .misalign t
  else
    match link with
    | some a => .jump (wS s a ((act s).pc + BitVec.ofNat 64 len)) t
    | none => .jump s t

/-- JALR (R304). -/
def execJalr (a b : SReg) (imm : BitVec 14) (s : State) : Host.Outcome State Fault Refusal :=
  issue (baseGate (.jalr a b imm)) (jumpBody (some a) 4 (fun s => rS s b + imm.signExtend 64)) s

/-! ### The system group -/

/-- NOP (R309). -/
def execNop (s : State) : Host.Outcome State Fault Refusal := issue (baseGate .nop) (fun s => .ok s) s

/-- TRAP (R309). -/
def execTrap (n : BitVec 10) (s : State) : Host.Outcome State Fault Refusal :=
  issue (baseGate (.trap n)) (fun s => .trap s .trap (n.setWidth 64)) s

/-- BKPT (R309). -/
def execBkpt (n : BitVec 10) (s : State) : Host.Outcome State Fault Refusal :=
  issue (baseGate (.bkpt n)) (fun s => .trap s .break (n.setWidth 64)) s

/-- A privileged base encoding (R280). -/
def privGate (i : Instr) : Gate := { baseGate i with priv := some i.tval }

/-- ERET (R310). -/
def execEret (s : State) : Host.Outcome State Fault Refusal :=
  issue (privGate .eret) (fun s =>
    match returnTrap s with
    | .error t => .trap s .misalign t
    | .ok t => .jump t (act t).pc) s

/-- HALT (R311): until a message arrives at the core, or the activation is switched in again. -/
def execHalt (s : State) : Host.Outcome State Fault Refusal :=
  issue (privGate .halt) (fun s =>
    let w := waitOr s 8 0
    if w.woke || w.out then .ok s else .stall s w) s

/-- CYC (R312). -/
def execCyc (a : SReg) (s : State) : Host.Outcome State Fault Refusal :=
  issue (baseGate (.cyc a)) (fun s => .ok (wS s a (BitVec.ofNat 64 s.cyc))) s

/-- SLEEP (R313): the count is read at issue. -/
def execSleep (b : SReg) (s : State) : Host.Outcome State Fault Refusal :=
  issue (baseGate (.sleep b)) (fun s =>
    let w := waitOr s 6 (rS s b)
    if w.operand.toNat ≤ s.cyc - w.start then .ok s else .stall s w) s

/-- An entry of the current activation in the watch table has been woken (R360). DEDUCED, log 27: unsafe. -/
def watchWoken (s : State) : Bool := (coreOf s (home s)).watch.any (fun w => w.ctx == ctxId s && w.woken)

/-- WFE (R314). -/
def execWfe (s : State) : Host.Outcome State Fault Refusal :=
  issue (baseGate .wfe) (fun s =>
    let w := waitOr s 9 0
    if w.woke || w.out || watchWoken s || 65536 ≤ s.cyc - w.start then .ok s else .stall (mirrorFor s (ctxId s) (home s)) w) s

/-- The effect of FUSE on the current activation (R82, R315). DEDUCED, log 24: unsafe. -/
def fuseBody (a : SReg) (nf : BitVec 2) (s : State) : Res :=
  let core := home s
  let ctx := ctxId s
  let n := 2 ^ nf.toNat
  if (coreOf s core).phrase.isSome || isApp core || s.cur.away.isSome then .ok (wS s a 0)
  else
    match (coreOf s core).fuse with
    | some _ => .stall s { waitOr s 0 0 with stage := a.toNat }
    | none =>
      let block := fuseBlock core n
      let rivals := (fuseBlock core 8).filter (fun j => j != core && !(coreOf s j).quiesced &&
        match (coreOf s j).fuse with
        | some f => block.contains j || (fuseBlock j f.n).contains core
        | none => false)
      let differs := rivals.any (fun j => match (coreOf s j).fuse with
        | some f => f.n != n || f.ctx != ctx
        | none => false)
      if !differs && rivals.length + 1 = n then
        let leader := block.headD core
        let next := ((actAt s ⟨leader, none⟩).getD (act s)).pc + 4
        let s := rivals.foldl (fun s j => endFuse s j 1 (some next)) s
        .jump (setPhrase (wS s a 1) ⟨block, [], none, ctx⟩) next
      else
        let s := if differs then rivals.foldl (fun s j => endFuse s j 0 none) s else s
        let w := waitOr s 0 0
        .stall (modCore s core (fun k => { k with fuse := some ⟨n, ctx, w.start⟩ })) { w with stage := a.toNat }

/-- FUSE (R315). -/
def execFuse (a : SReg) (n : BitVec 2) (s : State) : Host.Outcome State Fault Refusal :=
  issue (baseGate (.fuse a n)) (fuseBody a n) s

/-- SPLIT (R316). -/
def execSplit (b : SReg) (s : State) : Host.Outcome State Fault Refusal :=
  issue (baseGate (.split b)) (fun s =>
    let t := rS s b
    if bit t 0 then .trap s .misalign t
    else if (phraseNow s).isSome then .leave s t
    else .jump s t) s

/-- A phrase whose members some test picks out dissolves before the instruction (R85). -/
def splitBefore (test : State → Bool) (s : State) : State :=
  match phraseNow s with
  | some p => if p.members.any (fun c => test { s with cur := ⟨c, none⟩ }) then dissolve s p else s
  | none => s

/-- MIGR moves the current activation (R317): it runs on a lean core, and migration is on. -/
def migrates (s : State) : Bool := !isApp (runCore s) && !hasExtD (runCore s) && canMigrate s

/-- MIGR (R317). -/
def execMigr (s : State) : Host.Outcome State Fault Refusal :=
  issue (baseGate .migr) (fun s => if migrates s then .migrate s else .ok s) (splitBefore migrates s)

/-- The context that YIELD gives the core to that the activation runs on (R318). -/
def yieldTo (s : State) : Option Nat :=
  let core := runCore s
  let me := ctxId s
  let ms := (coreOf s core).waiting.filter (fun m =>
    m.ctx != me && startable s core m.ctx && prioOf s (home s) me ≤ prioOf s core m.ctx)
  (bestBy (fun a b => prioOf s core b.ctx < prioOf s core a.ctx) ms).map (·.ctx)

/-- YIELD (R318). -/
def execYield (s : State) : Host.Outcome State Fault Refusal :=
  issue (baseGate .yield) (fun s =>
    match yieldTo s with
    | some c => .ok (engage s (runCore s) c)
    | none => .ok s) (splitBefore (fun s => (yieldTo s).isSome) s)

end Sys2Proof.Machine
end

