-- ==== Sys2Proof/Machine/Operands.lean ====
section
/-!
DEFINITION. Machine/Operands.lean: every form of memory operand: page-mapped memory, the local format windows, the remote raw
aperture and the gather windows (R107-R114, R205-R207, R228, R292-R294, R328-R334), for loads, stores and atomics.
-/

namespace Sys2Proof.Machine

/-- What an access comes to: a value, a stall, or a trap that has changed nothing. -/
inductive Got (α : Type) where
  | val (s : State) (x : α)
  | stall (s : State) (w : Wait)
  | trap (s : State) (c : Cause) (tval : Word)

/-- Goes on with a value. -/
def Got.bind (g : Got α) (f : State → α → Got β) : Got β :=
  match g with
  | .val s x => f s x
  | .stall s w => .stall s w
  | .trap s c t => .trap s c t

/-- Ends an instruction with a value. -/
def Got.res (g : Got α) (f : State → α → Res) : Res :=
  match g with
  | .val s x => f s x
  | .stall s w => .stall s w
  | .trap s c t => .trap s c t

/-! ### Where an element lies -/

/-- What an address names for one element (R107-R114). -/
inductive Tgt where
  | paged
  /-- window 0: a pool location. -/
  | pool (loc : Nat)
  /-- windows 1-6: element i. -/
  | fmt (w i : Nat)
  /-- the remote raw aperture. -/
  | far (dst : Node) (off : Nat)
  /-- gather window b, element i. -/
  | gat (b i : Nat)
  deriving DecidableEq, Repr

/-- The scratchpad offset and bytes of an element of windows 1-5 (R108). -/
def fmtSpan (w i : Nat) : Nat × Nat :=
  match w with
  | 3 => (i / 2, 1)
  | 4 => (2 * i, 2)
  | 5 => (2 * i, 2)
  | _ => (i, 1)

/-- The scratchpad offset of an element's scale byte (R110). -/
def scaleOff (s : State) (i : Nat) : Nat := bits (regs s).wscale 19 0 + i / 16

/-- An element of a format window is stored inside the scratchpad, its scale byte too, or inside the drain area (R108). -/
def fmtInside (s : State) (w i : Nat) : Bool :=
  let p := partNow s
  if w = 6 then i < drainEntries p
  else
    let (o, n) := fmtSpan w i
    o + n ≤ scratchSize p && (!(w == 2 || w == 3) || scaleOff s i < scratchSize p)

/-- The alignment a scalar access needs: windows 1-6 and gather windows need 4 bytes, every other range its size (R109, R293, R228).
DEDUCED, log 12: unsafe. -/
def alignOk (a : Word) (size : Nat) : Bool :=
  match rangeOf a with
  | .window w => if 1 ≤ w ∧ w ≤ 6 then a.toNat % 4 == 0 else a.toNat % size == 0
  | .gather => a.toNat % 4 == 0
  | _ => a.toNat % size == 0

/-- The alignment a vector lane needs: windows 1-6 need 4 bytes, every other range the lane's size (R329). -/
def laneAligned (a : Word) (size : Nat) : Bool :=
  match rangeOf a with
  | .window w => if 1 ≤ w ∧ w ≤ 6 then a.toNat % 4 == 0 else a.toNat % size == 0
  | _ => a.toNat % size == 0

/-- The scratchpad bytes of a context on the core a node names: of this module, or as another module tells (R113).
DESIGN CHOICE, log 79: safe. -/
def farSize (s : State) (d : Node) (ctx : Nat) : Nat :=
  match takerOf s d with
  | some c => scratchSize (partOf s c ctx)
  | none => Config.farScratch d.addr ctx

/-- Classifies an element of `size` bytes at an address, or gives its WINDOW or NOTMAPPED (R107-R114, R228). -/
def classify (s : State) (store : Bool) (a : Word) (size : Nat) : Except (Cause × Word) Tgt :=
  match rangeOf a with
  | .unmapped => .error (.notmapped, a)
  | .paged => .ok .paged
  | .window w =>
    if w = 0 then
      let p := partNow s
      if windowOff a + size ≤ scratchSize p then .ok (.pool (scratchBase (home s) p + windowOff a))
      else .error (.window, BitVec.ofNat 64 (Nat.max a.toNat (windowBase + scratchSize p)))
    else if w ≤ 6 then
      if w = 3 ∧ !featureFor s (ctxId s) 7 then .error (.window, a)
      else if (size ≠ 4 ∧ !(size = 8 ∧ w = 6)) then .error (.window, a)
      else
        let i := windowOff a / 4
        if fmtInside s w i then .ok (.fmt w i) else .error (.window, a)
    else .error (.window, a)
  | .aperture =>
    let l := (a.toNat - apertureBase) / 2 ^ 20
    let n := (a.toNat - apertureBase) % 2 ^ 20
    match cmapEntry s (entry s) l with
    | none => .error (.notmapped, BitVec.ofNat 64 l)
    | some d =>
      if d.host then .error (.window, a)
      else
        let lim := farSize s d (ctxId s)
        if n + size ≤ lim then .ok (.far d n) else .error (.window, BitVec.ofNat 64 (a.toNat + (Nat.max n lim - n)))
  | .gather =>
    let b := (a.toNat - gatherBase) / 2 ^ 40
    let i := (a.toNat - gatherBase) % 2 ^ 40 / 4
    if store || (size ≠ 4 && size ≠ 8) then .error (.window, a)
    else
      match tget (ctxNow s).binds b with
      | none => .error (.window, a)
      | some g =>
        if b < 16 ∧ i + size / 4 ≤ g.count then .ok (.gat b i)
        else .error (.window, BitVec.ofNat 64 (if g.count ≤ i then a.toNat else a.toNat + 4 * (g.count - i)))

/-! ### Format windows (R108-R112, R205-R207) -/

/-- A byte of the current activation's scratchpad. -/
def scratchByte (s : State) (o : Nat) : Nat := (readByte s (scratchBase (home s) (partNow s) + o)).toNat

/-- An accumulator entry of the current activation's core (R105). -/
def accEntry (s : State) (i : Nat) : Nat := readNat s (accBase (home s) (partNow s) + 6 * i) 6

/-- The scale exponent of a block as loads see it: none for the NaN scale (R110). -/
def blockScale (s : State) (w i : Nat) : Option Int := if w = 2 ∨ w = 3 then e8m0 (scratchByte s (scaleOff s i)) else some 0

/-- The exact value an element of a format window holds; NaN under a NaN scale (R205). -/
def fmtValue (s : State) (w i : Nat) : Xv :=
  let o := (fmtSpan w i).1
  match blockScale s w i with
  | none => .nan
  | some k =>
    match w with
    | 1 => t8Value (scratchByte s o)
    | 2 => (e4m3Value (scratchByte s o)).scale k
    | 3 => (e2m1Value (scratchByte s o / (if i % 2 = 1 then 16 else 1) % 16)).scale k
    | 4 => bf16.decode (scratchByte s o + 256 * scratchByte s (o + 1))
    | 5 => f16.decode (scratchByte s o + 256 * scratchByte s (o + 1))
    | _ => a48.decode (accEntry s i)

/-- Loads an element of a format window as binary32, or binary64 for 8 bytes: the code and the flags (R205). -/
def fmtLoad (s : State) (w i size : Nat) : Nat × Nat := (if size = 8 then f64 else f32).round (fmtValue s w i)

/-- Encodes a value for storage in a window: the stored code and the flags (R205). -/
def fmtEncode (w : Nat) (x : Xv) : Nat × Nat :=
  match w with
  | 1 => t8Encode x
  | 2 => e4m3Encode x
  | 3 => e2m1Encode x
  | 4 => bf16.round x
  | 5 => f16.round x
  | _ => a48.round x

/-- The exact value of a stored code, unscaled. -/
def fmtCodeValue (w : Nat) (c : Nat) : Xv :=
  match w with
  | 1 => t8Value c
  | 2 => e4m3Value c
  | 3 => e2m1Value c
  | 4 => bf16.decode c
  | 5 => f16.decode c
  | _ => a48.decode c

/-- Writes the stored code of an element (R108): a nibble of window 3 leaves the other nibble. -/
def fmtPut (s : State) (w i c : Nat) : State :=
  let base := scratchBase (home s) (partNow s)
  let ctx := ctxId s
  match w with
  | 3 =>
    let old := scratchByte s (i / 2)
    let b := if i % 2 = 1 then old % 16 + 16 * c else old / 16 * 16 + c
    storeAt s ctx (base + i / 2) [BitVec.ofNat 8 b]
  | 4 => storeAt s ctx (base + 2 * i) (leBytes 2 c)
  | 5 => storeAt s ctx (base + 2 * i) (leBytes 2 c)
  | 6 => storeAt s ctx (accBase (home s) (partNow s) + 6 * i) (leBytes 6 c)
  | _ => storeAt s ctx (base + i) [BitVec.ofNat 8 c]

/-- The scale exponent that a store of an element uses: the one its instruction has just computed for the block, or that of the scale
byte as it stands when the lane is stored (R205, R207). DESIGN CHOICE, log 75: unsafe. -/
def storeScale (s : State) (w i : Nat) (fixed : Tab Int) : Int := (tget fixed (i / 16)).getD ((blockScale s w i).getD 0)

/-- Stores elements in ascending lane order, with the carry of error feedback where it is on (R205, R206). -/
def fmtStore (s : State) (w size : Nat) (fixed : Tab Int) (carry : Option Xv) : List (Nat × Nat) → State
  | [] => s
  | (i, code) :: r =>
    let f := if size = 8 then f64 else f32
    let x := f.decode code
    let sig := if f.signalling code then fInvalid else 0
    match x with
    | .fin _ _ _ _ =>
      let y := x.scale (-(storeScale s w i fixed))
      match carry with
      | none =>
        let (q, fl) := fmtEncode w y
        fmtStore (raiseFlags (fmtPut s w i q) fl) w size fixed none r
      | some c =>
        let u := (xsum [y, c]).1
        let (q, fl) := fmtEncode w u
        let (c, fc) :=
          if fl &&& fOverflow ≠ 0 then (Xv.zero, 0)
          else let (cc, f2) := f32.sum [u, (fmtCodeValue w q).neg]; (f32.decode cc, f2)
        fmtStore (raiseFlags (fmtPut s w i q) (fl ||| fc)) w size fixed (some c) r
    | _ =>
      let (q, fl) := fmtEncode w x
      fmtStore (raiseFlags (fmtPut s w i q) (fl ||| sig)) w size fixed (carry.map (fun _ => Xv.zero)) r

/-- The carry with which a vector store through a window begins: none without error feedback (R111, R206). -/
def startCarry (s : State) (w : Nat) : Option Xv := if 1 ≤ w ∧ w ≤ 5 ∧ bit (regs s).wef w then some Xv.zero else none

/-- The smallest exponent at which a positive value fits under a bound, from a start downwards (R207). -/
def fitScale (m : Xv) (bound : Nat) : Int :=
  match m with
  | .fin _ a b e =>
    let g := floorLog a b + e
    -- m·2^−s ≤ bound holds from s = g − ⌊log2 bound⌋ + 1 on; the one below may do
    let t := g - Nat.log2 bound
    if exceeds a b (e - t) bound then t + 1 else t
  | _ => 0

/-- VSTB's scale byte of a block from its enabled lanes; none leaves it unwritten (R207). -/
def vstbScale (w : Nat) (codes : List Nat) : Option Nat :=
  let xs := codes.map f32.decode
  if xs.any (fun x => match x with
    | .fin _ _ _ _ => false
    | _ => true) then some 255
  else
    let m := xs.foldl (fun a x => if xcmp a x.abs = .lt then x.abs else a) Xv.zero
    match m with
    | .fin _ a _ _ => if a = 0 then none else some (max (fitScale m (if w = 2 then 448 else 6)) (-127) + 127).toNat
    | _ => none

/-! ### The read-line buffer (R151) -/

/-- A buffered line that has not expired. -/
def rlbFind (s : State) (line : Nat) : Option LineBuf :=
  (act s).rlb.find? (fun b => b.line == line && s.cyc < b.filled + 4096)

/-- Fills a line of this module's memory into the read-line buffer, dropping the oldest of 8. DESIGN CHOICE, log 15: unsafe. -/
def rlbFill (s : State) (line : Nat) : State :=
  let b : LineBuf := ⟨line, readBytes s (line * 64) 64, s.cyc⟩
  modAct s (fun a =>
    let l := a.rlb.filter (fun x => x.line != line)
    { a with rlb := (if 8 ≤ l.length then l.drop 1 else l) ++ [b] })

/-- A byte as a plain load of global memory sees it: of the buffered line. -/
def rlbByte (s : State) (rmod : Option Nat) (loc : Nat) : Byte :=
  match rlbFind s (lineKey rmod loc) with
  | some b => b.bytes.getD (loc % 64) 0
  | none => readByte s loc

/-- The lines that some bytes touch. -/
def linesOf (loc n : Nat) : List Nat := (List.range ((loc + n - 1) / 64 - loc / 64 + 1)).map (· + loc / 64)

/-- The activation's own store updates any buffered line it touches, at issue. -/
def rlbStore (s : State) (rmod : Option Nat) (loc : Nat) (bs : List Byte) : State :=
  if (act s).rlb.isEmpty then s
  else
    let put : LineBuf → Nat → LineBuf := fun b x =>
      { b with bytes := (List.range 64).map (fun i =>
          if loc ≤ x * 64 + i && x * 64 + i < loc + bs.length then bs.getD (x * 64 + i - loc) 0 else b.bytes.getD i 0) }
    modAct s (fun a => { a with rlb := a.rlb.map (fun b =>
      match (linesOf loc bs.length).find? (fun l => b.line == lineKey rmod (l * 64)) with
      | some l => put b l
      | none => b) })

/-! ### The scratchpad as its own core reaches it (R50, R150) -/

/-- The pool bytes that an element of a window touches: its own, and its block's scale byte. -/
def poolSpans (s : State) (size : Nat) (t : Tgt) : List (Nat × Nat) :=
  let base := scratchBase (home s) (partNow s)
  match t with
  | .pool l => [(l, size)]
  | .fmt 6 i => [(accBase (home s) (partNow s) + 6 * i, 6)]
  | .fmt w i => (base + (fmtSpan w i).1, (fmtSpan w i).2) :: (if w = 2 ∨ w = 3 then [(base + scaleOff s i, 1)] else [])
  | _ => []

/-- What stands against an access of elements of the local windows: a lost line, for a store as for a load, or an earlier remote access of
the activation to its own scratchpad that is still under way. DESIGN CHOICE, log 91: unsafe. -/
def poolReady (s : State) (size : Nat) (es : List (Word × Tgt)) : Got Unit :=
  let bad := fun (e : Word × Tgt) => (poolSpans s size e.2).findSome? (fun x => poisonFault s (who s) e.1.toNat x.1 x.2)
  match bestBy (fun a b => a.1.toNat < b.1.toNat) (es.filterMap (fun e => (bad e).map (fun f => (e.1, f)))) with
  | some (_, c, t) => .trap s c t
  | none =>
    if es.any (fun e => (poolSpans s size e.2).any (fun x => ownPending s (agentNow s) x.1 x.2)) then .stall s (waitOr s 0 0)
    else .val s ()

/-! ### Plain loads -/

/-- A part of a raw load: in global memory of this module or another, in the core's own pool, or at another core's port. -/
inductive LPart where
  | mem (rmod : Option Nat) (pa n : Nat)
  | pool (loc n : Nat)
  | far (dst : Node) (off n : Nat)
  deriving DecidableEq, Repr

/-- Bytes of a part. -/
def LPart.size : LPart → Nat
  | .mem _ _ n => n
  | .pool _ n => n
  | .far _ _ n => n

/-- The kind of the packets that carry a request to its home port (R16). -/
def ReqOp.kind : ReqOp → Nat
  | .load => 5
  | .store => 4
  | _ => 7

/-- Puts an access of this module's memory in flight to its home port (R148): its number is the next id, and a packet of it travels
for each piece (R442). -/
def sendReq (s : State) (op : ReqOp) (pieces : List (Nat × Nat × List Byte)) : State :=
  let n := s.ids
  let src := nodeOf s (runCore s)
  let t := { s with reqs := tset s.reqs n ⟨agentNow s, ctxId s, op, pieces, [], false, false⟩, ids := n + 1 }
  pieces.foldl (fun t p => launchPacket t (mkPacket src src (ctxId s) 0 0 0 (.port n op.kind p.1 p.2.1))) t

/-- The wait of an access that has sent a request numbered by the next id. -/
def askWait (s : State) (got : List Byte) : Wait :=
  { waitOr s 0 0 with bytes := got, tags := [s.ids], woke := true }

/-- Asks another module for the bytes at an address of its memory (R129). -/
def askRemote (s : State) (m pa n : Nat) : State :=
  launchPacket s (mkPacket (nodeOf s (runCore s)) (moduleNode m) (ctxId s) 4 0 0 (.memAccess m pa n false [] s.ids (agentNow s)))

/-- Performs the parts of a raw load in order, after the bytes already brought. `fresh` loads never use the read-line
buffer (R151). With ports held, parts in global memory are asked of their home ports; another module is always asked, a line at a
time. DESIGN CHOICE, log 5: safe. -/
def runLoad (s : State) (fresh : Bool) (skip : Nat) (got : List Byte) : List LPart → Got (List Byte)
  | [] => .val s got
  | p :: r =>
    if p.size ≤ skip then runLoad s fresh (skip - p.size) got r
    else
      match p with
      | .pool a n =>
        if ownPending s (agentNow s) a n then .stall s { waitOr s 0 0 with bytes := got }
        else runLoad s fresh 0 (got ++ readBytes s a n) r
      | .mem m a n =>
        if fresh then
          match m with
          | some m => .stall (askRemote s m a n) (askWait s got)
          | none =>
            if s.heldPorts then .stall (sendReq s .load [(a, n, [])]) (askWait s got)
            else runLoad s fresh 0 (got ++ readBytes s a n) r
        else
          match (linesOf a n).find? (fun l => (rlbFind s (lineKey m (l * 64))).isNone) with
          | none => runLoad s fresh 0 (got ++ (List.range n).map (fun i => rlbByte s m (a + i))) r
          | some l =>
            match m with
            | some m => .stall (askRemote s m (l * 64) 64) (askWait s got)
            | none =>
              if s.heldPorts then .stall (sendReq s .load [(l * 64, 64, [])]) (askWait s got)
              else
                let s := (linesOf a n).foldl (fun s l => if (rlbFind s l).isNone then rlbFill s l else s) s
                runLoad s fresh 0 (got ++ (List.range n).map (fun i => rlbByte s none (a + i))) r
      | .far d o n =>
        let src := nodeOf s (runCore s)
        let p := mkPacket src d (ctxId s) 4 (choosePath s src d (ctxId s) (o / 64)) 0 (.loadReq o n s.ids (agentNow s))
        .stall (launchPacket s p) (askWait s got)

/-- The bytes of the part that begins at an offset of a load. -/
def partSize (ps : List LPart) (n : Nat) : Nat :=
  match ps with
  | [] => 0
  | p :: r => if n = 0 then p.size else partSize r (n - p.size)

/-- A raw load goes on with what its requests have brought, or still waits. A part that was refused reads as zeros and its address is
kept, so that every part is asked before the load ends (R129, R331). `va` gives the address of a byte. -/
def loadAll (s : State) (fresh : Bool) (va : Nat → Word) (parts : List LPart) : Got (List Byte) :=
  match (act s).wait with
  | some w =>
    if w.tags ≠ [] then .stall s w
    else
      let n := w.bytes.length
      match w.reply with
      | none => runLoad s fresh n w.bytes parts
      | some _ =>
        let got := w.bytes ++ List.replicate (partSize parts n) 0
        let s := modAct s (fun a => { a with wait := some { w with reply := none, bytes := got, refused := w.refused ++ [va n] } })
        runLoad s fresh got.length got parts
  | none => runLoad s fresh 0 [] parts

/-- A load ends: its bytes, or NOTMAPPED at the lowest address that was refused (R129, R331). -/
def refusedOr (s : State) (x : α) : Got α :=
  match (act s).wait.bind (fun w => bestBy (fun a b => a.toNat < b.toNat) w.refused) with
  | some va => .trap s .notmapped va
  | none => .val s x

/-- A raw load of some parts, all or nothing (R129, R136). -/
def loadParts (s : State) (fresh : Bool) (va : Nat → Word) (parts : List LPart) : Got (List Byte) :=
  (loadAll s fresh va parts).bind refusedOr

/-- The load parts of translated parts. -/
def pagedParts (ps : List (Nat × Option Nat × Nat)) : List LPart :=
  ps.map (fun p => if 2 ^ 48 ≤ p.1 then .pool p.1 p.2.2 else .mem p.2.1 p.1 p.2.2)

/-- The key of an 8-byte word that may hold a mailbox: of this module, or of another's memory. -/
def mailKey (rmod : Option Nat) (loc : Nat) : Nat :=
  match rmod with
  | none => loc / 8
  | some m => (m + 1) * 2 ^ 60 + loc / 8

/-- The mailbox keys that a part of a load reads. -/
def LPart.mails (s : State) : LPart → List Nat
  | .mem m a n => (List.range ((a + n - 1) / 8 - a / 8 + 1)).map (fun i => mailKey m (a / 8 * 8 + 8 * i))
  | .pool a n => (List.range ((a + n - 1) / 8 - a / 8 + 1)).map (fun i => mailKey none (a / 8 * 8 + 8 * i))
  | .far d o n => match takerOf s d with
    | some c =>
      let a := scratchBase c (partOf s c (ctxId s)) + o
      (List.range ((a + n - 1) / 8 - a / 8 + 1)).map (fun i => mailKey none (a / 8 * 8 + 8 * i))
    | none => []

/-- A load of a mailbox word that an engine job has written is an acquire (R154). -/
def mailAcquire (s : State) (ps : List LPart) : State :=
  if s.mailboxes.isEmpty then s
  else if ps.any (fun p => (p.mails s).any (fun k => s.mailboxes.contains k)) then acquire s
  else s

/-- Translates a page-mapped access; a fault or a wait on M ends it (R129, R136, R144). -/
def translated (s : State) (k : AccKind) (pieces : List (Nat × Nat)) : Got (List (List (Nat × Option Nat × Nat))) :=
  if pieces.isEmpty then .val s [] else
  match translateAll s (who s) k pieces with
  | .ok ps ls => .val (commitLeaves s (who s) k ls) ps
  | .fault c t => .trap (endWalks s (who s)) c t
  | .wait va h => .stall (startWalk s (who s) va h) (waitOr s 0 0)

/-- Where plain accesses to page-mapped memory or window 0 lie, all or nothing: the parts of each, or the failure; one of the upper
ranges comes before one of translation, and of each the lowest address (R122, R136). -/
def placeAll (s : State) (w : Who) (k : AccKind) (ps : List (Word × Nat)) : TransRes :=
  let near := ps.map (fun p => if rangeOf p.1 = .paged then none else some (resolve s w k p.1 p.2))
  match bestBy (fun a b => a.1.toNat < b.1.toNat) ((ps.zip near).filterMap (fun x => match x.2 with
    | some (.fault c t) => some (x.1.1, c, t)
    | _ => none)) with
  | some (_, c, t) => .fault c t
  | none =>
    match translateAll s w k ((ps.filter (fun p => rangeOf p.1 = .paged)).map (fun p => (p.1.toNat, p.2))) with
    | .ok paged ls =>
      .ok (near.foldl (fun (acc : List (List (Nat × Option Nat × Nat)) × List (List (Nat × Option Nat × Nat))) x => match x with
        | some (.ok [p] _) => (acc.1 ++ [p], acc.2)
        | _ => (acc.1 ++ [acc.2.headD []], acc.2.tail)) ([], paged)).1 ls
    | x => x

/-- The index word of an element of a binding: its address and size (R228). -/
def gatherIdx (g : Bind) (i : Nat) : Word × Nat := (g.idx + BitVec.ofNat 64 (4 * i), 4)

/-- The element that an index word names. -/
def gatherAt (g : Bind) (x : Nat) : Word × Nat := (g.base + BitVec.ofNat 64 (g.size * x), g.size)

/-- The address of a byte of some accesses that follow one another. -/
def byteAddr (all : List (Word × Nat)) (n : Nat) : Word :=
  match all with
  | [] => 0
  | p :: r => if n < p.2 then p.1 + BitVec.ofNat 64 n else byteAddr r (n - p.2)

/-- Elements whose index words' loads have begun, in their order: those already brought or being brought, then the others whose words
pass their checks. -/
def gatherOrder (s : State) (w : Who) (g : Bind) (is : List Nat) : List Nat :=
  let begun := match (act s).wait with
    | some x => (x.vas.map (·.1)).take ((x.bytes.length + 3) / 4 + (if x.tags.isEmpty && x.reply.isNone then 0 else 1))
    | none => []
  begun ++ is.filter (fun i => !begun.contains i && (match placeAll s w .load [gatherIdx g i] with
    | .ok _ _ => true
    | _ => false))

/-- A stalled load remembers the elements whose index words it reads. -/
def Got.begun (order : List Nat) (g : Got α) : Got α :=
  match g with
  | .stall s w => .stall s { w with vas := order.map (fun i => (i, 0)) }
  | x => x

/-- GATHERS elements of a binding: the index words, then base + size · idx, zero-extended, as plain loads in address dependence
(R228). Every page of both that can be known is checked before an element is loaded, and no bit is set unless all pass (R136).
DEDUCED, log 18: unsafe. -/
def gatherElems (s : State) (g : Bind) (is : List Nat) : Got (List Nat) :=
  let w := who s
  let order := gatherOrder s w g is
  let idx := order.map (gatherIdx g)
  let place := fun (s : State) (ps : List (Word × Nat)) => ps.flatMap (fun p => match placeAll s w .load [p] with
    | .ok xs _ => xs.flatMap pagedParts
    | _ => [])
  let first := match (act s).wait with
    | some x => if x.tags = [] ∧ order ≠ [] ∧ 4 * order.length ≤ x.bytes.length then Got.val s x.bytes else loadAll s false (byteAddr idx) (place s idx)
    | none => loadAll s false (byteAddr idx) (place s idx)
  (first.begun order).bind (fun s ib =>
    let bad := match (act s).wait with
      | some x => x.refused
      | none => []
    let at_ := fun (i : Nat) => leNat ((ib.drop (4 * order.idxOf i)).take 4)
    let known := is.filter (fun i => order.contains i && !bad.any (fun a => (a - (gatherIdx g i).1).toNat < 4))
    let els := known.map (fun i => gatherAt g (at_ i))
    match placeAll s w .load (is.map (gatherIdx g) ++ els) with
    | .fault c t =>
      match bestBy (fun a b => a.toNat < b.toNat) bad with
      | some x => if x.toNat < t.toNat then .trap (endWalks s w) .notmapped x else .trap (endWalks s w) c t
      | none => .trap (endWalks s w) c t
    | .wait va h => (Got.stall (startWalk s w va h) { waitOr s 0 0 with bytes := ib }).begun order
    | .ok _ ls =>
      let parts := place s idx ++ place s els
      let s := commitLeaves s w .load ls
      ((loadAll s false (byteAddr (idx ++ els)) parts).begun order).bind (fun s bs =>
        (refusedOr s bs).bind (fun s bs =>
          .val (mailAcquire s parts) ((List.range is.length).map (fun i => leNat ((bs.drop (4 * is.length + g.size * i)).take g.size))))))

/-- LOADS one scalar of `size` bytes: its bits as the range delivers them (R292, R293). -/
def loadVal (s : State) (a : Word) (size : Nat) (fresh : Bool) : Got Nat :=
  if !alignOk a size then .trap s .misalign a
  else
    match classify s false a size with
    | .error (c, t) => .trap s c t
    | .ok .paged =>
      (translated s .load [(a.toNat, size)]).bind (fun s ps =>
        (loadParts s fresh (fun n => a + BitVec.ofNat 64 n) (pagedParts ps.flatten)).bind (fun s bs =>
          .val (mailAcquire s (pagedParts ps.flatten)) (leNat bs)))
    | .ok (.pool l) => (poolReady s size [(a, .pool l)]).bind (fun s _ => .val (mailAcquire s [.pool l size]) (readNat s l size))
    | .ok (.fmt w i) =>
      (poolReady s size [(a, .fmt w i)]).bind (fun s _ =>
        let (c, fl) := fmtLoad s w i size
        .val (raiseFlags s fl) c)
    | .ok (.far d o) => (loadParts s fresh (fun _ => a) [.far d o size]).bind (fun s bs =>
        .val (mailAcquire s [.far d o size]) (leNat bs))
    | .ok (.gat b i) =>
      match tget (ctxNow s).binds b with
      | none => .trap s .window a
      | some g =>
        (gatherElems s g (if size = 8 then [i, i + 1] else [i])).bind (fun s xs =>
          .val s (xs.getD 0 0 + 2 ^ 32 * xs.getD 1 0))

/-! ### Stores -/

/-- Performs, or sends, a store of bytes over translated parts that begin at a virtual address; a part on another module is sent
there, and the request's tag and address are kept (R129, R148, R150, R151). -/
def storePaged (s : State) (va : Word) (sent : List (Nat × Word)) : List (Nat × Option Nat × Nat) → List Byte → State × List (Nat × Word)
  | [], _ => (s, sent)
  | (a, m, n) :: r, bs =>
    let b := bs.take n
    let t := rlbStore s m a b
    let next := va + BitVec.ofNat 64 n
    match m with
    | none => storePaged (if t.heldPorts then sendReq t .store [(a, n, b)] else storeAt t (ctxId t) a b) next sent r (bs.drop n)
    | some x =>
      let p := mkPacket (nodeOf t (runCore t)) (moduleNode x) (ctxId t) 4 0 0 (.memAccess x a n true b t.ids (agentNow t))
      storePaged (launchPacket t p) next (sent ++ [(t.ids, va)]) r (bs.drop n)

/-- The stage of the wait of a store that has been sent to another module. -/
def sentStage : Nat := 8

/-- The store of the current instruction has been made, and waits only for other modules' answers (R129). -/
def storeSent (s : State) : Bool :=
  match (act s).wait with
  | some w => w.stage == sentStage
  | none => false

/-- What has come of the parts of a store that were sent to other modules: NOTMAPPED where an address is not backed there (R129).
DESIGN CHOICE, log 21: unsafe. -/
def storeAnswer (s : State) : Got Unit :=
  match (act s).wait with
  | some w =>
    if w.tags ≠ [] then .stall s w
    else
      match w.reply with
      | some va => .trap s .notmapped va
      | none => .val s ()
  | none => .val s ()

/-- A store has been made: it is complete, or waits for other modules' answers. -/
def storeMade (x : State × List (Nat × Word)) : Got Unit :=
  if x.2.isEmpty then .val x.1 ()
  else .stall x.1 { waitOr x.1 0 0 with stage := sentStage, tags := x.2.map (·.1), vas := x.2, reply := none }

/-- The stage of the wait of a store of several parts that has asked whether those on other modules are backed there. -/
def probeStage : Nat := 7

/-- Parts of a store, with their addresses, on other modules: address, module, physical address and size. -/
def farParts (ps : List (Word × Nat × Option Nat × Nat)) : List (Word × Nat × Nat × Nat) :=
  ps.filterMap (fun p => p.2.2.1.map (fun m => (p.1, m, p.2.1, p.2.2.2)))

/-- Asks the modules of some parts for the bytes that stand there. -/
def askParts (s : State) (ids : List (Nat × Word)) : List (Word × Nat × Nat × Nat) → State × List (Nat × Word)
  | [] => (s, ids)
  | (va, m, pa, n) :: r => askParts (askRemote s m pa n) (ids ++ [(s.ids, va)]) r

/-- All or nothing over modules (R136, R290, R331): before a store of several parts makes any, each part on another module is asked for,
and the lowest one that is refused is trapped on. DESIGN CHOICE, log 21: unsafe. -/
def allBacked (s : State) (ps : List (Word × Nat × Option Nat × Nat)) : Got Unit :=
  let far := farParts ps
  let key := far.map (fun f => (some f.2.1, f.2.2.1))
  let ask : Got Unit :=
    let (t, ids) := askParts s [] far
    .stall t { waitOr s 0 0 with stage := probeStage, tags := ids.map (·.1), vas := ids, locs := key, reply := none }
  if far.isEmpty || ps.length ≤ 1 then .val s ()
  else
    match (act s).wait with
    | none => ask
    | some w =>
      if w.stage ≠ probeStage ∨ w.locs ≠ key then ask
      else if w.tags ≠ [] then .stall s w
      else
        match w.reply with
        | some va => .trap s .notmapped va
        | none => .val s ()

/-- STORES one scalar of `size` bytes (R292, R293). `scope` is carried by a remote store. -/
def storeVal (s : State) (a : Word) (size : Nat) (v : Nat) (scope : Nat) : Got Unit :=
  if storeSent s then storeAnswer s
  else if !alignOk a size then .trap s .misalign a
  else
    match classify s true a size with
    | .error (c, t) => .trap s c t
    | .ok .paged => (translated s .store [(a.toNat, size)]).bind (fun s ps => storeMade (storePaged s a [] ps.flatten (leBytes size v)))
    | .ok (.pool l) => (poolReady s size [(a, .pool l)]).bind (fun s _ => .val (storeAt s (ctxId s) l (leBytes size v)) ())
    | .ok (.fmt w i) =>
      (poolReady s size [(a, .fmt w i)]).bind (fun s _ => .val (fmtStore s w size [] none [(i, v % 2 ^ (8 * size))]) ())
    | .ok (.far d o) =>
      .val ((remoteStore s (runCore s) d (ctxId s) scope o (leBytes size v) [] (agentNow s))) ()
    | .ok (.gat _ _) => .trap s .window a

/-! ### Atomics (R164, R299-R302) -/

/-- A value of `wide` or 32-bit width, sign-extended to a word. -/
def widen (wide : Bool) (x : Nat) : Word := if wide then BitVec.ofNat 64 x else (BitVec.ofNat 32 x).signExtend 64

/-- The new value an atomic leaves at its location; none writes nothing (R299). -/
def atomNew (op : AtomOp) (wide : Bool) (old b e0 : Nat) : Option Nat :=
  let n : Nat := if wide then 64 else 32
  let o := old % 2 ^ n
  let x := b % 2 ^ n
  let sg : Nat → Int := fun v => if v < 2 ^ (n - 1) then (v : Int) else (v : Int) - 2 ^ n
  match op with
  | .add => some ((o + x) % 2 ^ n)
  | .and => some (o &&& x)
  | .or => some (o ||| x)
  | .xor => some (o ^^^ x)
  | .min => some (if sg x < sg o then x else o)
  | .max => some (if sg o < sg x then x else o)
  | .minu => some (Nat.min o x)
  | .maxu => some (Nat.max o x)
  | .swp => some x
  | .cas => if o = e0 % 2 ^ n then some x else none

/-- Performs an atomic at a location: the state and the old value (R164). -/
def atomAt (s : State) (ctx loc : Nat) (op : AtomOp) (wide : Bool) (b e0 : Word) : State × Nat :=
  let n := if wide then 8 else 4
  let old := readNat s loc n
  match atomNew op wide old b.toNat e0.toNat with
  | some x => (storeAt s ctx loc (leBytes n x), old)
  | none => (s, old)

/-- An atomic of one address: its old value. It releases, is performed as one event at its home, and acquires (R298, R302). -/
def atomVal (s : State) (a : Word) (op : AtomOp) (wide : Bool) (scope : Nat) (b : Word) : Got Nat :=
  let size := if wide then 8 else 4
  if a.toNat % size ≠ 0 then .trap s .misalign a
  else
    match rangeOf a with
    | .gather => .trap s .window a
    | .window (_ + 1) => .trap s .window a
    | _ =>
      match classify s true a size with
      | .error (c, t) => .trap s c t
      | .ok tgt =>
        match (act s).wait with
        | some w =>
          if w.stage = 9 then
            if w.tags ≠ [] then .stall s w
            else if w.reply.isSome then .trap s .notmapped a
            else .val (acquire s) (leNat w.bytes)
          else atomGo s tgt size
        | none => atomGo s tgt size
where
  /-- Waits for earlier accesses, then performs or sends the atomic. -/
  atomGo (s : State) (tgt : Tgt) (size : Nat) : Got Nat :=
    let e0 := rE s 0
    match tgt with
    | .paged =>
      (translated s .atomic [(a.toNat, size)]).bind (fun s ps =>
        if !released s then .stall s (waitOr s 0 0)
        else
          match ps.flatten with
          | [(pa, none, _)] =>
            if s.heldPorts then
              .stall (sendReq s (.atomic op wide b e0) [(pa, size, [])]) { askWait s [] with stage := 9 }
            else
              let (s, old) := atomAt s (ctxId s) pa op wide b e0
              .val (acquire s) old
          | [(pa, some m, _)] =>
            let p := mkPacket (nodeOf s (runCore s)) (moduleNode m) (ctxId s) 4 0 0 (.memAtomic m pa op wide b e0 s.ids (agentNow s))
            .stall (launchPacket s p) { askWait s [] with stage := 9 }
          | _ => .trap s .notmapped a)
    | .pool l =>
      if !released s then .stall s (waitOr s 0 0)
      else
        (poolReady s size [(a, .pool l)]).bind (fun s _ =>
          let (s, old) := atomAt s (ctxId s) l op wide b e0
          .val (acquire s) old)
    | .far d o =>
      if !released s then .stall s (waitOr s 0 0)
      else
        let p := mkPacket (nodeOf s (runCore s)) d (ctxId s) scope 0 0 (.atomic o op wide b e0 s.ids (agentNow s))
        .stall ((launchPacket s p)) { askWait s [] with stage := 9 }
    | _ => .trap s .window a

/-! ### Vector accesses (R328-R334) -/

/-- The forms of a vector access. -/
inductive VForm where
  | unit | strided | indexed | pairUnit | pairStrided | scaled
  deriving DecidableEq, Repr

/-- Lane size in bytes. -/
def VForm.size : VForm → Nat
  | .pairUnit => 8 | .pairStrided => 8 | _ => 4

/-- A range takes a form (R330). -/
def formAllowed (f : VForm) (store : Bool) (r : Range) : Bool :=
  match r with
  | .unmapped => true
  | .paged => f != .scaled
  | .window w =>
    if w = 0 then f != .scaled
    else if w = 6 then f != .scaled
    else if 1 ≤ w ∧ w ≤ 5 then (f == .unit || f == .strided || f == .indexed || (f == .scaled && (w == 2 || w == 3)))
    else false
  | .aperture => f == .unit || f == .pairUnit
  | .gather => f == .unit && !store

/-- A lane lies in the range of the lowest enabled lane: the same space, window, core L or gather window (R329).
DEDUCED, log 62: unsafe. -/
def sameRange (a b : Word) : Bool :=
  rangeOf a == rangeOf b &&
  match rangeOf a with
  | .aperture => (a.toNat - apertureBase) / 2 ^ 20 == (b.toNat - apertureBase) / 2 ^ 20
  | .gather => (a.toNat - gatherBase) / 2 ^ 40 == (b.toNat - gatherBase) / 2 ^ 40
  | _ => true

/-- The lowest address of lanes that fail a test. -/
def lowestBad (lanes : List (Nat × Word)) (bad : Word → Bool) : Option Word :=
  bestBy (fun a b => a.toNat < b.toNat) ((lanes.filter (fun l => bad l.2)).map (·.2))

/-- The lowest failure among lanes that classify themselves. -/
def lowestError (es : List (Word × (Cause × Word))) : Option (Cause × Word) :=
  (bestBy (fun a b => a.1.toNat < b.1.toNat) es).map (·.2)

/-- Checks the enabled lanes of a vector access in the order of R331 and classifies them. -/
def checkLanes (s : State) (store : Bool) (f : VForm) (lanes : List (Nat × Word)) : Except (Cause × Word) (List (Nat × Word × Tgt)) :=
  match lowestBad lanes (fun a => !laneAligned a f.size) with
  | some a => .error (.misalign, a)
  | none =>
    match lanes with
    | [] => .ok []
    | (_, base) :: _ =>
      let cs := lanes.map (fun l => (l,
        if formAllowed f store (rangeOf base) && sameRange base l.2 then classify s store l.2 f.size
        else .error (.window, l.2)))
      match lowestError (cs.filterMap (fun c => match c.2 with
        | .error e => some (c.1.2, e)
        | .ok _ => none)) with
      | some e => .error e
      | none => .ok (cs.filterMap (fun c => match c.2 with
        | .ok t => some (c.1.1, c.1.2, t)
        | .error _ => none))

/-- Groups aperture lanes by 64-byte line: the destination, the first offset, and the lanes' offsets (R332). -/
def farGroups (lanes : List (Nat × Word × Tgt)) : List (Node × Nat) :=
  lanes.foldl (fun gs l => match l.2.2 with
    | .far d o => if gs.contains (d, o / 64) then gs else gs ++ [(d, o / 64)]
    | _ => gs) []

/-- Loads the enabled lanes of a vector access: each lane's bits (R331, R332). -/
def loadLanes (s : State) (f : VForm) (lanes : List (Nat × Word)) : Got (List (Nat × Nat)) :=
  match checkLanes s false f lanes with
  | .error (c, t) => .trap s c t
  | .ok [] => .val s []
  | .ok ((l0, a0, t0) :: rest) =>
    let ls := (l0, a0, t0) :: rest
    match t0 with
    | .paged =>
      (translated s .load (ls.map (fun l => (l.2.1.toNat, f.size)))).bind (fun s ps =>
        (loadParts s false (fun n => (ls.getD (n / f.size) (0, 0, t0)).2.1 + BitVec.ofNat 64 (n % f.size)) (ps.flatMap pagedParts)).bind (fun s bs =>
          .val (mailAcquire s (ps.flatMap pagedParts)) (ls.zipIdx.map (fun x => (x.1.1, leNat ((bs.drop (f.size * x.2)).take f.size))))))
    | .pool _ =>
      (poolReady s f.size (ls.map (·.2))).bind (fun s _ =>
        .val (mailAcquire s (ls.flatMap (fun l => (poolSpans s f.size l.2.2).map (fun x => .pool x.1 x.2))))
          (ls.map (fun l => (l.1, match l.2.2 with
            | .pool a => readNat s a f.size
            | _ => 0))))
    | .fmt w _ =>
      (poolReady s f.size (ls.map (·.2))).bind (fun s _ =>
        let rs := ls.map (fun l => (l.1, match l.2.2 with
          | .fmt _ i => fmtLoad s w i f.size
          | _ => (0, 0)))
        .val (raiseFlags s (rs.foldl (fun fl r => fl ||| r.2.2) 0)) (rs.map (fun r => (r.1, r.2.1))))
    | .far _ _ =>
      let gs := farGroups ls
      let fs : List LPart := gs.map (fun g => .far g.1 (g.2 * 64) 64)
      let low := fun (n : Nat) => (bestBy (fun a b => a.toNat < b.toNat) (ls.filterMap (fun l => match l.2.2 with
        | .far d o => if gs[n / 64]? = some (d, o / 64) then some l.2.1 else none
        | _ => none))).getD a0
      (loadParts s false low fs).bind (fun s bs =>
        .val (mailAcquire s fs) (ls.map (fun l => (l.1, match l.2.2 with
          | .far d o =>
            let k := gs.findIdx (fun g => g == (d, o / 64))
            leNat ((bs.drop (64 * k + o % 64)).take f.size)
          | _ => 0))))
    | .gat b _ =>
      match tget (ctxNow s).binds b with
      | none => .trap s .window a0
      | some g =>
        (gatherElems s g (ls.map (fun l => match l.2.2 with
          | .gat _ i => i
          | _ => 0))).bind (fun s xs => .val s (ls.zipIdx.map (fun x => (x.1.1, xs.getD x.2 0))))

/-- Bytes and holes of one remote store that carries the lanes of a line: from its first byte to its last (R332). -/
def lineStore (d : Node) (line size : Nat) (ls : List (Word × Tgt × Nat)) : Nat × List Byte × List Nat :=
  let at_ : Nat → Option Byte := fun o =>
    (ls.filterMap (fun l => match l.2.1 with
      | .far x p => if x = d ∧ p ≤ o ∧ o < p + size then some ((leBytes size l.2.2).getD (o - p) 0) else none
      | _ => none)).getLast?
  let os := (List.range 64).map (fun i => (line * 64 + i, at_ (line * 64 + i)))
  let used := os.filter (fun x => x.2.isSome)
  match used.head?, used.getLast? with
  | some lo, some hi =>
    let span := os.filter (fun x => lo.1 ≤ x.1 && x.1 ≤ hi.1)
    (lo.1, span.map (fun x => x.2.getD 0), (span.zipIdx.filter (fun x => x.1.2.isNone)).map (·.2))
  | _, _ => (line * 64, [], [])

/-- VSTB's scale bytes: those written, by block, and the scale exponents with which the blocks' elements are stored (R207). -/
def vstbBlocks (w : Nat) (es : List (Nat × Nat)) : List (Nat × Nat) :=
  (es.foldl (fun bs e => if bs.contains (e.1 / 16) then bs else bs ++ [e.1 / 16]) []).filterMap (fun b =>
    (vstbScale w ((es.filter (fun e => e.1 / 16 == b)).map (·.2))).map (fun v => (b, v)))

/-- Stores the enabled lanes of a vector access, in ascending lane order (R331-R334). A full line of page-mapped memory is one
piece (R149, R332). -/
def storeLanes (s : State) (f : VForm) (lanes : List (Nat × Word × Nat)) : Got Unit :=
  if storeSent s then storeAnswer s
  else
    match checkLanes s true f (lanes.map (fun l => (l.1, l.2.1))) with
    | .error (c, t) => .trap s c t
    | .ok [] => .val s ()
    | .ok ((l0, a0, t0) :: rest) =>
      let ls := (l0, a0, t0) :: rest
      let vs := ls.zipIdx.map (fun x => (x.1.2.1, x.1.2.2, (lanes.getD x.2 (0, 0, 0)).2.2))
      match t0 with
      | .paged =>
        (translated s .store (ls.map (fun l => (l.2.1.toNat, f.size)))).bind (fun s ps =>
          let lanes := fun (s : State) => (allBacked s ((vs.zip ps).flatMap (fun p => p.2.map (fun x => (p.1.1, x))))).bind (fun s _ =>
            storeMade (lanePieces s f vs ps))
          match ps with
          | [(pa, m, _)] :: _ =>
            if f = .unit ∧ ls.length = 16 ∧ a0.toNat % 64 = 0 then
              storeMade (storePaged s a0 [] [(pa, m, 64)] (vs.flatMap (fun x => leBytes 4 x.2.2)))
            else lanes s
          | _ => lanes s)
      | .pool _ =>
        (poolReady s f.size (ls.map (·.2))).bind (fun s _ =>
          .val (vs.foldl (fun s x => match x.2.1 with
            | .pool a => storeAt s (ctxId s) a (leBytes f.size x.2.2)
            | _ => s) s) ())
      | .fmt w _ =>
        (poolReady s f.size (ls.map (·.2))).bind (fun s _ =>
          let es := vs.map (fun x => (match x.2.1 with
            | .fmt _ i => i
            | _ => 0, x.2.2))
          let bs := if f = .scaled then vstbBlocks w es else []
          let s := bs.foldl (fun s b =>
            storeAt s (ctxId s) (scratchBase (home s) (partNow s) + scaleOff s (16 * b.1)) [BitVec.ofNat 8 b.2]) s
          let fixed : Tab Int := bs.foldl (fun t b => tset t b.1 (if b.2 = 255 then 0 else (b.2 : Int) - 127)) []
          .val (fmtStore s w f.size fixed (startCarry s w) es) ())
      | .far _ _ =>
        .val ((farGroups ls).foldl (fun s g =>
          let (o, bs, hs) := lineStore g.1 g.2 f.size vs
          (remoteStore s (runCore s) g.1 (ctxId s) 0 o bs hs (agentNow s))) s) ()
      | .gat _ _ => .trap s .window a0
where
  /-- Each lane is a piece of its own (R149). -/
  lanePieces (s : State) (f : VForm) (vs : List (Word × Tgt × Nat)) (ps : List (List (Nat × Option Nat × Nat))) : State × List (Nat × Word) :=
    (ps.zip vs).foldl (fun x p => storePaged x.1 p.2.1 x.2 p.1 (leBytes f.size p.2.2.2)) (s, [])

end Sys2Proof.Machine
end

