-- ==== Sys2Proof/Machine/Mem.lean ====
section
/-!
DEFINITION. Machine/Mem.lean: operand-extension registers, loads and stores, ordering instructions and atomics (R289-R302).
-/

namespace Sys2Proof.Machine

/-! ### Raw words (R290, R296) -/

/-- Classifies the `n`-byte elements at some addresses that may lie in page-mapped memory, window 0 or the aperture only;
the lowest offending address otherwise (R290, R296). -/
def classRaw (s : State) (store : Bool) (size : Nat) (as : List Word) : Except (Cause × Word) (List (Word × Tgt)) :=
  let raw : Word → Except (Cause × Word) Tgt := fun a => match classify s store a size with
    | .ok (.fmt _ _) => .error (.window, a)
    | .ok (.gat _ _) => .error (.window, a)
    | x => x
  let cs := as.map (fun a => (a, raw a))
  match lowestError (cs.filterMap (fun c => match c.2 with
    | .error e => some (c.1, e)
    | .ok _ => none)) with
  | some e => .error e
  | none => .ok (cs.filterMap (fun c => match c.2 with
    | .ok t => some (c.1, t)
    | .error _ => none))

/-- Loads the words at some addresses, all or nothing (R290). -/
def loadRaw (s : State) (size : Nat) (as : List Word) : Got (List Nat) :=
  match classRaw s false size as with
  | .error (c, t) => .trap s c t
  | .ok ts =>
    let paged := (ts.filter (fun t => t.2 == .paged)).map (fun t => (t.1.toNat, size))
    (translated s .load paged).bind (fun s ps =>
      (poolReady s size ts).bind (fun s _ =>
        let parts := (ts.foldl (fun acc t => match t.2 with
          | .paged => (acc.1 ++ pagedParts (acc.2.headD []), acc.2.tail)
          | .pool l => (acc.1 ++ [.pool l size], acc.2)
          | .far d o => (acc.1 ++ [.far d o size], acc.2)
          | _ => acc) (([] : List LPart), ps)).1
        (loadParts s false (fun n => as.getD (n / size) 0 + BitVec.ofNat 64 (n % size)) parts).bind (fun s bs =>
          .val (mailAcquire s parts) ((List.range ts.length).map (fun i => leNat ((bs.drop (size * i)).take size))))))

/-- Stores values at some addresses, all or nothing (R290). -/
def storeRaw (s : State) (size : Nat) (xs : List (Word × Nat)) : Got Unit :=
  if storeSent s then storeAnswer s
  else
    match classRaw s true size (xs.map (·.1)) with
    | .error (c, t) => .trap s c t
    | .ok ts =>
      let paged := (ts.filter (fun t => t.2 == .paged)).map (fun t => (t.1.toNat, size))
      (translated s .store paged).bind (fun s ps =>
        (poolReady s size ts).bind (fun s _ =>
          (allBacked s (((ts.filter (fun t => t.2 == .paged)).zip ps).flatMap (fun p => p.2.map (fun x => (p.1.1, x))))).bind (fun s _ =>
          storeMade ((ts.zip (xs.map (·.2))).foldl (fun (acc : (State × List (Nat × Word)) × List (List (Nat × Option Nat × Nat))) t =>
            let u := acc.1.1
            match t.1.2 with
            | .paged => (storePaged u t.1.1 acc.1.2 (acc.2.headD []) (leBytes size t.2), acc.2.tail)
            | .pool l => ((storeAt u (ctxId u) l (leBytes size t.2), acc.1.2), acc.2)
            | .far d o => ((remoteStore u (runCore u) d (ctxId u) 0 o (leBytes size t.2) [] (agentNow u), acc.1.2), acc.2)
            | _ => acc) ((s, []), ps)).1)))

/-! ### Operand-extension registers (R289-R291) -/

/-- OXSET (R289). -/
def execOxset (a : EReg) (b : SReg) (s : State) : Host.Outcome State Fault Refusal :=
  issue (baseGate (.oxset a b)) (fun s => .ok (wE s a (rS s b))) s

/-- OXGET (R289). -/
def execOxget (a : SReg) (b : EReg) (s : State) : Host.Outcome State Fault Refusal :=
  issue (baseGate (.oxget a b)) (fun s => .ok (wS s a (rE s b))) s

/-- OXCLR (R289). -/
def execOxclr (a : EReg) (s : State) : Host.Outcome State Fault Refusal :=
  issue (baseGate (.oxclr a)) (fun s => .ok (wE s a 0)) s

/-- The addresses of n consecutive 8-byte words. -/
def wordAddrs (a : Word) (n : Nat) : List Word := (List.range n).map (fun i => a + BitVec.ofNat 64 (8 * i))

/-- Writes e-registers from a first one up. -/
def setEs (s : State) (first : Nat) : List Nat → State
  | [] => s
  | x :: r => setEs (wE s (BitVec.ofNat 3 first) (BitVec.ofNat 64 x)) (first + 1) r

/-- OXLDM (R289, R290). -/
def execOxldm (a : EReg) (b : SReg) (m : BitVec 3) (s : State) : Host.Outcome State Fault Refusal :=
  issue (baseGate (.oxldm a b m)) (fun s =>
    let x := rS s b
    if x.toNat % 8 ≠ 0 then .trap s .misalign x
    else (loadRaw s 8 (wordAddrs x (m.toNat + 1))).res (fun s vs => .ok (setEs s a.toNat vs))) s

/-- OXSTM (R289, R290). -/
def execOxstm (a : EReg) (b : SReg) (m : BitVec 3) (s : State) : Host.Outcome State Fault Refusal :=
  issue (baseGate (.oxstm a b m)) (fun s =>
    let x := rS s b
    if x.toNat % 8 ≠ 0 then .trap s .misalign x
    else
      let vs := (List.range (m.toNat + 1)).map (fun i => (rE s (BitVec.ofNat 3 (a.toNat + i))).toNat)
      (storeRaw s 8 ((wordAddrs x (m.toNat + 1)).zip vs)).res (fun s _ => .ok s)) s

/-! ### Loads and stores (R292-R294) -/

/-- The address of an F-M word (R292). -/
def memAddr (s : State) (b : SReg) (imm : BitVec 9) (size : Nat) : Word :=
  rS s b + imm.signExtend 64 * BitVec.ofNat 64 size

/-- Extends a loaded value of `size` bytes (R292). -/
def extend (signed : Bool) (size v : Nat) : Word :=
  match signed, size with
  | true, 1 => (BitVec.ofNat 8 v).signExtend 64
  | true, 2 => (BitVec.ofNat 16 v).signExtend 64
  | true, 4 => (BitVec.ofNat 32 v).signExtend 64
  | _, _ => BitVec.ofNat 64 v

/-- The effect of a scalar load (R292). -/
def loadBody (a : SReg) (signed : Bool) (size : Nat) (addr : State → Word) (s : State) : Res :=
  (loadVal s (addr s) size false).res (fun s v => .ok (wS s a (extend signed size v)))

/-- The effect of a scalar store (R292). -/
def storeBody (a : SReg) (size : Nat) (addr : State → Word) (s : State) : Res :=
  (storeVal s (addr s) size ((rS s a).toNat % 2 ^ (8 * size)) 0).res (fun s _ => .ok s)

/-- Issues a scalar load. -/
def loadOp (i : Instr) (a b : SReg) (imm : BitVec 9) (signed : Bool) (size : Nat) (s : State) : Host.Outcome State Fault Refusal :=
  issue (baseGate i) (loadBody a signed size (fun s => memAddr s b imm size)) s

/-- Issues a scalar store. -/
def storeOp (i : Instr) (a b : SReg) (imm : BitVec 9) (size : Nat) (s : State) : Host.Outcome State Fault Refusal :=
  issue (baseGate i) (storeBody a size (fun s => memAddr s b imm size)) s

/-- LDB (R292). -/
def execLdb (a b : SReg) (imm : BitVec 9) (s : State) : Host.Outcome State Fault Refusal := loadOp (.ldb a b imm) a b imm true 1 s
/-- LDBU (R292). -/
def execLdbu (a b : SReg) (imm : BitVec 9) (s : State) : Host.Outcome State Fault Refusal := loadOp (.ldbu a b imm) a b imm false 1 s
/-- LDH (R292). -/
def execLdh (a b : SReg) (imm : BitVec 9) (s : State) : Host.Outcome State Fault Refusal := loadOp (.ldh a b imm) a b imm true 2 s
/-- LDHU (R292). -/
def execLdhu (a b : SReg) (imm : BitVec 9) (s : State) : Host.Outcome State Fault Refusal := loadOp (.ldhu a b imm) a b imm false 2 s
/-- LDW (R292). -/
def execLdw (a b : SReg) (imm : BitVec 9) (s : State) : Host.Outcome State Fault Refusal := loadOp (.ldw a b imm) a b imm true 4 s
/-- LDWU (R292). -/
def execLdwu (a b : SReg) (imm : BitVec 9) (s : State) : Host.Outcome State Fault Refusal := loadOp (.ldwu a b imm) a b imm false 4 s
/-- LDD (R292). -/
def execLdd (a b : SReg) (imm : BitVec 9) (s : State) : Host.Outcome State Fault Refusal := loadOp (.ldd a b imm) a b imm false 8 s
/-- STB (R292). -/
def execStb (a b : SReg) (imm : BitVec 9) (s : State) : Host.Outcome State Fault Refusal := storeOp (.stb a b imm) a b imm 1 s
/-- STH (R292). -/
def execSth (a b : SReg) (imm : BitVec 9) (s : State) : Host.Outcome State Fault Refusal := storeOp (.sth a b imm) a b imm 2 s
/-- STW (R292). -/
def execStw (a b : SReg) (imm : BitVec 9) (s : State) : Host.Outcome State Fault Refusal := storeOp (.stw a b imm) a b imm 4 s
/-- STD (R292). -/
def execStd (a b : SReg) (imm : BitVec 9) (s : State) : Host.Outcome State Fault Refusal := storeOp (.std a b imm) a b imm 8 s

/-! ### Acquire, release and fences (R295-R297) -/

/-- Bytes of a width bit (R295). -/
def widthBytes (d : Bool) : Nat := if d then 8 else 4

/-- An address of LDA, STL or STLF: aligned, and in page-mapped memory, window 0 or the aperture (R296). -/
def orderAddr (s : State) (a : Word) (size : Nat) : Option Res :=
  if a.toNat % size ≠ 0 then some (.trap s .misalign a)
  else
    match rangeOf a with
    | .gather => some (.trap s .window a)
    | .window (_ + 1) => some (.trap s .window a)
    | _ => none

/-- LDA (R295, R296): an acquire load that never uses the read-line buffer. -/
def execLda (d : Bool) (sc : Scope) (a b : SReg) (s : State) : Host.Outcome State Fault Refusal :=
  issue (baseGate (.lda d sc a b)) (fun s =>
    match orderAddr s (rS s b) (widthBytes d) with
    | some r => r
    | none => (loadVal s (rS s b) (widthBytes d) true).res (fun s v => .ok (wS (acquire s) a (widen d v)))) s

/-- The effect of STL: a store after every earlier access is performed (R295). -/
def stlBody (d : Bool) (sc : Scope) (a b : SReg) (s : State) : Res :=
  if !released s && !storeSent s then .stall s (waitOr s 0 0)
  else (storeVal s (rS s b) (widthBytes d) ((rS s a).toNat % 2 ^ (8 * widthBytes d)) sc.code).res (fun s _ => .ok s)

/-- STL (R295, R296). -/
def execStl (d : Bool) (sc : Scope) (a b : SReg) (s : State) : Host.Outcome State Fault Refusal :=
  issue (baseGate (.stl d sc a b)) (fun s =>
    match orderAddr s (rS s b) (widthBytes d) with
    | some r => r
    | none => stlBody d sc a b s) s

/-- STLF (R295, R296, R159): to the aperture, an ordered flag that carries the counts of its destination's entry. -/
def execStlf (d : Bool) (sc : Scope) (a b : SReg) (s : State) : Host.Outcome State Fault Refusal :=
  issue (baseGate (.stlf d sc a b)) (fun s =>
    let x := rS s b
    let size := widthBytes d
    match orderAddr s x size with
    | some r => r
    | none =>
      match rangeOf x with
      | .aperture =>
        match classify s true x size with
        | .ok (.far dst o) =>
          if !performedBut s (agentNow s) (sendEntry s (runCore s) dst (ctxId s)) then .stall s (waitOr s 0 0)
          else
            let (s, cs) := remoteFlag s (runCore s) dst (ctxId s) sc.code o (leBytes size (rS s a).toNat) (agentNow s)
            .ok (modAct s (fun k => { k with cr := { k.cr with pathcnt := pathWord cs } }))
        | .ok _ => .trap s .window x
        | .error (c, t) => .trap s c t
      | _ => stlBody d sc a b s) s

/-- FENCE (R295, R282): every earlier access is performed; the read-line and fetch buffers are emptied. -/
def execFence (sc : Scope) (s : State) : Host.Outcome State Fault Refusal :=
  issue (baseGate (.fence sc)) (fun s =>
    if !released s then .stall s (waitOr s 0 0)
    else .ok (modAct (acquire s) (fun a => { a with fetch := [] }))) s

/-- FENCEA (R295, R297): stalls until every earlier remote store and atomic is acknowledged. -/
def execFencea (s : State) : Host.Outcome State Fault Refusal :=
  issue (baseGate .fencea) (fun s => if unackedAny s (agentNow s) then .stall s (waitOr s 7 0) else .ok s) s

/-! ### Atomics (R298-R302) -/

/-- Issues a single-address atomic (R299). -/
def atomOp (i : Instr) (op : AtomOp) (d : Bool) (sc : Scope) (a b c : SReg) (s : State) : Host.Outcome State Fault Refusal :=
  issue (baseGate i) (fun s =>
    (atomVal s (rS s b) op d sc.code (rS s c)).res (fun s old => .ok (wS s a (widen d old)))) s

/-- AADD (R299). -/
def execAadd (d : Bool) (sc : Scope) (a b c : SReg) (s : State) : Host.Outcome State Fault Refusal := atomOp (.aadd d sc a b c) .add d sc a b c s
/-- AAND (R299). -/
def execAand (d : Bool) (sc : Scope) (a b c : SReg) (s : State) : Host.Outcome State Fault Refusal := atomOp (.aand d sc a b c) .and d sc a b c s
/-- AOR (R299). -/
def execAor (d : Bool) (sc : Scope) (a b c : SReg) (s : State) : Host.Outcome State Fault Refusal := atomOp (.aor d sc a b c) .or d sc a b c s
/-- AXOR (R299). -/
def execAxor (d : Bool) (sc : Scope) (a b c : SReg) (s : State) : Host.Outcome State Fault Refusal := atomOp (.axor d sc a b c) .xor d sc a b c s
/-- AMIN (R299). -/
def execAmin (d : Bool) (sc : Scope) (a b c : SReg) (s : State) : Host.Outcome State Fault Refusal := atomOp (.amin d sc a b c) .min d sc a b c s
/-- AMAX (R299). -/
def execAmax (d : Bool) (sc : Scope) (a b c : SReg) (s : State) : Host.Outcome State Fault Refusal := atomOp (.amax d sc a b c) .max d sc a b c s
/-- AMINU (R299). -/
def execAminu (d : Bool) (sc : Scope) (a b c : SReg) (s : State) : Host.Outcome State Fault Refusal := atomOp (.aminu d sc a b c) .minu d sc a b c s
/-- AMAXU (R299). -/
def execAmaxu (d : Bool) (sc : Scope) (a b c : SReg) (s : State) : Host.Outcome State Fault Refusal := atomOp (.amaxu d sc a b c) .maxu d sc a b c s
/-- ASWP (R299). -/
def execAswp (d : Bool) (sc : Scope) (a b c : SReg) (s : State) : Host.Outcome State Fault Refusal := atomOp (.aswp d sc a b c) .swp d sc a b c s
/-- ACAS (R299). -/
def execAcas (d : Bool) (sc : Scope) (a b c : SReg) (s : State) : Host.Outcome State Fault Refusal := atomOp (.acas d sc a b c) .cas d sc a b c s

/-- ADCAS at its two locations: the state and both old values (R300). -/
def adcasAt (s : State) (ctx x y n : Nat) (e1 e2 nx ny : Word) : State × Nat × Nat :=
  let ox := readNat s x n
  let oy := readNat s y n
  if ox = e1.toNat % 2 ^ (8 * n) ∧ oy = e2.toNat % 2 ^ (8 * n) then
    (storeAt (storeAt s ctx x (leBytes n nx.toNat)) ctx y (leBytes n ny.toNat), ox, oy)
  else (s, ox, oy)

/-- AMOVE at its two locations: the state and both old values (R301). -/
def amoveAt (s : State) (ctx x y n : Nat) (vacated : Word) : State × Nat × Nat :=
  let ox := readNat s x n
  let oy := readNat s y n
  (storeAt (storeAt s ctx y (leBytes n ox)) ctx x (leBytes n vacated.toNat), ox, oy)

/-- What a two-address atomic leaves at its lower and higher location, from their old values; none writes nothing (R300, R301).
`flip` says that its first location is the higher one. -/
def twoNew (op : ReqOp) (n : Nat) (flip : Bool) (lo hi : Nat) : Option (List Byte × List Byte) :=
  let ox := if flip then hi else lo
  let oy := if flip then lo else hi
  let put : List Byte → List Byte → List Byte × List Byte := fun x y => if flip then (y, x) else (x, y)
  match op with
  | .adcas _ e1 e2 nx ny =>
    if ox = e1.toNat % 2 ^ (8 * n) ∧ oy = e2.toNat % 2 ^ (8 * n) then some (put (leBytes n nx.toNat) (leBytes n ny.toNat)) else none
  | .amove _ v => some (put (leBytes n v.toNat) (leBytes n ox))
  | _ => none

/-- The stages of the wait of a two-address atomic that reaches another module: so many locations are locked, or one is asked. -/
def lockStage : Nat := 30
/-- A lock has been asked of another module. -/
def askStage : Nat := 40

/-- Locks a location of another agent's reach: of this module at once, of another by a request (R165). -/
def lockNext (s : State) (n : Nat) (w : Wait) (l : Option Nat × Nat) : State × Wait :=
  match l.1 with
  | none => ({ s with locks := s.locks ++ [⟨l.2, n, agentNow s⟩] },
      { w with stage := w.stage + 1, bytes := w.bytes ++ readBytes s l.2 n })
  | some m =>
    (launchPacket s (mkPacket (nodeOf s (runCore s)) (moduleNode m) (ctxId s) 4 0 0 (.memLock m l.2 n s.ids (agentNow s))),
      { w with stage := w.stage + (askStage - lockStage), tags := [s.ids] })

/-- Ends the lock of a location, with what it is to hold from now on, if that changes (R165). -/
def unlock (s : State) (l : Option Nat × Nat) (bs : List Byte) : State :=
  match l.1 with
  | none =>
    let t := { s with locks := removeFirst (fun k => k.loc == l.2 && sameAgent k.agent (agentNow s)) s.locks }
    storeAt t (ctxId t) l.2 bs
  | some m =>
    launchPacket s (mkPacket (nodeOf s (runCore s)) (moduleNode m) (ctxId s) 4 0 0 (.memUnlock m l.2 bs s.ids (agentNow s)))

/-- Where a location stands in the order in which two-address atomics lock: by its module, then its address there (R165).
DEDUCED, log 87: unsafe. -/
def lockBefore (s : State) (a b : Option Nat × Nat) : Bool :=
  let m : Option Nat × Nat → Nat := fun l => l.1.getD (moduleNumber s)
  m a < m b || (m a == m b && a.2 ≤ b.2)

/-- A two-address atomic: checks both addresses, waits for earlier accesses, and performs it as one event (R165, R302). Where a
location lies on another module, both are locked in ascending order, read, written and unlocked. -/
def twoVal (s : State) (x y : Word) (n : Nat) (op : ReqOp) (perform : State → Nat → Nat → State × Nat × Nat) : Got (Nat × Nat) :=
  let lo := if x.toNat ≤ y.toNat then x else y
  let hi := if x.toNat ≤ y.toNat then y else x
  if lo.toNat % n ≠ 0 then .trap s .misalign lo
  else if hi.toNat % n ≠ 0 then .trap s .misalign hi
  else if x = y then .trap s .misalign x
  else if rangeOf lo = .unmapped then .trap s .notmapped lo
  else if rangeOf lo ≠ .paged then .trap s .window lo
  else if rangeOf hi = .unmapped then .trap s .notmapped hi
  else if rangeOf hi ≠ .paged then .trap s .window hi
  else
    match (act s).wait with
    | some w =>
      if w.stage = 9 then
        if w.tags ≠ [] then .stall s w
        else if w.reply.isSome then go (modAct s (fun a => { a with wait := some { w with stage := 0, reply := none, bytes := [] } }))
        else .val (acquire s) (leNat (w.bytes.take n), leNat (w.bytes.drop n))
      else if lockStage ≤ w.stage then locked s w
      else go s
    | none => go s
where
  /-- Translates both addresses and performs or sends the atomic. -/
  go (s : State) : Got (Nat × Nat) :=
    (translated s .atomic [(x.toNat, n), (y.toNat, n)]).bind (fun s ps =>
      if !released s then .stall s (waitOr s 0 0)
      else
        match ps with
        | [[(px, none, _)], [(py, none, _)]] =>
          if s.heldPorts then .stall (sendReq s op [(px, n, []), (py, n, [])]) { askWait s [] with stage := 9 }
          else
            let (s, ox, oy) := perform s px py
            .val (acquire s) (ox, oy)
        | [[(px, mx, _)], [(py, my, _)]] =>
          let first := lockBefore s (mx, px) (my, py)
          .stall s { waitOr s 0 0 with
            stage := lockStage
            locs := if first then [(mx, px), (my, py)] else [(my, py), (mx, px)]
            vas := if first then [(0, x), (1, y)] else [(0, y), (1, x)] }
        | _ => .stall s (waitOr s 0 0))
  /-- Goes on with the locks of an atomic that reaches another module. A location that is refused there leaves the other unchanged. -/
  locked (s : State) (w : Wait) : Got (Nat × Nat) :=
    let va := fun (i : Nat) => (w.vas.getD i (0, 0)).2
    let flip := va 0 != x
    if askStage ≤ w.stage then
      let i := w.stage - askStage
      if w.tags ≠ [] then .stall s w
      else if w.reply.isSome then
        .stall s { w with stage := lockStage + i + 1, reply := none, bytes := w.bytes ++ List.replicate n 0, refused := w.refused ++ [va i] }
      else .stall s { w with stage := lockStage + i + 1 }
    else
      match w.locs[w.stage - lockStage]? with
      | some l =>
        if l.1.isNone && lockedFor s (agentNow s) l.2 n then .stall s w
        else
          let (t, v) := lockNext s n w l
          .stall t v
      | none =>
        let ends := fun (new : List Byte × List Byte) =>
          let u := if w.refused.contains (va 0) then s else unlock s (w.locs.getD 0 (none, 0)) new.1
          if w.refused.contains (va 1) then u else unlock u (w.locs.getD 1 (none, 0)) new.2
        match bestBy (fun a b => a.toNat < b.toNat) w.refused with
        | some t => .trap (ends ([], [])) .notmapped t
        | none =>
          let a := leNat (w.bytes.take n)
          let b := leNat (w.bytes.drop n)
          .val (acquire (ends ((twoNew op n flip a b).getD ([], [])))) (if flip then (b, a) else (a, b))

/-- ADCAS (R300, R302). -/
def execAdcas (d : Bool) (sc : Scope) (a b c : SReg) (s : State) : Host.Outcome State Fault Refusal :=
  issue (baseGate (.adcas d sc a b c)) (fun s =>
    let n := widthBytes d
    let e1 := rE s 1
    let e2 := rE s 2
    let nx := rS s c
    let ny := rS s a
    (twoVal s (rS s b) (rE s 0) n (.adcas d e1 e2 nx ny) (fun s x y => adcasAt s (ctxId s) x y n e1 e2 nx ny)).res (fun s o =>
      let eq := o.1 = e1.toNat % 2 ^ (8 * n) ∧ o.2 = e2.toNat % 2 ^ (8 * n)
      .ok (wE (wE (wS s a (if eq then 1 else 0)) 1 (widen d o.1)) 2 (widen d o.2)))) s

/-- AMOVE (R301, R302). -/
def execAmove (d : Bool) (sc : Scope) (a b c : SReg) (s : State) : Host.Outcome State Fault Refusal :=
  issue (baseGate (.amove d sc a b c)) (fun s =>
    let n := widthBytes d
    let v := rE s 0
    (twoVal s (rS s b) (rS s c) n (.amove d v) (fun s x y => amoveAt s (ctxId s) x y n v)).res (fun s o =>
      .ok (wS s a (widen d o.2)))) s

end Sys2Proof.Machine
end

