-- ==== Sys2Proof/Machine/Sync.lean ====
section
/-!
DEFINITION. Machine/Sync.lean: queues (R340, R341), messages, launches and the end of an activation (R342-R349), event vectors
(R350-R352), phasers (R353-R358) and monitors (R359-R361).
-/

namespace Sys2Proof.Machine

/-! ### Queues (R95-R97, R340, R341) -/

/-- The core k + 1 modulo 8 of a core's clause, whose q3 its q2 feeds (R95). DESIGN CHOICE, log 35: unsafe. -/
def nextCore (core : Nat) : Nat := core / 8 * 8 + (core + 1) % 8

/-- Words that the current context has written to q2 and the neighbour has not read (R340). -/
def q2Held (s : State) : Nat :=
  let me := nodeOf s (home s)
  let to_ := redirect s (nextCore (home s)) 64
  (ctxOf s to_ (ctxId s)).q3.length +
  (s.net.filter (fun p => match p.2.payload with
    | .channel _ => p.2.src == me && p.2.ctx == ctxId s
    | _ => false)).length

/-- Removes the oldest word of q3. -/
def popQ3 (s : State) : State := modCtx s (home s) (ctxId s) (fun x => { x with q3 := x.q3.tail })

/-- The effect of QPOP (`take`) or QPEEK (R340, R341). -/
def popBody (take : Bool) (a : SReg) (q : BitVec 2) (s : State) : Res :=
  if q = 0 then
    match (act s).qin with
    | [] => .trap s .deadwait 0
    | w :: r => .ok (wS (if take then modAct s (fun k => { k with qin := r }) else s) a w)
  else
    match (ctxNow s).q3 with
    | [] => .stall s (waitOr s 1 (q.setWidth 64))
    | w :: _ => .ok (wS (if take then popQ3 s else s) a w)

/-- The effect of QPUSH (R340, R341). -/
def pushBody (q : BitVec 2) (b : SReg) (s : State) : Res :=
  if q = 1 then
    if 64 ≤ (act s).qout.length then .trap s .deadwait 1
    else .ok (modAct s (fun k => { k with qout := k.qout ++ [rS s b] }))
  else if 16 ≤ q2Held s then .stall s (waitOr s 1 (q.setWidth 64))
  else .ok (sendPkt s (nodeOf s (home s)) (nodeOf s (nextCore (home s))) (ctxId s) 1 0 (.channel (rS s b)))

/-- QPOP (R340). -/
def execQpop (a : SReg) (q : BitVec 2) (s : State) : Host.Outcome State Fault Refusal := issue (baseGate (.qpop a q)) (popBody true a q) s
/-- QPUSH (R340). -/
def execQpush (q : BitVec 2) (b : SReg) (s : State) : Host.Outcome State Fault Refusal := issue (baseGate (.qpush q b)) (pushBody q b) s
/-- QPEEK (R340). -/
def execQpeek (a : SReg) (q : BitVec 2) (s : State) : Host.Outcome State Fault Refusal := issue (baseGate (.qpeek a q)) (popBody false a q) s

/-- Words held in a queue (R340). -/
def queueLen (s : State) (q : BitVec 2) : Nat :=
  match q.toNat with
  | 0 => (act s).qin.length
  | 1 => (act s).qout.length
  | 2 => q2Held s
  | _ => (ctxNow s).q3.length

/-- QLEN (R340). -/
def execQlen (a : SReg) (q : BitVec 2) (s : State) : Host.Outcome State Fault Refusal :=
  issue (baseGate (.qlen a q)) (fun s => .ok (wS s a (BitVec.ofNat 64 (queueLen s q)))) s

/-- QDROP (R340, R341): from q3 word by word, `stage` counting the words dropped. -/
def execQdrop (q : BitVec 2) (b : SReg) (s : State) : Host.Outcome State Fault Refusal :=
  issue (baseGate (.qdrop q b)) (fun s =>
    let n := (rS s b).toNat
    if n = 0 then .ok s
    else if q = 0 then
      if (act s).qin.length < n then .trap s .deadwait 0 else .ok (modAct s (fun k => { k with qin := k.qin.drop n }))
    else if q = 1 then .ok (modAct s (fun k => { k with qout := k.qout.take (k.qout.length - n) }))
    else
      let w := waitOr s 1 (q.setWidth 64)
      let left := n - w.stage
      let held := (ctxNow s).q3.length
      let s := modCtx s (home s) (ctxId s) (fun x => { x with q3 := x.q3.drop left })
      if left ≤ held then .ok s else .stall s { w with stage := w.stage + held }) s

/-! ### Messages (R342-R345) -/

/-- A message of this core to a destination has been refused and waits to be sent again (R242). DEDUCED, log 49: unsafe. -/
def refusedAhead (s : State) (src dst : Node) : Bool :=
  s.net.any (fun p => liveDst s p.2.src == liveDst s src && liveDst s p.2.dst == liveDst s dst && kindOf p.2 == 0 && match p.2.pos with
    | .refused _ => true
    | _ => false)

/-- The wait of SEND once qout is known not to be empty: earlier accesses, the interface and the receiver (R343). -/
def sendReady (s : State) (dst : Node) (words : Nat) : Bool :=
  released s && (coreOf s (home s)).unacked.length < 256 && canBuffer s dst (ctxId s) words &&
  !refusedAhead s (nodeOf s (home s)) dst

/-- Sends words as a message of the current activation; the source is its home core, named by its logical address (R100). -/
def sendWords (s : State) (dst : Node) (scope mprio : Nat) (code : Bool) (ws : List Word) : State :=
  match logicalOf s (entry s) (nodeOf s (home s)) with
  | some l => sendMsg s (home s) dst (ctxId s) scope mprio ws code false l
  | none => sendMsg s (home s) dst (ctxId s) scope mprio ws code true 0

/-- The steps of SEND (R343): qout leaves as one message. -/
def sendSteps (sc : Scope) (l mprio : Nat) (code : Bool) (s : State) (k : State → Res) : Res :=
  match cmapEntry s (entry s) l with
  | none => .trap s .notmapped (BitVec.ofNat 64 l)
  | some dst =>
    if !sendReady s dst (act s).qout.length then .stall s (waitOr s 0 0)
    else k (modAct (sendWords s dst sc.code mprio code (act s).qout) (fun a => { a with qout := [] }))

/-- SEND (R343). -/
def execSend (sc : Scope) (b : SReg) (s : State) : Host.Outcome State Fault Refusal :=
  issue (baseGate (.send sc b)) (fun s =>
    if (act s).qout.isEmpty then .ok s
    else
      let x := rS s b
      sendSteps sc (bits x 20 0) (bits x 22 21) (bit x 23) s .ok) s

/-- SENDW (R344): stage 1 waits for the acceptance. -/
def execSendw (sc : Scope) (a b : SReg) (s : State) : Host.Outcome State Fault Refusal :=
  issue (baseGate (.sendw sc a b)) (fun s =>
    let w := waitOr s 0 0
    if w.stage = 1 then
      match w.reply with
      | some v => .ok (wS s a v)
      | none => .stall s w
    else if (act s).qout.isEmpty then .ok (wS s a 0)
    else
      let x := rS s b
      let seq := s.ids
      sendSteps sc (bits x 20 0) (bits x 22 21) (bit x 23) s (fun s => .stall s { w with stage := 1, tags := [seq] })) s

/-- REPLY (R345). -/
def execReply (sc : Scope) (s : State) : Host.Outcome State Fault Refusal :=
  issue (baseGate (.reply sc)) (fun s =>
    if (act s).qout.isEmpty then .ok s
    else
      let m := (act s).cr.msgsrc
      if bit m 21 then .trap s .notmapped (BitVec.ofNat 64 (bits m 21 0))
      else sendSteps sc (bits m 20 0) (bits m 23 22) false s .ok) s

/-! ### The end of an activation and launches (R346-R349) -/

/-- The effect of ENDH (R346). -/
def endhBody (s : State) : Res :=
  if (act s).work.isSome && !(act s).triggered && !released s then .stall s (waitOr s 0 0) else .gone (endAct s)

/-- ENDH (R346). -/
def execEndh (s : State) : Host.Outcome State Fault Refusal := issue (baseGate .endh) endhBody s

/-- The die whose launch unit takes a launch (R30, R61). -/
def launchDie (s : State) (mask : Word) : Nat :=
  if isApp (home s) then liveDie s ((((List.range 64).find? (fun g => bit mask g)).getD 0) / 8) else dieOfCore (home s)

/-- LAUNCH (R347): stage 1 waits for the launch unit. -/
def execLaunch (a b : SReg) (s : State) : Host.Outcome State Fault Refusal :=
  issue (baseGate (.launch a b)) (fun s =>
    let w := waitOr s 0 0
    if w.stage = 1 then
      match w.reply with
      | some v => .ok (wS s a v)
      | none => .stall s w
    else
      let x := rS s b
      if x.toNat % 128 ≠ 0 then .trap s .misalign x
      else if rangeOf x = .aperture then .trap s .window x
      else
        (loadRaw s 8 (wordAddrs x 16)).res (fun s ws =>
          if !released s then .stall s { waitOr s 0 0 with tags := [] }
          else
            let ds := ws.map (BitVec.ofNat 64)
            let mask := ds.getD 3 0
            if isApp (home s) && mask == 0 then
              .ok (wS s a (if ctxState s (ctxId s) ≠ 1 || (homeDie s (ctxId s)).isNone then 5 else 1))
            else
              let r : LaunchReq := ⟨agentNow s, ctxId s, (entry s).hlo, (entry s).hhi, ds⟩
              .stall (modDie s (launchDie s mask) (fun d => { d with requests := d.requests ++ [r] }))
                { w with stage := 1, tags := [], reply := none })) s

/-- TRIG (R348). -/
def execTrig (s : State) : Host.Outcome State Fault Refusal :=
  issue (baseGate .trig) (fun s => if !released s then .stall s (waitOr s 0 0) else .ok (triggerNow s)) s

/-- WID (R349). -/
def execWid (a : SReg) (f : BitVec 3) (s : State) : Host.Outcome State Fault Refusal :=
  issue (baseGate (.wid a f)) (fun s =>
    let c := (act s).cr
    .ok (wS s a (BitVec.ofNat 64 (c.wid.toNat / 2 ^ fieldOff c.wshape f.toNat % 2 ^ fieldWidth c.wshape f.toNat)))) s

/-- SRCID (R349). -/
def execSrcid (a : SReg) (s : State) : Host.Outcome State Fault Refusal :=
  issue (baseGate (.srcid a)) (fun s => .ok (wS s a (BitVec.ofNat 64 (bits (act s).cr.msgsrc 21 0)))) s

/-! ### Events (R350-R352) -/

/-- The 256 event bits of a mask operand (R350). -/
def eventMask (v : VReg) : EvVec := BitVec.ofNat 256 ((List.range 8).foldl (fun n k => n + (v.toList.getD k 0).toNat * 2 ^ (32 * k)) 0)

/-- The vector as the current activation's launch unit holds it (R350). -/
def vectorNow (s : State) : EvVec := vectorAt s (ctxId s) (unitOf (home s))

/-- EVWAIT (R351, R71, R72). -/
def execEvwait (a : SReg) (b : VRegN) (s : State) : Host.Outcome State Fault Refusal :=
  issue (baseGate (.evwait a b)) (fun s =>
    let m := eventMask (rV s b)
    let v := vectorNow s
    if (homeDie s (ctxId s)).isNone then .trap s .notmapped 0
    else if v &&& m = m then .ok (wS (acquire s) a 0)
    else
      let clear := (maskBits m 192).filter (fun i => !bit v i)
      let fresh := (act s).wait.isNone
      let lim := (entry s).evtmo
      let w := waitOr s 3 lim
      let armed := armedBits s (ctxId s)
      match (if fresh || w.recheck then clear.find? (fun i => !armed.contains i) else none) with
      | some i => .trap s .deadwait (BitVec.ofNat 64 i)
      | none =>
        if m.toNat / 2 ^ 192 ≠ 0 ∧ lim ≠ 0 ∧ lim.toNat ≤ s.cyc - w.start then .ok (wS s a 1)
        else .stall (mirrorFor s (ctxId s) (home s)) { w with tags := maskBits m 192, recheck := false }) s

/-- EVSET (R352). -/
def execEvset (b : VRegN) (s : State) : Host.Outcome State Fault Refusal :=
  issue (baseGate (.evset b)) (fun s =>
    let m := eventMask (rV s b)
    if m.toNat % 2 ^ 192 ≠ 0 then .trap s .illegal (Instr.evset b).tval
    else if (homeDie s (ctxId s)).isNone then .trap s .notmapped 0
    else if !released s then .stall s (waitOr s 0 0)
    else .ok (changeVector s (ctxId s) (tgetD s.evec (ctxId s) 0 ||| m))) s

/-- EVCLR (R352). -/
def execEvclr (b : VRegN) (s : State) : Host.Outcome State Fault Refusal :=
  issue (baseGate (.evclr b)) (fun s =>
    if (homeDie s (ctxId s)).isNone then .trap s .notmapped 0
    else .ok (changeVector s (ctxId s) (tgetD s.evec (ctxId s) 0 &&& ~~~(eventMask (rV s b))))) s

/-- EVTEST (R350, R351). -/
def execEvtest (a : SReg) (b : VRegN) (s : State) : Host.Outcome State Fault Refusal :=
  issue (baseGate (.evtest a b)) (fun s =>
    let m := eventMask (rV s b)
    if (homeDie s (ctxId s)).isNone then .trap s .notmapped 0
    else if vectorNow s &&& m = m then .ok (wS (acquire s) a 1)
    else .ok (wS s a 0)) s

/-! ### Phasers (R353-R358) -/

/-- The phaser a handle names for the current context: its die and index (R354). -/
def phaserOf (s : State) (h : Word) : Option (Nat × Nat × Phaser) :=
  if bits h 63 32 ≠ 0 ∨ bit h 16 then none
  else
    match tget (dieOf s (bits h 31 29)).phasers (bits h 28 17) with
    | some p => if p.free || p.ctx != ctxId s || p.gen != bits h 15 0 then none else some (bits h 31 29, bits h 28 17, p)
    | none => none

/-- Changes a phaser. -/
def setPhaser (s : State) (d i : Nat) (p : Phaser) : State := modDie s d (fun k => { k with phasers := tset k.phasers i p })

/-- A member is the current context on its home core (R355). -/
def isMe (s : State) (m : PhMember) : Bool := m.ctx == ctxId s && m.core == home s

/-- The mode a member has, or will have if it is not yet in effect. DEDUCED, log 26: unsafe. -/
def PhMember.modeNow (m : PhMember) : PhMode := if m.live then m.mode else m.next.getD m.mode

/-- The signal-capable members in effect (R355). -/
def capable (p : Phaser) : List PhMember := p.members.filter (fun m => m.live && m.mode != .wait)

/-- A member has signalled the current phase. -/
def signalled (p : Phaser) (m : PhMember) : Bool := m.psig == some p.counter

/-- The phase boundary: the counter advances and pending changes take effect (R355). -/
def boundary (p : Phaser) : Phaser :=
  { p with
    counter := p.counter + 1
    members := p.members.filterMap (fun m =>
      if m.dropping then none else some { m with live := true, mode := m.next.getD m.mode, next := none, blocked := false }) }

/-- Completes the phase if every signal-capable member in effect has signalled it or dropped (R355). -/
def settle (p : Phaser) : Phaser :=
  if !(capable p).isEmpty && (capable p).all (fun m => signalled p m || m.dropping) then boundary p else p

/-- Changes the current context's member. -/
def modMember (s : State) (p : Phaser) (f : PhMember → PhMember) : Phaser :=
  { p with members := p.members.map (fun m => if isMe s m then f m else m) }

/-- A phaser instruction: the named phaser, or ILLEGAL (R354). -/
def withPhaser (i : Instr) (b : SReg) (s : State) (f : Nat → Nat → Phaser → Res) : Res :=
  match phaserOf s (rS s b) with
  | none => .trap s .illegal i.tval
  | some (d, x, p) => f d x p

/-- PHNEW (R353, R354): the lowest free phaser of the core's die. DESIGN CHOICE, log 19: unsafe. -/
def execPhnew (a : SReg) (s : State) : Host.Outcome State Fault Refusal :=
  issue (baseGate (.phnew a)) (fun s =>
    match unitOf (home s) with
    | none => .ok (wS s a 0)
    | some d =>
      let ps := (dieOf s d).phasers
      match (List.range 4096).find? (fun i => match tget ps i with
        | some p => p.free
        | none => true) with
      | none => .ok (wS s a 0)
      | some i =>
        let gen := match tget ps i with
          | some p => p.gen
          | none => 1
        .ok (wS (setPhaser s d i ⟨gen, false, ctxId s, 0, []⟩) a (BitVec.ofNat 64 (d * 2 ^ 29 + i * 2 ^ 17 + gen)))) s

/-- The mode of a PHREG (R353). -/
def phMode (m : BitVec 2) : PhMode := if m = 0 then .sig else if m = 1 then .wait else .sigWait

/-- PHREG (R353, R355). -/
def execPhreg (b : SReg) (m : BitVec 2) (s : State) : Host.Outcome State Fault Refusal :=
  issue (baseGate (.phreg b m)) (fun s => withPhaser (.phreg b m) b s (fun d i p =>
    let known := p.members.any (isMe s)
    if !known && 1024 ≤ p.members.length then .trap s .illegal (Instr.phreg b m).tval
    else
      let p := if known then p else { p with members := p.members ++ [⟨ctxId s, home s, phMode m, false, none, false, none, false⟩] }
      let now := (capable p).isEmpty
      .ok (setPhaser s d i (modMember s p (fun x =>
        if now then { x with mode := phMode m, live := true, next := none, dropping := false }
        else { x with next := some (phMode m), dropping := false }))))) s

/-- PHDROP (R353, R355). -/
def execPhdrop (b : SReg) (s : State) : Host.Outcome State Fault Refusal :=
  issue (baseGate (.phdrop b)) (fun s => withPhaser (.phdrop b) b s (fun d i p =>
    if !p.members.any (isMe s) then .trap s .illegal (Instr.phdrop b).tval
    else .ok (setPhaser s d i (settle (modMember s p (fun x => { x with dropping := true })))))) s

/-- PHSIG's signal (R356): none where it must stall. -/
def signalNow (s : State) (p : Phaser) : Option Phaser :=
  match p.members.find? (isMe s) with
  | none => none
  | some m =>
    if signalled p m || !released s then none else some (settle (modMember s p (fun x => { x with psig := some p.counter })))

/-- PHSIG (R356). -/
def execPhsig (b : SReg) (s : State) : Host.Outcome State Fault Refusal :=
  issue (baseGate (.phsig b)) (fun s => withPhaser (.phsig b) b s (fun d i p =>
    match p.members.find? (isMe s) with
    | none => .trap s .illegal (Instr.phsig b).tval
    | some m =>
      if m.modeNow = .wait then .trap s .illegal (Instr.phsig b).tval
      else
        match signalNow s p with
        | none => .stall s (waitOr s 2 (rS s b))
        | some p => .ok (donationOver (setPhaser s d i p) (home s) (ctxId s) (some (rS s b))))) s

/-- The counter has passed a target (R356). -/
def passed (c target : BitVec 32) : Bool := 1 ≤ (c - target).toNat && (c - target).toNat < 2 ^ 31

/-- Donates to the highest-ranking member in the shadow or streaming slot that has not signalled (R88, R358).
DEDUCED, log 25: unsafe. -/
def donate (s : State) (p : Phaser) (h : Word) : State :=
  let core := home s
  let k := coreOf s core
  let held : Nat → Bool := fun c => frameCtx k.shadow == some c || frameCtx k.streaming == some c
  let ms := (capable p).filter (fun m => m.core == core && m.ctx != ctxId s && held m.ctx && !signalled p m && !m.dropping)
  if (entry s).donate = 0 || s.cur.away.isSome || k.switching || k.donation.isSome || (preemptBy s core).isSome then s
  else
    match bestBy (fun a b => ctxRank s core b.ctx < ctxRank s core a.ctx) ms with
    | none => s
    | some m => engage (modCore s core (fun k => { k with donation := some ⟨ctxId s, m.ctx, h, s.cyc⟩ })) core m.ctx

/-- Every other signal-capable member in effect is blocked on the phaser (R357). -/
def lastToWait (s : State) (p : Phaser) : Bool := !(capable p).isEmpty && (capable p).all (fun m => isMe s m || m.blocked)

/-- The wait of PHWAIT and PHSW: `stage` is 0 before it and target + 1 in it (R356-R358). -/
def phaserWait (a : SReg) (h : Word) (s : State) (d i : Nat) (p : Phaser) (target : BitVec 32) : Res :=
  let w := waitOr s 2 h
  if passed p.counter target then .ok (wS (acquire s) a 0)
  else if w.stage = 0 && lastToWait s p then .trap s .deadwait h
  else
    let p := modMember s p (fun x => { x with blocked := true })
    let s := setPhaser s d i p
    .stall (donate s p h) { w with stage := target.toNat + 1 }

/-- PHWAIT and PHSW re-entered: released before or by a reset, met, or still waiting. -/
def phaserResume (a : SReg) (s : State) (w : Wait) : Res :=
  match w.reply, phaserOf s w.operand with
  | some v, _ => .ok (wS (if v = 0 then acquire s else s) a v)
  | none, none => .ok (wS s a 1)
  | none, some (d, i, p) =>
    let target := BitVec.ofNat 32 (w.stage - 1)
    if passed p.counter target then
      .ok (wS (acquire (setPhaser s d i (modMember s p (fun x => { x with blocked := false })))) a 0)
    else .stall (donate s p w.operand) w

/-- PHWAIT (R356). -/
def execPhwait (a b : SReg) (s : State) : Host.Outcome State Fault Refusal :=
  issue (baseGate (.phwait a b)) (fun s =>
    let w := waitOr s 2 (rS s b)
    if w.stage ≠ 0 then phaserResume a s w
    else withPhaser (.phwait a b) b s (fun d i p =>
      match p.members.find? (isMe s) with
      | none => .trap s .illegal (Instr.phwait a b).tval
      | some m =>
        if m.modeNow = .sig then .trap s .illegal (Instr.phwait a b).tval
        else phaserWait a (rS s b) s d i p (m.psig.getD p.counter))) s

/-- PHSW (R356). A SIG member cannot wait and a WAIT member cannot signal (R354). -/
def execPhsw (a b : SReg) (s : State) : Host.Outcome State Fault Refusal :=
  issue (baseGate (.phsw a b)) (fun s =>
    let h := rS s b
    let w := waitOr s 2 h
    if w.stage ≠ 0 ∨ w.reply.isSome then phaserResume a s w
    else withPhaser (.phsw a b) b s (fun d i p =>
      match p.members.find? (isMe s) with
      | none => .trap s .illegal (Instr.phsw a b).tval
      | some m =>
        if m.modeNow ≠ .sigWait then .trap s .illegal (Instr.phsw a b).tval
        else
          let c := p.counter
          match signalNow s p with
          | none =>
            if signalled p m && !m.blocked && lastToWait s p then .trap s .deadwait h
            else .stall (if signalled p m then setPhaser s d i (modMember s p (fun x => { x with blocked := true })) else s) w
          | some p => phaserWait a h (donationOver (setPhaser s d i p) (home s) (ctxId s) (some h)) d i p c)) s

/-- PHREAD (R356). -/
def execPhread (a b : SReg) (s : State) : Host.Outcome State Fault Refusal :=
  issue (baseGate (.phread a b)) (fun s => withPhaser (.phread a b) b s (fun _ _ p =>
    let cap := capable p
    let left := cap.filter (fun m => !signalled p m)
    .ok (wS s a (BitVec.ofNat 64 (p.counter.toNat + cap.length % 65536 * 2 ^ 32 + left.length % 65536 * 2 ^ 48))))) s

/-- PHRESET releases the waiters of a phaser: with 0 those whose phase has completed, with 1 the others (R355, R356). -/
def releaseWaiters (s : State) (h : Word) (p : Phaser) : State :=
  { s with cores := s.cores.map (fun c => (c.1, mapWaits c.2 (fun x _ w =>
      if w.kind == 2 && w.operand == h && x == p.ctx &&
          (w.stage != 0 || p.members.any (fun m => m.ctx == x && m.core == c.1 && m.blocked)) then
        { w with reply := some (if w.stage ≠ 0 ∧ passed p.counter (BitVec.ofNat 32 (w.stage - 1)) then 0 else 1) }
      else w))) }

/-- PHRESET (R356). -/
def execPhreset (b : SReg) (s : State) : Host.Outcome State Fault Refusal :=
  issue (baseGate (.phreset b)) (fun s => withPhaser (.phreset b) b s (fun d i p =>
    if !p.members.any (isMe s) then .trap s .illegal (Instr.phreset b).tval
    else .ok (setPhaser (releaseWaiters s (rS s b) p) d i (freePhaser p)))) s

/-! ### Monitors (R359-R361) -/

/-- Arms a watch entry of the current activation on a line; a full table evicts the least recently armed one (R360).
DEDUCED, log 10: unsafe. -/
def armWatch (s : State) (line : Nat) : State :=
  let core := home s
  let ctx := ctxId s
  let k := coreOf s core
  if k.watch.any (fun w => w.ctx == ctx && w.line == line) then s
  else if k.watch.length < 16 then modCore s core (fun k => { k with watch := k.watch ++ [⟨ctx, line, false⟩] })
  else
    let out := (k.watch.head?.map (·.ctx)).getD 0
    modCtx (modCore s core (fun k => mapWaits { k with watch := k.watch.drop 1 ++ [⟨ctx, line, false⟩] } (fun c _ w =>
      if c == out && w.kind == 5 then { w with out := true } else w))) core out (fun x => { x with watchLost := true })

/-- MON (R359). The line of another module's memory is out of sight of the model. -/
def execMon (b : SReg) (s : State) : Host.Outcome State Fault Refusal :=
  issue (baseGate (.mon b)) (fun s =>
    let a := rS s b
    match rangeOf a with
    | .gather => .trap s .window a
    | .window (_ + 1) => .trap s .window a
    | _ =>
      match classify s false a 1 with
      | .error (c, t) => .trap s c t
      | .ok .paged =>
        (translated s .load [(a.toNat, 1)]).res (fun s ps =>
          match ps.flatten with
          | [(pa, none, _)] => .ok (armWatch s (lineOf pa))
          | [(pa, some m, _)] => .ok (armWatch s (2 ^ 58 + m * 2 ^ 48 + lineOf pa))
          | _ => .ok s)
      | .ok (.pool l) => .ok (armWatch s (lineOf l))
      | .ok (.far d o) =>
        match takerOf s d with
        | some c => .ok (armWatch s (lineOf (scratchBase c (partOf s c (ctxId s)) + o)))
        | none => .ok (armWatch s (2 ^ 59 + d.addr * 2 ^ 20 + o / 64))
      | .ok _ => .trap s .window a) s

/-- MWAIT (R361): the count is read at issue; every return is an acquire (R154). -/
def execMwait (a b : SReg) (s : State) : Host.Outcome State Fault Refusal :=
  issue (baseGate (.mwait a b)) (fun s =>
    let w := waitOr s 5 (rS s b)
    let done : State → Word → Res := fun s v => .ok (wS (dropWatch (acquire s)) a v)
    if watchWoken s then done s 0
    else if w.out || (ctxNow s).watchLost then done s 2
    else if w.operand ≠ 0 ∧ w.operand.toNat ≤ s.cyc - w.start then done s 1
    else .stall s w) s

end Sys2Proof.Machine
end

