-- ==== Sys2Proof/Machine/Engine.lean ====
section
/-!
DEFINITION. Machine/Engine.lean: the accesses of engines (R130, R138, R225, R228), their held jobs and upcalls (R138), and the
ids of a clause's transfers and programs (R224).
-/

namespace Sys2Proof.Machine

/-! ### Accesses of an engine job

Every access of a job's command or piece is noted, so that a job that goes on after a fault or a wait goes on at that access and makes
none before it again (R138); `forget` drops the notes once the piece is done or given up. -/

/-- Where an aperture address leads for an engine, or its NOTMAPPED, whose CR.TVAL is L, or WINDOW (R113, R120). -/
def apertureTarget (s : State) (w : Who) (a : Word) (n : Nat) : Except (Cause × Word) (Node × Nat) :=
  let l := (a.toNat - apertureBase) / 2 ^ 20
  let o := (a.toNat - apertureBase) % 2 ^ 20
  match cmapEntry s (ctxOf s w.agent.core w.ctx).entry l with
  | none => .error (.notmapped, BitVec.ofNat 64 l)
  | some d =>
    if d.host then .error (.window, a)
    else
      let lim := farSize s d w.ctx
      if o + n ≤ lim then .ok (d, o) else .error (.window, BitVec.ofNat 64 (a.toNat + (Nat.max o lim - o)))

/-- An engine's read of a core's scratchpad through the aperture: load requests of pieces of one line each, from the starting core
(R15, R113, R225). -/
def engFar (s : State) (w : Who) (va : Nat) (d : Node) : List (Nat × Nat) → Eng (List Byte)
  | [] => .ok s []
  | (o, n) :: r =>
    match memoOf s w false va n with
    | some x =>
      match x.bytes with
      | none => .wait s
      | some bs =>
        if x.bad then .fault s .notmapped (BitVec.ofNat 64 va)
        else (engFar s w (va + n) d r).bind (fun s rest => .ok s (bs ++ rest))
    | none =>
      let path := choosePath s w.node d w.ctx (o / 64)
      .wait (launchPacket (addMemo s w false va n s.ids none) (mkPacket w.node d w.ctx 4 path 0 (.loadReq o n s.ids w.agent)))

/-- An engine's read of a gather window's element: the index word, then the element, every page of both checked first (R136, R228). -/
def engGather (s : State) (w : Who) (a : Word) (n : Nat) : Eng (List Byte) :=
  let b := (a.toNat - gatherBase) / 2 ^ 40
  let i := (a.toNat - gatherBase) % 2 ^ 40 / 4
  if a.toNat % 4 ≠ 0 then .fault s .misalign a
  else
    match tget (ctxOf s w.agent.core w.ctx).binds b with
    | none => .fault s .window a
    | some g =>
      if g.count ≤ i || n ≠ 4 then .fault s .window a
      else
        let idx := gatherIdx g i
        match placeAll s w .load [idx] with
        | .fault c t => .fault (endWalks s w) c t
        | .wait va h => .wait (startWalk s w va h)
        | .ok ps _ =>
          (readParts s w idx.1.toNat ps.flatten).bind (fun s ib =>
            let e := gatherAt g (leNat ib)
            match placeAll s w .load [idx, e] with
            | .fault c t => .fault (endWalks s w) c t
            | .wait va h => .wait (startWalk s w va h)
            | .ok qs ls =>
              (readParts (commitLeaves s w .load ls) w e.1.toNat (qs.getD 1 [])).bind (fun s y =>
                .ok s (y ++ List.replicate (4 - g.size) 0)))

/-- An engine's read of up to 64 bytes: page-mapped memory, window 0, the aperture and gather windows (R225). -/
def engLoad (s : State) (w : Who) (a : Word) (n : Nat) : Eng (List Byte) :=
  match memoOf s w false a.toNat n with
  | some x =>
    match x.bytes with
    | none => .wait s
    | some bs => if x.bad then .fault s .notmapped a else .ok s bs
  | none =>
    (match rangeOf a with
    | .aperture =>
      match apertureTarget s w a n with
      | .error (c, t) => Eng.fault s c t
      | .ok (d, o) => engFar s w a.toNat d (linePieces o n (n + 1))
    | .gather => engGather s w a n
    | _ => readMem s w a n).bind (fun s bs => .ok (addMemo s w false a.toNat n 0 (some bs)) bs)

/-- Bytes read one access of at most 64 bytes after another. -/
def engLoadMany (s : State) (w : Who) (a : Word) (n : Nat) : Nat → Eng (List Byte)
  | 0 => .ok s []
  | fuel + 1 =>
    if n = 0 then .ok s []
    else
      let k := Nat.min n (if rangeOf a = .gather then 4 else 64 - a.toNat % 64)
      (engLoad s w a k).bind (fun s x =>
        (engLoadMany s w (a + BitVec.ofNat 64 k) (n - k) fuel).bind (fun s y => .ok s (x ++ y)))

/-- The naturally aligned pieces of some bytes at an offset (R225). -/
def alignedPieces (o : Nat) (bs : List Byte) : Nat → List (Nat × List Byte)
  | 0 => []
  | fuel + 1 =>
    if bs.isEmpty then []
    else
      let k := (([64, 32, 16, 8, 4, 2, 1] : List Nat).find? (fun k => o % k == 0 && k ≤ bs.length)).getD 1
      (o, bs.take k) :: alignedPieces (o + k) (bs.drop k) fuel

/-- An engine's store: page-mapped memory, window 0, or remote stores to the aperture (R225, R159). -/
def engStore (s : State) (w : Who) (a : Word) (bs : List Byte) : Eng Unit :=
  match memoOf s w true a.toNat bs.length with
  | some x =>
    if x.bytes.isNone then .wait s
    else if x.bad then .fault s .notmapped a
    else .ok s ()
  | none =>
    (match rangeOf a with
    | .aperture =>
      match apertureTarget s w a bs.length with
      | .error (c, t) => Eng.fault s c t
      | .ok (d, o) =>
        Eng.ok ((alignedPieces o bs (bs.length + 1)).foldl (fun (s : State) (p : Nat × List Byte) => remoteStore s w.agent.core d w.ctx 4 p.1 p.2 [] w.agent) s) ()
    | .gather => Eng.fault s .window a
    | _ => writeMem s w a bs).bind (fun s _ => .ok (addMemo s w true a.toNat bs.length 0 (some [])) ())

/-- Bytes stored one access of at most 64 bytes after another. -/
def engStoreMany (s : State) (w : Who) (a : Word) (bs : List Byte) : Nat → Eng Unit
  | 0 => .ok s ()
  | fuel + 1 =>
    if bs.isEmpty then .ok s ()
    else
      let k := Nat.min bs.length (64 - a.toNat % 64)
      (engStore s w a (bs.take k)).bind (fun s _ => engStoreMany s w (a + BitVec.ofNat 64 k) (bs.drop k) fuel)

/-- The bytes that stand where an engine is about to store: read under the permission of its store (R232). -/
def engOld (s : State) (w : Who) (a : Word) (n : Nat) : Eng (List Byte) :=
  match memoOf s w false a.toNat n with
  | some x =>
    match x.bytes with
    | none => .wait s
    | some bs => if x.bad then .fault s .notmapped a else .ok s bs
  | none =>
    (match rangeOf a with
    | .aperture =>
      match apertureTarget s w a n with
      | .error (c, t) => Eng.fault s c t
      | .ok (d, o) => engFar s w a.toNat d (linePieces o n (n + 1))
    | .gather => Eng.fault s .window a
    | _ =>
      match resolve s w .store a n with
      | .fault c t => Eng.fault (endWalks s w) c t
      | .wait va h => Eng.wait (startWalk s w va h)
      | .ok ps _ => readParts s w a.toNat ps.flatten).bind (fun s bs => .ok (addMemo s w false a.toNat n 0 (some bs)) bs)

/-! ### Mailboxes (R154, R225, R233) -/

/-- The key of the word that a mailbox address names, if this module can tell it. -/
def mailboxKey (s : State) (w : Who) (a : Word) : Option Nat :=
  match rangeOf a with
  | .aperture =>
    match apertureTarget s w a 8 with
    | .ok (d, o) => (takerOf s d).map (fun c => mailKey none (scratchBase c (partOf s c w.ctx) + o))
    | .error _ => none
  | _ =>
    match resolve s w .store a 8 with
    | .ok ((p :: _) :: _) _ => some (mailKey p.2.1 p.1)
    | _ => none

/-- An engine job's mailbox store; the word is known as a mailbox from then on. DEDUCED, log 82: unsafe. -/
def mailStore (s : State) (w : Who) (a : Word) (v : Nat) : Eng Unit :=
  let key := mailboxKey s w a
  (engStore s w a (leBytes 8 v)).bind (fun s _ =>
    match key with
    | some k => if s.mailboxes.contains k then .ok s () else .ok { s with mailboxes := s.mailboxes ++ [k] } ()
    | none => .ok s ())

/-! ### Held jobs and engine upcalls (R138) -/

/-- An engine tag (R138). -/
def engineTag (s : State) (unit xfer core ctx : Nat) : Word :=
  let l := (logicalOf s (ctxOf s core ctx).entry (nodeOf s core)).getD 0
  BitVec.ofNat 64 (unit * 2 ^ 56 + xfer % 2 ^ 16 * 2 ^ 40 + l % 2 ^ 21 * 8 + 1)

/-- Queues an engine upcall on the issuing core (R138): a message of the context at priority 3. -/
def engineUpcall (s : State) (core ctx unit xfer : Nat) (c : Cause) (va : Word) : State :=
  let s := enqueueMsg s core (engineMsg s ctx [] 3 3 (.engine (engineTag s unit xfer core ctx) (BitVec.ofNat 64 c.code) va))
  arrivalWakes s core ctx 3

/-- An engine's access has failed: the context ends on an uncorrectable error (R50); else the job is held by `hold` and its
upcall queued. -/
def engineFault (s : State) (core ctx unit xfer : Nat) (c : Cause) (va : Word) (hold : State → State) : State :=
  if c = .uncorrectable then contextEnd s ctx else engineUpcall (hold s) core ctx unit xfer c va

/-! ### Transfer ids (R224, R363) -/

/-- An id of a clause may be given. -/
def idFree (c : Clause) (n : Nat) : Bool :=
  !c.copies.any (fun j => j.id == n) && !c.colls.any (fun j => j.handle == n) &&
  !c.copyDone.any (fun d => d.1 == n && c.copySeq < d.2 + 4096)

/-- The lowest id of a clause that may be given. DESIGN CHOICE, log 19: unsafe. -/
def freeId (c : Clause) : Nat := ((List.range 65535).find? (fun i => idFree c (i + 1))).map (· + 1) |>.getD 0

/-- The engine of a transfer or sort. -/
def copyWho (s : State) (core ctx id : Nat) : Who := engineWho s core ctx (jobUnit 1 id)

/-- The engine of a collective program. -/
def collWho (s : State) (core ctx handle : Nat) : Who := engineWho s core ctx (jobUnit 2 handle)

/-- Every access of a job has been performed, its remote stores have been acknowledged, and its other modules' answers are in. -/
def jobQuiet (s : State) (ag : AgentId) : Bool := performed s ag && !unackedAny s ag

end Sys2Proof.Machine
end

