-- ==== Sys2Proof/Machine/Copy.lean ====
section
/-!
DEFINITION. Machine/Copy.lean: the clause copy unit (R215, R223-R228, R362-R365): copies, sorts and gather bindings.
-/

namespace Sys2Proof.Machine

/-! ### Starting a transfer (R223, R224) -/

/-- The XOR swizzle of an address (R215). -/
def swizzle (enable : Bool) (sh : Nat) (a : Word) : Word :=
  if enable then a ^^^ BitVec.ofNat 64 (a.toNat / 2 ^ sh % 8 * 16) else a

/-- The shadow set of the current activation (R223). -/
def copyRegs (s : State) : List Word :=
  let r := regs s
  [r.cpsrc, r.cpdst, r.cplen, r.cpstr, r.cpflags, r.cphnd, r.cpswz]

/-- A local window 1-7 (R224 reason 5). -/
def formatWindow (a : Word) : Bool :=
  match rangeOf a with
  | .window w => 1 ≤ w && w ≤ 7
  | _ => false

/-- The lowest refusal reason of a copy (R224); reason 5 looks at CPSRC and CPDST alone. DEDUCED, log 77: unsafe. -/
def copyRefusal (r : List Word) : Nat :=
  let len := r.getD 2 0
  let fl := r.getD 4 0
  let hnd := r.getD 5 0
  let swz := r.getD 6 0
  if bits len 63 56 ≠ 0 ∨ bits fl 63 24 ≠ 0 ∨ bits fl 15 3 ≠ 0 ∨ bits swz 63 9 ≠ 0 ∨ bits swz 7 5 ≠ 0 then 1
  else if (bit fl 0 ∧ bit fl 1) ∨ (bit fl 1 ∧ hnd.toNat % 8 ≠ 0) then 2
  else if bit fl 2 ∧ 191 < bits fl 23 16 then 3
  else if bit swz 8 ∧ (bits swz 4 0 < 7 ∨ 16 < bits swz 4 0) then 4
  else if formatWindow (r.getD 0 0) ∨ formatWindow (r.getD 1 0) ∨ rangeOf (r.getD 1 0) = .gather then 5
  else 0

/-- Two byte ranges meet. -/
def overlaps (a n b m : Nat) : Bool := a < b + m && b < a + n

/-- The refusal reason of a sort (R227, R364). -/
def sortRefusal (r : List Word) (b : Nat) : Nat :=
  let len := r.getD 2 0
  let n := bits len 23 0 + 1
  let src := (r.getD 0 0).toNat
  let dst := (r.getD 1 0).toNat
  let first := copyRefusal r
  let clash := overlaps src (8 * n) dst (8 * n) || overlaps src (8 * n) (dst + 8 * n) (4 * (2 ^ b + 1))
  if first ≠ 0 then first
  else if clash then 5
  else if bits len 55 24 ≠ 0 ∨ bit (r.getD 6 0) 8 then 6
  else 0

/-- A new promise: now plus the unit's estimate, which the manual leaves open (R226). DESIGN CHOICE, log 9: safe. -/
def newPromise (s : State) : Nat := s.cyc + (Config.copyEstimate s.freeCtr).toNat

/-- The CR.CPGO read, and CPSORT, of the current activation: a release, then a refusal or a transfer (R224, R364). -/
def copyGo (sort : Option Nat) (a : SReg) (s : State) : Res :=
  let r := copyRegs s
  let why := match sort with
    | none => copyRefusal r
    | some b => sortRefusal r b
  let cl := clauseOfCore (home s)
  if !released s then .stall s (waitOr s 0 0)
  else if why ≠ 0 then .ok (wS s a (BitVec.ofNat 64 (why * 2 ^ 16)))
  else if 64 ≤ (clauseOf s cl).copies.length then .stall s (waitOr s 0 0)
  else
    let id := freeId (clauseOf s cl)
    let p := newPromise s
    let job : CopyJob := ⟨id, home s, ctxId s, r, sort, p, 0, none, false, false⟩
    let s := modClause (nextFree s) cl (fun c => { c with
      copies := c.copies ++ [job]
      copySeq := c.copySeq + 1
      copyDone := c.copyDone.filter (fun d => d.1 != id)
      cancelled := c.cancelled.filter (fun d => d.1 != id) })
    .ok (wS s a (BitVec.ofNat 64 (p % 2 ^ 48 * 2 ^ 16 + id)))

/-! ### Moving bytes (R224, R225) -/

/-- A transfer of a clause. -/
def copyOf (s : State) (cl id : Nat) : Option CopyJob := (clauseOf s cl).copies.find? (fun j => j.id == id)

/-- Changes a transfer. -/
def modCopy (s : State) (cl id : Nat) (f : CopyJob → CopyJob) : State :=
  modClause s cl (fun c => { c with copies := replaceFirst (fun j => j.id == id) f c.copies })

/-- Bytes per row, rows and planes of a copy (R223). -/
def copyShape (j : CopyJob) : Nat × Nat × Nat :=
  let len := j.regs.getD 2 0
  (bits len 23 0, bits len 39 24 + 1, bits len 55 40 + 1)

/-- What a transfer's progress counts up to: bytes of a copy; records and table entries of a sort. -/
def copyTotal (j : CopyJob) : Nat :=
  match j.sort with
  | none => let (b, r, p) := copyShape j; b * r * p
  | some b => bits (j.regs.getD 2 0) 23 0 + 1 + 2 ^ b + 1

/-- A signed stride field times its unit. -/
def stride (w : Word) (hi lo unit : Nat) : Word := (BitVec.ofNat 16 (bits w hi lo)).signExtend 64 * BitVec.ofNat 64 unit

/-- The bytes between the boundaries at which a copy's stores are cut: its swizzle moves 16 bytes together (R215, R225). -/
def copyGrain (j : CopyJob) : Nat := if bit (j.regs.getD 6 0) 8 then 16 else 64

/-- The next piece of a copy: source and unswizzled destination addresses and size (R224). A gather window gives 4 bytes at a read.
The pieces go in ascending order. DESIGN CHOICE, log 76: unsafe. -/
def copyPiece (j : CopyJob) : Word × Word × Nat :=
  let (b, rows, _) := copyShape j
  let n := j.progress % b
  let r := j.progress / b % rows
  let q := j.progress / b / rows
  let st := j.regs.getD 3 0
  let at_ : Word → Word → Word → Word := fun base row plane =>
    base + BitVec.ofNat 64 q * plane + BitVec.ofNat 64 r * row + BitVec.ofNat 64 n
  let src := at_ (j.regs.getD 0 0) (stride st 15 0 16) (stride st 47 32 4096)
  let dst := at_ (j.regs.getD 1 0) (stride st 31 16 16) (stride st 63 48 4096)
  (src, dst, Nat.min (b - n) (if rangeOf src = .gather then 4 else copyGrain j - dst.toNat % copyGrain j))

/-- Stores a piece of a copy, cut where the swizzle parts it (R215, R224). -/
def copyPut (s : State) (w : Who) (j : CopyJob) (dst : Word) (bs : List Byte) : Nat → Eng Unit
  | 0 => .ok s ()
  | fuel + 1 =>
    if bs.isEmpty then .ok s ()
    else
      let swz := j.regs.getD 6 0
      let k := Nat.min bs.length (copyGrain j - dst.toNat % copyGrain j)
      (engStore s w (swizzle (bit swz 8) (bits swz 4 0) dst) (bs.take k)).bind (fun s _ =>
        copyPut s w j (dst + BitVec.ofNat 64 k) (bs.drop k) fuel)

/-- The records of a sort in order: by key, stably (R227). -/
def sortedRecords (b : Nat) (bs : List Byte) : List (List Byte) :=
  let recs := (List.range (bs.length / 8)).map (fun i => (bs.drop (8 * i)).take 8)
  sortBy (fun x y => leNat x % 2 ^ b < leNat y % 2 ^ b) recs

/-- The next access of a transfer: what its progress becomes. A sort keeps what it has read until it ends. -/
def copyAccess (s : State) (j : CopyJob) : Eng Nat :=
  let w := copyWho s j.core j.ctx j.id
  match j.sort with
  | none =>
    let (src, dst, k) := copyPiece j
    (engLoad s w src (if rangeOf src = .gather then 4 else k)).bind (fun s bs =>
      (copyPut s w j dst (bs.take k) (k + 1)).bind (fun s _ => .ok (forget s j.core j.ctx w.unit) (j.progress + k)))
  | some b =>
    let n := bits (j.regs.getD 2 0) 23 0 + 1
    let dst := j.regs.getD 1 0
    (engLoadMany s w (j.regs.getD 0 0) (8 * n) (8 * n)).bind (fun s bs =>
      let recs := sortedRecords b bs
      if j.progress < n then
        (engStoreMany s w (dst + BitVec.ofNat 64 (8 * j.progress)) (recs.getD j.progress []) 8).bind (fun s _ => .ok s (j.progress + 1))
      else
        let k := j.progress - n
        let v := (recs.filter (fun r => leNat r % 2 ^ b < k)).length
        (engStoreMany s w (dst + BitVec.ofNat 64 (8 * n + 4 * k)) (leBytes 4 v) 8).bind (fun s _ => .ok s (j.progress + 1)))

/-- A transfer is held at a fault (R138). -/
def copyFault (s : State) (cl : Nat) (j : CopyJob) (c : Cause) (va : Word) : State :=
  engineFault s j.core j.ctx 1 j.id c va (fun s => modCopy s cl j.id (fun j => { j with held := some ⟨c, va⟩ }))

/-- The copy unit performs the next access of a transfer, or holds it at a fault (R138). -/
def copyStep (s : State) (cl id : Nat) : State :=
  match copyOf s cl id with
  | none => s
  | some j =>
    if j.held.isSome || j.cancel || copyTotal j ≤ j.progress then s
    else
      match copyAccess s j with
      | .ok s p => modCopy s cl id (fun j => { j with progress := p })
      | .wait s => s
      | .fault s c va => copyFault s cl j c va

/-- Ends a transfer: it is known as complete or cancelled, and its event disarms (R363, R70). -/
def copyEnd (s : State) (cl : Nat) (j : CopyJob) (cancelled : Bool) : State :=
  let s := modClause (forget s j.core j.ctx (jobUnit 1 j.id)) cl (fun c => { c with
    copies := c.copies.filter (fun x => x.id != j.id)
    copyDone := c.copyDone ++ [(j.id, c.copySeq)]
    cancelled := if cancelled then c.cancelled ++ [(j.id, j.core * 4096 + j.ctx)] else c.cancelled })
  let fl := j.regs.getD 4 0
  if bit fl 2 then
    if cancelled then disarm s j.ctx [bits fl 23 16] else completionEvent s j.ctx (bits fl 23 16)
  else s

/-- A complete transfer's event bit and upcall, once its mailbox store has been performed (R225). -/
def copyFinish (s : State) (cl : Nat) (j : CopyJob) : State :=
  if !jobQuiet s (copyWho s j.core j.ctx j.id).agent then s
  else
    let s := copyEnd s cl j false
    if bit (j.regs.getD 4 0) 0 then
      arrivalWakes (enqueueMsg s j.core (engineMsg s j.ctx [] 3 3 (.copyDone (j.regs.getD 5 0) j.id))) j.core j.ctx 3
    else s

/-- EVENT COPY_TRANSFER_COMPLETE (R225): mailbox, event bit, upcall, as one store-release. -/
def copyComplete (s : State) (cl id : Nat) : State :=
  match copyOf s cl id with
  | none => s
  | some j =>
    let w := copyWho s j.core j.ctx id
    if j.held.isSome || j.cancel || j.progress < copyTotal j || !jobQuiet s w.agent then s
    else if bit (j.regs.getD 4 0) 1 && !j.mailed then
      match mailStore s w (j.regs.getD 5 0) (2 ^ 63 + id) with
      | .ok s _ => copyFinish (modCopy s cl id (fun j => { j with mailed := true })) cl j
      | .wait s => s
      | .fault s c va => copyFault s cl j c va
    else copyFinish s cl j

/-- EVENT COPY_CANCEL_STOP (R363): the cancelled transfer stops at an access boundary; its mailbox store waits for a page that
migrates, and is left out only where its translation fails. -/
def copyCancelStop (s : State) (cl id : Nat) : State :=
  match copyOf s cl id with
  | none => s
  | some j =>
    let w := copyWho s j.core j.ctx id
    let ended : State → State := fun s => if jobQuiet s w.agent then copyEnd (endWalks s w) cl j true else s
    let mailed : State → State := fun s => modCopy s cl id (fun j => { j with mailed := true })
    if !j.cancel || !jobQuiet s w.agent then s
    else if bit (j.regs.getD 4 0) 1 && !j.mailed then
      match mailStore (if j.held.isSome then forget s j.core j.ctx w.unit else s) w (j.regs.getD 5 0) (3 * 2 ^ 62 + id) with
      | .ok s _ => ended (mailed s)
      | .wait s => modCopy s cl id (fun j => { j with held := none })
      | .fault s c _ => if c = .uncorrectable then contextEnd s j.ctx else ended (mailed s)
    else ended s

/-- EVENT COPY_PROMISE_EXPIRE (R226): a CPWAIT that sleeps to the promise is woken. -/
def copyPromiseExpire (s : State) (cl id : Nat) : State :=
  match copyOf s cl id with
  | none => s
  | some j =>
    if s.cyc < j.promise then s
    else answer s (copyWho s j.core j.ctx id).agent (fun w => if w.kind == 4 && w.operand.toNat == id then { w with woke := true } else w)

/-! ### The copy instructions (R362-R365) -/

/-- A base encoding that names the copy unit (R29). -/
def copyGate (i : Instr) : Gate := { baseGate i with engine := true }

/-- The transfer that a copy instruction names (R363). -/
def namedCopy (s : State) (x : Word) : Option CopyJob :=
  match copyOf s (clauseOfCore (home s)) (bits x 15 0) with
  | some j => if j.core = home s ∧ j.ctx = ctxId s then some j else none
  | none => none

/-- CPWAIT (R363, R226). -/
def execCpwait (b : SReg) (s : State) : Host.Outcome State Fault Refusal :=
  issue (copyGate (.cpwait b)) (fun s =>
    match namedCopy s (rS s b) with
    | none => .ok (acquire s)
    | some j =>
      if j.promise ≤ s.cyc then
        let p := newPromise s
        .trap (if j.held.isSome then s else modCopy (nextFree s) (clauseOfCore (home s)) j.id (fun j => { j with promise := p }))
          .promise (BitVec.ofNat 64 j.id)
      else .stall s (waitOr s 4 (BitVec.ofNat 64 j.id))) s

/-- CPSTAT (R363). -/
def execCpstat (a b : SReg) (s : State) : Host.Outcome State Fault Refusal :=
  issue (copyGate (.cpstat a b)) (fun s =>
    let id := bits (rS s b) 15 0
    match namedCopy s (rS s b) with
    | some j => .ok (wS s a (BitVec.ofNat 64 (j.promise % 2 ^ 48 * 2 ^ 16 + if j.held.isSome then 2 else 0)))
    | none =>
      if (clauseOf s (clauseOfCore (home s))).cancelled.contains (id, home s * 4096 + ctxId s) then .ok (wS s a 3)
      else .ok (wS (acquire s) a 1)) s

/-- CPCANCEL (R363). A transfer whose mailbox store has been made completes as if it came too late. DEDUCED, log 93: unsafe. -/
def execCpcancel (b : SReg) (s : State) : Host.Outcome State Fault Refusal :=
  issue (copyGate (.cpcancel b)) (fun s =>
    match namedCopy s (rS s b) with
    | none => .ok s
    | some j =>
      .stall (modCopy s (clauseOfCore (home s)) j.id (fun j => { j with cancel := j.cancel || !j.mailed })) (waitOr s 4 (BitVec.ofNat 64 j.id))) s

/-- CPSORT (R364). -/
def execCpsort (a : SReg) (k : BitVec 4) (s : State) : Host.Outcome State Fault Refusal :=
  issue (copyGate (.cpsort a k)) (copyGo (some (k.toNat + 1)) a) s

/-- GBIND (R365). -/
def execGbind (sz : BitVec 2) (w : BitVec 4) (b : SReg) (s : State) : Host.Outcome State Fault Refusal :=
  issue (copyGate (.gbind sz w b)) (fun s =>
    let x := rS s b
    if x.toNat % 4 ≠ 0 then .trap s .misalign x
    else if bits (rE s 1) 63 32 ≠ 0 then .trap s .window x
    else .ok (modCtx s (home s) (ctxId s) (fun c => { c with
      binds := tset c.binds w.toNat ⟨x, rE s 0, 2 ^ sz.toNat, (rE s 1).toNat⟩ }))) s

/-- GUNBIND (R365). -/
def execGunbind (w : BitVec 4) (s : State) : Host.Outcome State Fault Refusal :=
  issue (copyGate (.gunbind w)) (fun s =>
    .ok (modCtx s (home s) (ctxId s) (fun c => { c with binds := tdel c.binds w.toNat }))) s

end Sys2Proof.Machine
end

