-- ==== Sys2Proof/Machine/Collective.lean ====
section
/-!
DEFINITION. Machine/Collective.lean: collective programs of the clause copy unit (R229-R233, R366, R367).
-/

namespace Sys2Proof.Machine

/-! ### The descriptor (R229) -/

/-- The collective id. -/
def Coll.cid (c : Coll) : Nat := bits (c.words.getD 1 0) 63 40
/-- The number of ranks. -/
def Coll.n (c : Coll) : Nat := bits (c.words.getD 1 0) 39 20
/-- This rank. -/
def Coll.rank (c : Coll) : Nat := bits (c.words.getD 1 0) 19 0
/-- The mailbox address. -/
def Coll.mbox (c : Coll) : Word := c.words.getD 2 0
/-- The operation: 0 sum, 1 max, 2 min. -/
def Coll.op (c : Coll) : Nat := bits (c.words.getD 3 0) 13 11
/-- The type: 0 FP32, 1 BF16, 2 X128. -/
def Coll.type (c : Coll) : Nat := bits (c.words.getD 3 0) 10 9
/-- Bytes of an element (R230). -/
def Coll.size (c : Coll) : Nat := if c.type = 0 then 4 else if c.type = 1 then 2 else 16
/-- The agent of its accesses. -/
def Coll.agent (c : Coll) : AgentId := unitAgent c.core c.ctx (jobUnit 2 c.handle)

/-- COLLGO's ILLEGAL checks of a descriptor (R366). -/
def collIllegal (ws : List Word) : Bool :=
  let w1 := ws.getD 1 0
  let w3 := ws.getD 3 0
  bits w1 39 20 == 0 || bits w1 39 20 ≤ bits w1 19 0 || (ws.getD 0 0).toNat % 8 != 0 || (ws.getD 2 0).toNat % 8 != 0 ||
  bits w3 63 14 != 0 || 3 ≤ bits w3 13 11 || bits w3 10 9 == 3 || (bit w3 8 && 191 < bits w3 7 0)

/-! ### CRC-32C (R232) -/

/-- One byte of the CRC. -/
def crcByte (crc : Nat) (b : Nat) : Nat :=
  (List.range 8).foldl (fun c _ => if c % 2 = 1 then (c / 2) ^^^ 0x82F63B78 else c / 2) (crc ^^^ b)

/-- CRC-32C of bytes. -/
def crc32c (bs : List Nat) : Nat := (bs.foldl crcByte 0xFFFFFFFF) ^^^ 0xFFFFFFFF

/-- The check word of a step packet (R232). -/
def checkWord (cid seq count typeOp : Nat) : Nat :=
  let g : Nat → List Nat := fun x => (List.range 4).map (fun i => x / 256 ^ i % 256)
  crc32c (g cid ++ g seq ++ g count ++ g typeOp)

/-- The check word of a program's own step for a sequence number. -/
def Coll.check (c : Coll) (seq count : Nat) : Nat := checkWord c.cid seq count (c.type + 256 * c.op)

/-! ### Step words (R230) -/

/-- The count of a step. -/
def stepCount (w : Word) : Nat := bits w 23 0
/-- k of a step. -/
def stepK (w : Word) : Nat := if bit w 49 then 2 ^ bits w 57 50 else bits w 57 50

/-- The peer of a rank for pm and k. -/
def peerOf (rank n pm k : Nat) : Nat :=
  match pm with
  | 0 => (rank + k) % n
  | 1 => (rank + n - k % n) % n
  | _ => rank ^^^ k

/-- A step word that stops the program (R230), at a step index. DEDUCED, log 33: unsafe. -/
def stepIllegal (c : Coll) (idx : Nat) (w : Word) : Bool :=
  let pm := bits w 59 58
  let xorBad := pm == 2 && c.n ≤ (c.rank ^^^ stepK w)
  match bits w 63 60 with
  | 0 => bits w 59 0 != 0
  | 1 => bit w 45 || bits w 48 47 == 3 || pm == 3 || xorBad
  | 2 => bit w 45 || bits w 48 47 == 3 || pm == 3 || xorBad
  | 3 => bits w 48 47 == 3 || pm == 3 || xorBad || (bit w 45 && pm == 2)
  | 4 => bits w 57 49 != 0 || bit w 45 || bits w 48 47 == 3 || pm == 3
  | 5 => bits w 59 0 != 0
  | 6 => bits w 41 24 != 0 || idx ≤ bits w 23 0
  | _ => true

/-- The address of a step's first element in a buffer (R230). -/
def stepAddr (c : Coll) (w : Word) (buf : Nat) : Word :=
  let e := bits w 44 24 + (if bit w 46 then c.counters.getD 0 0 * stepCount w else 0)
  c.words.getD (5 + buf) 0 + BitVec.ofNat 64 (e * c.size)

/-! ### State of a program -/

/-- A program by handle. -/
def collOf (s : State) (cl h : Nat) : Option Coll := (clauseOf s cl).colls.find? (fun c => c.handle == h)

/-- Changes a program. -/
def modColl (s : State) (cl h : Nat) (f : Coll → Coll) : State :=
  modClause s cl (fun k => { k with colls := replaceFirst (fun c => c.handle == h) f k.colls })

/-- Holds a program at a fault (R138). -/
def collFault (s : State) (cl : Nat) (c : Coll) (cause : Cause) (va : Word) : State :=
  engineFault s c.core c.ctx 2 c.handle cause va (fun s => modColl s cl c.handle (fun c => { c with held := some ⟨cause, va⟩ }))

/-- The value of a program's mailbox (R233). -/
def collStatus (c : Coll) (status : Nat) : Nat := 2 ^ 63 + c.cid * 2 ^ 32 + status

/-- Removes a program; its event bit is set or only disarmed. -/
def collGone (s : State) (cl : Nat) (c : Coll) : State :=
  let s := modClause (forget s c.core c.ctx (jobUnit 2 c.handle)) cl (fun k => { k with
    colls := k.colls.filter (fun x => x.handle != c.handle) })
  if bit (c.words.getD 3 0) 8 then completionEvent s c.ctx (bits (c.words.getD 3 0) 7 0) else s

/-- The engine that runs a program. -/
def Coll.engine (c : Coll) (s : State) : Who := collWho s c.core c.ctx c.handle

/-- The logical core address of a rank in the rank table. -/
def rankCore (s : State) (c : Coll) (r : Nat) : Eng (Option Node) :=
  (engLoad s (c.engine s) (c.words.getD 4 0 + BitVec.ofNat 64 (4 * r)) 4).bind (fun s bs =>
    .ok s (match cmapEntry s (ctxOf s c.core c.ctx).entry (leNat bs) with
      | some d => if d.host then none else some d
      | none => none))

/-- The nodes of every other rank of the table; a rank whose entry cannot be read is left out. -/
def otherRanks (s : State) (c : Coll) : List Nat → Eng (List Node)
  | [] => .ok s []
  | r :: rs =>
    if r = c.rank then otherRanks s c rs
    else
      match rankCore s c r with
      | .wait s => .wait s
      | .fault s _ _ => otherRanks s c rs
      | .ok s d => (otherRanks s c rs).bind (fun s ds => .ok s (d.toList ++ ds))

/-- Step packets addressed to a program that has aborted are dropped. DEDUCED, log 45: unsafe. -/
def dropSteps (s : State) (c : Coll) : State :=
  { s with net := s.net.filter (fun p => !(p.2.dst == nodeOf s c.core && p.2.ctx == c.ctx && match p.2.payload with
      | .step i _ _ _ => i == c.cid
      | _ => false)) }

/-- An ended or aborted program: its abort notices to every other rank of the table, then its mailbox store, then its event bit, each
once the one before is performed (R232, R233). An aborting program's mailbox store that fails is not made. DEDUCED, log 32: unsafe. -/
def collEnding (s : State) (cl h : Nat) : State :=
  match collOf s cl h with
  | none => s
  | some c =>
    let st := c.ending.getD 0
    let abort := st % 2 == 1
    let told : Eng Unit :=
      if !abort || c.sentStep then .ok s ()
      else (otherRanks s c (List.range c.n)).bind (fun s ds =>
        let s := ds.foldl (fun s d => sendPkt s (nodeOf s c.core) d c.ctx 4 0 (.abort c.cid (c.blame == some d))) s
        .ok (modColl s cl h (fun c => { c with sentStep := true })) ())
    let stored := told.bind (fun s _ =>
      if !jobQuiet s c.agent then .wait s
      else if c.mailed then .ok s ()
      else (mailStore s (c.engine s) c.mbox (collStatus c st)).bind (fun s _ =>
        .ok (modColl s cl h (fun c => { c with mailed := true })) ()))
    match stored with
    | .wait s => s
    | .fault s cause va =>
      if cause = .uncorrectable then contextEnd s c.ctx
      else if abort then collGone s cl c
      else collFault s cl c cause va
    | .ok s _ => if jobQuiet s c.agent then collGone s cl c else s

/-- Restores what the step in progress has stored over, the last store first. -/
def undoStores (s : State) (c : Coll) : State :=
  c.undo.reverse.foldl (fun s u => match engStore s (c.engine s) u.1 u.2 with
    | .ok s _ => s
    | .wait s => s
    | .fault s _ _ => s) s

/-- Aborts a program (R232): its step in progress is given up and leaves its buffers as they were. -/
def collAbort (s : State) (cl : Nat) (c : Coll) : State :=
  let s := dropSteps (forget (endWalks s (c.engine s)) c.core c.ctx (jobUnit 2 c.handle)) c
  collEnding (modColl (undoStores s c) cl c.handle (fun k => { k with
    ending := some (k.status ||| 1), held := none, sentStep := false, mailed := false, blame := c.blame, undo := [] })) cl c.handle

/-- A program stops with an engine upcall and aborts (R230, R232). -/
def collTrap (s : State) (cl : Nat) (c : Coll) (cause : Cause) (va : Word) : State :=
  collAbort (engineUpcall s c.core c.ctx 2 c.handle cause va) cl c

/-! ### Element arithmetic (R231) -/

/-- Combines the received element L with the local R: the code and the status bits it adds (R231, R233). -/
def combine (type op l r : Nat) : Nat × Nat :=
  if type = 2 then
    match op with
    | 0 =>
      let (q, fl) := x128Add l r
      (q, if fl &&& fXsat ≠ 0 then 2 else 0)
    | 1 => (if x128Int l < x128Int r then r else l, 0)
    | _ => (if x128Int r < x128Int l then r else l, 0)
  else
    let f := if type = 0 then f32 else bf16
    match op with
    | 0 =>
      let (v, fl) := f.sum [f.decode l, f.decode r]
      (v, (if fl &&& fInvalid ≠ 0 ∨ f.signalling l ∨ f.signalling r then 4 else 0) + (if fl &&& fOverflow ≠ 0 then 8 else 0))
    | 1 => ((f.round (pickNum true (f.decode l) (f.decode r))).1, 0)
    | _ => ((f.round (pickNum false (f.decode l) (f.decode r))).1, 0)

/-- Combines two buffers element by element. -/
def combineAll (type op size : Nat) (l r : List Byte) : List Byte × Nat :=
  let n := r.length / size
  let rs := (List.range n).map (fun i => combine type op (leNat ((l.drop (size * i)).take size)) (leNat ((r.drop (size * i)).take size)))
  (rs.flatMap (fun x => leBytes size x.1), rs.foldl (fun a x => a ||| x.2) 0)

/-! ### Step packets (R231, R232) -/

/-- Sends bytes to a peer in packets of up to 16 payload flits. -/
def sendStep (s : State) (cl : Nat) (c : Coll) (peer : Nat) (d : Node) (count : Nat) (bs : List Byte) : State :=
  let chunks := (List.range ((bs.length + 1023) / 1024)).map (fun i => (bs.drop (1024 * i)).take 1024)
  let seq := tgetD c.sent peer 0
  let s := chunks.zipIdx.foldl (fun s x =>
    sendPkt s (nodeOf s c.core) d c.ctx 4 0 (.step c.cid (nodeOf s c.core).addr (c.check (seq + x.2) count) x.1)) s
  modColl s cl c.handle (fun k => { k with sent := tset k.sent peer (seq + chunks.length) })

/-- The buffered packets of a sender that make up a step of `need` bytes. -/
def gatherStep (src : Nat) (need : Nat) : List (Nat × Nat × List Byte) → List (Nat × List Byte)
  | [] => []
  | (n, chk, bs) :: r =>
    if need = 0 then []
    else if n = src then (chk, bs) :: gatherStep src (need - bs.length) r
    else gatherStep src need r

/-- Removes the first packets of a sender from the buffer. -/
def dropSender (src : Nat) : Nat → List (Nat × Nat × List Byte) → List (Nat × Nat × List Byte)
  | 0, l => l
  | k + 1, l => dropSender src k (removeFirst (fun p => p.1 == src) l)

/-- What the buffer holds for a step from a rank: a mismatch, the whole step, or not yet. -/
inductive Arrived where
  | mismatch
  | whole (bs : List Byte) (packets : Nat)
  | partly
  deriving DecidableEq, Repr

/-- Checks the buffered packets of a step against the receiver's own step (R232). -/
def arrived (c : Coll) (peer : Nat) (src : Node) (count : Nat) : Arrived :=
  let need := count * c.size
  let ps := gatherStep src.addr need c.inbox
  let seq := tgetD c.rcvd peer 0
  if ps.zipIdx.any (fun x => x.1.1 != c.check (seq + x.2) count) then .mismatch
  else
    let bs := ps.flatMap (·.2)
    if need ≤ bs.length then .whole (bs.take need) ps.length else .partly

/-- COLLMISMATCH at this rank and at the sender's, if its program still runs: on this module at once, on another by the abort notice
(R232). -/
def collMismatch (s : State) (cl : Nat) (c : Coll) (src : Node) : State :=
  let va := BitVec.ofNat 64 c.cid
  match takerOf s src with
  | none => collTrap s cl { c with blame := some src } .collmismatch va
  | some core =>
    let s := collTrap s cl c .collmismatch va
    let k := clauseOfCore core
    match (clauseOf s k).colls.find? (fun x => x.core == core && x.ctx == c.ctx && x.cid == c.cid && x.ending.isNone) with
    | some x => collTrap s k x .collmismatch va
    | none => s

/-! ### Running a step (R231) -/

/-- Step packets of a program that are still on their way. -/
def stepsInFlight (s : State) (c : Coll) : Bool :=
  s.net.any (fun p => p.2.ctx == c.ctx && p.2.src == nodeOf s c.core && match p.2.payload with
    | .step i _ _ _ => i == c.cid
    | _ => false)

/-- The program goes on to a step; its accesses of the one before are forgotten. -/
def goToStep (s : State) (cl : Nat) (c : Coll) (step bits_ : Nat) : State :=
  modColl (forget s c.core c.ctx (jobUnit 2 c.handle)) cl c.handle (fun c => { c with
    step := step, sentStep := false, awaits := none, undo := [], status := c.status ||| bits_ })

/-- The program goes on to its next step. -/
def nextStep (s : State) (cl : Nat) (c : Coll) (bits_ : Nat) : State := goToStep s cl c (c.step + 1) bits_

/-- The packets of a received step leave the buffer: the rank, its node and their number (R232). -/
def tookStep (s : State) (cl h from_ addr n : Nat) : State :=
  modColl s cl h (fun c => { c with
    inbox := dropSender addr n c.inbox
    rcvd := tset c.rcvd from_ (tgetD c.rcvd from_ 0 + n) })

/-- Reads the step's elements of a buffer. -/
def stepLoad (s : State) (c : Coll) (w : Word) (buf : Nat) : Eng (List Byte) :=
  let n := stepCount w * c.size
  engLoadMany s (c.engine s) (stepAddr c w buf) n (n + 1)

/-- Writes the step's elements of a buffer, one access of at most 64 bytes after another, and keeps what each stores over: a fault leaves
those before it performed (R138), and an abort restores them (R232). DEDUCED, log 32: unsafe. -/
def stepStoreMany (s : State) (cl : Nat) (c : Coll) (a : Word) (bs : List Byte) : Nat → Eng Unit
  | 0 => .ok s ()
  | fuel + 1 =>
    if bs.isEmpty then .ok s ()
    else
      let k := Nat.min bs.length (64 - a.toNat % 64)
      let keep := fun (s : State) (f : List (Word × List Byte) → List (Word × List Byte)) =>
        modColl s cl c.handle (fun c => { c with undo := f c.undo })
      (engOld s (c.engine s) a k).bind (fun s old =>
        match engStore (keep s (fun u => if u.any (fun x => x.1 == a) then u else u ++ [(a, old)])) (c.engine s) a (bs.take k) with
        | .fault s cause va => .fault (keep s (fun u => u.filter (fun x => x.1 != a))) cause va
        | .wait s => .wait s
        | .ok s _ => stepStoreMany s cl c (a + BitVec.ofNat 64 k) (bs.drop k) fuel)

/-- Writes the step's elements of a buffer. -/
def stepStore (s : State) (cl : Nat) (c : Coll) (w : Word) (buf : Nat) (bs : List Byte) : Eng Unit :=
  stepStoreMany s cl c (stepAddr c w buf) bs (bs.length + 1)

/-- A rank's node; a rank outside the map, or on a host core, is a fault. -/
def rankNode (s : State) (c : Coll) (r : Nat) : Eng Node :=
  (rankCore s c r).bind (fun s d => match d with
    | some d => .ok s d
    | none => .fault s .notmapped (c.words.getD 4 0 + BitVec.ofNat 64 (4 * r)))

/-- Receives the step from a rank, and goes on with its bytes, the node's address and the number of its packets; it waits for packets
not yet here. -/
def receive (s : State) (cl : Nat) (c : Coll) (from_ : Nat) (w : Word) (k : State → List Byte → Nat → Nat → Eng Unit) : Eng Unit :=
  (rankNode s c from_).bind (fun s src =>
    match arrived c from_ src (stepCount w) with
    | .mismatch => .ok (collMismatch s cl c src) ()
    | .partly => .wait (modColl s cl c.handle (fun c => { c with awaits := some (src.addr, stepCount w * c.size) }))
    | .whole bs n => k s bs src.addr n)

/-- Runs the current step's word (R230, R231). -/
def runStep (s : State) (cl : Nat) (c : Coll) (w : Word) : Eng Unit :=
  let h := c.handle
  let pm := bits w 59 58
  let buf := bits w 48 47
  let k := stepK w
  let peer := peerOf c.rank c.n pm k
  let count := stepCount w
  match bits w 63 60 with
  | 1 =>
    (stepLoad s c w buf).bind (fun s bs => (rankNode s c peer).bind (fun s d =>
      .ok (nextStep (sendStep s cl c peer d count bs) cl c 0) ()))
  | 2 =>
    receive s cl c peer w (fun s bs addr n =>
      (stepStore s cl c w buf bs).bind (fun s _ => .ok (nextStep (tookStep s cl h peer addr n) cl c 0) ()))
  | 3 =>
    if pm = 2 then
      (stepLoad s c w buf).bind (fun s mine =>
        (rankNode s c peer).bind (fun s d =>
          let s := if c.sentStep then s
            else modColl (sendStep s cl c peer d count mine) cl h (fun c => { c with sentStep := true })
          receive s cl c peer w (fun s bs addr n =>
            let (r, st) := combineAll c.type c.op c.size bs mine
            (stepStore s cl c w buf r).bind (fun s _ => .ok (nextStep (tookStep s cl h peer addr n) cl c st) ()))))
    else
      let from_ := peerOf c.rank c.n (1 - pm) k
      receive s cl c from_ w (fun s bs addr n =>
        (stepLoad s c w buf).bind (fun s mine =>
          let (r, st) := combineAll c.type c.op c.size bs mine
          (rankNode s c peer).bind (fun s d =>
            (stepStore s cl c w buf r).bind (fun s _ =>
              .ok (nextStep (sendStep (tookStep s cl h from_ addr n) cl c peer d count r) cl c st) ()))))
  | 4 =>
    (stepLoad s c w buf).bind (fun s bs => (stepStore s cl c w pm bs).bind (fun s _ => .ok (nextStep s cl c 0) ()))
  | 5 => if stepsInFlight s c || !jobQuiet s c.agent then .wait s else .ok (nextStep s cl c 0) ()
  | 6 =>
    let i := c.counters.getD pm 0
    let set : Nat → List Nat := fun v => (List.range 4).map (fun j => if j = pm then v else c.counters.getD j 0)
    if i < bits w 57 42 then .ok (goToStep (modColl s cl h (fun c => { c with counters := set (i + 1) })) cl c (bits w 23 0) 0) ()
    else .ok (nextStep (modColl s cl h (fun c => { c with counters := set 0 })) cl c 0) ()
  | _ =>
    .ok (collEnding (modColl (forget s c.core c.ctx (jobUnit 2 h)) cl h (fun c => { c with ending := some c.status })) cl h) ()

/-- EVENT COLLECTIVE_STEP_RUN (R231): the copy unit performs the next step of a program, or goes on with its end. -/
def collStep (s : State) (cl h : Nat) : State :=
  match collOf s cl h with
  | none => s
  | some c =>
    if c.held.isSome then s
    else if c.ending.isSome then collEnding s cl h
    else
      let at_ := c.words.getD 0 0 + BitVec.ofNat 64 (8 * c.step)
      match engLoad s (c.engine s) at_ 8 with
      | .fault s cause va => collFault s cl c cause va
      | .wait s => s
      | .ok s bs =>
        let w := BitVec.ofNat 64 (leNat bs)
        if stepIllegal c c.step w then collTrap s cl c .illegal at_
        else
          match runStep s cl c w with
          | .ok s _ => s
          | .wait s => s
          | .fault s cause va => collFault s cl c cause va

/-- Bytes of the step being taken, if it comes from a sender (R231). -/
def Coll.wanted (c : Coll) (sender : Nat) : Nat :=
  match c.awaits with
  | some (d, n) => if d = sender then n else 0
  | none => 0

/-- Bytes buffered from a sender. -/
def Coll.buffered (c : Coll) (sender : Nat) : Nat := ((c.inbox.filter (fun x => x.1 == sender)).map (fun x => x.2.2.length)).sum

/-- A sender's next packet belongs to the step being taken. -/
def Coll.wants (c : Coll) (sender : Nat) : Bool := c.buffered sender < c.wanted sender

/-- Bytes buffered ahead of the step that takes them (R231): all but those of the step being taken. -/
def Coll.ahead (c : Coll) : Nat :=
  let all := (c.inbox.map (fun x => x.2.2.length)).sum
  match c.awaits with
  | some (d, n) => all - Nat.min n (c.buffered d)
  | none => all

/-- EVENT COLLECTIVE_STEP_ARRIVAL (R232): an arrived step packet is buffered for its program. -/
def stepArrival (s : State) (n : Nat) : State :=
  match arrivedAt s n with
  | none => s
  | some (p, core) =>
    match p.payload with
    | .step cid sender chk bs =>
      let cl := clauseOfCore core
      match (clauseOf s cl).colls.find? (fun c => c.core == core && c.ctx == p.ctx && c.cid == cid) with
      | none => s
      | some c =>
        if 65536 < c.ahead + bs.length && !c.wants sender then s
        else modColl (takePkt s n) cl c.handle (fun c => { c with inbox := c.inbox ++ [(sender, chk, bs)] })
    | _ => s

/-- EVENT COLLECTIVE_ABORT_NOTICE (R232): a rank aborts at its current step without a trap; a rank that has ended ignores it. -/
def abortArrival (s : State) (n : Nat) : State :=
  match arrivedAt s n with
  | none => s
  | some (p, core) =>
    match p.payload with
    | .abort cid mismatch =>
      let s := takePkt s n
      let cl := clauseOfCore core
      match (clauseOf s cl).colls.find? (fun c => c.core == core && c.ctx == p.ctx && c.cid == cid) with
      | none => s
      | some c =>
        if c.ending.isSome then s
        else if mismatch then collTrap s cl c .collmismatch (BitVec.ofNat 64 cid)
        else collAbort s cl c
    | _ => s

/-! ### The instructions (R366, R367) -/

/-- COLLGO (R366). -/
def execCollgo (b : SReg) (s : State) : Host.Outcome State Fault Refusal :=
  issue { copyGate (.collgo b) with feats := [9] } (fun s =>
    let x := rS s b
    if x.toNat % 64 ≠ 0 then .trap s .misalign x
    else
      (loadRaw s 8 (wordAddrs x 8)).res (fun s ws =>
        let ds := ws.map (BitVec.ofNat 64)
        let cl := clauseOfCore (home s)
        if collIllegal ds then .trap s .illegal (Instr.collgo b).tval
        else if !released s || 4 ≤ (clauseOf s cl).colls.length then .stall s { waitOr s 0 0 with tags := [] }
        else
          let h := freeId (clauseOf s cl)
          let c : Coll := ⟨h, home s, ctxId s, ds, 0, [0, 0, 0, 0], [], [], [], false, 0, none, none, false, none, none, []⟩
          .ok (modClause s cl (fun k => { k with colls := k.colls ++ [c] })))) s

/-- COLLWAIT (R367). -/
def execCollwait (a b : SReg) (s : State) : Host.Outcome State Fault Refusal :=
  issue (copyGate (.collwait a b)) (fun s =>
    let x := rS s b
    if x.toNat % 8 ≠ 0 then .trap s .misalign x
    else if (clauseOf s (clauseOfCore (home s))).colls.any (fun c => c.core == home s && c.ctx == ctxId s && c.mbox == x) then
      .stall s (waitOr s 10 x)
    else (loadVal s x 8 true).res (fun s v => .ok (wS (acquire s) a (BitVec.ofNat 64 v)))) s

end Sys2Proof.Machine
end

