-- ==== Sys2Proof/Machine/Fetch.lean ====
section
/-!
DEFINITION. Machine/Fetch.lean: fetching the instruction at pc through the activation's fetch buffer (R107, R136, R270, R282).
-/

namespace Sys2Proof.Machine

/-- What a fetch comes to. -/
inductive Fetched where
  | instr (s : State) (i : Instr)
  /-- an encoding that decode refuses, with the bits that CR.TVAL shows (R280). -/
  | bad (s : State) (word : Word)
  | fault (s : State) (c : Cause) (va : Word)
  /-- a walker, or another module's memory, is awaited (R144, R129). -/
  | wait (s : State)
  deriving DecidableEq, Repr

/-- Translates the n bytes of a fetch (R107, R136): every page that they touch. DEDUCED, log 47: unsafe. -/
def fetchSpan (s : State) (va : Word) (n : Nat) : TransRes :=
  match rangeOf va with
  | .unmapped => .fault .notmapped va
  | .paged =>
    let inside := Nat.min n (gatherBase - va.toNat)
    match translateAll s (fetchWho s) .fetch [(va.toNat, inside)] with
    | .ok ps ls =>
      if inside < n then .fault .exec (BitVec.ofNat 64 gatherBase)
      else .ok ps ls
    | x => x
  | _ => .fault .exec va

/-- The lines that the parts of a fetch touch: virtual address, module and location of each line's first byte. -/
def spanLines (va : Nat) : List (Nat × Option Nat × Nat) → List (Nat × Option Nat × Nat)
  | [] => []
  | (pa, m, n) :: r =>
    (List.range ((pa % 64 + n + 63) / 64)).map (fun i => (va - pa % 64 + 64 * i, m, pa / 64 * 64 + 64 * i)) ++ spanLines (va + n) r

/-- Puts a line in the fetch buffer: 32 lines, the oldest given up first (R282). DESIGN CHOICE, log 15: unsafe. -/
def pushLine (s : State) (l : LineBuf) : State :=
  modAct s (fun a => { a with fetch := (if a.fetch.length < 32 then a.fetch else a.fetch.drop 1) ++ [l] })

/-- The lines of a fetch, as the fetch buffer holds them, or filled from their homes (R282, R129, R442). -/
def takeLines (s : State) : List (Nat × Option Nat × Nat) → Eng (List LineBuf)
  | [] => .ok s []
  | (va, m, pa) :: r =>
    match (act s).fetch.find? (fun l => l.line == lineKey m pa) with
    | some l => (takeLines s r).bind (fun s ls => .ok s (l :: ls))
    | none =>
      let fill : State → List Byte → Eng (List LineBuf) := fun s bs =>
        let l : LineBuf := ⟨lineKey m pa, bs, s.cyc⟩
        (takeLines (pushLine s l) r).bind (fun s ls => .ok s (l :: ls))
      match byPacket s m pa with
      | none => fill s (readBytes s pa 64)
      | some x => (farRead s (fetchWho s) va x [(pa, 64)]).bind fill

/-- The bytes of the parts of a fetch in its lines. -/
def lineBytes (ls : List LineBuf) (ps : List (Nat × Option Nat × Nat)) : List Byte :=
  ps.flatMap (fun p => (List.range p.2.2).map (fun i =>
    match ls.find? (fun l => l.line == lineKey p.2.1 (p.1 + i)) with
    | some l => l.bytes.getD ((p.1 + i) % 64) 0
    | none => 0))

/-- The bytes of a fetch of n bytes, with the leaves whose accessed bits it sets once it is whole (R133, R136). -/
def fetchPart (s : State) (va : Word) (n : Nat) : Except Fetched (State × List Byte × List TlbEntry) :=
  match fetchSpan s va n with
  | .fault c t => .error (.fault (endWalks s (fetchWho s)) c t)
  | .wait a h => .error (.wait (startWalk s (fetchWho s) a h))
  | .ok ps ls =>
    match takeLines s (spanLines va.toNat ps.flatten) with
    | .fault s c t => .error (.fault s c (BitVec.ofNat 64 (Nat.max va.toNat t.toNat)))
    | .wait s => .error (.wait s)
    | .ok s lines => .ok (s, lineBytes lines ps.flatten, ls)

/-- A fetch is whole: its accessed bits are set (R133), and what it has asked is forgotten. -/
def fetched (s : State) (ls : List TlbEntry) : State := forget (commitLeaves s (fetchWho s) .fetch ls) (home s) (ctxId s) 8

/-- The bytes that decode sees at pc: one halfword, or two where the first begins a 32-bit word (R270). -/
def fetchBytes (s : State) (va : Word) : Except Fetched (State × List Byte) :=
  match fetchPart s va 2 with
  | .error f => .error f
  | .ok (s, lo, ls) =>
    if !isLong (leNat lo) then .ok (fetched s ls, lo)
    else
      match fetchPart s va 4 with
      | .error f => .error f
      | .ok (s, bs, ls) => .ok (fetched s ls, bs)

/-- Fetches and decodes the instruction at the current activation's pc. -/
noncomputable def fetch (s : State) : Fetched :=
  match fetchBytes s (act s).pc with
  | .error f => f
  | .ok (s, bs) =>
    match decodeBytes bs with
    | .ok (i, _) => .instr s i
    | .error e => .bad s (BitVec.ofNat 64 e.word)

end Sys2Proof.Machine
end

