-- ==== Sys2Proof/Machine/Special.lean ====
section
/-!
DEFINITION. Machine/Special.lean: the control registers (R35-R38, R92, R123, R124, R145, R305-R307) and CR.CPGO's read (R224).
-/

namespace Sys2Proof.Machine

/-! ### Module registers (R36, R37) -/

/-- A bit for each number of a range that a test picks. -/
def bitsWhere (n : Nat) (f : Nat → Bool) : Nat := ((List.range n).filter f).foldl (fun a i => a + 2 ^ i) 0

/-- MODLINK (R37): the links fenced by themselves, not those of a fenced I/O die. DEDUCED, log 70: unsafe. -/
def modLinkWord (s : State) : Word := BitVec.ofNat 64 (bitsWhere 24 (fun l => s.module.fenced.contains (.link l)))

/-- MODTIER (R37): the packages fenced by themselves, not those of a fenced compute die. DEDUCED, log 70: unsafe. -/
def modTierWord (s : State) : Word := BitVec.ofNat 64 (bitsWhere 48 (fun p => s.module.fenced.contains (.package p)))

/-- MODSTATE (R36): its parts are those fenced by themselves, not the clauses and stacks of a fenced die. DEDUCED, log 70: unsafe. -/
def modStateWord (s : State) : Word :=
  let f := s.module.fenced
  let clauses := (List.range 1024).filter (fun n => f.contains (.clause n))
  let fenced := bitsWhere 8 (fun d => f.contains (.die d)) + 2 ^ 8 * bitsWhere 12 (fun t => f.contains (.stack t)) +
    2 ^ 20 * bitsWhere 2 (fun d => f.contains (.ioDie d)) + (if modLinkWord s = 0 then 0 else 2 ^ 22) +
    (if modTierWord s = 0 then 0 else 2 ^ 23) + 2 ^ 24 * bitsWhere 8 (fun d => clauses.any (fun c => c / 128 == d))
  let m := s.module
  BitVec.ofNat 64 (fenced * 2 ^ 32 + bitsWhere 8 (fun p => f.contains (.rootPort p)) * 2 ^ 16 + Nat.min 255 clauses.length * 2 ^ 8 +
    (if m.halt then 4 else 0) + (if m.degraded then 2 else 0) + (if m.replace then 1 else 0))

/-- The contexts that the context table holds as created: those of the entries that memory lists whose state is not 0 (R40). -/
def created (s : State) : List Nat :=
  let base := ctxEntryLoc s 0
  let ids := (s.mem.filter (fun c => base ≤ c.1 && c.1 < base + 2 ^ 20)).map (fun c => (c.1 - base) / 256)
  (ids.foldl (fun l i => if l.contains i then l else l ++ [i]) []).filter (fun c => ctxState s c != 0)

/-- A write of FACC0 or FACC1: the first one after reset counts; once both are written, the contexts created before are known (R36,
R38). -/
def faccWrite (s : State) (high : Bool) (v : Word) : State :=
  let m := s.module
  let n := if high then { m with facc1 := some (m.facc1.getD v) } else { m with facc0 := some (m.facc0.getD v) }
  let before := m.facc0.isNone || m.facc1.isNone
  { s with module := if before && n.facc0.isSome && n.facc1.isSome then { n with early := created s } else n }

/-- A write of MODNUM: the first one after reset counts; the links come up (R34, R36). -/
def modnumWrite (s : State) (v : Word) : State :=
  { s with module := { s.module with modnum := some (s.module.modnum.getD (bits v 5 0)) } }

/-- Some context is live. -/
def anyLive (s : State) : Bool := (List.range 4096).any (fun c => ctxState s c == 1)

/-- A write of CTXTAB: ignored while a context is live (R36). -/
def ctxtabWrite (s : State) (v : Word) : State :=
  if anyLive s then s else { s with module := { s.module with ctxtab := v &&& ~~~(0xFFFFF#64) } }

/-! ### Reading (R123, R124) -/

/-- The value of a control register; none for a number that no chapter assigns, and for CR.CPGO (R123, R35, R145). -/
def readCr (s : State) (n : Nat) : Option Word :=
  let c := (act s).cr
  let r := regs s
  let e := entry s
  let core := runCore s
  match n with
  | 0x000 => some (coreIdWord s core)
  | 0x001 => some (BitVec.ofNat 64 ((hasExtD core).toNat + 2 * (hasExtS core).toNat))
  | 0x002 => some (BitVec.ofNat 64 s.cyc)
  | 0x003 => some (BitVec.ofNat 64 (ctxId s + e.prio * 2 ^ 12))
  | 0x004 => some c.wid
  | 0x005 => some c.wshape
  | 0x006 => some r.part
  | 0x007 => some c.slot
  | 0x008 => some e.hlo
  | 0x009 => some e.hhi
  | 0x00A => some c.msgsrc
  | 0x00B => some c.msglen
  | 0x010 => some c.tcause
  | 0x011 => some c.tval
  | 0x012 => some c.tpc
  | 0x013 => some (coreOf s (home s)).tvec
  | 0x014 => some r.upcall
  | 0x015 => some r.fibre
  | 0x016 => some c.tstat
  | 0x017 => some c.xfer
  | 0x018 => some r.cpsrc
  | 0x019 => some r.cpdst
  | 0x01A => some r.cplen
  | 0x01B => some r.cpstr
  | 0x01C => some r.cpflags
  | 0x01D => some r.cphnd
  | 0x01E => some r.cpswz
  | 0x020 => some r.lxstop
  | 0x021 => some r.lxesc
  | 0x022 => some r.lxkmax
  | 0x023 => some r.lxfmt
  | 0x024 => some r.lxmissh
  | 0x028 => some r.wscale
  | 0x029 => some r.wef
  | 0x02A => some r.x128l
  | 0x02B => some c.fflags
  | 0x030 => some e.lease
  | 0x031 => some r.mswz
  | 0x038 => some e.evtmo
  | 0x039 => some e.donate
  | 0x03A => some e.migok
  | 0x03B => some (if featureFor s (ctxId s) 8 then r.trace else 0)
  | 0x03C => some r.traceptr
  | 0x03D => some c.pathcnt
  | 0x050 => some Config.feat0
  | 0x051 => some 0
  | 0x052 => some r.freel
  | 0x100 => some (s.module.facc0.getD 0)
  | 0x101 => some (s.module.facc1.getD 0)
  | 0x102 => some s.module.ctxtab
  | 0x103 => some (BitVec.ofNat 64 (moduleNumber s))
  | 0x104 => some (modStateWord s)
  | 0x105 => some (modLinkWord s)
  | 0x106 => some (modTierWord s)
  | 0x108 => some e.asid
  | 0x109 => some e.ptroot
  | 0x10A => some e.pmask
  | 0x10B => some e.cmapb
  | 0x10C => some e.cmapn
  | 0x10D => some e.ctxgen
  | 0x110 => some (coreOf s (home s)).saveb
  | 0x111 => some s.module.pftab
  | 0x112 => some s.module.noticeh
  | _ => if 0x040 ≤ n ∧ n < 0x050 then some (e.regions.toList.getD (n - 0x040) 0) else none

/-! ### Writing (R305) -/

/-- The state after a CWR of a register with RW fields; none for one that is RO as a whole, reserved or CR.CPGO. -/
def writeCr (s : State) (n : Nat) (w : Word) : Option State :=
  let reg : (CtxRegs → CtxRegs) → Option State := fun f => some (modRegs s f)
  let acr : (ActCR → ActCR) → Option State := fun f => some (modAct s (fun a => { a with cr := f a.cr }))
  let priv := (act s).priv
  match n with
  | 0x012 => if priv then acr (fun c => { c with tpc := w }) else none
  | 0x013 => some (modCore s (home s) (fun k => { k with tvec := w }))
  | 0x014 => reg (fun r => { r with upcall := w })
  | 0x015 => reg (fun r => { r with fibre := w })
  | 0x016 => if priv then acr (fun c => { c with tstat := (c.tstat &&& ~~~(9#64)) ||| (w &&& 9#64) }) else none
  | 0x018 => reg (fun r => { r with cpsrc := w })
  | 0x019 => reg (fun r => { r with cpdst := w })
  | 0x01A => reg (fun r => { r with cplen := w })
  | 0x01B => reg (fun r => { r with cpstr := w })
  | 0x01C => reg (fun r => { r with cpflags := w })
  | 0x01D => reg (fun r => { r with cphnd := w })
  | 0x01E => reg (fun r => { r with cpswz := w })
  | 0x020 => reg (fun r => { r with lxstop := BitVec.ofNat 64 (bits w 31 0) })
  | 0x021 => reg (fun r => { r with lxesc := BitVec.ofNat 64 (bits w 31 0) })
  | 0x022 => reg (fun r => { r with lxkmax := BitVec.ofNat 64 (clamp 1 32 (bits w 5 0)) })
  | 0x023 => reg (fun r => { r with lxfmt := BitVec.ofNat 64 (bits w 1 0 % 3) })
  | 0x024 => reg (fun r => { r with lxmissh := w })
  | 0x028 => reg (fun r => { r with wscale := BitVec.ofNat 64 (bits w 19 0) })
  | 0x029 => reg (fun r => { r with wef := w &&& 0x3E#64 })
  | 0x02A => reg (fun r => { r with x128l := x128lField w })
  | 0x02B => acr (fun c => { c with fflags := fflagsField w })
  | 0x031 => reg (fun r => { r with mswz := mswzField w })
  | 0x03B => if featureFor s (ctxId s) 8 then reg (fun r => { r with trace := w &&& 0xFF003#64 }) else some s
  | 0x03C => reg (fun r => { r with traceptr := w })
  | 0x052 => reg (fun r => { r with freel := w })
  | 0x100 => some (faccWrite s false w)
  | 0x101 => some (faccWrite s true w)
  | 0x102 => some (ctxtabWrite s w)
  | 0x103 => some (modnumWrite s w)
  | 0x110 => some (modCore s (home s) (fun k => { k with saveb := BitVec.ofNat 64 (bits w 47 12 * 4096) }))
  | 0x111 => some { s with module := { s.module with pftab := BitVec.ofNat 64 (bits w 47 12 * 4096) } }
  | 0x112 => some { s with module := { s.module with noticeh := BitVec.ofNat 64 (bits w 54 1 * 2) } }
  | _ => none

/-- User code may not name the register (R35, R123). -/
def crPrivileged (n : Nat) : Bool := n == 0x013 || 0x100 ≤ n

/-- The effect of CRD (R305); a read of CR.CPGO is a kick of the copy unit (R224), which application cores lack (R29). -/
def crdBody (word : Word) (a : SReg) (n : Nat) (s : State) : Res :=
  if crPrivileged n && !(act s).priv then .trap s .priv (BitVec.ofNat 64 n)
  else if n = 0x01F then if isApp (runCore s) then .trap s .illegal word else copyGo none a s
  else
    match readCr s n with
    | some w => .ok (wS s a w)
    | none => .trap s .illegal word

/-- CRD (R305). -/
def execCrd (a : SReg) (cr : BitVec 9) (s : State) : Host.Outcome State Fault Refusal :=
  issue (baseGate (.crd a cr)) (crdBody (Instr.crd a cr).tval a cr.toNat) s

/-- EVENT CPGO_READ (R224): the read of CR.CPGO. -/
def execCpgoRead (a : SReg) (s : State) : Host.Outcome State Fault Refusal :=
  issue (baseGate (.crd a 0x01F)) (crdBody (Instr.crd a 0x01F).tval a 0x01F) s

/-- CWR (R305). -/
def execCwr (a : SReg) (cr : BitVec 9) (s : State) : Host.Outcome State Fault Refusal :=
  issue (baseGate (.cwr a cr)) (fun s =>
    if crPrivileged cr.toNat && !(act s).priv then .trap s .priv (BitVec.ofNat 64 cr.toNat)
    else
      match writeCr s cr.toNat (rS s a) with
      | some s => .ok s
      | none => .trap s .illegal (Instr.cwr a cr).tval) s

end Sys2Proof.Machine
end

