-- ==== Sys2Proof/Machine/Fibre.lean ====
section
/-!
DEFINITION. Machine/Fibre.lean: fibres and engine tags (R369-R372), invalidation (R141, R373) and prefetch (R374).
-/

namespace Sys2Proof.Machine

/-! ### Engine tags (R138) -/

/-- A held engine job. -/
inductive HeldJob where
  | copy (cl id : Nat)
  | coll (cl h : Nat)
  | lease (cl core : Nat)
  deriving DecidableEq, Repr

/-- The held job of the current context that a tag names, and the cause it is held at (R138). -/
def heldJob (s : State) (tag : Word) : Option (HeldJob × Cause) :=
  let unit := bits tag 63 56
  let xfer := bits tag 55 40
  let ctx := ctxId s
  match cmapEntry s (entry s) (bits tag 23 3) with
  | none => none
  | some d =>
    match takerOf s d with
    | none => none
    | some core =>
      let cl := clauseOfCore core
      if bits tag 39 24 ≠ 0 ∨ bits tag 2 1 ≠ 0 ∨ isApp core then none
      else
        match unit with
        | 1 =>
          match copyOf s cl xfer with
          | some j => if j.core = core ∧ j.ctx = ctx then j.held.map (fun h => (.copy cl xfer, h.cause)) else none
          | none => none
        | 2 =>
          match collOf s cl xfer with
          | some c => if c.core = core ∧ c.ctx = ctx then c.held.map (fun h => (.coll cl xfer, h.cause)) else none
          | none => none
        | 3 =>
          if xfer ≠ 0 then none
          else
            match (clauseOf s cl).leases.find? (fun l => l.core == core && l.ctx == ctx) with
            | some l => l.held.map (fun h => (.lease cl core, h.cause))
            | none => none
        | _ => none

/-- Changes a context's lease of a core. -/
def modLease (s : State) (cl core ctx : Nat) (f : Lease → Lease) : State :=
  modClause s cl (fun k => { k with leases := replaceFirst (fun l => l.core == core && l.ctx == ctx) f k.leases })

/-- Forgets that an access of a job was refused, so that it is made again (R370). -/
def retry (s : State) (core ctx unit : Nat) : State :=
  { s with memos := s.memos.filter (fun m => !(m.bad && m.core == core && m.ctx == ctx && m.unit == unit)) }

/-- Restarts a held job at its faulting access, a copy with a new promise (R370). -/
def restartJob (s : State) (j : HeldJob) : State :=
  match j with
  | .copy cl id =>
    let p := newPromise s
    let s := match copyOf s cl id with
      | some j => retry s j.core j.ctx (jobUnit 1 id)
      | none => s
    modCopy (nextFree s) cl id (fun j => { j with held := none, promise := p })
  | .coll cl h =>
    let s := match collOf s cl h with
      | some c => retry s c.core c.ctx (jobUnit 2 h)
      | none => s
    modColl s cl h (fun c => { c with held := none })
  | .lease cl core => modLease (retry s core (ctxId s) (jobUnit 3 0)) cl core (ctxId s) (fun l => { l with held := none })

/-- The stage of the wait of a checked matrix command (R375). -/
def checkedStage : Nat := 20

/-- Abandons a held job at its faulting access (R372). -/
def abandonJob (s : State) (j : HeldJob) : State :=
  match j with
  | .copy cl id =>
    match copyOf s cl id with
    | some j => copyCancelStop (modCopy (forget s j.core j.ctx (jobUnit 1 id)) cl id (fun j => { j with held := none, cancel := true })) cl id
    | none => s
  | .coll cl h =>
    match collOf s cl h with
    | some c => collAbort s cl c
    | none => s
  | .lease cl core =>
    let s := modLease (forget s core (ctxId s) (jobUnit 3 0)) cl core (ctxId s) (fun l => { l with held := none, queue := [], forfeit := l.forfeit.map (fun _ => 0) })
    answer s (unitAgent core (ctxId s) (jobUnit 3 0)) (fun w => if w.stage = checkedStage then { w with reply := some 0 } else w)

/-! ### Records (R369, R371, R372) -/

/-- A run of accesses by the current activation as an instruction meets it. -/
def Eng.got (g : Eng α) : Got α :=
  match g with
  | .ok s x => .val s x
  | .fault s c t => .trap s c t
  | .wait s => .stall s (waitOr s 0 0)

/-- A checked record: the module it lies in if another's, its location, its home core and its bytes. -/
structure Checked where
  rmod : Option Nat
  loc : Nat
  core : Node
  bytes : List Byte
  deriving DecidableEq, Repr

/-- A word of a checked record. -/
def Checked.word (c : Checked) (off : Nat) : Word := BitVec.ofNat 64 (leNat ((c.bytes.drop off).take 8))

/-- The checks of FRESUME and FDROP on a record, in order, and its bytes (R369, R372). -/
def checkRecord (word rec_ : Word) (s : State) : Got Checked :=
  let w := who s
  if rec_.toNat % 4096 ≠ 0 then .trap s .misalign rec_
  else
    (readMem s w rec_ 8).got.bind (fun s w0 =>
      let s := acquire s
      if leNat w0 ≠ 0 then .trap s .illegal word
      else
        (readMem s w (rec_ + 0x60) 8).got.bind (fun s hb =>
          let h := leNat hb % 2 ^ 21
          match cmapEntry s (entry s) h with
          | none => .trap s .notmapped (BitVec.ofNat 64 h)
          | some core =>
            if core.host then .trap s .notmapped (BitVec.ofNat 64 h)
            else
              (readMem s w rec_ 4096).got.bind (fun s bs =>
                match resolve s w .store rec_ 8 with
                | .fault c t => .trap (endWalks s w) c t
                | .wait va e => .stall (startWalk s w va e) (waitOr s 0 0)
                | .ok ps ls =>
                  let p := ps.flatten.headD (0, none, 0)
                  if !released s then .stall s (waitOr s 0 0) else .val (commitLeaves s w .store ls) ⟨p.2.1, p.1, core, bs⟩)))

/-- Sends a record to resume to its home core: a message of priority 3, kept until its acceptance returns (R46, R369). Its 4,096 bytes go
in four packets of 16 payload flits. The launch of a fibre that leaves the module stays known here. DESIGN CHOICE, logs 88 and 6:
unsafe. -/
def sendFibre (s : State) (core ctx : Nat) (rec_ : Word) (c : Checked) : State :=
  let seq := s.ids
  let pack := fun (pl : Payload) => mkPacket (nodeOf s core) c.core ctx 4 0 3 pl
  let head := pack (.fibre rec_ (c.rmod.getD (moduleNumber s)) c.loc (c.bytes.take 1024) seq)
  let s := [1, 2, 3].foldl (fun s i => launchPacket s (pack (.fibrePart seq i ((c.bytes.drop (1024 * i)).take 1024)))) (launchPacket s head)
  modCore s core (fun k => { k with unacked := k.unacked ++ [⟨seq, c.core, head⟩] })

/-- Ends the issuing activation and resumes a record on its home core (R369). -/
def resume (s : State) (rec_ : Word) (c : Checked) : State :=
  let ctx := ctxId s
  let me := home s
  let away := s.cur.away
  let s := endAct s
  if takerOf s c.core ≠ some me then sendFibre s me ctx rec_ c
  else if away.isNone then resumeRecord s me ctx rec_ c.rmod c.loc c.bytes
  else
    let m : Msg := { engineMsg s ctx [] 3 4 (.fibre rec_ c.rmod c.loc c.bytes) with id := s.ids }
    modCore (newId s) me (fun k => { k with waiting := m :: k.waiting })

/-- FRESUME (R369, R370). -/
def execFresume (b : SReg) (s : State) : Host.Outcome State Fault Refusal :=
  issue (baseGate (.fresume b)) (fun s =>
    let x := rS s b
    if bit x 0 then
      match heldJob s x with
      | none => .trap s .illegal (Instr.fresume b).tval
      | some (j, _) => if !released s then .stall s (waitOr s 0 0) else .gone (endAct (restartJob s j))
    else (checkRecord (Instr.fresume b).tval x s).res (fun s c => .gone (resume s x c))) s

/-- FSTAT (R371). -/
def execFstat (a b : SReg) (s : State) : Host.Outcome State Fault Refusal :=
  issue (baseGate (.fstat a b)) (fun s =>
    let x := rS s b
    if bit x 0 then
      .ok (wS s a (match heldJob s x with
        | some (_, c) => BitVec.ofNat 64 (2 ^ 16 + c.code * 256 + 1)
        | none => BitVec.ofNat 64 (2 ^ 16)))
    else if x.toNat % 4096 ≠ 0 then .trap s .misalign x
    else
      (readMem s (who s) x 48).got.res (fun s bs =>
        let f : Nat → Word := fun o => BitVec.ofNat 64 (leNat ((bs.drop o).take 8))
        .ok (wS (acquire s) a (BitVec.ofNat 64 (bits (f 0x20) 1 1 * 2 ^ 17 + bits (f 0x10) 7 0 * 256 + (if f 0 = 0 then 1 else 0)))))) s

/-- Drops a record: its launch triggers, an error record is written, and it returns to the core's free list (R372). -/
def dropRecord (s : State) (rec_ : Word) (c : Checked) : State :=
  let ctx := ctxId s
  let w := s.fibres.find? (fun f => f.ctx == ctx && f.record == rec_)
  let s := { s with fibres := s.fibres.filter (fun f => !(f.ctx == ctx && f.record == rec_)) }
  let s := returnRecord s (home s) ctx (agentNow s) rec_ c.rmod c.loc
  let s := match w.bind (fun f => f.work.map (fun x => (x, f.triggered))) with
    | some (x, done) => if done then setWorkState s x 3 else triggerWork (setWorkState s x 3) x
    | none => s
  errorRecord s (home s) ctx ([BitVec.ofNat 64 (2 + bits (c.word 0x10) 7 0 * 256), c.word 0x28, 0, 0, 0, 0, 0, 0])

/-- Goes on after an action that may have ended the context. -/
def stillHere (s : State) : Res :=
  match actAt s s.cur with
  | some _ => .ok s
  | none => .gone s

/-- FDROP (R372). -/
def execFdrop (b : SReg) (s : State) : Host.Outcome State Fault Refusal :=
  issue (baseGate (.fdrop b)) (fun s =>
    let x := rS s b
    if bit x 0 then
      match heldJob s x with
      | none => .trap s .illegal (Instr.fdrop b).tval
      | some (j, _) => stillHere (abandonJob s j)
    else (checkRecord (Instr.fdrop b).tval x s).res (fun s c => stillHere (dropRecord s x c))) s

/-! ### Invalidation and prefetch (R141, R373, R374) -/

/-- The effect of TLBINV and TLBINVA: the buffers are invalidated, and the instruction stalls until that is complete (R373). -/
def invBody (sc : Scope) (asid : Nat) (va : Option Nat) (s : State) : Res :=
  let w := waitOr s 0 0
  if w.stage = 1 then
    match w.reply with
    | some _ => .ok { s with invals := s.invals.filter (fun i => !(w.tags.contains i.1)) }
    | none => .stall s w
  else
    let t := invalidate s sc (home s) asid va
    .stall { t with invals := tset t.invals t.ids ⟨agentNow t, sc, asid, va, false, t.ids⟩, ids := t.ids + 1 }
      { w with stage := 1, tags := [t.ids], reply := none }

/-- TLBINV (R368, R373). -/
def execTlbinv (sc : Scope) (b c : SReg) (s : State) : Host.Outcome State Fault Refusal :=
  issue (privGate (.tlbinv sc b c)) (fun s => invBody sc ((rS s c).toNat % 65536) (some ((rS s b).toNat % 2 ^ 55)) s) s

/-- TLBINVA (R368, R373). -/
def execTlbinva (sc : Scope) (b : SReg) (s : State) : Host.Outcome State Fault Refusal :=
  issue (privGate (.tlbinva sc b)) (fun s => invBody sc ((rS s b).toNat % 65536) none s) s

/-- A packet carries an access of global memory, or the location that a resumed record's return store is to write (R369). -/
def translatedPkt (p : Packet) : Bool :=
  match p.payload with
  | .memAccess _ _ _ _ _ _ _ => true
  | .memAtomic _ _ _ _ _ _ _ _ => true
  | .memLock _ _ _ _ _ => true
  | .memUnlock _ _ _ _ _ => true
  | .fibre _ _ _ _ _ => true
  | _ => false

/-- A two-address atomic holds the locations it has translated (R165). -/
def locking (f : Option Frame) : Bool :=
  match f.bind (fun f => f.act.bind (·.wait)) with
  | some w => lockStage ≤ w.stage && w.locs != []
  | none => false

/-- An access that has been translated and numbered below a given number, and that its home port has not performed: one on its way to a
port, a two-address atomic under way, or the return store of a record that is to be resumed (R141, R369). A record that waits on the
invalidating activation's own core is left out: it cannot be resumed while that activation waits. DESIGN CHOICE, log 88: unsafe. -/
def accessLeft (s : State) (me n : Nat) : Bool :=
  s.reqs.any (fun r => r.1 < n && !r.2.performed) || s.net.any (fun p => p.1 < n && translatedPkt p.2) ||
  s.cores.any (fun k => locking k.2.active || k.2.away.any (fun f => locking (some f)) ||
    (k.1 != me && k.2.waiting.any (fun m => m.id < n && match m.start with
      | .fibre _ _ _ _ => true
      | _ => false)))

/-- The port function entries of an address space that an invalidation of all of it at package scope or wider lets go of (R146). -/
def dropFunctions (s : State) (i : Inval) : State :=
  if i.va.isSome || (i.scope != .package && i.scope != .system) then s
  else { s with module := { s.module with portFns := s.module.portFns.filter (fun e => bits e.2.1 47 32 != i.asid) } }

/-- EVENT INVALIDATION_COMPLETE (R141, R146): an entry that came back is removed again, and nothing is complete before every access that
may have used a removed entry is performed. Of the agents of other modules the model sees none. -/
def invalidationComplete (s : State) (n : Nat) : State :=
  match tget s.invals n with
  | none => s
  | some i =>
    let t := dropFunctions (invalidate s i.scope i.agent.core i.asid i.va) i
    let since := if entriesLeft s i.scope i.agent.core i.asid i.va then s.ids else i.since
    let done := !accessLeft s i.agent.core since
    let t := { t with invals := tset t.invals n { i with complete := i.complete || done, since := since } }
    if done then answer t i.agent (fun w => if w.tags.contains n then { w with reply := some 0 } else w) else t

/-- XPREF (R374, R131): fills the line into the read-line buffer as a plain load does, or does nothing; it makes no permission check and
sets no bit. -/
def execXpref (b : SReg) (s : State) : Host.Outcome State Fault Refusal :=
  issue (baseGate (.xpref b)) (fun s =>
    let x := rS s b
    if rangeOf x ≠ .paged then .ok s
    else
      match translateAll s (who s) .prefetch [(x.toNat, 1)] with
      | .ok ps _ =>
        match ps.flatten with
        | [(pa, m, _)] =>
          match loadParts s false (fun _ => x) [.mem m (pa / 64 * 64) 64] with
          | .val s _ => .ok s
          | .stall s w => .stall s w
          | .trap s _ _ => .ok s
        | _ => .ok s
      | _ => .ok s) s

end Sys2Proof.Machine
end

