-- ==== Sys2Proof/Machine/Lexicon.lean ====
section
/-!
DEFINITION. Machine/Lexicon.lean: lexicon slots and the lexer (R234-R240, R385-R391), code messages and the miss queue
(R241-R243, R392, R393), and gloss tables (R244, R245, R394, R395).
-/

namespace Sys2Proof.Machine

/-! ### Scratchpad operands (R375, R385) -/

/-- The gate of an engine instruction of majors 0x28-0x2C (R280, R39). -/
def engineGate (i : Instr) (feats : List Nat) : Gate := { baseGate i with engine := true, feats := feats }

/-- The scratchpad offset of `n` bytes at a window-0 address, or its WINDOW (R375). -/
def winBytes (s : State) (a : Word) (n : Nat) : Except (Cause × Word) Nat :=
  if rangeOf a ≠ .window 0 then .error (.window, a)
  else
    let size := scratchSize (partNow s)
    if windowOff a + n ≤ size then .ok (windowOff a)
    else .error (.window, BitVec.ofNat 64 (Nat.max a.toNat (windowBase + size)))

/-- The lowest of some addresses that is not a multiple of its alignment (R385). -/
def misaligned (as : List (Word × Nat)) : Option Word :=
  bestBy (fun a b => a.toNat < b.toNat) ((as.filter (fun a => a.1.toNat % a.2 != 0)).map (·.1))

/-- Reads values of `width` bytes from the current scratchpad. -/
def scratchVals (s : State) (off count width : Nat) : List Nat :=
  (List.range count).map (fun i => readNat s (scratchBase (home s) (partNow s) + off + width * i) width)

/-- Writes bytes to the current scratchpad. -/
def scratchWrite (s : State) (off : Nat) (bs : List Byte) : State :=
  storeAt s (ctxId s) (scratchBase (home s) (partNow s) + off) bs

/-- The clause of the current home core. -/
def clauseNow (s : State) : Nat := clauseOfCore (home s)

/-- Scratchpad bytes that an engine instruction names: its body at their offset; or WINDOW (R375), or what `poolReady` finds against
them. -/
def withWin (s : State) (a : Word) (n : Nat) (f : Nat → Res) : Res :=
  match winBytes s a n with
  | .error (c, t) => .trap s c t
  | .ok o =>
    if n = 0 then f o
    else (poolReady s n [(a, .pool (scratchBase (home s) (partNow s) + o))]).res (fun _ _ => f o)

/-- A check that ends an instruction, or its body. -/
def orTrap (s : State) (e : Except (Cause × Word) α) (f : α → Res) : Res :=
  match e with
  | .ok x => f x
  | .error (c, t) => .trap s c t

/-- A kick is a release at system scope: the body waits for the earlier accesses (R154). -/
def kick (s : State) (r : Res) : Res := if released s then r else .stall s (waitOr s 0 0)

/-! ### Slots (R234, R235) -/

/-- The slot of a context in a clause. -/
def slotOf (s : State) (cl ctx id : Nat) : Option LexSlot := (clauseOf s cl).lexicon.find? (fun l => l.ctx == ctx && l.id == id)

/-- Changes a slot. -/
def modSlot (s : State) (cl ctx id : Nat) (f : LexSlot → LexSlot) : State :=
  modClause s cl (fun c => { c with lexicon := replaceFirst (fun l => l.ctx == ctx && l.id == id) f c.lexicon })

/-- Units of 64 KiB of a slot (R235). -/
def slotUnits (n sz : Nat) : Nat := (2 * n * sz + 6 * n + 4 * n * n + 65535) / 65536

/-- The first run of free units of a lexicon store that holds a slot. DESIGN CHOICE, log 81: unsafe. -/
def freeBase (ls : List LexSlot) (units : Nat) : Nat :=
  ((List.range 2048).find? (fun b => !ls.any (fun l => l.base < b + units && b < l.base + l.units))).getD 0

/-- Bytes of a slot's store that a step reads: offset and size from the slot's first byte (R235). -/
abbrev SlotSpan := Nat × Nat

/-- Atom k and its generation, of the arrays that follow one another in R235's order. -/
def LexSlot.atomSpans (l : LexSlot) (k : Nat) : List SlotSpan :=
  [(2 * l.s * k, 2 * l.s), (2 * l.n * l.s + 4 * l.n + 2 * k, 2)]

/-- The whole of a slot: atoms, norms, generations, Gram matrix. -/
def LexSlot.wholeSpan (l : LexSlot) : List SlotSpan := [(0, 2 * l.n * l.s + 6 * l.n + 4 * l.n * l.n)]

/-- Reads a slot: its body, or an uncorrectable error in a line it reads (R50), with CR.TVAL as for any line of no address. -/
def slotReady (s : State) (cl : Nat) (l : LexSlot) (spans : List SlotSpan) (f : Res) : Res :=
  if poisonAbout s then
    match spans.findSome? (fun x => poisonFault s (who s) 0 (lexLoc cl (65536 * l.base + x.1)) x.2) with
    | some (c, t) => .trap s c t
    | none => f
  else f

/-- Atom k as exact values. -/
def LexSlot.atom (l : LexSlot) (k : Nat) : List Xv := (List.range l.s).map (fun i => bf16.decode (tgetD l.atoms (k * l.s + i) 0).toNat)

/-- Sets a table entry, keeping zero entries unlisted. -/
def tput [BEq α] (zero : α) (t : Tab α) (k : Nat) (x : α) : Tab α := if x == zero then tdel t k else tset t k x

/-- The exact sum of products of two lists, in binary32 (R202). -/
def dot32 (xs ys : List Xv) : Nat := (f32.sum (List.zipWith Xv.mul xs ys)).1

/-- LXCFG (R386). -/
def execLxcfg (a b c : SReg) (s : State) : Host.Outcome State Fault Refusal :=
  issue (engineGate (.lxcfg a b c) [0]) (fun s =>
    let cl := clauseNow s
    let ctx := ctxId s
    let id := bits (rS s b) 15 0
    let n := bits (rS s c) 9 0 + 1
    let lg := bits (rS s c) 19 16
    let sz := 2 ^ lg
    let ls := (clauseOf s cl).lexicon
    let others := ls.filter (fun l => !(l.ctx == ctx && l.id == id))
    if lg < 2 ∨ 8 < lg then .ok (wS s a 3)
    else if (slotOf s cl ctx id).isNone ∧ 8 ≤ ls.length then .ok (wS s a 2)
    else if 192 < (others.map (fun l => slotUnits l.n l.s)).sum + slotUnits n sz then .ok (wS s a 1)
    else
      let s := modClause s cl (fun k => { k with
        lexicon := others ++ [⟨ctx, id, freeBase others (slotUnits n sz), bits (rS s b) 31 16, n, sz, [], [], [], []⟩]
        lexTags := lexTagged k.lexTags ⟨1024 * freeBase others (slotUnits n sz),
          1024 * freeBase others (slotUnits n sz) + (2 * n * sz + 6 * n + 4 * n * n + 63) / 64, ctx⟩
        glosses := (k.glosses.map (fun g =>
          (g.1, if g.2.ctx = ctx ∧ g.2.id = id then { g.2 with valid := [], n := n } else g.2))).filter (fun g =>
            !(g.2.ctx == ctx && g.2.id == id && 32768 < g.2.b + 4 * n)) })
      .ok (wS s a 0)) s

/-- LXPUT's and LXGET's result word (R387). -/
def lxStatus (gen version st : Nat) : Word := BitVec.ofNat 64 (st * 2 ^ 32 + version % 65536 * 65536 + gen % 65536)

/-- A slot with atom k replaced (R237, R387). -/
def LexSlot.replace (l : LexSlot) (k : Nat) (codes : List Nat) : LexSlot :=
  let bf := codes.map (fun c => (bf16.round (f32.decode c)).1)
  let atoms := bf.zipIdx.foldl (fun t x => tput 0 t (k * l.s + x.2) (BitVec.ofNat 16 x.1)) l.atoms
  let l := { l with atoms := atoms }
  let d := l.atom k
  let sq := (xsum (List.zipWith Xv.mul d d)).1
  let nu := match sq with
    | .fin _ 0 _ _ => 0
    | x => (f32.div Xv.one x).1
  let gram := (List.range l.n).foldl (fun g j =>
    let v : Lane := BitVec.ofNat 32 (dot32 d (l.atom j))
    tput 0 (tput 0 g (k * l.n + j) v) (j * l.n + k) v) l.gram
  { l with
    norms := tput 0 l.norms k (BitVec.ofNat 32 nu)
    gram := gram
    gens := tput 0 l.gens k ((tgetD l.gens k 0 + 1) % 65536)
    version := (l.version + 1) % 65536 }

/-- LXPUT (R237, R387). -/
def execLxput (a b c : SReg) (s : State) : Host.Outcome State Fault Refusal :=
  issue (engineGate (.lxput a b c) [0]) (fun s =>
    let cl := clauseNow s
    let ctx := ctxId s
    let x := rS s b
    let id := bits (rS s c) 15 0
    let k := bits (rS s c) 25 16
    if x.toNat % 4 ≠ 0 then .trap s .misalign x
    else
      orTrap s (winBytes s x 0) (fun _ =>
        match slotOf s cl ctx id with
        | none => kick s (.ok (wS s a (lxStatus 0 0 1)))
        | some l =>
          if l.n ≤ k then kick s (.ok (wS s a (lxStatus 0 l.version 2)))
          else
            withWin s x (4 * l.s) (fun o => slotReady s cl l [(0, 2 * l.n * l.s)] <| kick s (
              let l' := l.replace k (scratchVals s o l.s 4)
              let s := modSlot s cl ctx id (fun _ => l')
              let s := modClause s cl (fun q => { q with glosses := q.glosses.map (fun g =>
                (g.1, if g.2.ctx = ctx ∧ g.2.id = id then { g.2 with valid := g.2.valid.filter (· != k) } else g.2)) })
              .ok (wS s a (lxStatus (tgetD l'.gens k 0) l'.version 0)))))) s

/-- LXGET (R387). -/
def execLxget (a b c : SReg) (s : State) : Host.Outcome State Fault Refusal :=
  issue (engineGate (.lxget a b c) [0]) (fun s =>
    let x := rS s b
    let k := bits (rS s c) 25 16
    if x.toNat % 4 ≠ 0 then .trap s .misalign x
    else
      orTrap s (winBytes s x 0) (fun _ =>
        match slotOf s (clauseNow s) (ctxId s) (bits (rS s c) 15 0) with
        | none => .ok (wS s a (lxStatus 0 0 1))
        | some l =>
          if l.n ≤ k then .ok (wS s a (lxStatus 0 l.version 2))
          else
            withWin s x (4 * l.s) (fun o => slotReady s (clauseNow s) l (l.atomSpans k) <|
              let t := scratchWrite s o ((l.atom k).flatMap (fun v => leBytes 4 (f32.round v).1))
              .ok (wS t a (lxStatus (tgetD l.gens k 0) l.version 0))))) s

/-- LXVER (R388). -/
def execLxver (a b : SReg) (s : State) : Host.Outcome State Fault Refusal :=
  issue (engineGate (.lxver a b) [0]) (fun s =>
    .ok (wS s a (match slotOf s (clauseNow s) (ctxId s) (bits (rS s b) 15 0) with
      | none => 0
      | some l => BitVec.ofNat 64 (2 ^ 63 + Nat.log2 l.s * 2 ^ 26 + (l.n - 1) * 2 ^ 16 + l.version)))) s

/-! ### The lexer (R238, R239, R389) -/

/-- A threshold: NaN or below 0 acts as 0, above 1 as 1 (R238). -/
def threshold (w : Word) : Xv :=
  match f32.decode (bits w 31 0) with
  | .nan => Xv.zero
  | .bad => Xv.zero
  | x => if xcmp x Xv.zero = .lt then Xv.zero else if xcmp Xv.one x = .lt then Xv.one else x

/-- a ≤ b, false for a NaN. -/
def xle (a b : Xv) : Bool :=
  match a, b with
  | .nan, _ => false
  | _, .nan => false
  | .bad, _ => false
  | _, .bad => false
  | _, _ => xcmp a b != .gt

/-- A coefficient format of CR.LXFMT (R238). -/
def coefFmt (n : Nat) : Fmt :=
  match n with
  | 1 => bf16 | 2 => f16 | _ => f32

/-- The lexer's registers of an encoding (R238). -/
structure LexRegs where
  stop : Xv
  esc : Xv
  kmax : Nat
  fmt : Nat
  deriving DecidableEq, Repr

/-- The lexer's registers of the current activation. -/
def lexRegs (s : State) : LexRegs :=
  let r := regs s
  ⟨threshold r.lxstop, threshold r.lxesc, bits r.lxkmax 5 0, bits r.lxfmt 1 0⟩

/-- The lowest index of greatest magnitude among binary32 codes that are not NaN (R239). -/
def greatest (cs : List Nat) : Nat × Nat :=
  (cs.zipIdx.foldl (fun (best : Option (Nat × Nat)) x =>
    match best with
    | none => some x
    | some b => if b.1 % 2 ^ 31 < x.1 % 2 ^ 31 then some x else some b) none).getD (0, 0)

/-- A binary32 code is NaN. -/
def isNan32 (c : Nat) : Bool := f32.decode c == .nan

/-- The greedy pursuit's loop (R389): whether the stop test ended it, the last squared norm, and the code. -/
def pursue (l : LexSlot) (g : LexRegs) (xx : Xv) : Nat → List Xv → List Nat → Xv → List (Nat × Nat) → Bool × Xv × List (Nat × Nat)
  | 0, _, _, rr, code => (xle rr (f32.decode (f32.round (g.stop.mul xx)).1), rr, code)
  | fuel + 1, r, c, rr, code =>
    if xle rr (f32.decode (f32.round (g.stop.mul xx)).1) then (true, rr, code)
    else if c.any isNan32 then (false, rr, code)
    else
      let (cv, k) := greatest c
      if cv % 2 ^ 31 = 0 then (false, rr, code)
      else
        let f := coefFmt g.fmt
        let ac := (f.round ((f32.decode cv).mul (f32.decode (tgetD l.norms k 0).toNat))).1
        let al := f.decode ac
        if (match al with
          | .inf _ => true
          | .fin _ 0 _ _ => true
          | _ => false) then (false, rr, code)
        else
          let step : Xv → Xv → Nat := fun x d => (f32.sum [x, (al.mul d).neg]).1
          let r' := (List.zipWith step r (l.atom k)).map f32.decode
          let c' := c.zipIdx.map (fun x => step (f32.decode x.1) (f32.decode (tgetD l.gram (x.2 * l.n + k) 0).toNat))
          pursue l g xx fuel r' c' (f32.decode (dot32 r' r')) (code ++ [(k, ac)])

/-- An encoding of S binary32 codes over a slot (R389): kind and pairs. -/
def encodeLex (l : LexSlot) (g : LexRegs) (codes : List Nat) : Nat × List (Nat × Nat) :=
  let x := codes.map f32.decode
  if x.any (fun v => match v with
    | .fin _ _ _ _ => false
    | _ => true) then (1, [])
  else
    let xx := f32.decode (dot32 x x)
    match xx with
    | .fin _ 0 _ _ => (2, [])
    | .fin _ _ _ _ =>
      let c := (List.range l.n).map (fun k => dot32 x (l.atom k))
      let (stopped, rr, code) := pursue l g xx g.kmax x c xx []
      if stopped || xle rr (f32.decode (f32.round (g.esc.mul xx)).1) then (0, code) else (1, [])
    | _ => (1, [])

/-- The words of an encoding from word 1 on (R240). -/
def codeWords (l : LexSlot) (fmt : Nat) (codes : List Nat) (r : Nat × List (Nat × Nat)) : List Word :=
  let w1 := Nat.log2 l.s * 2 ^ 42 + fmt * 2 ^ 40 + r.1 * 2 ^ 38 + r.2.length * 2 ^ 32 + l.version * 2 ^ 16 + l.id
  BitVec.ofNat 64 w1 ::
    (match r.1 with
    | 0 => r.2.map (fun p => BitVec.ofNat 64 (p.2 * 2 ^ 32 + p.1))
    | 1 => (List.range (l.s / 2)).map (fun i => BitVec.ofNat 64 (codes.getD (2 * i + 1) 0 * 2 ^ 32 + codes.getD (2 * i) 0))
    | _ => [])

/-- sA of LXENC and LXSEND (R389). DEDUCED, log 39: unsafe. -/
def lexResult (result count size : Nat) : Word := BitVec.ofNat 64 (size * 65536 + count * 256 + result)

/-- LXENC (R389). -/
def execLxenc (a b c : SReg) (s : State) : Host.Outcome State Fault Refusal :=
  issue (engineGate (.lxenc a b c) [0]) (fun s =>
    let x := rS s b
    let y := rS s c
    match misaligned [(x, 4), (y, 8)] with
    | some t => .trap s .misalign t
    | none =>
      orTrap s (winBytes s x 0) (fun _ => orTrap s (winBytes s y 0) (fun _ =>
        match slotOf s (clauseNow s) (ctxId s) (bits (rE s 1) 15 0) with
        | none => kick s (.ok (wS s a (lexResult 5 0 0)))
        | some l =>
          withWin s x (4 * l.s) (fun o => slotReady s (clauseNow s) l l.wholeSpan <|
            let codes := scratchVals s o l.s 4
            let g := lexRegs s
            let r := encodeLex l g codes
            let ws := codeWords l g.fmt codes r
            let n := 8 * ws.length
            if (rE s 0).toNat < n then kick s (.ok (wS s a (lexResult 3 0 0)))
            else
              withWin s y n (fun p => kick s
                (.ok (wS (scratchWrite s p (ws.flatMap (fun w => leBytes 8 w.toNat))) a (lexResult r.1 r.2.length n)))))))) s

/-- LXSEND (R390). -/
def execLxsend (sc : Scope) (a b c : SReg) (s : State) : Host.Outcome State Fault Refusal :=
  issue (engineGate (.lxsend sc a b c) [0]) (fun s =>
    let x := rS s b
    let d := bits (rS s c) 20 0
    if x.toNat % 4 ≠ 0 then .trap s .misalign x
    else
      let slot := slotOf s (clauseNow s) (ctxId s) (bits (rE s 1) 15 0)
      withWin s x (match slot with
        | some l => 4 * l.s
        | none => 0) (fun o =>
        match cmapEntry s (entry s) d with
        | none => .trap s .notmapped (BitVec.ofNat 64 d)
        | some dst =>
          match slot with
          | none => kick s (.ok (wS s a (lexResult 5 0 0)))
          | some l => slotReady s (clauseNow s) l l.wholeSpan <|
            let codes := scratchVals s o l.s 4
            let g := lexRegs s
            let r := encodeLex l g codes
            let ws := rE s 0 :: codeWords l g.fmt codes r
            if 64 < ws.length then kick s (.ok (wS s a (lexResult 4 0 0)))
            else if !sendReady s dst ws.length then .stall s (waitOr s 0 0)
            else .ok (wS (sendWords s dst sc.code (bits (rS s c) 22 21) true ws) a (lexResult r.1 r.2.length ws.length)))) s

/-! ### Decoding (R240, R391) -/

/-- Fields of word 1 of a code (R240). -/
def codeId (w : Word) : Nat := bits w 15 0
/-- version. -/
def codeVersion (w : Word) : Nat := bits w 31 16
/-- count. -/
def codeCount (w : Word) : Nat := bits w 37 32
/-- kind. -/
def codeKind (w : Word) : Nat := bits w 39 38
/-- fmt. -/
def codeFmt (w : Word) : Nat := bits w 41 40
/-- log2 S. -/
def codeLgs (w : Word) : Nat := bits w 45 42

/-- A malformed word 1 (R382, R391). -/
def codeBad (w : Word) : Bool := codeKind w == 3 || codeFmt w == 3 || bits w 63 46 != 0

/-- Words of a code after word 1 (R240). -/
def codeEntries (w : Word) : Nat :=
  match codeKind w with
  | 0 => codeCount w
  | 1 => 2 ^ codeLgs w / 2
  | _ => 0

/-- The index and exact coefficient of a pair. -/
def codePair (fmt : Nat) (w : Word) : Nat × Xv :=
  (bits w 9 0, if fmt = 0 then f32.decode (bits w 63 32) else (coefFmt fmt).decode (bits w 47 32))

/-- LXDEC (R391). -/
def execLxdec (a b c : SReg) (s : State) : Host.Outcome State Fault Refusal :=
  issue (engineGate (.lxdec a b c) [0]) (fun s =>
    let x := rS s b
    let y := rS s c
    match misaligned [(x, 8), (y, 4)] with
    | some t => .trap s .misalign t
    | none =>
      withWin s x 8 (fun o => orTrap s (winBytes s y 0) (fun _ =>
        let w1 := readWord s (scratchBase (home s) (partNow s) + o)
        match slotOf s (clauseNow s) (ctxId s) (codeId w1) with
        | none => .ok (wS s a 1)
        | some l =>
          if l.version ≠ codeVersion w1 ∨ l.s ≠ 2 ^ codeLgs w1 then .ok (wS s a 1)
          else if codeBad w1 then .ok (wS s a 2)
          else
            withWin s x (8 + 8 * codeEntries w1) (fun o =>
              let ws := (scratchVals s (o + 8) (codeEntries w1) 8).map (BitVec.ofNat 64)
              let ps := ws.map (codePair (codeFmt w1))
              if codeKind w1 = 0 ∧ ps.any (fun p => l.n ≤ p.1) then .ok (wS s a 3)
              else
                withWin s y (4 * l.s) (fun q => slotReady s (clauseNow s) l (if codeKind w1 = 0 then ps.flatMap (fun p => l.atomSpans p.1) else []) <|
                  let out : List Nat := match codeKind w1 with
                    | 0 =>
                      let ds := ps.map (fun p => (p.2, l.atom p.1))
                      (List.range l.s).map (fun i => (f32.sum (ds.map (fun d => d.1.mul (d.2.getD i Xv.zero)))).1)
                    | 1 => ws.flatMap (fun w => [bits w 31 0, bits w 63 32])
                    | _ => List.replicate l.s 0
                  .ok (wS (scratchWrite s q (out.flatMap (fun v => leBytes 4 v))) a 0)))))) s

/-! ### The miss queue (R241-R243, R392, R393) -/

/-- The lexicon id that a code message names. -/
def msgCodeId (m : Msg) : Nat := codeId (m.words.getD 1 0)

/-- A code message passes its check at a core's clause (R241). -/
def codePasses (s : State) (core : Nat) (m : Msg) : Bool :=
  match slotOf s (clauseOfCore core) m.ctx (msgCodeId m) with
  | some l => 2 ≤ m.words.length && l.version == codeVersion (m.words.getD 1 0)
  | none => false

/-- An entry has a key: context, lexicon id, destination core (R241). -/
def missKey (core ctx id : Nat) (e : MissEntry) : Bool := e.core == core && e.msg.ctx == ctx && msgCodeId e.msg == id

/-- The oldest entry of a key. -/
def missOldest (s : State) (cl core ctx id : Nat) : Option (Nat × MissEntry) :=
  bestBy (fun a b => a.2.order < b.2.order) ((clauseOf s cl).missQueue.filter (fun e => missKey core ctx id e.2))

/-- Frees an entry. -/
def missFree (s : State) (cl n : Nat) : State := modClause s cl (fun c => { c with missQueue := tdel c.missQueue n })

/-- Parks a code message at the lowest free entry (R241, R242). DESIGN CHOICE, log 19: unsafe. -/
def missPark (s : State) (cl core : Nat) (m : Msg) (header : Word) : State :=
  let n := ((List.range 32).find? (fun i => (tget (clauseOf s cl).missQueue i).isNone)).getD 31
  modClause (newId s) cl (fun c => { c with missQueue := tset c.missQueue n ⟨core, m, s.ids, false, header⟩ })

/-- Entries of a clause's miss queue (R242). -/
def missRoom (s : State) (cl : Nat) : Nat := 32 - (clauseOf s cl).missQueue.length

/-- The check of the oldest entry of its key has failed: from that moment a version-miss activation waits for its turn under R74, as a
message of priority 3 (R242, R420). -/
def missFailed (s : State) (cl n : Nat) (e : MissEntry) : State :=
  let s := modClause s cl (fun c => { c with missQueue := tset c.missQueue n { e with started := true } })
  let m := { engineMsg s e.msg.ctx (e.msg.words.take 2) 2 3 (.versionMiss n) with src := e.msg.src, nosrc := e.msg.nosrc }
  arrivalWakes (enqueueMsg s e.core m) e.core e.msg.ctx 3

/-- A parked message of a context whose state is not 1 is discarded with a notice (R43). DEDUCED, log 58: unsafe. -/
def missDiscard (s : State) (cl n : Nat) (e : MissEntry) : State :=
  discardMsg (missFree s cl n) e.header e.msg (nodeOf s e.core).addr

/-- A message that goes on to its core (R241, R243). -/
def missPass (s : State) (core : Nat) (m : Msg) : State :=
  arrivalWakes (enqueueMsg s core { m with since := s.cyc }) core m.ctx m.mprio

/-- Checks the oldest entry of a key and each following one in turn; the first that fails is to start a version-miss
activation (R242, R243). -/
def missRecheck (cl core ctx id : Nat) : Nat → State → State
  | 0, s => s
  | fuel + 1, s =>
    match missOldest s cl core ctx id with
    | none => s
    | some (n, e) =>
      if ctxState s ctx ≠ 1 then missRecheck cl core ctx id fuel (missDiscard s cl n e)
      else if codePasses s core e.msg then missRecheck cl core ctx id fuel (missPass (missFree s cl n) core e.msg)
      else missFailed s cl n e

/-- A code message that misses, or that an entry of its key stands before, parks; its own check starts a version-miss activation if no
other entry of the key is there (R241, R242). -/
def missArrive (s : State) (cl core : Nat) (m : Msg) (header : Word) : State :=
  match missOldest s cl core m.ctx (msgCodeId m) with
  | some _ => missPark s cl core m header
  | none => missRecheck cl core m.ctx (msgCodeId m) 1 (missPark s cl core m header)

/-- The entry of the issuing context that a register names (R392). -/
def missNamed (s : State) (x : Word) : Option (Nat × MissEntry) :=
  let n := bits x 4 0
  match tget (clauseOf s (clauseNow s)).missQueue n with
  | some e => if e.msg.ctx = ctxId s then some (n, e) else none
  | none => none

/-- LXMISS (R392). -/
def execLxmiss (take : Bool) (a b : SReg) (s : State) : Host.Outcome State Fault Refusal :=
  issue (engineGate (.lxmiss take a b) [0]) (fun s =>
    let y := rE s 0
    match missNamed s (rS s b) with
    | none => .ok (wS s a 0)
    | some (n, e) =>
      if !take then .ok (wS s a (e.msg.words.getD 1 0))
      else if y.toNat % 8 ≠ 0 then .trap s .misalign y
      else
        withWin s y (8 * e.msg.words.length) (fun o =>
          let t := scratchWrite s o (e.msg.words.flatMap (fun w => leBytes 8 w.toNat))
          let t := acceptMsg (missFree t (clauseNow s) n) e.core e.msg 0
          let t := missRecheck (clauseNow s) e.core e.msg.ctx (msgCodeId e.msg) 32 t
          .ok (wS t a (BitVec.ofNat 64 e.msg.words.length)))) s

/-- LXRETRY (R393). -/
def execLxretry (b : SReg) (s : State) : Host.Outcome State Fault Refusal :=
  issue (engineGate (.lxretry b) [0]) (fun s =>
    match missNamed s (rS s b) with
    | none => .ok s
    | some (_, e) => .ok (missRecheck (clauseNow s) e.core e.msg.ctx (msgCodeId e.msg) 32 s)) s

/-! ### Glosses (R244, R245, R394, R395) -/

/-- A gloss table bound to a context. -/
def glossOf (s : State) (cl gt : Nat) : Option Gloss := tget (clauseOf s cl).glosses gt

/-- The location of a gloss entry (R244). -/
def glossLoc (cl : Nat) (g : Gloss) (k j : Nat) : Nat := bstoreLoc cl (32768 * j + g.b + 4 * k)

/-- The bfloat16 values that GLSET names: of window 0, or of accumulator entries (R394). -/
def glossSource (s : State) (a : Word) (m : Nat) : Got (List Nat) :=
  match rangeOf a with
  | .window w =>
    if w = 6 then
      if a.toNat % 4 ≠ 0 then .trap s .misalign a
      else
        let e := windowOff a / 4
        match (List.range m).find? (fun i => drainEntries (partNow s) ≤ e + 128 * i) with
        | some i => .trap s .window (BitVec.ofNat 64 (a.toNat + 512 * i))
        | none =>
          (poolReady s 4 ((List.range m).map (fun i => (a + BitVec.ofNat 64 (512 * i), .fmt 6 (e + 128 * i))))).bind (fun s _ =>
            .val s ((List.range m).map (fun i => (bf16.round (a48.decode (accEntry s (e + 128 * i)))).1)))
    else if w = 0 then
      if a.toNat % 2 ≠ 0 then .trap s .misalign a
      else
        match winBytes s a (2 * m) with
        | .ok o =>
          (poolReady s (2 * m) [(a, .pool (scratchBase (home s) (partNow s) + o))]).bind (fun s _ => .val s (scratchVals s o m 2))
        | .error (c, t) => .trap s c t
    else .trap s .window a
  | _ => .trap s .window a

/-- GLSET's status, 0 when its checks pass (R394). -/
def glossStatus (s : State) (e0 : Word) (k gt : Nat) : Nat :=
  let cl := clauseNow s
  let b := bits e0 30 16
  let j0 := bits e0 38 32
  let m := bits e0 46 40 + 1
  match slotOf s cl (ctxId s) (bits e0 15 0) with
  | none => 1
  | some l =>
    if (match glossOf s cl gt with
      | some g => g.ctx != ctxId s
      | none => false) then 4
    else if bit e0 31 || bit e0 39 || bits e0 63 47 != 0 || b % 128 != 0 || 32768 < b + 4 * l.n || 128 < j0 + m then 3
    else if l.n ≤ k then 2
    else 0

/-- GLSET (R394): the writes, the stamps and the valid bit as one event. -/
def execGlset (a b c : SReg) (s : State) : Host.Outcome State Fault Refusal :=
  issue (engineGate (.glset a b c) [0]) (fun s =>
    let cl := clauseNow s
    let ctx := ctxId s
    let e0 := rE s 0
    let k := bits (rS s c) 9 0
    let gt := bits (rS s c) 18 16
    let m := bits e0 46 40 + 1
    (glossSource s (rS s b) m).res (fun s vs => kick s (
      let st := glossStatus s e0 k gt
      match slotOf s cl ctx (bits e0 15 0) with
      | none => .ok (wS s a (BitVec.ofNat 64 st))
      | some l =>
        if st ≠ 0 then .ok (wS s a (BitVec.ofNat 64 st))
        else slotReady s cl l [(2 * l.n * l.s + 4 * l.n + 2 * k, 2)] <|
          let fresh : Gloss := ⟨ctx, l.id, bits e0 30 16, bits e0 38 32, m, l.n, []⟩
          let g : Gloss := match glossOf s cl gt with
            | some g => if g.id = fresh.id ∧ g.b = fresh.b ∧ g.j0 = fresh.j0 ∧ g.m = m then g else fresh
            | none => fresh
          let gen := tgetD l.gens k 0
          let s := vs.zipIdx.foldl (fun s v => storeAt s ctx (glossLoc cl g k (g.j0 + v.2)) (leBytes 4 (gen * 65536 + v.1))) s
          let s := modClause s cl (fun q => { q with
            glosses := tset q.glosses gt { g with valid := g.valid.filter (· != k) ++ [k] } })
          .ok (wS s a 0)))) s

/-- GLINV (R395). -/
def execGlinv (b c : SReg) (s : State) : Host.Outcome State Fault Refusal :=
  issue (engineGate (.glinv b c) [0]) (fun s =>
    let gt := bits (rS s b) 2 0
    let x := rS s c
    match glossOf s (clauseNow s) gt with
    | some g =>
      if g.ctx ≠ ctxId s then .ok s
      else
        .ok (modClause s (clauseNow s) (fun q => { q with
          glosses := tset q.glosses gt { g with valid := if bit x 63 then [] else g.valid.filter (· != bits x 9 0) } }))
    | none => .ok s) s

/-- GLSTAT (R395). -/
def execGlstat (a b : SReg) (s : State) : Host.Outcome State Fault Refusal :=
  issue (engineGate (.glstat a b) [0]) (fun s =>
    .ok (wS s a (match glossOf s (clauseNow s) (bits (rS s b) 2 0) with
      | some g => if g.ctx = ctxId s then BitVec.ofNat 64 (2 ^ 63 + g.id * 2 ^ 32 + g.valid.length) else 0
      | none => 0))) s

end Sys2Proof.Machine
end

