-- ==== Sys2Proof/Machine/Parser.lean ====
section
/-!
DEFINITION. Machine/Parser.lean: declared tensors and the parser (R246-R255, R281, R396-R404).
-/

namespace Sys2Proof.Machine

/-! ### Descriptors (R246, R398) -/

/-- A declared descriptor of a context on a core. -/
def descOf (s : State) (core ctx t : Nat) : Option Desc := tget (ctxOf s core ctx).descs t

/-- Changes a descriptor. -/
def modDesc (s : State) (core ctx t : Nat) (f : Desc → Desc) : State :=
  modCtx s core ctx (fun x => { x with descs := match tget x.descs t with
    | some d => tset x.descs t (f d)
    | none => x.descs })

/-- The element format (R246). -/
def Desc.fmt (d : Desc) : Fmt := if bit d.e0 36 then f32 else f64
/-- Its size in bytes. -/
def Desc.size (d : Desc) : Nat := if bit d.e0 36 then 4 else 8
/-- plen: program length − 1. -/
def Desc.plen (d : Desc) : Nat := bits d.e1 45 40

/-- A byte range of the scratchpad as a location, if it lies inside and can be read (R403, R404, R50). -/
def padLoc (s : State) (core ctx off n : Nat) : Option Nat :=
  let p := partOf s core ctx
  let loc := scratchBase core p + off
  if off + n ≤ scratchSize p ∧ (poisonedIn s loc n).isNone then some loc else none

/-- A value of the scratchpad, if it lies inside. -/
def padVal (s : State) (core ctx off n : Nat) : Option Nat := (padLoc s core ctx off n).map (fun l => readNat s l n)

/-- The skip bit of an element; beyond N it reads as set (R252). -/
def skipBit (s : State) (core ctx : Nat) (d : Desc) (i : Nat) : Bool :=
  if d.count ≤ i then true
  else bit (readByte s (scratchBase core (partOf s core ctx) + bits d.e1 19 0 + i / 8)) (i % 8)

/-- Sets or clears a skip bit. -/
def setSkip (s : State) (core ctx : Nat) (d : Desc) (i : Nat) (on : Bool) : State :=
  let at_ := scratchBase core (partOf s core ctx) + bits d.e1 19 0 + i / 8
  let b := (readByte s at_).toNat
  let m := 2 ^ (i % 8)
  if bit (BitVec.ofNat 8 b) (i % 8) = on then s
  else storeAt s ctx at_ [BitVec.ofNat 8 (if on then b + m else b - m)]

/-- Writes a context word. -/
def putElem (s : State) (core ctx : Nat) (d : Desc) (i : Nat) (w : Word) : State :=
  storeAt s ctx (recordLoc s core ctx d i + 8) (leBytes 8 w.toNat)

/-- Writes a value: 4 bytes in the fp32 form (R247). -/
def putValue (s : State) (core ctx : Nat) (d : Desc) (i v : Nat) : State :=
  storeAt s ctx (recordLoc s core ctx d i) (leBytes d.size v)

/-! ### Changes (R250-R252) -/

/-- The context word after DEC 0, SET 1 or WAKE 2, and whether a DEC found count 0 (R251). -/
def changeWord (op : Nat) (w : Word) : Word × Bool :=
  match op with
  | 0 => if bits w 31 16 = 0 then (w, true) else (w - 0x10000#64, false)
  | 1 => (w ||| 0x1000#64, false)
  | _ => (if bits w 11 8 = 4 then w &&& ~~~0xF00#64 else w, false)

/-- Applies a change to an element: its word changes and its skip bit is cleared (R251, R252). -/
def applyChange (s : State) (core ctx t : Nat) (d : Desc) (i op : Nat) : State :=
  let (w, under) := changeWord op (elemWord s core ctx d i)
  let s := if w = elemWord s core ctx d i then s else putElem s core ctx d i w
  let s := setSkip s core ctx d i false
  if under then modDesc s core ctx t (fun d => { d with under := true }) else s

/-- The drop count of a descriptor number in the context's allotment as it stands: 0 in one made since it last counted (R251). -/
def dropCount (s : State) (core ctx t : Nat) : Nat :=
  let x := ctxOf s core ctx
  if x.dropsAt = some (partOf s core ctx) then tgetD x.drops t 0 else 0

/-- A change that is dropped is counted, up to 65,535, in the context's allotment on the core; with none, nothing counts it (R251).
DEDUCED, log 43: unsafe. -/
def dropChange (s : State) (core ctx t : Nat) : State :=
  let part := partOf s core ctx
  if partOk part && (holdsSlot (coreOf s core) ctx || (coreOf s core).saveb != 0) then
    let n := Nat.min 65535 (dropCount s core ctx t + 1)
    modCtx s core ctx (fun x => { x with drops := tset (if x.dropsAt = some part then x.drops else []) t n, dropsAt := some part })
  else s

/-- A change from outside a descriptor's own sweep: applied or dropped; it wakes a sleeping sweep, and one that falls on a beat
the running sweep has read is for the next sweep (R250, R251, R253). DEDUCED, log 43: unsafe. -/
def outsideChange (s : State) (core ctx t i op : Nat) : State :=
  match descOf s core ctx t with
  | none => dropChange s core ctx t
  | some d =>
    if d.count ≤ i then dropChange s core ctx t
    else
      let s := applyChange s core ctx t d i op
      if d.asleep then needSweep s core ctx t
      else modDesc s core ctx t (fun d => if d.active && !d.ending && i / 16 < d.beat then { d with missed := true } else d)

/-- A value write of EL.SEND (R404): it is no remote change, so none that names no element is counted (R251). -/
def outsideValue (s : State) (core ctx t i : Nat) (v : Word) : State :=
  match descOf s core ctx t with
  | none => s
  | some d => if d.count ≤ i then s else putValue s core ctx d i v.toNat

/-! ### The end of a sweep (R253, R254) -/

/-- A packet carries a note of a parser or an ECWAKE (R251, R404). -/
def isNote (pl : Payload) : Bool :=
  match pl with
  | .change _ _ _ => true
  | .value _ _ _ => true
  | _ => false

/-- Notes that a core's parser has sent for a context and that have not been applied. -/
def notesOut (s : State) (core ctx : Nat) : Bool :=
  s.net.any (fun p => isNote p.2.payload && p.2.src == nodeOf s core && p.2.ctx == ctx)

/-- The end of a sweep is performed: its event bit is set (R253). -/
def sweepFinish (s : State) (core ctx t : Nat) (d : Desc) : State :=
  let s := modDesc s core ctx t (fun d => { d with active := false, ending := false })
  if bit d.e0 46 then completionEvent s ctx (bits d.e0 45 38) else s

/-- A sweep ends with a code. Its end is a store-release: it waits for the notes that the core has sent (R253, R154). -/
def sweepEnd (s : State) (core ctx t : Nat) (d : Desc) (code : Nat) : State :=
  let s := modDesc s core ctx t (fun d => { d with active := true, asleep := false, stopping := false, endCode := code, ending := true })
  let s := modCore s core (fun k => { k with rotation := k.rotation.filter (fun r => r != (ctx, t)) })
  if notesOut s core ctx then s else sweepFinish s core ctx t d

/-- Performs the ends of a core's sweeps whose notes have been applied. -/
def sweepEnds (s : State) (core : Nat) : State :=
  let due := (coreOf s core).ctxs.flatMap (fun x =>
    if x.2.descs.any (fun d => d.2.ending) && !notesOut s core x.1 then
      (x.2.descs.filter (fun d => d.2.ending)).map (fun d => (x.1, d))
    else [])
  due.foldl (fun s x => sweepFinish s core x.1 x.2.1 x.2.2) s

/-- What follows the last beat of a sweep (R253, R255). -/
def sweepTurn (s : State) (core ctx t : Nat) : State :=
  match descOf s core ctx t with
  | none => s
  | some d =>
    let s := modDesc s core ctx t (fun d => { d with sweeps := (d.sweeps + 1) % 2 ^ 32 })
    let again : State → State := fun s =>
      needSweep (modCore s core (fun k => { k with rotation := k.rotation.filter (fun r => r != (ctx, t)) })) core ctx t
    if (List.range d.count).all (fun i => bits (elemWord s core ctx d i) 11 8 == 15) then sweepEnd s core ctx t d 1
    else if !d.ran && bit d.e0 37 then sweepEnd s core ctx t d 2
    else if d.ran || d.missed then again s
    else
      let s := if evtLane s core ctx d then mirrorFor s ctx core else s
      if evtDue s core ctx d (vectorAt s ctx (unitOf core)) then again s
      else
      let s := modDesc s core ctx t (fun d => { d with active := false, asleep := true, beat := 0 })
      modCore s core (fun k => { k with rotation := k.rotation.filter (fun r => r != (ctx, t)) })

/-! ### Lanes (R248, R249, R402-R404) -/

/-- A wait is satisfied (R248). -/
def satisfied (w : Word) (v : EvVec) : Bool :=
  match bits w 11 8 with
  | 0 => true
  | 1 => bits w 31 16 == 0
  | 2 => bit w 12
  | 3 => bit v (bits w 39 32)
  | _ => false

/-- A successor entry (R398). -/
structure Succ where
  elem : Nat
  desc : Nat
  far : Option Node
  deriving DecidableEq, Repr

/-- What an EL.NOTIFY or EL.SEND asks for. -/
inductive Note where
  | change (op : Nat) (to_ : List Succ)
  | value (bits : Nat) (to_ : List Succ)
  deriving DecidableEq, Repr

/-- A lane in its run: registers, context word, value to store, notes. -/
structure LaneRun where
  x : List Nat
  wait : Nat
  epc : Nat
  flag : Bool
  store : Option Nat
  notes : List Note
  deriving DecidableEq, Repr

/-- Successors of element i, or an error (R404). -/
def successors (s : State) (core ctx t : Nat) (d : Desc) (i : Nat) : Option (List Succ) := do
  let sucp := bits d.e3 39 20
  let lo ← padVal s core ctx (sucp + 4 * i) 4
  let hi ← padVal s core ctx (sucp + 4 * i + 4) 4
  if hi < lo ∨ 64 < hi - lo then none
  else
    (List.range (hi - lo)).mapM (fun k => do
      let e ← padVal s core ctx (bits d.e3 59 40 + 8 * (lo + k)) 8
      let elem := e % 65536
      let desc := e / 2 ^ 16 % 4
      if e / 2 ^ 18 % 2 = 1 then
        match cmapEntry s (ctxOf s core ctx).entry (e / 2 ^ 19 % 2 ^ 21) with
        | some n => if n.host then none else some ⟨elem, desc, some n⟩
        | none => none
      else if desc = t ∧ d.count ≤ elem then none
      else some ⟨elem, desc, none⟩)

/-- EL.SPDOT's terms over row i, or an error; values of the lane's own beat are those at its start (R403). -/
def rowTerms (s : State) (core ctx : Nat) (d : Desc) (beat : Nat) (vals : List Nat) (i : Nat) : Option (List Xv) := do
  let rowp := bits d.e2 19 0
  let lo ← padVal s core ctx (rowp + 4 * i) 4
  let hi ← padVal s core ctx (rowp + 4 * i + 4) 4
  if hi < lo ∨ 256 < hi - lo then none
  else
    (List.range (hi - lo)).mapM (fun k => do
      let j ← padVal s core ctx (bits d.e2 39 20 + 4 * (lo + k)) 4
      let c ← padVal s core ctx (bits d.e2 59 40 + d.size * (lo + k)) d.size
      if d.count ≤ j then none
      else
        let v := if j / 16 = beat then vals.getD (j % 16) 0 else readNat s (recordLoc s core ctx d j) d.size
        some ((d.fmt.decode c).mul (d.fmt.decode v)))

/-- One element instruction of a lane (R402): the lane, whether it stops; none is an error. -/
def laneStep (s : State) (core ctx t : Nat) (d : Desc) (beat : Nat) (vals : List Nat) (i : Nat) (l : LaneRun) (e : ElInstr) :
    Option (LaneRun × Bool) :=
  let f := d.fmt
  let get : Nat → Nat := fun r => l.x.getD r 0
  let val : Nat → Xv := fun r => f.decode (get r)
  let set : Nat → Nat → LaneRun := fun r v => { l with x := l.x.zipIdx.map (fun y => if y.2 = r then v else y.1), epc := l.epc + 1 }
  match e with
  | .wait k tg => some ({ l with wait := k, epc := tg, flag := if k = 2 then false else l.flag }, true)
  | .done => some ({ l with wait := 15 }, true)
  | .ldv a => some (set a (vals.getD (i % 16) 0), false)
  | .stv a => some ({ l with store := some (get a), epc := l.epc + 1 }, false)
  | .ldx a => (padVal s core ctx (bits d.e3 19 0 + d.size * i) d.size).map (fun v => (set a v, false))
  | .add a b c => some (set a (f.sum [val b, val c]).1, false)
  | .fma a b c => some (set a (f.sum [val a, (val b).mul (val c)]).1, false)
  | .div a b c => some (set a (f.div (val b) (val c)).1, false)
  | .spdot a sub => (rowTerms s core ctx d beat vals i).map (fun ts =>
      (set a (f.sum (val a :: if sub then ts.map Xv.neg else ts)).1, false))
  | .notify op => (successors s core ctx t d i).map (fun to_ => ({ l with notes := l.notes ++ [.change op to_], epc := l.epc + 1 }, false))
  | .bz a tg => some ({ l with epc := if get a % f.signBit = 0 then tg else l.epc + 1 }, false)
  | .jmp tg => some ({ l with epc := tg }, false)
  | .send a => (successors s core ctx t d i).map (fun to_ => ({ l with notes := l.notes ++ [.value (get a) to_], epc := l.epc + 1 }, false))

/-- Runs a lane to its stop, at most 64 instructions (R249, R254). -/
def laneRun (s : State) (core ctx t : Nat) (d : Desc) (beat : Nat) (vals : List Nat) (i : Nat) : Nat → LaneRun → Option LaneRun
  | 0, _ => none
  | fuel + 1, l =>
    match d.prog[l.epc]? with
    | none => none
    | some e =>
      match laneStep s core ctx t d beat vals i l e with
      | none => none
      | some (l', stop) =>
        -- EL.DONE stores DONE alone: the epc stays the one the lane started from
        if stop then some l' else laneRun s core ctx t d beat vals i fuel l'

/-- The context word a lane leaves: wait, epc and flag only (R402). -/
def laneWord (w : Word) (l : LaneRun) : Word :=
  (w &&& ~~~0x1F3F#64) ||| BitVec.ofNat 64 (l.wait * 256 + l.epc % 64 + if l.flag then 0x1000 else 0)

/-- What one element of a beat does: idle, an error, or a run. -/
inductive LaneOut where
  | rest
  | bad
  | run (l : LaneRun)
  deriving DecidableEq, Repr

/-- One element of a beat (R248, R249, R254). DEDUCED, log 43: unsafe. -/
def laneOf (s : State) (core ctx t : Nat) (d : Desc) (beat : Nat) (vals : List Nat) (v : EvVec) (i : Nat) : LaneOut :=
  let w := elemWord s core ctx d i
  let k := bits w 11 8
  if (5 ≤ k ∧ k ≤ 14) ∨ d.plen < bits w 5 0 then .bad
  else if !satisfied w v then .rest
  else
    match laneRun s core ctx t d beat vals i 64 ⟨List.replicate 8 0, k, bits w 5 0, bit w 12, none, []⟩ with
    | none => .bad
    | some l => .run (if l.wait = 15 then { l with epc := bits w 5 0 } else l)

/-- Sends a remote change or value write of a core (R400, R404): on path 0. -/
def sendChange (s : State) (core ctx : Nat) (dst : Node) (pl : Payload) : State := sendPkt s (nodeOf s core) dst ctx 4 0 pl

/-- Notes of a beat applied to the descriptor's own elements (R249). -/
def ownNotes (s : State) (core ctx t : Nat) (d : Desc) (ns : List Note) : State :=
  ns.foldl (fun s n => match n with
    | .change op to_ => to_.foldl (fun s u => if u.far.isNone ∧ u.desc = t then applyChange s core ctx t d u.elem op else s) s
    | .value _ _ => s) s

/-- Notes applied to other descriptors of the core, between beats (R404). -/
def otherNotes (s : State) (core ctx t : Nat) (ns : List Note) : State :=
  ns.foldl (fun s n => match n with
    | .change op to_ => to_.foldl (fun s u => if u.far.isNone ∧ u.desc ≠ t then outsideChange s core ctx u.desc u.elem op else s) s
    | .value _ _ => s) s

/-- Notes that leave the core (R404). -/
def farNotes (s : State) (core ctx : Nat) (ns : List Note) : State :=
  ns.foldl (fun s n => match n with
    | .change op to_ => to_.foldl (fun s u => match u.far with
        | some d => sendChange s core ctx d (.change u.desc u.elem op)
        | none => s) s
    | .value b to_ => to_.foldl (fun s u => match u.far with
        | some d => sendChange s core ctx d (.value u.desc u.elem (BitVec.ofNat 64 b))
        | none => s) s) s

/-- One beat of a descriptor (R249-R254). -/
def runBeat (s : State) (core ctx t : Nat) (d : Desc) (b : Nat) : State :=
  let lost := poisonedIn s (recordLoc s core ctx d (16 * b)) 256
  if lost.isSome then
    -- a line of the beat's records is lost (R50)
    engineUpcall (sweepEnd s core ctx t d 4) core ctx 4 0 .notmapped (BitVec.ofNat 64 (windowBase + bits d.e0 19 0 + 256 * b))
  else
  let v := vectorAt s ctx (unitOf core)
  let is := (List.range 16).map (· + 16 * b) |>.filter (· < d.count)
  let vals := is.map (fun i => readNat s (recordLoc s core ctx d i) d.size)
  let outs := is.map (fun i => (i, laneOf s core ctx t d b vals v i))
  match outs.find? (fun o => o.2 == .bad) with
  | some (i, _) => engineUpcall (sweepEnd s core ctx t d 4) core ctx 4 0 .ecerr (BitVec.ofNat 64 i)
  | none =>
    let runs := outs.filterMap (fun o => match o.2 with
      | .run l => some (o.1, l)
      | _ => none)
    let s := runs.foldl (fun s r =>
      let s := match r.2.store with
        | some x => putValue s core ctx d r.1 x
        | none => s
      putElem s core ctx d r.1 (laneWord (elemWord s core ctx d r.1) r.2)) s
    let s := is.foldl (fun s i =>
      let w := elemWord s core ctx d i
      let k := bits w 11 8
      if k = 15 ∨ ((k = 1 ∨ k = 2 ∨ k = 4) ∧ !satisfied w v) then setSkip s core ctx d i true else s) s
    let ns := runs.flatMap (fun r => r.2.notes)
    let s := ownNotes s core ctx t d ns
    let s := modDesc s core ctx t (fun d => { d with beat := b + 1, ran := d.ran || !runs.isEmpty })
    farNotes (otherNotes s core ctx t ns) core ctx ns

/-- The next beat from a given one on whose 16 skip bits are not all set (R252). -/
def nextBeat (s : State) (core ctx : Nat) (d : Desc) : Option Nat :=
  ((List.range ((d.count + 15) / 16)).filter (fun b => d.beat ≤ b)).find? (fun b =>
    (List.range 16).any (fun k => !skipBit s core ctx d (16 * b + k)))

/-- EVENT SWEEP_BEAT (R249, R253, R255): the descriptor at the head of the rotation reads its next beat, or ends its sweep. -/
def sweepBeat (s : State) (core : Nat) : State :=
  let s := sweepEnds s core
  let k := coreOf s core
  match k.rotation with
  | [] => s
  | (ctx, t) :: _ =>
    if k.quiesced || partFenced s.module.fenced (.core core) then s
    else
      match descOf s core ctx t with
      | none => modCore s core (fun k => { k with rotation := k.rotation.tail })
      | some d =>
        if d.stopping then sweepEnd s core ctx t d 3
        else
          match nextBeat s core ctx d with
          | some b =>
            let s := runBeat s core ctx t d b
            match descOf s core ctx t with
            | some d => if d.active ∧ !d.ending ∧ (d.count + 15) / 16 ≤ d.beat then sweepTurn s core ctx t else s
            | none => s
          | none => sweepTurn s core ctx t

/-! ### Instructions (R396-R401) -/

/-- The gate of a parser instruction. -/
def parserGate (i : Instr) : Gate := engineGate i [1]

/-- The lowest window-0 address among scratchpad offsets that fail a test. -/
def lowestPad (xs : List (Nat × Bool)) : Option Word :=
  (bestBy (fun a b => a < b) ((xs.filter (fun x => x.2)).map (·.1))).map (fun o => BitVec.ofNat 64 (windowBase + o))

/-- ECDECL (R246, R281, R397). -/
def execEcdecl (t : BitVec 2) (s : State) : Host.Outcome State Fault Refusal :=
  issue (parserGate (.ecdecl t)) (fun s =>
    let core := home s
    let ctx := ctxId s
    let e0 := rE s 0
    let e1 := rE s 1
    let d : Desc := { e0 := e0, e1 := e1, e2 := rE s 2, e3 := rE s 3, prog := [], sweeps := 0, endCode := 0, ending := false, under := false,
                      active := false, asleep := false, stopping := false, beat := 0, ran := false, missed := false }
    let rec_ := bits e0 19 0
    let prog := bits e1 39 20
    let skip := bits e1 19 0
    let size := scratchSize (partNow s)
    if bits e0 63 47 ≠ 0 ∨ bits e1 63 46 ≠ 0 ∨ (bit e0 46 ∧ 191 < bits e0 45 38) then .trap s .illegal (Instr.ecdecl t).tval
    else
      match lowestPad [(rec_, rec_ % 256 != 0), (prog, prog % 4 != 0), (skip, skip % 8 != 0)] with
      | some a => .trap s .misalign a
      | none =>
        match lowestPad [(rec_, size < rec_ + 16 * d.count), (prog, size < prog + 4 * (d.plen + 1)),
            (skip, size < skip + (d.count + 7) / 8)] with
        | some a => .trap s .window a
        | none =>
          withWin s (BitVec.ofNat 64 (windowBase + prog)) (4 * (d.plen + 1)) (fun o =>
          let ws := scratchVals s o (d.plen + 1) 4
          match ws.find? (fun w => (decodeEl d.plen w).isNone) with
          | some w => .trap s .illegal (BitVec.ofNat 64 w)
          | none =>
            let s := match descOf s core ctx t.toNat with
              | some o => if (o.active || o.asleep) && !o.ending then sweepEnd s core ctx t.toNat o 3 else s
              | none => s
            -- the sweep that this one stops has not ended yet (R246, R253)
            if ((descOf s core ctx t.toNat).map (·.ending)).getD false then .stall s (waitOr s 0 0)
            else .ok (modCtx s core ctx (fun x => { x with descs := tset x.descs t.toNat { d with prog := ws.filterMap (decodeEl d.plen) } })))) s

/-- The named descriptor, or ILLEGAL (R396). -/
def withDesc (i : Instr) (t : BitVec 2) (s : State) (f : Desc → Res) : Res :=
  match descOf s (home s) (ctxId s) t.toNat with
  | none => .trap s .illegal i.tval
  | some d => f d

/-- ECSWEEP (R399): a kick. -/
def execEcsweep (t : BitVec 2) (s : State) : Host.Outcome State Fault Refusal :=
  issue (parserGate (.ecsweep t)) (fun s => withDesc (.ecsweep t) t s (fun d => kick s (
    if d.active then .ok s
    else if d.asleep then .ok (needSweep s (home s) (ctxId s) t.toNat)
    else .ok (needSweep (modDesc s (home s) (ctxId s) t.toNat (fun d => { d with endCode := 0 })) (home s) (ctxId s) t.toNat)))) s

/-- A descriptor's sweep is under way: it heads the rotation and has read a beat (R255). -/
def sweepRuns (s : State) (core ctx t : Nat) (d : Desc) : Bool := (coreOf s core).rotation.head? == some (ctx, t) && d.beat != 0

/-- ECSTOP (R253, R399): a running sweep stops at its next beat boundary, one that is queued or asleep now. -/
def execEcstop (t : BitVec 2) (s : State) : Host.Outcome State Fault Refusal :=
  issue (parserGate (.ecstop t)) (fun s => withDesc (.ecstop t) t s (fun d =>
    if d.ending then .ok s
    else if d.active && sweepRuns s (home s) (ctxId s) t.toNat d then .ok (modDesc s (home s) (ctxId s) t.toNat (fun d => { d with stopping := true }))
    else if d.active || d.asleep then .ok (sweepEnd s (home s) (ctxId s) t.toNat d 3)
    else .ok s)) s

/-- ECWAKE (R251, R400). -/
def execEcwake (t : BitVec 2) (b c : SReg) (s : State) : Host.Outcome State Fault Refusal :=
  issue (parserGate (.ecwake t b c)) (fun s =>
    let l := bits (rS s b) 20 0
    let op := bits (rS s c) 17 16
    if op = 3 then .trap s .illegal (Instr.ecwake t b c).tval
    else
      match cmapEntry s (entry s) l with
      | none => .trap s .notmapped (BitVec.ofNat 64 l)
      | some d =>
        if d.host then .trap s .notmapped (BitVec.ofNat 64 l)
        else kick s (.ok (sendChange s (home s) (ctxId s) d (.change t.toNat (bits (rS s c) 15 0) op)))) s

/-- ECSTAT (R401). -/
def execEcstat (a : SReg) (t : BitVec 2) (s : State) : Host.Outcome State Fault Refusal :=
  issue (parserGate (.ecstat a t)) (fun s => withDesc (.ecstat a t) t s (fun d =>
    let drops := dropCount s (home s) (ctxId s) t.toNat
    let code := if d.ending then 0 else d.endCode
    let v := d.sweeps * 2 ^ 32 + drops * 2 ^ 16 + (if d.under then 32 else 0) + (if d.asleep then 16 else 0) +
      (if d.active then 8 else 0) + code
    .ok (wS (if code = 0 then s else acquire s) a (BitVec.ofNat 64 v)))) s

/-- ECREAD (R401). -/
def execEcread (a b : SReg) (t : BitVec 2) (s : State) : Host.Outcome State Fault Refusal :=
  issue (parserGate (.ecread a b t)) (fun s => withDesc (.ecread a b t) t s (fun d =>
    let i := bits (rS s b) 15 0
    if d.count ≤ i then .trap s .illegal (Instr.ecread a b t).tval
    else .ok (wS s a (elemWord s (home s) (ctxId s) d i)))) s

end Sys2Proof.Machine
end

