-- ==== Sys2Proof/Machine/Packets.lean ====
section
/-!
DEFINITION. Machine/Packets.lean: the events of the networks and of the home ports: hops over mesh, ring and links (R17-R28,
R442), messages (R43, R46, R73, R241, R242, R344), remote stores and flags with their trace ring (R153-R161, R182-R185), and
accesses held at home ports (R148-R151, R164, R165).
-/

namespace Sys2Proof.Machine

/-! ### Hops (R17-R24, R26, R27, R442) -/

/-- A header that hardware never generates (R17). -/
def headerBad (p : Packet) : Bool := p.reserved ≠ 0 || 4 < p.scope || 16 < lenOf p

/-- A packet whose sender waits for an answer from its destination stays known to the model after it has left the module.
DESIGN CHOICE, log 51: safe. -/
def awaited (p : Packet) : Bool :=
  match p.payload with
  | .message _ _ _ _ _ _ _ _ _ => true
  | .fibre _ _ _ _ _ => true
  | .fibrePart _ _ _ => true
  | .wake _ _ _ => true
  | .store _ _ _ _ => true
  | .flag _ _ _ _ => true
  | .atomic _ _ _ _ _ _ _ => true
  | .loadReq _ _ _ _ => true
  | .memAccess _ _ _ _ _ _ _ => true
  | .memAtomic _ _ _ _ _ _ _ _ => true
  | .memLock _ _ _ _ _ => true
  | .memUnlock _ _ _ _ _ => true
  | _ => false

/-- The part of this module that sent a packet, which a ring fault is laid to (R17): the link it came by, the stack or package of a
memory port's answer, the die of a launch unit, or the core. -/
def sendingPart (s : State) (p : Packet) : Option Part :=
  match localOf s p.src with
  | none => p.link.map Part.link
  | some c =>
    if isAnswer p && (memoryAddr p).isSome then (memoryAddr p).bind partOfLoc
    else if fromUnit p.payload then some (.die (dieOfCore c)) else some (.core c)

/-- A packet is discarded by a ring fault or a link fault, which is reported to the controller (R17, R44): a message stays in its
sender's copy (R46). A packet for a module with no link is no fault of the part that sent it. -/
def ringFault (s : State) (n : Nat) (p : Packet) (by_ code : Nat) : State :=
  let s := if isMessage p then { s with net := tset s.net n { p with pos := .lost, ring := RingTrip.off } } else takePkt s n
  let s := notice s 5 [BitVec.ofNat 64 by_, headerWord p, BitVec.ofNat 64 code, 0]
  if code = 2 then s
  else { s with module := { s.module with suspects := s.module.suspects ++ (sendingPart s p).toList } }

/-- A packet chooses its link, if it leaves the module (R27). -/
def withLink (s : State) (p : Packet) : Packet := if moduleOf p.dst = moduleNumber s then p else { p with link := linkFor s p }

/-- A packet leaves the ring at its exit stop: into the mesh, to the host die or a memory port, or on to its link (R23, R26, R442).
One bound for a fenced link is lost, if it is a message (R46), and else takes the link that the kernel's new table names (R28). -/
def ringExit (s : State) (n : Nat) (p : Packet) (stop : Nat) : State :=
  let p := { p with ring := RingTrip.off }
  if moduleOf p.dst = moduleNumber s then
    if p.dst.host || toMemory p.payload then movePkt s n p .arrived
    else movePkt s n { p with via := none } (.mesh (p.dst.addr % 8192 / 1024) (portRouter (planeOf p)) false)
  else
    match p.link with
    | none => s
    | some l =>
      if partFenced s.module.fenced (.link l) then
        if isMessage p then movePkt s n p .lost
        else
          match linkFor s p with
          | some k => if partFenced s.module.fenced (.link k) then s else movePkt s n { p with link := some k } (.inject stop)
          | none => s
      else if !linksUp s then s
      else if awaited p then movePkt s n p (.link l) else takePkt s n

/-- Flits in the slots of a stop, for a plane and direction: of the shared pool, or of one virtual channel's own (R20).
DESIGN CHOICE, log 13: unsafe. -/
def slotsUsed (s : State) (stop plane : Nat) (dir : Bool) (vc : Option Bool) : Nat :=
  s.net.foldl (fun n m =>
    if planeOf m.2 == plane && m.2.dir == dir then
      m.2.ring.segs.foldl (fun n g =>
        if g.stop == stop && g.shared == vc.isNone && (vc.isNone || vc == some g.vc) then n + g.flits else n) n
    else n) 0

/-- A stop has a free slot of a kind for a packet (R20): 16 shared, 4 of each virtual channel. -/
def slotFree (s : State) (p : Packet) (stop : Nat) (shared vc : Bool) : Bool :=
  if shared then slotsUsed s stop (planeOf p) p.dir none < 16 else slotsUsed s stop (planeOf p) p.dir (some vc) < 4

/-- The virtual channel of a packet's next hop (R19). -/
def nextVc (p : Packet) (from_ : Nat) : Bool := p.vc || crosses from_ p.dir

/-- Where a header may go at its next stop: into the shared pool, or else its channel's escape slots (R20). -/
def headerSlot (s : State) (p : Packet) (from_ : Nat) : Option Bool :=
  let to_ := ringNext from_ p.dir
  if slotFree s p to_ true false then some true
  else if slotFree s p to_ false (nextVc p from_) then some false
  else none

/-- Each flit behind a stop's moves up into the slots there, which are of the kind the header took, if one is free (R20): what is held
from that stop backwards, and the flits that have not entered the ring. -/
def followFrom (s : State) (p : Packet) (g : RingSeg) : List RingSeg → Nat → List RingSeg × Nat
  | [], rest =>
    if rest ≠ 0 && slotFree s p g.stop g.shared g.vc then ([{ g with flits := g.flits + 1 }], rest - 1) else ([g], rest)
  | h :: r, rest =>
    if h.flits ≠ 0 && slotFree s p g.stop g.shared g.vc then
      let t := followFrom s p { h with flits := h.flits - 1 } r rest
      ({ g with flits := g.flits + 1 } :: t.1, t.2)
    else
      let t := followFrom s p h r rest
      (g :: t.1, t.2)

/-- The same from the header's stop on. -/
def followOn (s : State) (p : Packet) (segs : List RingSeg) (rest : Nat) : List RingSeg × Nat :=
  match segs with
  | [] => ([], rest)
  | g :: r => followFrom s p g r rest

/-- Stops behind which nothing of a packet is left are forgotten. -/
def trimSegs (segs : List RingSeg) (rest : Nat) : List RingSeg :=
  if rest ≠ 0 then segs else (segs.reverse.dropWhile (fun g => g.flits == 0)).reverse

/-- The key of a stop's grants for a plane and direction (R21). -/
def grantKey (p : Packet) (stop : Nat) : Nat := stop * 32 + planeOf p * 2 + p.dir.toNat

/-- A packet at a stop's injection input, with the link and direction it takes from there (R18, R27). -/
def injected (s : State) (p : Packet) (stop : Nat) : Packet :=
  let p := withLink s p
  match exitStop s p with
  | some e => { p with dir := ringDir stop e, vc := false }
  | none => p

/-- A header of the other input of a stop waits for the same grant and could use it (R21). -/
def rival (s : State) (p : Packet) (stop : Nat) (inj : Bool) : Bool :=
  s.net.any (fun m =>
    let q := if inj then m.2 else injected s m.2 stop
    let here := if inj then (match m.2.pos with | .stop k _ => k == stop | _ => false) else m.2.pos == .inject stop
    here && planeOf q == planeOf p && q.dir == p.dir && exitStop s q != some stop && !behind s m.1 m.2 && q.intact && !headerBad q &&
    (headerSlot s q stop).isSome)

/-- The stop grants a header its output now: one a cycle, round-robin between the through and the injection input (R21). -/
def granted (s : State) (p : Packet) (stop : Nat) (inj : Bool) : Bool :=
  match tget s.grants (grantKey p stop) with
  | none => true
  | some (c, last) => c != s.cyc && (last != inj || !rival s p stop inj)

/-- One cycle of a packet on the ring or at its injection input (R19-R22): the header takes a hop if it is granted one and finds a
slot, and the flits behind it follow. -/
def ringHop (s : State) (n : Nat) (p : Packet) (from_ : Nat) (inj : Bool) : State :=
  let t := if inj then ⟨from_, s.ids, [], lenOf p⟩ else p.ring
  match (if granted s p from_ inj then headerSlot s p from_ else none) with
  | none =>
    if inj then s
    else
      let f := followOn s p t.segs t.rest
      { s with net := tset s.net n { p with ring := { t with segs := trimSegs f.1 f.2, rest := f.2 } } }
  | some shared =>
    let to_ := ringNext from_ p.dir
    let vc := nextVc p from_
    let left := match t.segs with
      | [] => []
      | g :: r => { g with flits := g.flits - 1 } :: r
    let f := if inj then ([], t.rest) else followOn s p left t.rest
    let segs := trimSegs (⟨to_, shared, vc, 1⟩ :: f.1) f.2
    let s := if inj then newId s else s
    { s with
      net := tset s.net n { p with vc := vc, pos := .stop to_ shared, ring := { t with segs := segs, rest := f.2 } }
      grants := tset s.grants (grantKey p from_) (s.cyc, inj) }

/-- One cycle of a packet at the stop where it leaves the ring: a flit leaves, and those behind it follow; with the last one the packet
is off the ring. -/
def ringDrain (s : State) (n : Nat) (p : Packet) (stop : Nat) : State :=
  let left := match p.ring.segs with
    | [] => []
    | g :: r => { g with flits := g.flits - 1 } :: r
  let f := followOn s p left p.ring.rest
  let segs := trimSegs f.1 f.2
  if segs.isEmpty then ringExit s n p stop
  else { s with net := tset s.net n { p with ring := { p.ring with segs := segs, rest := f.2 } } }

/-- A packet that is to enter the ring at a stop (R18, R27). -/
def ringInject (s : State) (n : Nat) (p : Packet) (stop : Nat) : State :=
  if !p.intact then ringFault s n p stop 1
  else if headerBad p then ringFault s n p stop 0
  else
    let p := injected s p stop
    match exitStop s p with
    | none => ringFault s n p stop 2
    | some e => if e = stop then ringExit s n p stop else ringHop s n p stop true

/-- EVENT RING_PACKET_ARRIVAL (R20): a cycle of a packet at a ring stop: a hop, or a flit that leaves the ring. -/
def ringPacketArrival (s : State) (n : Nat) : State :=
  match tget s.net n with
  | none => s
  | some p =>
    if behind s n p then s
    else
      match p.pos with
      | .inject k => ringInject s n p k
      | .stop k _ =>
        if !p.intact then ringFault s n p k 1
        else if headerBad p then ringFault s n p k 0
        else
          match exitStop s p with
          | none => s
          | some e => if e = k then ringDrain s n p k else ringHop s n p k false
      | _ => s

/-- EVENT MESH_PACKET_ARRIVAL (R23, R24, R442): one hop along the packet's path, into the ring stop, or to its clause's port. -/
def meshPacketArrival (s : State) (n : Nat) : State :=
  match tget s.net n with
  | none => s
  | some p =>
    match p.pos with
    | .mesh die cl out =>
      let target := if out then portRouter (planeOf p) else clauseInDie p.dst
      let p := { p with via := some cl }
      if behind s n p then s
      else if cl ≠ target then movePkt s n p (.mesh die (meshNext p.path cl target) out)
      else if out then movePkt s n p (.inject (Config.dieStop die))
      else movePkt s n p .arrived
    | _ => s

/-- A flit of a packet in flight takes an error that its SECDED code cannot correct (R17). -/
def damageFlit (s : State) (n : Nat) : State :=
  match tget s.net n with
  | none => s
  | some p => { s with net := tset s.net n { p with intact := false } }

/-- EVENT MODULE_LINK_RECEIVE (R26, R34): a group that passes its check is delivered at the I/O die's stop; one that fails is
sent again by the other end, and with the links down every packet is discarded. A packet that is damaged all the same, or has a header
that hardware never generates, is discarded and reported by the link (R17, R44). DESIGN CHOICE, log 57: unsafe. -/
def moduleLinkReceive (s : State) (link : Nat) (ok : Bool) (p : Packet) : State :=
  if !ok || 24 ≤ link || !linksUp s || partFenced s.module.fenced (.link link) then s
  else
    let p := { p with pos := .inject (Config.linkStop link), dir := false, vc := false, link := some link, via := none, ring := RingTrip.off }
    if !p.intact || headerBad p then
      let s := notice s 5 [BitVec.ofNat 64 (32 + link), headerWord p, if headerBad p then 0 else 1, 0]
      { s with module := { s.module with suspects := s.module.suspects ++ [.link link] } }
    else launchPacket s p

/-- EVENT LINK_GROUP_RESEND (R26): a group goes out again on a link. Its packets are on the link already, and the other end
delivers each once and in order, so nothing of this module changes. -/
def linkGroupResend (s : State) (_link : Nat) : State := s

/-! ### Messages (R43, R46, R73, R241, R242, R344) -/

/-- The further packets of a fibre record that a packet begins (R369). -/
def restOf (s : State) (p : Packet) : List (Nat × Packet) :=
  match p.payload with
  | .fibre _ _ _ _ seq => s.net.filter (fun m => m.2.src == p.src && (match m.2.payload with
      | .fibrePart q _ _ => q == seq
      | _ => false))
  | _ => []

/-- The bytes of part i of a fibre record, once it has arrived. -/
def partHere (s : State) (p : Packet) (i : Nat) : Option (List Byte) :=
  (restOf s p).findSome? (fun m => match m.2.payload with
    | .fibrePart _ k bs => if k = i ∧ m.2.pos = .arrived then some bs else none
    | _ => none)

/-- All of a message has arrived: a fibre record comes in four packets. -/
def wholeHere (s : State) (p : Packet) : Bool :=
  match p.payload with
  | .fibre _ _ _ _ _ => [1, 2, 3].all (fun i => (partHere s p i).isSome)
  | _ => true

/-- Takes all packets of a message off the network. -/
def takeWhole (s : State) (n : Nat) (p : Packet) : State := (restOf s p).foldl (fun s m => takePkt s m.1) (takePkt s n)

/-- A message that a packet carries, as it waits at a core. -/
def msgOf (s : State) (p : Packet) : Option (Msg × Bool) :=
  match p.payload with
  | .message ws code origin nosrc src wid wshape work seq =>
    some (⟨s.ids, p.ctx, ws, origin, p.mprio, nosrc, src, wid, wshape, work, .message, 0, s.cyc,
      if origin = 0 then none else some (p.src, seq)⟩, code)
  | .fibre rec_ rmod loc bs seq =>
    let all := bs ++ [1, 2, 3].flatMap (fun i => (partHere s p i).getD [])
    some ({ engineMsg s p.ctx [] 3 p.mprio (.fibre rec_ (if rmod = moduleNumber s then none else some rmod) loc all) with
      sender := some (p.src, seq) }, false)
  | .wake ws src seq =>
    some (⟨s.ids, p.ctx, ws, 2, p.mprio, src == 2 ^ 21, if src = 2 ^ 21 then 0 else src, 0, 0, none, .message, 0, s.cyc,
      some (p.src, seq)⟩, false)
  | _ => none

/-- An undeliverable message is discarded with a notice (R43). DEDUCED, log 58: unsafe. -/
def undeliverable (s : State) (n : Nat) (p : Packet) (m : Msg) : State :=
  discardMsg (takeWhole s n p) (headerWord p) m p.dst.addr

/-- The sequence number of a message at its source (R46). -/
def seqOf (p : Packet) : Option Nat :=
  match p.payload with
  | .message _ _ _ _ _ _ _ _ seq => some seq
  | .fibre _ _ _ _ seq => some seq
  | .fibrePart seq _ _ => some seq
  | .wake _ _ seq => some seq
  | _ => none

/-- A message is a duplicate: its source has sent it before, and it was taken (R46). -/
def duplicate (s : State) (core : Nat) (p : Packet) : Bool :=
  match seqOf p with
  | some q => (coreOf s core).lastSeq.any (fun x => x.1 == p.src && x.2.1 == p.dst && q ≤ x.2.2)
  | none => false

/-- A message is taken from the network; its sequence number is noted (R46). -/
def takeMsg (s : State) (n core : Nat) (p : Packet) : State :=
  let s := takeWhole s n p
  match seqOf p with
  | some q => modCore s core (fun k => { k with lastSeq := k.lastSeq.filter (fun x => x.1 != p.src || x.2.1 != p.dst) ++ [(p.src, p.dst, q)] })
  | none => s

/-- A code message at its receiving interface: it passes, is parked in the miss queue, or is refused when that is full (R241,
R242). -/
def codeArrival (s : State) (n core : Nat) (p : Packet) (m : Msg) : State :=
  let cl := clauseOfCore core
  if (missOldest s cl core m.ctx (msgCodeId m)).isNone && codePasses s core m then missPass (takeMsg s n core p) core m
  else if missRoom s cl = 0 then movePkt s n p (.refused s.cyc)
  else missArrive (takeMsg s n core p) cl core m (headerWord p)

/-- EVENT MESSAGE_ARRIVAL (R73, R43, R241): a message or drain wake at a compute core's interface. -/
def messageArrival (s : State) (n : Nat) : State :=
  match arrivedAt s n with
  | none => s
  | some (p, core) =>
    match msgOf s p with
    | none => s
    | some (m, code) =>
      if isApp core || !wholeHere s p then s
      else if duplicate s core p then takeWhole s n p
      else if ctxState s p.ctx ≠ 1 then undeliverable s n p m
      else if code then codeArrival s n core p m
      else missPass (takeMsg s n core p) core m

/-- A message enters an application core's receive queue and raises its message interrupt (R30).
DESIGN CHOICE, log 36: unsafe. -/
def hostEnqueue (s : State) (core : Nat) (m : Msg) : State :=
  arrivalWakes (modCore (newId s) core (fun k => { k with hostq := k.hostq ++ [{ m with id := s.ids }], msgIrq := true }))
    core m.ctx m.mprio

/-- EVENT HOST_MESSAGE_ARRIVAL (R30, R46): a message to an application core is accepted as it enters the receive queue. -/
def hostMessageArrival (s : State) (n : Nat) : State :=
  match arrivedAt s n with
  | none => s
  | some (p, core) =>
    match msgOf s p with
    | none => s
    | some (m, _) =>
      if !isApp core then s
      else if duplicate s core p then takePkt s n
      else if ctxState s p.ctx ≠ 1 then undeliverable s n p m
      else if 256 ≤ (coreOf s core).hostq.length then s
      else acceptMsg (hostEnqueue (takeMsg s n core p) core m) core m 0

/-- EVENT MESSAGE_ACCEPTANCE_NOTICE (R46, R344): an acceptance comes back to the sender. -/
def messageAcceptanceNotice (s : State) (n : Nat) : State :=
  match arrivedAt s n with
  | none => s
  | some (p, core) =>
    match p.payload with
    | .accepted seq status =>
      let s := dropCopy (takePkt s n) core seq
      let s := { s with net := s.net.filter (fun m => !(m.2.src == p.dst && seqOf m.2 == some seq)) }
      answer s ⟨core, p.ctx, 0⟩ (fun w => if w.stage = 1 ∧ w.tags.contains seq then { w with tags := [], reply := some (BitVec.ofNat 64 status) } else w)
    | _ => s

/-- EVENT MISS_QUEUE_RESEND (R242): a refused code message is sent again once the queue has room. -/
def missQueueResend (s : State) (n : Nat) : State :=
  match tget s.net n with
  | none => s
  | some p =>
    match p.pos, takerOf s p.dst with
    | .refused _, some core =>
      if isMessage p && missRoom s (clauseOfCore core) ≠ 0 then restart s n p else s
    | _, _ => s

/-- EVENT MESSAGE_COPY_RESEND (R46): a message lost in a ring or link fault is sent again from the copy. A message that is not
lost needs no copy, and a second one would be discarded. -/
def messageCopyResend (s : State) (n : Nat) : State :=
  match tget s.net n with
  | none => s
  | some p => if isMessage p && p.pos == .lost then restart s n p else s

/-- EVENT MESSAGE_AGING (R77): a message that has waited another 2^20 cycles gains a level. -/
def messageAging (s : State) (core n : Nat) : State :=
  modCore s core (fun k => { k with waiting := k.waiting.map (fun m =>
    if m.id = n ∧ 2 ^ 20 ≤ s.cyc - m.since then { m with aged := m.aged + 1, since := m.since + 2 ^ 20 } else m) })

/-! ### The trace ring (R183-R185) -/

/-- The location of CR.TRACE or CR.TRACEPTR of a context that holds no slot: in its frame (R104). -/
def traceLoc (s : State) (core ctx i : Nat) : Nat := frameLoc s core ctx + 0x980 + 8 * (30 + i)

/-- A context's frame on a core is in its slots, not in the save area. -/
def frameHere (s : State) (core ctx : Nat) : Bool := holdsSlot (coreOf s core) ctx || (coreOf s core).saveb == 0

/-- CR.TRACE of a context as the port reads it (R183). -/
def traceReg (s : State) (core ctx : Nat) : Word :=
  if !featureFor s ctx 8 then 0
  else if frameHere s core ctx then (ctxOf s core ctx).regs.trace else tableWord s (traceLoc s core ctx 0)

/-- CR.TRACEPTR of a context as the port reads it. -/
def tracePtr (s : State) (core ctx : Nat) : Word :=
  if frameHere s core ctx then (ctxOf s core ctx).regs.traceptr else tableWord s (traceLoc s core ctx 1)

/-- Writes CR.TRACEPTR of a context. -/
def setTracePtr (s : State) (core ctx : Nat) (w : Word) : State :=
  if frameHere s core ctx then modCtx s core ctx (fun x => { x with regs := { x.regs with traceptr := w } })
  else writeWord s 0 (traceLoc s core ctx 1) w

/-- log2 of a packet's bytes: of the smallest power of two that holds them. DEDUCED, log 45: unsafe. -/
def sizeCode (n : Nat) : Nat := ((List.range 7).find? (fun k => n ≤ 2 ^ k)).getD 6

/-- Logs a performed packet, unless logging is off (R183, R184): size code, whether it is an atomic, and ordflag. -/
def traceLog (s : State) (core : Nat) (p : Packet) (size : Nat) (atomic ord : Bool) (path off : Nat) : State :=
  let t := traceReg s core p.ctx
  if !bit t 0 || (atomic && !bit t 1) then s
  else
    let part := partOf s core p.ctx
    let ptr := tracePtr s core p.ctx
    let ring := bits t 19 12 * 4096
    if scratchSize part < ring + 4096 then setTracePtr s core p.ctx (ptr ||| BitVec.ofNat 64 (2 ^ 63))
    else
      let w0 := size * 2 ^ 52 + (if atomic then 2 ^ 51 else 0) + (if ord then 2 ^ 50 else 0) + path % 4 * 2 ^ 48 + s.cyc % 2 ^ 48
      let w1 := (if p.src.host then 2 ^ 41 else 0) + p.src.addr % 2 ^ 21 * 2 ^ 20 + off % 2 ^ 20
      let at_ := scratchBase core part + ring + 16 * (bits ptr 62 0 % 256)
      let s := storeAt s p.ctx at_ (leBytes 8 w0 ++ leBytes 8 w1)
      setTracePtr s core p.ctx (BitVec.ofNat 64 (bits ptr 63 63 * 2 ^ 63 + (bits ptr 62 0 + 1) % 2 ^ 63))

/-! ### Remote stores, flags and counts (R153, R158-R161, R182) -/

/-- The bytes of a remote store take effect at a core's port; holes and bytes beyond the scratchpad are not written. -/
def portStore (s : State) (core ctx off : Nat) (bs : List Byte) (holes : List Nat) : State :=
  let p := partOf s core ctx
  bs.zipIdx.foldl (fun s b =>
    if holes.contains b.2 || scratchSize p ≤ off + b.2 then s else storeAt s ctx (scratchBase core p + off + b.2) [b.1]) s

/-- The counts of a source in an arrival table. -/
def arrivalCounts (x : CtxCore) (src : Node) : List Nat := ((x.arrivals.find? (fun a => a.1 == src)).map (·.2)).getD [0, 0, 0, 0]

/-- Sets the counts of a source; an entry whose counts are all zero is free (R160). -/
def setArrivals (x : CtxCore) (src : Node) (cs : List Nat) : CtxCore :=
  let rest := x.arrivals.filter (fun a => a.1 != src)
  { x with arrivals := if cs.all (· == 0) then rest else rest ++ [(src, cs)] }

/-- The arrival table has no entry for a source and none free (R161). -/
def arrivalsFull (x : CtxCore) (src : Node) : Bool := !x.arrivals.any (fun a => a.1 == src) && 64 ≤ x.arrivals.length

/-- Every count is at least the one carried (R160). -/
def countsReach (have_ need : List Nat) : Bool := (List.range 4).all (fun i => need.getD i 0 ≤ have_.getD i 0)

/-- Sends a home's acknowledgement (R153). -/
def sendAck (s : State) (core : Nat) (p : Packet) (agent : AgentId) (off : Nat) : State :=
  sendPkt s (nodeOf s core) p.src p.ctx 4 0 (.ack agent off p.path)

/-- Performs a flag or count packet whose counts have been reached (R160, R161, R184). -/
def performFlag (s : State) (core : Nat) (p : Packet) (counts : List Nat) : State :=
  let s := modCtx s core p.ctx (fun x =>
    let h := arrivalCounts x p.src
    setArrivals x p.src ((List.range 4).map (fun i => h.getD i 0 - counts.getD i 0)))
  match p.payload with
  | .flag off bs _ agent =>
    let s := portStore s core p.ctx off bs []
    sendAck (traceLog s core p (sizeCode bs.length) false true p.path off) core p agent off
  | _ => traceLog s core p 15 false true 0 0

/-- The agent and bytes that a packet of a core's port touches. -/
def portSpan (p : Packet) : Option (AgentId × Nat × Nat) :=
  match p.payload with
  | .store off bs _ a => some (a, off, bs.length)
  | .flag off bs _ a => some (a, off, bs.length)
  | .loadReq off n _ a => some (a, off, n)
  | .atomic off _ wide _ _ _ a => some (a, off, if wide then 8 else 4)
  | _ => none

/-- Two accesses of one agent touch a common byte (R150). -/
def portMeets (p q : Packet) : Bool :=
  match portSpan p, portSpan q with
  | some (a, x, m), some (b, y, n) => sameAgent a b && x < y + n && y < x + m
  | _, _ => false

/-- A held flag of the same agent stands at an overlapping location, and goes first (R150). Stores and flags to other locations are
not held behind it (R160). DEDUCED, log 63: unsafe. -/
def behindFlag (hs : List HeldFlag) (p : Packet) : Bool := hs.any (fun h => portMeets h.packet p)

/-- The first held flag or count packet that may be performed: its counts are reached, and no earlier held one of its agent overlaps. -/
def dueFlag (x : CtxCore) (before : List HeldFlag) : List HeldFlag → Option HeldFlag
  | [] => none
  | h :: r =>
    if countsReach (arrivalCounts x h.packet.src) (carried h.packet) && !behindFlag before h.packet then some h
    else dueFlag x (before ++ [h]) r

/-- Performs held flags and count packets whose counts have been reached, in order of arrival (R160). -/
def releaseHeld (core ctx : Nat) : Nat → State → State
  | 0, s => s
  | fuel + 1, s =>
    let x := ctxOf s core ctx
    match dueFlag x [] x.heldFlags with
    | none => s
    | some h =>
      let s := modCtx s core ctx (fun x => { x with heldFlags := removeFirst (· == h) x.heldFlags })
      releaseHeld core ctx fuel (performFlag s core h.packet (carried h.packet))

/-- EVENT REMOTE_STORE_ARRIVAL (R160, R161, R182): performed, counted and acknowledged, or refused. One to a lost line is written, and the
line stays lost (R50). DESIGN CHOICE, log 91: unsafe. -/
def remoteStoreArrival (s : State) (n : Nat) : State :=
  match arrivedAt s n with
  | none => s
  | some (p, core) =>
    match p.payload with
    | .store off bs holes agent =>
      let x := ctxOf s core p.ctx
      if isApp core || behindFlag x.heldFlags p then s
      else if arrivalsFull x p.src then movePkt s n p (.refused s.cyc)
      else
        let s := portStore (takePkt s n) core p.ctx off bs holes
        let s := traceLog s core p (sizeCode bs.length) false false p.path off
        let s := modCtx s core p.ctx (fun x => setArrivals x p.src (bumpPath (arrivalCounts x p.src) p.path))
        let s := sendAck s core p agent off
        releaseHeld core p.ctx (ctxOf s core p.ctx).heldFlags.length s
    | _ => s

/-- EVENT ORDERED_FLAG_ARRIVAL (R160, R161): performed, held, or refused. -/
def orderedFlagArrival (s : State) (n : Nat) : State :=
  match arrivedAt s n with
  | none => s
  | some (p, core) =>
    let isFlag := match p.payload with
      | .flag _ _ _ _ => true
      | .count _ _ => true
      | _ => false
    let x := ctxOf s core p.ctx
    if !isFlag || isApp core then s
    else if arrivalsFull x p.src then movePkt s n p (.refused s.cyc)
    else if countsReach (arrivalCounts x p.src) (carried p) && !behindFlag x.heldFlags p then
      let s := performFlag (takePkt s n) core p (carried p)
      releaseHeld core p.ctx (ctxOf s core p.ctx).heldFlags.length s
    else modCtx (takePkt s n) core p.ctx (fun x => { x with heldFlags := x.heldFlags ++ [⟨p⟩] })

/-- EVENT COUNT_PACKET_SEND (R161): a sending-table entry that has been idle for 4,096 cycles. -/
def countPacketSend (s : State) (core n : Nat) : State :=
  match (coreOf s core).sendTab[n]? with
  | none => s
  | some e =>
    if s.cyc - e.used < 4096 then s
    else
      modCore (sendCount s core e ⟨core, e.ctx, 0⟩) core (fun k => { k with sendTab := removeFirst (· == e) k.sendTab })

/-- EVENT REMOTE_NACK_RESEND (R161): a refused packet is sent again on the same path 64 cycles later. -/
def remoteNackResend (s : State) (n : Nat) : State :=
  match tget s.net n with
  | none => s
  | some p =>
    match p.pos with
    | .refused t => if kindOf p = 1 ∧ 64 ≤ s.cyc - t then restart s n p else s
    | _ => s

/-! ### Accesses held at home ports (R148-R151, R164, R165) -/

/-- Two lists of pieces touch a common location. -/
def piecesMeet (a b : List (Nat × Nat × List Byte)) : Bool :=
  a.any (fun x => b.any (fun y => x.1 < y.1 + y.2.1 && y.1 < x.1 + x.2.1))

/-- An earlier access of the same agent to an overlapping location is not yet performed (R150). -/
def reqBehind (s : State) (n : Nat) (r : MemReq) : Bool :=
  s.reqs.any (fun q => q.1 < n && sameAgent q.2.agent r.agent && !q.2.performed && piecesMeet q.2.pieces r.pieces)

/-- The part of a held request that a packet is (R442): of the request, or of its answer. -/
def isPortOf (n : Nat) (reply : Bool) (p : Packet) : Bool :=
  match p.payload with
  | .port r _ _ _ => !reply && r == n
  | .portReply r _ _ _ => reply && r == n
  | _ => false

/-- Every part of a held request, or of its answer, has reached its port (R442). -/
def portsIn (s : State) (n : Nat) (reply : Bool) : Bool := s.net.all (fun p => !isPortOf n reply p.2 || p.2.pos == .arrived)

/-- Takes the parts of a held request, or of its answer, off the network. -/
def takePorts (s : State) (n : Nat) (reply : Bool) : State := { s with net := s.net.filter (fun p => !isPortOf n reply p.2) }

/-- A held request may be performed at its home port: it has come, the agent's earlier accesses to its locations are done (R150), and no
two-address atomic keeps them locked (R165). -/
def reqReady (s : State) (n : Nat) (r : MemReq) : Bool :=
  !r.performed && portsIn s n false && !reqBehind s n r && r.pieces.all (fun p => !lockedFor s r.agent p.1 p.2.1)

/-- The answer to an access of this module's memory leaves the port that performed it (R129, R442). Its source address names the port's die
by its first core. DESIGN CHOICE, log 92: unsafe. -/
def memoryAnswer (s : State) (p : Packet) (pa : Nat) (pl : Payload) : State :=
  let die := dieOfMemory pa
  launchPacket s { mkPacket ⟨false, moduleNumber s * 8192 + die * 1024⟩ p.src p.ctx 4 0 0 pl with pos := .inject (Config.dieStop die) }

/-- A held request has been performed: an answer of a kind leaves the port of each of its parts (R442). -/
def answerPorts (s : State) (n kind : Nat) (len : Nat → Nat) : State :=
  (s.net.filter (fun p => isPortOf n false p.2)).foldl (fun t p => match p.2.payload with
    | .port _ _ pa k => memoryAnswer t p.2 pa (.portReply n kind pa (len k))
    | _ => t) (takePorts s n false)

/-- A line that an access reaches is lost: its owner ends, if the access is of the same context (R50, R51). -/
def lostLine (s : State) (ctx loc : Nat) : State := if ownerOf s loc = ctx ∧ ctx ≠ 0 then contextEnd s ctx else s

/-- A held request that reads comes to a line that has been lost since it was issued: it is refused (R50, R51). -/
def performOr (s : State) (n kind : Nat) (r : MemReq) (f : State) : State :=
  match r.pieces.findSome? (fun p => poisonedIn s p.1 p.2.1) with
  | none => f
  | some x =>
    lostLine (answerPorts { s with reqs := tset s.reqs n { r with performed := true, lost := true } } n kind (fun _ => 0)) r.ctx x

/-- A home port performs a load or store request (R148, R49): a store is done then, a load's reply is on its way. A store to a line that
has been lost since is written, and the line stays lost. DESIGN CHOICE, log 91: unsafe. -/
def performReq (s : State) (n : Nat) : State :=
  match tget s.reqs n with
  | none => s
  | some r =>
    if !reqReady s n r then s
    else
      match r.op with
      | .store =>
        let s := answerPorts { s with reqs := tdel s.reqs n } n 9 (fun _ => 0)
        r.pieces.foldl (fun s p => storeAt s r.ctx p.1 p.2.2) s
      | .load =>
        let bs := r.pieces.flatMap (fun p => readBytes s p.1 p.2.1)
        performOr s n 6 r (answerPorts { s with reqs := tset s.reqs n { r with performed := true, result := bs } } n 6 id)
      | _ => s

/-- A packet for this module's memory stands at its port, next of its source, and no two-address atomic of another agent keeps the
bytes locked (R129, R165). -/
def atMemory (s : State) (n : Nat) (p : Packet) (rmod pa size : Nat) (agent : AgentId) : Bool :=
  p.pos == .arrived && rmod == moduleNumber s && !behind s n p && !lockedFor s agent pa size

/-- A packet's access at a home port: answered `.unbacked` where the memory is not backed or its line is lost (R129, R50), else made.
`kind` is that of the reply it would have. -/
def atHome (s : State) (p : Packet) (pa size kind tag : Nat) (agent : AgentId) (f : State → State) : State :=
  if !backed pa then memoryAnswer s p pa (.unbacked kind (some pa) tag agent)
  else
    match poisonedIn s pa size with
    | some x => memoryAnswer (lostLine s p.ctx x) p pa (.unbacked kind (some pa) tag agent)
    | none => f s

/-- A load request, or another module's memory access, that has come by packet is performed and answered (R113, R129). -/
def performPkt (s : State) (n : Nat) : State :=
  match tget s.net n with
  | none => s
  | some p =>
    match p.payload with
    | .memAccess rmod pa size write bs tag agent =>
      if !atMemory s n p rmod pa size agent then s
      else
        atHome (takePkt s n) p pa size (if write then 9 else 6) tag agent (fun s =>
          if write then memoryAnswer (storeAt s p.ctx pa bs) p pa (.reply 9 (some pa) tag [] agent)
          else memoryAnswer s p pa (.reply 6 (some pa) tag (readBytes s pa size) agent))
    | .loadReq off size tag agent =>
      match arrivedAt s n with
      | none => s
      | some (p, core) =>
        if behindFlag (ctxOf s core p.ctx).heldFlags p then s
        else
          let loc := scratchBase core (partOf s core p.ctx) + off
          let t := takePkt s n
          match poisonedIn s loc size with
          | some x => sendPkt (lostLine t p.ctx x) (nodeOf s core) p.src p.ctx 4 0 (.unbacked 3 none tag agent)
          | none => sendPkt t (nodeOf s core) p.src p.ctx 4 0 (.reply 3 none tag (readBytes s loc size) agent)
    | _ => s

/-- EVENT MEMORY_ACCESS_PERFORM (R148): of a request held at a home port, of one that has come by packet, or of a copy's next
piece. -/
def memoryAccessPerform (s : State) (a : AccessRef) : State :=
  match a with
  | .copy cl id => copyStep s cl id
  | .request n => if (tget s.reqs n).isSome then performReq s n else performPkt s n

/-- EVENT ATOMIC_PERFORM (R164): in its home port's write queue, at global memory or at a core's port (R184). -/
def atomicPerform (s : State) (n : Nat) : State :=
  match tget s.reqs n with
  | some r =>
    match r.op, r.pieces with
    | .atomic op wide b e0, [(loc, size, _)] =>
      if !reqReady s n r then s
      else
        let (t, old) := atomAt s r.ctx loc op wide b e0
        performOr s n 8 r (answerPorts { t with reqs := tset t.reqs n { r with performed := true, result := leBytes size old } } n 8 id)
    | _, _ => s
  | none =>
    match tget s.net n with
    | none => s
    | some p =>
      match p.payload with
      | .memAtomic rmod pa op wide b e0 tag agent =>
        let size := if wide then 8 else 4
        if !atMemory s n p rmod pa size agent then s
        else
          atHome (takePkt s n) p pa size 8 tag agent (fun s =>
            let (s, old) := atomAt s p.ctx pa op wide b e0
            memoryAnswer s p pa (.reply 8 (some pa) tag (leBytes size old) agent))
      | _ => coreAtomic s n
where
  /-- An atomic on a scratchpad, at its core's port. -/
  coreAtomic (s : State) (n : Nat) : State :=
    match arrivedAt s n with
    | none => s
    | some (p, core) =>
      match p.payload with
      | .atomic off op wide b e0 tag agent =>
        let size := if wide then 8 else 4
        let loc := scratchBase core (partOf s core p.ctx) + off
        if behindFlag (ctxOf s core p.ctx).heldFlags p then s
        else
          match poisonedIn s loc size with
          | some x => sendPkt (lostLine (takePkt s n) p.ctx x) (nodeOf s core) p.src p.ctx 4 0 (.unbacked 8 none tag agent)
          | none =>
            let (s, old) := atomAt (takePkt s n) p.ctx loc op wide b e0
            let s := traceLog s core p (sizeCode size) true false p.path off
            sendPkt s (nodeOf s core) p.src p.ctx 4 0 (.reply 8 none tag (leBytes size old) agent)
      | _ => s

/-- The lock of one location of a two-address atomic of another module, or its end (R165). -/
def lockPkt (s : State) (n : Nat) : State :=
  match tget s.net n with
  | none => s
  | some p =>
    match p.payload with
    | .memLock rmod pa size tag agent =>
      if !atMemory s n p rmod pa size agent then s
      else
        atHome (takePkt s n) p pa size 8 tag agent (fun s =>
          memoryAnswer { s with locks := s.locks ++ [⟨pa, size, agent⟩] } p pa (.reply 8 (some pa) tag (readBytes s pa size) agent))
    | .memUnlock rmod pa bs tag agent =>
      if p.pos ≠ .arrived ∨ rmod ≠ moduleNumber s ∨ behind s n p then s
      else
        let s := { takePkt s n with locks := removeFirst (fun l => l.loc == pa && sameAgent l.agent agent) s.locks }
        memoryAnswer (storeAt s p.ctx pa bs) p pa (.reply 9 (some pa) tag [] agent)
    | _ => s

/-- EVENT TWO_ADDRESS_ATOMIC_PERFORM (R165): both locations read, compared and written as one event; or the part of one that reaches this
module from another. -/
def twoAddressAtomicPerform (s : State) (n : Nat) : State :=
  match tget s.reqs n with
  | none => lockPkt s n
  | some r =>
    if !reqReady s n r then s
    else
      match r.op, r.pieces with
      | .adcas wide e1 e2 nx ny, [(x, _, _), (y, _, _)] =>
        let size := if wide then 8 else 4
        let (t, ox, oy) := adcasAt s r.ctx x y size e1 e2 nx ny
        performOr s n 8 r
          (answerPorts { t with reqs := tset t.reqs n { r with performed := true, result := leBytes size ox ++ leBytes size oy } } n 8 id)
      | .amove wide v, [(x, _, _), (y, _, _)] =>
        let size := if wide then 8 else 4
        let (t, ox, oy) := amoveAt s r.ctx x y size v
        performOr s n 8 r
          (answerPorts { t with reqs := tset t.reqs n { r with performed := true, result := leBytes size ox ++ leBytes size oy } } n 8 id)
      | _, _ => s

/-! ### Answers -/

/-- Changes the activation of a context on a core, in whichever slot it stands. -/
def mapActs (k : Core) (ctx : Nat) (f : Act → Act) : Core :=
  let g : Frame → Frame := fun x => if x.ctx = ctx then { x with act := x.act.map f } else x
  { k with active := k.active.map g, shadow := k.shadow.map g, streaming := k.streaming.map g, away := k.away.map g }

/-- Brings bytes to the instruction that waits for a tag. -/
def deliver (s : State) (ag : AgentId) (tag : Nat) (bs : List Byte) : State :=
  answer s ag (fun w => if w.tags.contains tag then { w with tags := w.tags.filter (· != tag), bytes := w.bytes ++ bs } else w)

/-- A load's line fills the read-line buffer of the activation that waits for it, dropping the oldest of 8; one that has been switched out
since has an empty buffer when it returns (R151). -/
def fillLine (s : State) (ag : AgentId) (line : Nat) (bs : List Byte) : State :=
  let fill : Act → Act := fun a =>
    let l := a.rlb.filter (fun x => x.line != line)
    { a with rlb := (if 8 ≤ l.length then l.drop 1 else l) ++ [⟨line, bs, s.cyc⟩] }
  let g : Frame → Frame := fun x => if x.ctx = ag.ctx then { x with act := x.act.map fill } else x
  modCore s ag.core (fun k => { k with active := k.active.map g, away := k.away.map g })

/-- The packet has asked another module under a tag. -/
def askedBy (tag : Nat) (p : Packet) : Bool :=
  match p.pos with
  | .link _ => (match p.payload with
    | .loadReq _ _ t _ => t == tag
    | .atomic _ _ _ _ _ t _ => t == tag
    | .memAccess _ _ _ _ _ t _ => t == tag
    | .memAtomic _ _ _ _ _ _ t _ => t == tag
    | .memLock _ _ _ t _ => t == tag
    | .memUnlock _ _ _ t _ => t == tag
    | _ => false)
  | _ => false

/-- Forgets the packet that asked another module under a tag: its answer has come. -/
def dropAsked (s : State) (tag : Nat) : State := { s with net := s.net.filter (fun m => !askedBy tag m.2) }

/-- What a packet that this module sent has written on another one, once its answer has come with some bytes: the first byte, under the
keys by which MON names such lines, and how many. -/
def wroteAway (p : Packet) (bs : List Byte) : Option (Nat × Nat) :=
  let mem := fun (m pa n : Nat) => some ((2 ^ 58 + m * 2 ^ 48) * 64 + pa, n)
  let pad := fun (off n : Nat) => some ((2 ^ 59 + p.dst.addr * 2 ^ 20) * 64 + off, n)
  match p.payload with
  | .memAccess m pa n true _ _ _ => mem m pa n
  | .memAtomic m pa op wide b e0 _ _ => if (atomNew op wide (leNat bs) b.toNat e0.toNat).isSome then mem m pa bs.length else none
  | .memUnlock m pa new _ _ => if new.isEmpty then none else mem m pa new.length
  | .store off new _ _ => pad off new.length
  | .flag off new _ _ => pad off new.length
  | .atomic off op wide b e0 _ _ => if (atomNew op wide (leNat bs) b.toNat e0.toNat).isSome then pad off bs.length else none
  | _ => none

/-- This module's own write of another module's line wakes the watch entries on it once it is answered (R360). What other modules write
there is out of sight. DESIGN CHOICE, log 91: safe. -/
def wakeAway (s : State) (p : Packet) (bs : List Byte) : State :=
  match wroteAway p bs with
  | some (loc, n) => if n = 0 then s else wakeLines s loc n
  | none => s

/-- An answer reaches what its agent has asked under a tag: a run of accesses, or the instruction at pc. -/
def answerTag (s : State) (agent : AgentId) (tag : Nat) (bs : List Byte) : State :=
  let s := match s.net.find? (fun m => askedBy tag m.2) with
    | some m => wakeAway s m.2 bs
    | none => s
  let s := dropAsked s tag
  if s.memos.any (fun m => m.bytes.isNone && m.tag == tag) then answerMemo s tag bs false else deliver s agent tag bs

/-- The refusal of an access whose address is not backed reaches its agent (R129): the lowest such address is kept. -/
def refuseTag (s : State) (agent : AgentId) (tag : Nat) : State :=
  let s := dropAsked s tag
  if s.memos.any (fun m => m.bytes.isNone && m.tag == tag) then answerMemo s tag [] true
  else
    answer s agent (fun w =>
      if w.tags.contains tag then
        let va := ((w.vas.find? (fun v => v.1 == tag)).map (·.2)).getD 1
        { w with
          tags := w.tags.filter (· != tag)
          reply := some (match w.reply with
            | some x => if x.toNat ≤ va.toNat then x else va
            | none => va) }
      else w)

/-- The line of another module's memory that a plain load has asked for, if a reply brings it (R151). -/
def lineBrought (s : State) (p : Packet) : Option (AgentId × Nat) :=
  match p.payload with
  | .reply 6 (some addr) tag bs agent =>
    if bs.length = 64 ∧ addr % 64 = 0 ∧ !s.memos.any (fun m => m.bytes.isNone && m.tag == tag) then
      let m := moduleOf p.src
      some (agent, lineKey (if m = moduleNumber s then none else some m) addr)
    else none
  | _ => none

/-- EVENT LOAD_REPLY_ARRIVAL (R150): a reply reaches its issuing agent. A reply of a whole line fills the read-line buffer. -/
def loadReplyArrival (s : State) (n : Nat) : State :=
  match tget s.reqs n with
  | some r =>
    if !r.performed || !portsIn s n true then s
    else
      let s := takePorts { s with reqs := tdel s.reqs n } n true
      if r.lost then refuseTag s r.agent n
      else
      match r.op, r.pieces with
      | .load, [(loc, 64, _)] => deliver (fillLine s r.agent (loc / 64) r.result) r.agent n []
      | _, _ => deliver s r.agent n r.result
  | none =>
    match arrivedAt s n with
    | none => s
    | some (p, _) =>
      match p.payload with
      | .reply k _ tag bs agent =>
        if k = 9 then s
        else
          match lineBrought s p with
          | some (ag, key) => deliver (fillLine (dropAsked (takePkt s n) tag) ag key bs) ag tag []
          | none => answerTag (takePkt s n) agent tag bs
      | .unbacked _ _ tag agent => refuseTag (takePkt s n) agent tag
      | _ => s

/-- The packet that left the module and that an acknowledgement answers. -/
def ackedBy (p q : Packet) (agent : AgentId) (off path : Nat) : Bool :=
  q.src == p.dst && q.dst == p.src && q.path == path && (match q.pos with
    | .link _ => true
    | _ => false) && (match q.payload with
    | .store o _ _ a => o == off && a == agent
    | .flag o _ _ a => o == off && a == agent
    | _ => false)

/-- EVENT STORE_ACKNOWLEDGEMENT (R153): an acknowledgement reaches the sender. -/
def storeAcknowledgement (s : State) (n : Nat) : State :=
  match arrivedAt s n with
  | none => s
  | some (p, _) =>
    match p.payload with
    | .ack agent off path =>
      let s := takePkt s n
      match s.net.find? (fun m => ackedBy p m.2 agent off path) with
      | some m => wakeAway (takePkt s m.1) m.2 []
      | none => s
    | .reply 9 _ tag bs agent => answerTag (takePkt s n) agent tag bs
    | .portReply _ 9 _ _ => takePkt s n
    | _ => s

/-- EVENT READ_LINE_EXPIRE (R151): a line is dropped 4,096 cycles after it was filled. -/
def readLineExpire (s : State) (core n : Nat) : State :=
  let f : Frame → Frame := fun x => { x with act := x.act.map (fun a =>
    { a with rlb := a.rlb.filter (fun b => !(b.line == n && b.filled + 4096 ≤ s.cyc)) }) }
  modCore s core (fun k => { k with active := k.active.map f, away := k.away.map f })

/-! ### Channel words, drains and parser packets -/

/-- EVENT CHANNEL_WORD_ARRIVAL (R97): up to 16 words a context are held. -/
def channelWordArrival (s : State) (n : Nat) : State :=
  match arrivedAt s n with
  | none => s
  | some (p, core) =>
    match p.payload with
    | .channel w =>
      if 16 ≤ (ctxOf s core p.ctx).q3.length then s
      else modCtx (takePkt s n) core p.ctx (fun x => { x with q3 := x.q3 ++ [w] })
    | _ => s

/-- EVENT DRAIN_WRITE_ARRIVAL (R222, R105): entries land in the drain area from entry `first` up. -/
def drainWriteArrival (s : State) (n : Nat) : State :=
  match arrivedAt s n with
  | none => s
  | some (p, core) =>
    match p.payload with
    | .drain first _ es =>
      let part := partOf s core p.ctx
      es.zipIdx.foldl (fun s e =>
        if drainEntries part ≤ first + e.2 then s
        else storeAt s p.ctx (accBase core part + 6 * (first + e.2)) (leBytes 6 e.1.toNat)) (takePkt s n)
    | _ => s

/-- A note waits for those that the same parser sent before it to other cores: each is a release (R251, R404). -/
def noteHeld (s : State) (n : Nat) (p : Packet) : Bool :=
  s.net.any (fun m => m.1 < n && isNote m.2.payload && m.2.src == p.src && m.2.ctx == p.ctx && liveDst s m.2.dst != liveDst s p.dst)

/-- EVENT REMOTE_CHANGE_ARRIVAL (R251, R252). -/
def remoteChangeArrival (s : State) (n : Nat) : State :=
  match arrivedAt s n with
  | none => s
  | some (p, core) =>
    match p.payload with
    | .change t i op => if noteHeld s n p then s else outsideChange (takePkt s n) core p.ctx t i op
    | _ => s

/-- EVENT VALUE_WRITE_ARRIVAL (R404). -/
def valueWriteArrival (s : State) (n : Nat) : State :=
  match arrivedAt s n with
  | none => s
  | some (p, core) =>
    match p.payload with
    | .value t i v => if noteHeld s n p then s else outsideValue (takePkt s n) core p.ctx t i v
    | _ => s

end Sys2Proof.Machine
end

