-- ==== Sys2Proof/Machine/Vector.lean ====
section
/-!
DEFINITION. Machine/Vector.lean: lanes under a predicate, integer, floating and move instructions, reductions, vector memory
accesses, conversions, X128 and predicate instructions (R319-R339).
-/

namespace Sys2Proof.Machine

/-! ### Lanes (R93, R320, R321) -/

/-- Lane i of a vector register. -/
def lane (v : VReg) (i : Nat) : Lane := v[i]?.getD 0

/-- The enabled lanes receive a result; the others keep their old value (R320). -/
def setLanes (old : VReg) (p : BitVec 16) (f : Nat → Lane) : VReg :=
  Vector.ofFn (fun i => if bit p i.val then f i.val else old[i])

/-- A predicate of 16 bits. -/
def predOf (f : Nat → Bool) : BitVec 16 :=
  BitVec.ofNat 16 ((List.range 16).foldl (fun acc i => acc + (if f i then 2 ^ i else 0)) 0)

/-- The format of an instruction's lanes (R321). -/
def fmtT (t : Bool) : Fmt := if t then f64 else f32

/-- The number of its lanes. -/
def countT (t : Bool) : Nat := if t then 8 else 16

/-- The bits of lane j: binary64 lane j lies in lanes 2j and 2j + 1 (R93). -/
def laneT (t : Bool) (v : VReg) (j : Nat) : Nat :=
  if t then (lane v (2 * j)).toNat + 2 ^ 32 * (lane v (2 * j + 1)).toNat else (lane v j).toNat

/-- Lane j is enabled: binary64 lane j by bit 2j (R93). -/
def onT (t : Bool) (p : BitVec 16) (j : Nat) : Bool := if t then bit p (2 * j) else bit p j

/-- Sets the lanes of a width that have a result. -/
def putT (t : Bool) (old : VReg) (xs : List (Option Nat)) : VReg :=
  Vector.ofFn (fun i =>
    if t then
      match xs.getD (i.val / 2) none with
      | some x => BitVec.ofNat 32 (if i.val % 2 = 0 then x else x / 2 ^ 32)
      | none => old[i]
    else
      match xs.getD i.val none with
      | some x => BitVec.ofNat 32 x
      | none => old[i])

/-- A scalar operand: its low 32 bits, or all of it for binary64 (R321). -/
def scalarT (t : Bool) (x : Word) : Nat := if t then x.toNat else x.toNat % 2 ^ 32

/-- The gate of a form that is extension D (R279, R39). -/
def gateD (i : Instr) (t : Bool) : Gate := if t then { baseGate i with extD := true, feats := [3] } else baseGate i

/-! ### Integer vector operations (R322) -/

/-- Issues an integer operation of two lanes. -/
def vint (i : Instr) (pr : PReg) (a b : VRegN) (c : State → Nat → Lane) (f : Lane → Lane → Lane) (s : State) :
    Host.Outcome State Fault Refusal :=
  issue (baseGate i) (fun s => .ok (wV s a (setLanes (rV s a) (rP s pr) (fun j => f (lane (rV s b) j) (c s j))))) s

/-- Issues a compare into a predicate: the bits of disabled lanes become 0. -/
def vcmp (i : Instr) (pr : PReg) (a : PReg) (b c : VRegN) (f : Lane → Lane → Bool) (s : State) :
    Host.Outcome State Fault Refusal :=
  issue (baseGate i) (fun s =>
    .ok (wP s a (predOf (fun j => bit (rP s pr) j && f (lane (rV s b) j) (lane (rV s c) j))))) s

/-- VADD (R322). -/
def execVadd (pr : PReg) (a b c : VRegN) (s : State) : Host.Outcome State Fault Refusal :=
  vint (.vadd pr a b c) pr a b (fun s => lane (rV s c)) (fun x y => x + y) s

/-- VSUB (R322). -/
def execVsub (pr : PReg) (a b c : VRegN) (s : State) : Host.Outcome State Fault Refusal :=
  vint (.vsub pr a b c) pr a b (fun s => lane (rV s c)) (fun x y => x - y) s

/-- VMUL (R322). -/
def execVmul (pr : PReg) (a b c : VRegN) (s : State) : Host.Outcome State Fault Refusal :=
  vint (.vmul pr a b c) pr a b (fun s => lane (rV s c)) (fun x y => x * y) s

/-- VMULH (R322). -/
def execVmulh (pr : PReg) (a b c : VRegN) (s : State) : Host.Outcome State Fault Refusal :=
  vint (.vmulh pr a b c) pr a b (fun s => lane (rV s c)) (fun x y => mulhF x y) s

/-- VAND (R322). -/
def execVand (pr : PReg) (a b c : VRegN) (s : State) : Host.Outcome State Fault Refusal :=
  vint (.vand pr a b c) pr a b (fun s => lane (rV s c)) (fun x y => x &&& y) s

/-- VOR (R322). -/
def execVor (pr : PReg) (a b c : VRegN) (s : State) : Host.Outcome State Fault Refusal :=
  vint (.vor pr a b c) pr a b (fun s => lane (rV s c)) (fun x y => x ||| y) s

/-- VXOR (R322). -/
def execVxor (pr : PReg) (a b c : VRegN) (s : State) : Host.Outcome State Fault Refusal :=
  vint (.vxor pr a b c) pr a b (fun s => lane (rV s c)) (fun x y => x ^^^ y) s

/-- VSHL (R322). -/
def execVshl (pr : PReg) (a b c : VRegN) (s : State) : Host.Outcome State Fault Refusal :=
  vint (.vshl pr a b c) pr a b (fun s => lane (rV s c)) (fun x y => x <<< (y.toNat % 32)) s

/-- VSHR (R322). -/
def execVshr (pr : PReg) (a b c : VRegN) (s : State) : Host.Outcome State Fault Refusal :=
  vint (.vshr pr a b c) pr a b (fun s => lane (rV s c)) (fun x y => x >>> (y.toNat % 32)) s

/-- VSAR (R322). -/
def execVsar (pr : PReg) (a b c : VRegN) (s : State) : Host.Outcome State Fault Refusal :=
  vint (.vsar pr a b c) pr a b (fun s => lane (rV s c)) (fun x y => x.sshiftRight (y.toNat % 32)) s

/-- VMIN (R322). -/
def execVmin (pr : PReg) (a b c : VRegN) (s : State) : Host.Outcome State Fault Refusal :=
  vint (.vmin pr a b c) pr a b (fun s => lane (rV s c)) (fun x y => if x.slt y then x else y) s

/-- VMAX (R322). -/
def execVmax (pr : PReg) (a b c : VRegN) (s : State) : Host.Outcome State Fault Refusal :=
  vint (.vmax pr a b c) pr a b (fun s => lane (rV s c)) (fun x y => if x.slt y then y else x) s

/-- VMINU (R322). -/
def execVminu (pr : PReg) (a b c : VRegN) (s : State) : Host.Outcome State Fault Refusal :=
  vint (.vminu pr a b c) pr a b (fun s => lane (rV s c)) (fun x y => if x.ult y then x else y) s

/-- VMAXU (R322). -/
def execVmaxu (pr : PReg) (a b c : VRegN) (s : State) : Host.Outcome State Fault Refusal :=
  vint (.vmaxu pr a b c) pr a b (fun s => lane (rV s c)) (fun x y => if x.ult y then y else x) s

/-- VCEQ (R322). -/
def execVceq (pr : PReg) (a : PReg) (b c : VRegN) (s : State) : Host.Outcome State Fault Refusal :=
  vcmp (.vceq pr a b c) pr a b c (fun x y => x == y) s

/-- VCLT (R322). -/
def execVclt (pr : PReg) (a : PReg) (b c : VRegN) (s : State) : Host.Outcome State Fault Refusal :=
  vcmp (.vclt pr a b c) pr a b c (fun x y => x.slt y) s

/-- VCLTU (R322). -/
def execVcltu (pr : PReg) (a : PReg) (b c : VRegN) (s : State) : Host.Outcome State Fault Refusal :=
  vcmp (.vcltu pr a b c) pr a b c (fun x y => x.ult y) s

/-- VADDS (R322). -/
def execVadds (pr : PReg) (a b : VRegN) (c : SReg) (s : State) : Host.Outcome State Fault Refusal :=
  vint (.vadds pr a b c) pr a b (fun s _ => (rS s c).setWidth 32) (fun x y => x + y) s

/-- VMULS (R322). -/
def execVmuls (pr : PReg) (a b : VRegN) (c : SReg) (s : State) : Host.Outcome State Fault Refusal :=
  vint (.vmuls pr a b c) pr a b (fun s _ => (rS s c).setWidth 32) (fun x y => x * y) s

/-- VIOTA (R322). -/
def execViota (pr : PReg) (a : VRegN) (s : State) : Host.Outcome State Fault Refusal :=
  issue (baseGate (.viota pr a)) (fun s => .ok (wV s a (setLanes (rV s a) (rP s pr) (fun j => BitVec.ofNat 32 j)))) s

/-! ### Floating vector operations (R323, R324) -/

/-- Invalid, if an operand is a signalling NaN (R188). -/
def sigFlag (f : Fmt) (cs : List Nat) : Nat := if cs.any f.signalling then fInvalid else 0

/-- Joins the flags of operands and rounding. -/
def withSig (f : Fmt) (cs : List Nat) (r : Nat × Nat) : Nat × Nat := (r.1, r.2 ||| sigFlag f cs)

/-- Writes the enabled lanes' results and raises their flags (R320, R324). -/
def putResults (t : Bool) (s : State) (pr : PReg) (a : VRegN) (r : Nat → Nat × Nat) : State :=
  let rs := (List.range (countT t)).map (fun j => if onT t (rP s pr) j then some (r j) else none)
  raiseFlags (wV s a (putT t (rV s a) (rs.map (fun x => x.map (·.1)))))
    (rs.foldl (fun fl x => match x with
      | some y => fl ||| y.2
      | none => fl) 0)

/-- Issues a floating operation of a = vB, b from `c`, and the old vA (R323). -/
def vflt (i : Instr) (t : Bool) (pr : PReg) (a b : VRegN) (c : State → Nat → Nat) (f : Fmt → Nat → Nat → Nat → Nat × Nat)
    (s : State) : Host.Outcome State Fault Refusal :=
  issue (gateD i t) (fun s =>
    let old := rV s a
    .ok (putResults t s pr a (fun j => f (fmtT t) (laneT t (rV s b) j) (c s j) (laneT t old j)))) s

/-- Issues a floating compare: both bits of a binary64 lane are written; disabled lanes become 0 (R324). -/
def vfcmp (i : Instr) (t : Bool) (pr : PReg) (a : PReg) (b c : VRegN) (quiet : Bool) (f : Ordering → Bool) (s : State) :
    Host.Outcome State Fault Refusal :=
  issue (gateD i t) (fun s =>
    let m := fmtT t
    let one : Nat → Bool × Nat := fun j =>
      let x := laneT t (rV s b) j
      let y := laneT t (rV s c) j
      if m.decode x = .nan || m.decode y = .nan then (false, if quiet then sigFlag m [x, y] else fInvalid)
      else (f (xcmp (m.decode x) (m.decode y)), 0)
    let rs := (List.range (countT t)).map (fun j => if onT t (rP s pr) j then one j else (false, 0))
    .ok (raiseFlags (wP s a (predOf (fun k => (rs.getD (if t then k / 2 else k) (false, 0)).1)))
      (rs.foldl (fun fl x => fl ||| x.2) 0))) s

/-- a + b (R323). -/
def addF (f : Fmt) (x y : Nat) : Nat × Nat := withSig f [x, y] (f.sum [f.decode x, f.decode y])
/-- a · b (R323). -/
def mulF (f : Fmt) (x y : Nat) : Nat × Nat := withSig f [x, y] (f.round ((f.decode x).mul (f.decode y)))
/-- ±a · b ± c, rounded once (R202, R323). -/
def fmaF (np nc : Bool) (f : Fmt) (x y z : Nat) : Nat × Nat :=
  let p := (f.decode x).mul (f.decode y)
  withSig f [x, y, z] (f.sum [if np then p.neg else p, if nc then (f.decode z).neg else f.decode z])
/-- The lesser or greater (R324). -/
def pickF (max_ : Bool) (f : Fmt) (x y : Nat) : Nat × Nat :=
  withSig f [x, y] ((f.round (pickNum max_ (f.decode x) (f.decode y))).1, 0)

/-- VFADD (R323). -/
def execVfadd (t : Bool) (pr : PReg) (a b c : VRegN) (s : State) : Host.Outcome State Fault Refusal :=
  vflt (.vfadd t pr a b c) t pr a b (fun s => laneT t (rV s c)) (fun m x y _ => addF m x y) s

/-- VFSUB (R323). -/
def execVfsub (t : Bool) (pr : PReg) (a b c : VRegN) (s : State) : Host.Outcome State Fault Refusal :=
  vflt (.vfsub t pr a b c) t pr a b (fun s => laneT t (rV s c)) (fun m x y _ => withSig m [x, y] (m.sum [m.decode x, (m.decode y).neg])) s

/-- VFMUL (R323). -/
def execVfmul (t : Bool) (pr : PReg) (a b c : VRegN) (s : State) : Host.Outcome State Fault Refusal :=
  vflt (.vfmul t pr a b c) t pr a b (fun s => laneT t (rV s c)) (fun m x y _ => mulF m x y) s

/-- VFMA (R323). -/
def execVfma (t : Bool) (pr : PReg) (a b c : VRegN) (s : State) : Host.Outcome State Fault Refusal :=
  vflt (.vfma t pr a b c) t pr a b (fun s => laneT t (rV s c)) (fun m x y z => fmaF false false m x y z) s

/-- VFMS (R323). -/
def execVfms (t : Bool) (pr : PReg) (a b c : VRegN) (s : State) : Host.Outcome State Fault Refusal :=
  vflt (.vfms t pr a b c) t pr a b (fun s => laneT t (rV s c)) (fun m x y z => fmaF false true m x y z) s

/-- VFNMA (R323). -/
def execVfnma (t : Bool) (pr : PReg) (a b c : VRegN) (s : State) : Host.Outcome State Fault Refusal :=
  vflt (.vfnma t pr a b c) t pr a b (fun s => laneT t (rV s c)) (fun m x y z => fmaF true false m x y z) s

/-- VFDIV (R323, R324). -/
def execVfdiv (t : Bool) (pr : PReg) (a b c : VRegN) (s : State) : Host.Outcome State Fault Refusal :=
  vflt (.vfdiv t pr a b c) t pr a b (fun s => laneT t (rV s c))
    (fun m x y _ => withSig m [x, y] (m.div (m.decode x) (m.decode y))) s

/-- VFSQRT (R323, R324). -/
def execVfsqrt (t : Bool) (pr : PReg) (a b : VRegN) (s : State) : Host.Outcome State Fault Refusal :=
  vflt (.vfsqrt t pr a b) t pr a b (fun _ _ => 0) (fun m x _ _ => withSig m [x] (m.sqrt (m.decode x))) s

/-- VFMIN (R323, R324). -/
def execVfmin (t : Bool) (pr : PReg) (a b c : VRegN) (s : State) : Host.Outcome State Fault Refusal :=
  vflt (.vfmin t pr a b c) t pr a b (fun s => laneT t (rV s c)) (fun m x y _ => pickF false m x y) s

/-- VFMAX (R323, R324). -/
def execVfmax (t : Bool) (pr : PReg) (a b c : VRegN) (s : State) : Host.Outcome State Fault Refusal :=
  vflt (.vfmax t pr a b c) t pr a b (fun s => laneT t (rV s c)) (fun m x y _ => pickF true m x y) s

/-- VFABS (R323, R324): a bit operation. -/
def execVfabs (t : Bool) (pr : PReg) (a b : VRegN) (s : State) : Host.Outcome State Fault Refusal :=
  vflt (.vfabs t pr a b) t pr a b (fun _ _ => 0) (fun m x _ _ => (x % m.signBit, 0)) s

/-- VFNEG (R323, R324): a bit operation. -/
def execVfneg (t : Bool) (pr : PReg) (a b : VRegN) (s : State) : Host.Outcome State Fault Refusal :=
  vflt (.vfneg t pr a b) t pr a b (fun _ _ => 0) (fun m x _ _ => (x ^^^ m.signBit, 0)) s

/-- VFCEQ (R323, R324). -/
def execVfceq (t : Bool) (pr : PReg) (a : PReg) (b c : VRegN) (s : State) : Host.Outcome State Fault Refusal :=
  vfcmp (.vfceq t pr a b c) t pr a b c true (fun o => o == .eq) s

/-- VFCLT (R323, R324). -/
def execVfclt (t : Bool) (pr : PReg) (a : PReg) (b c : VRegN) (s : State) : Host.Outcome State Fault Refusal :=
  vfcmp (.vfclt t pr a b c) t pr a b c false (fun o => o == .lt) s

/-- VFCLE (R323, R324). -/
def execVfcle (t : Bool) (pr : PReg) (a : PReg) (b c : VRegN) (s : State) : Host.Outcome State Fault Refusal :=
  vfcmp (.vfcle t pr a b c) t pr a b c false (fun o => o != .gt) s

/-- VFADDS (R323). -/
def execVfadds (t : Bool) (pr : PReg) (a b : VRegN) (c : SReg) (s : State) : Host.Outcome State Fault Refusal :=
  vflt (.vfadds t pr a b c) t pr a b (fun s _ => scalarT t (rS s c)) (fun m x y _ => addF m x y) s

/-- VFMULS (R323). -/
def execVfmuls (t : Bool) (pr : PReg) (a b : VRegN) (c : SReg) (s : State) : Host.Outcome State Fault Refusal :=
  vflt (.vfmuls t pr a b c) t pr a b (fun s _ => scalarT t (rS s c)) (fun m x y _ => mulF m x y) s

/-! ### Moves, permutes and reductions (R325-R327) -/

/-- Issues a move of lanes: what each enabled lane receives. -/
def vmove (i : Instr) (pr : PReg) (a : VRegN) (f : State → Nat → Lane) (s : State) : Host.Outcome State Fault Refusal :=
  issue (baseGate i) (fun s => .ok (wV s a (setLanes (rV s a) (rP s pr) (f s)))) s

/-- VMOV (R325). -/
def execVmov (pr : PReg) (a b : VRegN) (s : State) : Host.Outcome State Fault Refusal :=
  vmove (.vmov pr a b) pr a (fun s => lane (rV s b)) s

/-- VSPLAT (R325). -/
def execVsplat (pr : PReg) (a : VRegN) (b : SReg) (s : State) : Host.Outcome State Fault Refusal :=
  vmove (.vsplat pr a b) pr a (fun s _ => (rS s b).setWidth 32) s

/-- VMOVS (R325). -/
def execVmovs (a : SReg) (b : VRegN) (i : BitVec 4) (s : State) : Host.Outcome State Fault Refusal :=
  issue (baseGate (.vmovs a b i)) (fun s => .ok (wS s a ((lane (rV s b) i.toNat).signExtend 64))) s

/-- VINS (R325). -/
def execVins (a : VRegN) (b : SReg) (i : BitVec 4) (s : State) : Host.Outcome State Fault Refusal :=
  issue (baseGate (.vins a b i)) (fun s =>
    .ok (wV s a ((rV s a).set i.toNat ((rS s b).setWidth 32) i.isLt))) s

/-- VPERM (R325). -/
def execVperm (pr : PReg) (a b c : VRegN) (s : State) : Host.Outcome State Fault Refusal :=
  vmove (.vperm pr a b c) pr a (fun s j => lane (rV s b) ((lane (rV s c) j).toNat % 16)) s

/-- VSLIDEUP (R325). -/
def execVslideup (pr : PReg) (a b : VRegN) (c : SReg) (s : State) : Host.Outcome State Fault Refusal :=
  vmove (.vslideup pr a b c) pr a (fun s j =>
    let n := (rS s c).toNat
    if n ≤ j then lane (rV s b) (j - n) else lane (rV s a) j) s

/-- VSLIDEDN (R325). -/
def execVslidedn (pr : PReg) (a b : VRegN) (c : SReg) (s : State) : Host.Outcome State Fault Refusal :=
  vmove (.vslidedn pr a b c) pr a (fun s j =>
    let n := (rS s c).toNat
    if j + n ≤ 15 then lane (rV s b) (j + n) else 0) s

/-- VSEL (R325): every lane is written. -/
def execVsel (pr : PReg) (a b c : VRegN) (s : State) : Host.Outcome State Fault Refusal :=
  issue (baseGate (.vsel pr a b c)) (fun s =>
    .ok (wV s a (setLanes (rV s c) (rP s pr) (fun j => lane (rV s b) j)))) s

/-- The enabled lanes, in ascending order. -/
def enabled (p : BitVec 16) : List Nat := (List.range 16).filter (fun j => bit p j)

/-- VCOMPRESS (R325): every lane is written. -/
def execVcompress (pr : PReg) (a b : VRegN) (s : State) : Host.Outcome State Fault Refusal :=
  issue (baseGate (.vcompress pr a b)) (fun s =>
    let xs := (enabled (rP s pr)).map (fun j => lane (rV s b) j)
    .ok (wV s a (Vector.ofFn (fun i => xs.getD i.val 0)))) s

/-- VEXPAND (R325). -/
def execVexpand (pr : PReg) (a b : VRegN) (s : State) : Host.Outcome State Fault Refusal :=
  vmove (.vexpand pr a b) pr a (fun s j => lane (rV s b) ((enabled (rP s pr)).findIdx (· == j))) s

/-- VREDADD (R326). -/
def execVredadd (pr : PReg) (a : SReg) (b : VRegN) (s : State) : Host.Outcome State Fault Refusal :=
  issue (baseGate (.vredadd pr a b)) (fun s =>
    .ok (wS s a ((enabled (rP s pr)).foldl (fun acc j => acc + (lane (rV s b) j).signExtend 64) 0))) s

/-- Issues a reduction to one rounded sum of the enabled lanes' terms (R202, R203, R326). -/
def vreduce (i : Instr) (t : Bool) (pr : PReg) (a : SReg) (codes : State → Nat → List Nat) (term : List Xv → Xv) (s : State) :
    Host.Outcome State Fault Refusal :=
  issue (gateD i t) (fun s =>
    let m := fmtT t
    let cs := ((List.range (countT t)).filter (fun j => onT t (rP s pr) j)).map (codes s)
    let (c, fl) := withSig m cs.flatten (m.sum (cs.map (fun x => term (x.map m.decode))))
    .ok (raiseFlags (wS s a (BitVec.ofNat 64 c)) fl)) s

/-- VFREDSUM (R326). -/
def execVfredsum (t : Bool) (pr : PReg) (a : SReg) (b : VRegN) (s : State) : Host.Outcome State Fault Refusal :=
  vreduce (.vfredsum t pr a b) t pr a (fun s j => [laneT t (rV s b) j]) (fun x => x.headD Xv.zero) s

/-- VFDOT (R326). -/
def execVfdot (t : Bool) (pr : PReg) (a : SReg) (b c : VRegN) (s : State) : Host.Outcome State Fault Refusal :=
  vreduce (.vfdot t pr a b c) t pr a (fun s j => [laneT t (rV s b) j, laneT t (rV s c) j])
    (fun x => (x.headD Xv.zero).mul (x.getD 1 Xv.zero)) s

/-- VFREDMAX (R326). -/
def execVfredmax (pr : PReg) (a : SReg) (b : VRegN) (s : State) : Host.Outcome State Fault Refusal :=
  issue (baseGate (.vfredmax pr a b)) (fun s =>
    let cs := (enabled (rP s pr)).map (fun j => (lane (rV s b) j).toNat)
    let x := cs.foldl (fun acc c => pickNum true acc (f32.decode c)) (.inf true)
    .ok (raiseFlags (wS s a (BitVec.ofNat 64 (f32.round x).1)) (sigFlag f32 cs))) s

/-- The rank of a lane's magnitude: a NaN above every number, +0 and −0 equal (R327). DEDUCED, log 38: unsafe. -/
def pruneKey (c : Lane) : Nat := Nat.min (c.toNat % 2 ^ 31) 0x7F800001

/-- Lane i is kept: fewer than `keep` lanes of its group rank before it (R327). -/
def pruneKeeps (v : VReg) (group keep i : Nat) : Bool :=
  let base := i / group * group
  ((List.range group).filter (fun k =>
    let j := base + k
    pruneKey (lane v i) < pruneKey (lane v j) || (pruneKey (lane v i) == pruneKey (lane v j) && j < i))).length < keep

/-- VPRUNE (R327). -/
def execVprune (a b : VRegN) (m : Bool) (s : State) : Host.Outcome State Fault Refusal :=
  issue (baseGate (.vprune a b m)) (fun s =>
    let v := rV s b
    let kept := (List.range 16).filter (fun i => if m then pruneKeeps v 8 4 i else pruneKeeps v 4 2 i)
    .ok (wV s a (Vector.ofFn (fun i =>
      if i.val < 8 then lane v (kept.getD i.val 0)
      else if i.val = 8 then (predOf (fun j => kept.contains j)).setWidth 32
      else 0)))) s

/-! ### Vector memory accesses (R328-R334) -/

/-- The form that the C field of VLD, VST, VLDK or VSTK names (R328). -/
def strideForm (pair : Bool) (c : SReg) : VForm :=
  match pair, c == 0 with
  | false, true => .unit | false, false => .strided | true, true => .pairUnit | true, false => .pairStrided

/-- The enabled lanes and their addresses (R329). -/
def laneAddrs (s : State) (f : VForm) (pr : PReg) (b : SReg) (c : SReg) (idx : VReg) : List (Nat × Word) :=
  let base := rS s b
  let pair := f.size == 8
  let step : Word := match f with
    | .strided => rS s c
    | .pairStrided => rS s c
    | .pairUnit => if rangeOf base = .window 6 then 4 else 8
    | _ => 4
  ((List.range (countT pair)).filter (fun j => onT pair (rP s pr) j)).map (fun j =>
    (j, base + if f = .indexed then (lane idx j).setWidth 64 else BitVec.ofNat 64 j * step))

/-- Issues a vector load (R328-R332). -/
def vload (i : Instr) (f : VForm) (pr : PReg) (a : VRegN) (b : SReg) (c : SReg) (idx : VRegN) (s : State) :
    Host.Outcome State Fault Refusal :=
  issue (baseGate i) (fun s =>
    (loadLanes s f (laneAddrs s f pr b c (rV s idx))).res (fun s xs =>
      .ok (wV s a (putT (f.size == 8) (rV s a) ((List.range 16).map (fun j => (xs.find? (fun x => x.1 == j)).map (·.2))))))) s

/-- Issues a vector store (R328-R334). -/
def vstore (i : Instr) (f : VForm) (pr : PReg) (a : VRegN) (b : SReg) (c : SReg) (idx : VRegN) (s : State) :
    Host.Outcome State Fault Refusal :=
  issue (baseGate i) (fun s =>
    (storeLanes s f ((laneAddrs s f pr b c (rV s idx)).map (fun l => (l.1, l.2, laneT (f.size == 8) (rV s a) l.1)))).res
      (fun s _ => .ok s)) s

/-- VLD (R328-R332). -/
def execVld (pr : PReg) (a : VRegN) (b c : SReg) (s : State) : Host.Outcome State Fault Refusal :=
  vload (.vld pr a b c) (strideForm false c) pr a b c 0 s

/-- VST (R328-R333). -/
def execVst (pr : PReg) (a : VRegN) (b c : SReg) (s : State) : Host.Outcome State Fault Refusal :=
  vstore (.vst pr a b c) (strideForm false c) pr a b c 0 s

/-- VLDK (R328-R332). -/
def execVldk (pr : PReg) (a : VRegN) (b c : SReg) (s : State) : Host.Outcome State Fault Refusal :=
  vload (.vldk pr a b c) (strideForm true c) pr a b c 0 s

/-- VSTK (R328-R333). -/
def execVstk (pr : PReg) (a : VRegN) (b c : SReg) (s : State) : Host.Outcome State Fault Refusal :=
  vstore (.vstk pr a b c) (strideForm true c) pr a b c 0 s

/-- VGATH (R328-R332). -/
def execVgath (pr : PReg) (a : VRegN) (b : SReg) (c : VRegN) (s : State) : Host.Outcome State Fault Refusal :=
  vload (.vgath pr a b c) .indexed pr a b 0 c s

/-- VSCAT (R328-R333). -/
def execVscat (pr : PReg) (a : VRegN) (b : SReg) (c : VRegN) (s : State) : Host.Outcome State Fault Refusal :=
  vstore (.vscat pr a b c) .indexed pr a b 0 c s

/-- VSTB (R328, R334). -/
def execVstb (pr : PReg) (a : VRegN) (b : SReg) (s : State) : Host.Outcome State Fault Refusal :=
  vstore (.vstb pr a b) .scaled pr a b 0 0 s

/-! ### Conversions and X128 (R335-R338) -/

/-- A signed integer of a lane width. -/
def laneInt (t : Bool) (c : Nat) : Int := if t then (BitVec.ofNat 64 c).toInt else (BitVec.ofNat 32 c).toInt

/-- A float to an integer of a lane width, ties to even; NaN and out of range raise invalid only (R336). -/
def toIntT (t : Bool) (x : Xv) : Nat × Nat :=
  let n : Nat := if t then 64 else 32
  let hi : Nat := 2 ^ (n - 1) - 1
  match x with
  | .fin neg a b e =>
    let (q, i) := roundInt neg a b e
    if q > (hi : Int) then (hi, fInvalid)
    else if q < -(hi : Int) - 1 then (hi + 1, fInvalid)
    else ((q % 2 ^ n).toNat, if i then fInexact else 0)
  | .inf neg => (if neg then hi + 1 else hi, fInvalid)
  | _ => (0, fInvalid)

/-- VCVTWF (R335). -/
def execVcvtwf (t : Bool) (pr : PReg) (a b : VRegN) (s : State) : Host.Outcome State Fault Refusal :=
  vflt (.vcvtwf t pr a b) t pr a b (fun _ _ => 0) (fun m x _ _ => m.round (Xv.ofInt (laneInt t x) 0)) s

/-- VCVTFW (R335, R336). -/
def execVcvtfw (t : Bool) (pr : PReg) (a b : VRegN) (s : State) : Host.Outcome State Fault Refusal :=
  vflt (.vcvtfw t pr a b) t pr a b (fun _ _ => 0) (fun m x _ _ => toIntT t (m.decode x)) s

/-- VCVTFD (R335): extension D. -/
def execVcvtfd (pr : PReg) (a b : VRegN) (s : State) : Host.Outcome State Fault Refusal :=
  issue (gateD (.vcvtfd pr a b) true) (fun s =>
    let v := rV s b
    .ok (putResults true s pr a (fun j => withSig f32 [laneT false v j] (f64.round (f32.decode (laneT false v j)))))) s

/-- VCVTDF (R335): extension D; lanes 8-15 are unchanged. -/
def execVcvtdf (pr : PReg) (a b : VRegN) (s : State) : Host.Outcome State Fault Refusal :=
  issue (gateD (.vcvtdf pr a b) true) (fun s =>
    let v := rV s b
    let rs := (List.range 8).map (fun j =>
      if bit (rP s pr) j then some (withSig f64 [laneT true v j] (f32.round (f64.decode (laneT true v j)))) else none)
    .ok (raiseFlags (wV s a (putT false (rV s a) (rs.map (fun x => x.map (·.1)))))
      (rs.foldl (fun fl x => fl ||| (x.map (·.2)).getD 0) 0))) s

/-- X128 value j of a vector register (R208). -/
def xLane (v : VReg) (j : Nat) : Nat := laneT true v (2 * j) + 2 ^ 64 * laneT true v (2 * j + 1)

/-- The gate of VXACC and VXRND (R39, R335). -/
def gateX (i : Instr) (t : Bool) : Gate := { gateD i t with feats := if t then [3, 5] else [5] }

/-- VXACC's new value and flags of X128 value j (R337). -/
def xaccStep (l : Int) (old : Nat) (terms : List Xv) : Nat × Nat :=
  let cs := terms.map (fun x => toX128 x l)
  let sum := cs.foldl (fun acc c => acc + x128Int c.1) (x128Int old)
  ((sum % 2 ^ 128).toNat, cs.foldl (fun fl c => fl ||| c.2) (if sum > 2 ^ 127 - 1 || sum < -(2 ^ 127) then fXsat else 0))

/-- VXACC (R337). -/
def execVxacc (t : Bool) (pr : PReg) (a b : VRegN) (s : State) : Host.Outcome State Fault Refusal :=
  issue (gateX (.vxacc t pr a b) t) (fun s =>
    let l := x128L (regs s).x128l
    let v := rV s b
    let per := if t then 2 else 4
    let rs := (List.range 4).map (fun j =>
      xaccStep l (xLane (rV s a) j) (((List.range per).filter (fun k => onT t (rP s pr) (per * j + k))).map (fun k =>
        (fmtT t).decode (laneT t v (per * j + k)))))
    .ok (raiseFlags (wV s a (putT true (rV s a) (rs.flatMap (fun r => [some (r.1 % 2 ^ 64), some (r.1 / 2 ^ 64)]))))
      (rs.foldl (fun fl r => fl ||| r.2) 0))) s

/-- VXRND (R338). -/
def execVxrnd (t : Bool) (pr : PReg) (a b : VRegN) (s : State) : Host.Outcome State Fault Refusal :=
  issue (gateX (.vxrnd t pr a b) t) (fun s =>
    let l := x128L (regs s).x128l
    let v := rV s b
    let rs := (List.range 4).map (fun j => if onT t (rP s pr) j then some ((fmtT t).round (x128Value (xLane v j) l)) else none)
    .ok (raiseFlags (wV s a (putT t (rV s a) (rs.map (fun x => x.map (·.1)))))
      (rs.foldl (fun fl x => fl ||| (x.map (·.2)).getD 0) 0))) s

/-! ### Predicate instructions (R339) -/

/-- PAND (R339). -/
def execPand (a b c : PReg) (s : State) : Host.Outcome State Fault Refusal :=
  issue (baseGate (.pand a b c)) (fun s => .ok (wP s a (rP s b &&& rP s c))) s

/-- POR (R339). -/
def execPor (a b c : PReg) (s : State) : Host.Outcome State Fault Refusal :=
  issue (baseGate (.por a b c)) (fun s => .ok (wP s a (rP s b ||| rP s c))) s

/-- PXOR (R339). -/
def execPxor (a b c : PReg) (s : State) : Host.Outcome State Fault Refusal :=
  issue (baseGate (.pxor a b c)) (fun s => .ok (wP s a (rP s b ^^^ rP s c))) s

/-- PNOT (R339). -/
def execPnot (a b : PReg) (s : State) : Host.Outcome State Fault Refusal :=
  issue (baseGate (.pnot a b)) (fun s => .ok (wP s a (~~~(rP s b)))) s

/-- PSET (R339). -/
def execPset (a : PReg) (b : SReg) (s : State) : Host.Outcome State Fault Refusal :=
  issue (baseGate (.pset a b)) (fun s => .ok (wP s a ((rS s b).setWidth 16))) s

/-- PMOV (R339). -/
def execPmov (a b : PReg) (s : State) : Host.Outcome State Fault Refusal :=
  issue (baseGate (.pmov a b)) (fun s => .ok (wP s a (rP s b))) s

/-- PGET (R339). -/
def execPget (a : SReg) (b : PReg) (s : State) : Host.Outcome State Fault Refusal :=
  issue (baseGate (.pget a b)) (fun s => .ok (wS s a ((rP s b).setWidth 64))) s

/-- PCNT (R339). -/
def execPcnt (a : SReg) (b : PReg) (s : State) : Host.Outcome State Fault Refusal :=
  issue (baseGate (.pcnt a b)) (fun s => .ok (wS s a (BitVec.ofNat 64 (enabled (rP s b)).length))) s

/-- PFIRST (R339). -/
def execPfirst (a : SReg) (b : PReg) (s : State) : Host.Outcome State Fault Refusal :=
  issue (baseGate (.pfirst a b)) (fun s => .ok (wS s a (BitVec.ofNat 64 ((enabled (rP s b)).headD 16)))) s

end Sys2Proof.Machine
end

