-- ==== Sys2Proof/Machine/Matrix.lean ====
section
/-!
DEFINITION. Machine/Matrix.lean: the matrix engine (R212-R222, R375-R384): leases and their turns, the B-store, passes, codes
and drains.
-/

namespace Sys2Proof.Machine

/-! ### Leases (R217) -/

/-- The lease of a context on a core. -/
def leaseOf (s : State) (core ctx : Nat) : Option Lease :=
  (clauseOf s (clauseOfCore core)).leases.find? (fun l => l.core == core && l.ctx == ctx)

/-- Commands of a lease per turn (R218, R220). -/
def leaseCommands (s : State) (l : Lease) : Nat := (ctxOf s l.core l.ctx).entry.lease.toNat

/-- A lease has a command that the engine may take; one that is due to be forfeited is parked first (R220). -/
def leaseReady (l : Lease) : Bool := !l.queue.isEmpty && l.held.isNone && !l.out && l.forfeit != some 0

/-- The place of a physical tile among the leases: free if no lease holds it. -/
def tileFree (c : Clause) (t : Nat) : Bool := !c.leases.any (fun l => l.places.contains (.phys t))

/-- Sets an element of a list. -/
def setAt (l : List α) (i : Nat) (x : α) : List α := l.zipIdx.map (fun y => if y.2 = i then x else y.1)

/-- The matrix engine of a lease as an agent (R138, R375). -/
def matrixWho (s : State) (core ctx : Nat) : Who := engineWho s core ctx (jobUnit 3 0)

/-! ### Parking (R106, R219) -/

/-- The location of park tile p of a context on a core (R105). -/
def parkLoc (s : State) (core ctx p : Nat) : Nat :=
  let w := partOf s core ctx
  poolLoc core ((partBase w + partQ w + partA w - 6 * partPark w + 6 * p) * 16384)

/-- The bytes of a tile: entry 128·column + row at byte 6 times its number (R105). -/
def tileBytes (t : Tab A48) : List Byte := (List.range 16384).flatMap (fun i => leBytes 6 (tgetD t i 0).toNat)

/-- The tile that some bytes hold. -/
def tileOfMem (s : State) (at_ : Nat) : Tab A48 :=
  (List.range 16384).filterMap (fun i =>
    let v : A48 := BitVec.ofNat 48 (readNat s (at_ + 6 * i) 6)
    if v = 0 then none else some (i, v))

/-- Parks tile i of a lease into the lowest free park tile of its core; a tile with no pass moves no data (R219).
DESIGN CHOICE, log 19: unsafe. -/
def parkTile (s : State) (cl core ctx i : Nat) : State :=
  match leaseOf s core ctx with
  | none => s
  | some l =>
    match l.places.getD i .unassigned with
    | .phys t =>
      let map := (ctxOf s core ctx).parkMap
      let p := ((List.range 4).find? (fun p => (tget map p).isNone)).getD 3
      let n := l.passes.getD i 0
      let tile := tgetD (clauseOf s cl).tiles t []
      let s := if n = 0 then s else storeAt s ctx (parkLoc s core ctx p) (tileBytes tile)
      let s := modCtx s core ctx (fun x => { x with parkMap := tset x.parkMap p ⟨i, n⟩ })
      let s := modLease s cl core ctx (fun l => { l with places := setAt l.places i (.parked p) })
      modClause s cl (fun c => { c with tiles := tdel c.tiles t, moves := c.moves + if n = 0 then 0 else 1 })
    | _ => s

/-- Gives tile i of a lease a physical tile: a parked one returns, a never-given one starts at +0 (R212, R219). -/
def giveTile (s : State) (cl core ctx i : Nat) : State :=
  match leaseOf s core ctx with
  | none => s
  | some l =>
    let free := (List.range 4).find? (fun t => tileFree (clauseOf s cl) t)
    match free, l.places.getD i .unassigned with
    | some t, .parked p =>
      let n := l.passes.getD i 0
      if n ≠ 0 && (poisonFault s (matrixWho s core ctx) 0 (parkLoc s core ctx p) 98304).isSome then contextEnd s ctx
      else
      let tile := if n = 0 then [] else tileOfMem s (parkLoc s core ctx p)
      let s := modCtx s core ctx (fun x => { x with parkMap := tdel x.parkMap p })
      let s := modLease s cl core ctx (fun l => { l with places := setAt l.places i (.phys t) })
      modClause s cl (fun c => { c with tiles := tset c.tiles t tile, moves := c.moves + if n = 0 then 0 else 1 })
    | some t, .unassigned =>
      let s := modLease s cl core ctx (fun l => { l with places := setAt l.places i (.phys t) })
      modClause s cl (fun c => { c with tiles := tset c.tiles t [] })
    | _, _ => s

/-- Tiles of other leases in the order in which they are parked: the most recently current lease first, and within it the
highest index first (R219). -/
def victims (c : Clause) (core ctx : Nat) : List (Nat × Nat × Nat) :=
  (sortBy (fun (a b : Lease) => b.lastCurrent < a.lastCurrent) (c.leases.filter (fun l => !(l.core == core && l.ctx == ctx)))).flatMap
    (fun l => (l.places.zipIdx.filterMap (fun p => match p.1 with
      | .phys _ => some (l.core, l.ctx, p.2)
      | _ => none)).reverse)

/-- A new turn of a lease: other leases' tiles are parked as few as needed, then its own return or are assigned (R219). -/
def startTurn (s : State) (cl core ctx : Nat) : State :=
  match leaseOf s core ctx with
  | none => s
  | some l =>
    let c := clauseOf s cl
    let idx := l.places.zipIdx
    let back := (idx.filter (fun p => match p.1 with | .parked _ => true | _ => false)).map (·.2)
    let new := (idx.filter (fun p => match p.1 with | .unassigned => true | _ => false)).map (·.2)
    let free := ((List.range 4).filter (fun t => tileFree c t)).length
    let s := ((victims c core ctx).take (back.length + new.length - free)).foldl (fun s v => parkTile s cl v.1 v.2.1 v.2.2) s
    let s := (back ++ new).foldl (fun s i => giveTile s cl core ctx i) s
    let s := modLease s cl core ctx (fun l => { l with turn := 0, lastCurrent := s.cyc })
    modClause s cl (fun c => { c with current := some (core, ctx) })

/-- The lease that the next turn goes to: highest context priority, then longest waiting (R218). -/
def nextLease (s : State) (ls : List Lease) : Option Lease :=
  bestBy (fun a b =>
    let p := prioOf s b.core b.ctx
    let q := prioOf s a.core a.ctx
    p < q || (p == q && a.waitSince < b.waitSince)) ls

/-- The current lease of a clause. -/
def currentLease (s : State) (cl : Nat) : Option Lease :=
  match (clauseOf s cl).current with
  | some (core, ctx) => leaseOf s core ctx
  | none => none

/-- Ready leases other than one. -/
def otherReady (c : Clause) (l : Lease) : List Lease := c.leases.filter (fun x => leaseReady x && !(x.core == l.core && x.ctx == l.ctx))

/-- The current lease's turn is over: its commands are used up, or it has none, and another lease has one (R218). A held lease
counts as having none. DEDUCED, log 41: unsafe. -/
def turnOver (s : State) (cl : Nat) (l : Lease) : Bool :=
  !(otherReady (clauseOf s cl) l).isEmpty && !l.taken && (!leaseReady l || leaseCommands s l ≤ l.turn)

/-- EVENT LEASE_TURN (R218). -/
def leaseTurn (s : State) (cl : Nat) : State :=
  let c := clauseOf s cl
  if c.moves ≠ 0 then s
  else
    match currentLease s cl with
    | some l =>
      if turnOver s cl l then
        match nextLease s (otherReady c l) with
        | some n =>
          let s := modLease s cl l.core l.ctx (fun l => { l with waitSince := s.cyc })
          startTurn s cl n.core n.ctx
        | none => s
      else s
    | none =>
      match nextLease s (c.leases.filter leaseReady) with
      | some n => startTurn s cl n.core n.ctx
      | none => s

/-- EVENT TILE_MOVE_COMPLETE (R219). -/
def tileMoveComplete (s : State) (cl : Nat) : State := modClause s cl (fun c => { c with moves := c.moves - 1 })

/-- EVENT LEASE_FORFEIT (R220): the commands queued when its context left have finished: its tiles are parked in ascending order, and it
leaves the rotation, or waits for a turn if a later command has re-entered it. -/
def leaseForfeit (s : State) (cl : Nat) : State :=
  match (clauseOf s cl).leases.find? (fun l => l.forfeit == some 0 && l.held.isNone) with
  | none => s
  | some l =>
    let s := (List.range l.places.length).foldl (fun s i => parkTile s cl l.core l.ctx i) s
    let s := modLease s cl l.core l.ctx (fun l => { l with forfeit := none, out := l.queue.isEmpty, waitSince := s.cyc })
    modClause s cl (fun c => { c with current := if c.current = some (l.core, l.ctx) then none else c.current })

/-- Enters a lease in the table; with no current lease its turn begins (R217, R219). -/
def enterLease (s : State) (core ctx tiles : Nat) : State :=
  let cl := clauseOfCore core
  let s := modClause s cl (fun c => { c with leases := c.leases ++
    [{ core := core, ctx := ctx, places := List.replicate tiles .unassigned, passes := List.replicate tiles 0,
       mask := Vector.replicate 16 0, queue := [], turn := 0, waitSince := s.cyc, lastCurrent := 0, out := false, forfeit := none,
       held := none, taken := false, progress := 0 }] })
  if (clauseOf s cl).current.isNone then startTurn s cl core ctx else s

/-- EVENT MLEASE_GRANT (R377): the first waiting request is given a free entry. -/
def mleaseGrant (s : State) (cl : Nat) : State :=
  let c := clauseOf s cl
  match c.leaseReqs with
  | r :: rest =>
    if c.leases.length < 16 then enterLease (modClause s cl (fun c => { c with leaseReqs := rest })) r.core r.ctx r.tiles else s
  | [] => s

/-! ### Instructions that act on the lease table -/

/-- The gate of a matrix instruction. -/
def matrixGate (i : Instr) : Gate := engineGate i []

/-- MLEASE (R377). -/
def execMlease (nw : Bool) (a : SReg) (n : BitVec 3) (s : State) : Host.Outcome State Fault Refusal :=
  issue (matrixGate (.mlease nw a n)) (fun s =>
    let core := home s
    let ctx := ctxId s
    let c := clauseOf s (clauseNow s)
    let w := waitOr s 11 0
    if w.stage = 1 then
      if (leaseOf s core ctx).isSome then .ok (wS s a 0) else .stall s w
    else if (leaseOf s core ctx).isSome then .trap s .lease 1
    else if partPark (partNow s) < n.toNat then .trap s .lease 3
    else if c.leases.length < 16 ∧ c.leaseReqs.isEmpty then .ok (wS (enterLease s core ctx n.toNat) a 0)
    else if nw then .ok (wS s a 1)
    else .stall (modClause s (clauseNow s) (fun c => { c with leaseReqs := c.leaseReqs ++ [⟨core, ctx, n.toNat⟩] })) { w with stage := 1 }) s

/-- Drain writes and wakes of a lease that are on their way. -/
def drainsOut (s : State) (core ctx : Nat) : Bool :=
  s.net.any (fun p => p.2.src == nodeOf s core && p.2.ctx == ctx && (kindOf p.2 == 11 || kindOf p.2 == 12))

/-- MRELEASE (R377, R217). -/
def execMrelease (s : State) : Host.Outcome State Fault Refusal :=
  issue (matrixGate .mrelease) (fun s =>
    let core := home s
    let ctx := ctxId s
    match leaseOf s core ctx with
    | none => .trap s .lease 0
    | some l =>
      if !l.queue.isEmpty || drainsOut s core ctx then .stall s (waitOr s 11 0)
      else
        let gone := l.places.filterMap (fun p => match p with
          | .phys t => some t
          | _ => none)
        let s := modCtx s core ctx (fun x => { x with parkMap := [] })
        .ok (modClause s (clauseNow s) (fun c => { c with
          leases := removeFirst (fun l => l.core == core && l.ctx == ctx) c.leases
          tiles := c.tiles.filter (fun t => !gone.contains t.1)
          current := if c.current = some (core, ctx) then none else c.current }))) s

/-- MSTAT's word (R378). -/
def mstatWord (s : State) (l : Lease) : Word :=
  let parked := (l.places.zipIdx.filter (fun p => match p.1 with | .parked _ => true | _ => false)).foldl (fun n p => n + 2 ^ p.2) 0
  BitVec.ofNat 64 (parked * 2 ^ 10 + (l.places.length - 1) * 2 ^ 8 + l.queue.length * 2 ^ 3 + (if l.out then 4 else 0) +
    (if (clauseOf s (clauseOfCore l.core)).current = some (l.core, l.ctx) then 2 else 0) + 1)

/-- MSTAT (R378): an acquire when nothing is queued. -/
def execMstat (a : SReg) (s : State) : Host.Outcome State Fault Refusal :=
  issue (matrixGate (.mstat a)) (fun s =>
    match leaseOf s (home s) (ctxId s) with
    | none => .ok (wS s a 0)
    | some l => .ok (wS (if l.queue.isEmpty then acquire s else s) a (mstatWord s l))) s

/-! ### Issue of commands (R375, R376) -/

/-- Queues a command; it brings the lease back into the rotation (R218, R220). -/
def pushCmd (s : State) (c : MatCmd) : State :=
  modLease s (clauseNow s) (home s) (ctxId s) (fun l => { l with
    queue := l.queue ++ [c]
    out := false
    waitSince := if l.queue.isEmpty then s.cyc else l.waitSince })

/-- The checks of a command at issue: a lease, its tile, and the operands' limits (R219, R376). -/
def leaseCheck (s : State) (tile : Option Nat) (bad : Bool) : Except (Cause × Word) Lease :=
  match leaseOf s (home s) (ctxId s) with
  | none => .error (.lease, 0)
  | some l =>
    if tile.any (fun t => l.places.length ≤ t) then .error (.lease, 2)
    else if bad then .error (.lease, 5)
    else .ok l

/-- Queues a command if there is room; a seventeenth stalls (R218). -/
def queueCmd (s : State) (l : Lease) (c : MatCmd) (k : State → Res) : Res :=
  if 16 ≤ l.queue.length then .stall s (waitOr s 11 0) else k (pushCmd s c)

/-- A checked command: queued, then held until the engine has taken it and brought its reply (R375). -/
def checkedCmd (s : State) (check : State → Except (Cause × Word) Lease) (c : MatCmd) (done : State → Word → Res) : Res :=
  let w := waitOr s 11 0
  if w.stage = checkedStage then
    match w.reply with
    | some v => done s v
    | none => .stall s w
  else
    orTrap s (check s) (fun l => kick s (queueCmd s l c (fun s => .stall s { w with stage := checkedStage, reply := none })))

/-- Brings the reply of a checked command to its activation. -/
def checkedReply (s : State) (core ctx stage : Nat) (v : Word) : State :=
  answer s ⟨core, ctx, 0⟩ (fun w => if w.stage = stage then { w with reply := some v } else w)

/-- The engine's access has failed: the lease is held at its command (R138). -/
def matrixFault (s : State) (cl core ctx : Nat) (c : Cause) (va : Word) : State :=
  engineFault s core ctx 3 0 c va (fun s => modLease s cl core ctx (fun l => { l with held := some ⟨c, va⟩ }))

/-- A lost line among those a command reads (R50): of the lease's scratchpad (offset, size), or of other memory of the clause (location,
size), which has no address. -/
def readsLost (s : State) (l : Lease) (pool locs : List (Nat × Nat)) : Option (Cause × Word) :=
  if poisonAbout s then
    let w := matrixWho s l.core l.ctx
    let base := scratchBase l.core (partOf s l.core l.ctx)
    let spans : List (Nat × Nat × Nat) :=
      pool.map (fun x => (windowBase + x.1, base + x.1, x.2)) ++ locs.map (fun x => (0, x.1, x.2))
    spans.findSome? (fun x => poisonFault s w x.1 x.2.1 x.2.2)
  else none

/-- The command at the head of a lease's queue is complete. -/
def popCmd (s : State) (cl core ctx : Nat) : State :=
  modLease (forget s core ctx (jobUnit 3 0)) cl core ctx (fun l => { l with
      queue := l.queue.tail, turn := l.turn + 1, progress := 0, taken := false
      forfeit := l.forfeit.map (· - 1) })

/-! ### MLDB (R221, R379) -/

/-- Element width of MLDB's width field. -/
def mldbWidth (e0 : Word) : Nat :=
  match bits e0 33 32 with
  | 0 => 8 | 1 => 4 | _ => 16

/-- The limits of MLDB's e0 (R379). -/
def mldbBad (e0 : Word) : Bool :=
  bits e0 63 45 != 0 || bit e0 15 || bit e0 7 || 128 < bits e0 6 0 + bits e0 14 8 + 1 || 256 < bits e0 23 16 + bits e0 31 24 + 1 ||
  bits e0 33 32 == 3 || mldbWidth e0 < bits e0 38 34 || (bit e0 39 && (bits e0 44 40 < 7 || 16 < bits e0 44 40))

/-- MLDB (R379). -/
def execMldb (b : SReg) (s : State) : Host.Outcome State Fault Refusal :=
  issue (matrixGate (.mldb b)) (fun s =>
    let e0 := rE s 0
    if bits e0 33 32 = 1 ∧ !featureFor s (ctxId s) 7 then .trap s .illegal (Instr.mldb b).tval
    else
      orTrap s (leaseCheck s none (mldbBad e0)) (fun l => kick s (queueCmd s l (.mldb (rS s b) e0) .ok))) s

/-- Reads bytes of MLDB's source, its swizzle undone (R215, R221). -/
def mldbRead (s : State) (w : Who) (swz : Bool) (sh : Nat) (a : Word) (n : Nat) : Nat → Eng (List Byte)
  | 0 => .ok s []
  | fuel + 1 =>
    if n = 0 then .ok s []
    else
      let k := if rangeOf a = .gather then 4 else Nat.min n (if swz then 16 - a.toNat % 16 else 64 - a.toNat % 64)
      (engLoad s w (swizzle swz sh a) k).bind (fun s x =>
        (mldbRead s w swz sh (a + BitVec.ofNat 64 k) (n - k) fuel).bind (fun s y => .ok s (x ++ y)))

/-- A block of elements of w bits from its first p planes (R221). -/
def fromPlanes (w p : Nat) (bs : List Byte) : List Byte :=
  let per := 128 / w
  leBytes 128 ((List.range (1024 / w)).foldl (fun acc e =>
    acc + ((List.range p).foldl (fun v i =>
      v + (if bit (bs.getD (i * per + e / 8) 0) (e % 8) then 2 ^ (w - 1 - i) else 0)) 0) * 2 ^ (w * e)) 0)

/-- Block i of an MLDB, in source order: read, widened, and stored (R221, R379). -/
def mldbBlock (s : State) (cl core ctx : Nat) (src e0 : Word) (i : Nat) : Eng Unit :=
  let n := bits e0 14 8 + 1
  let p := bits e0 38 34
  let w := mldbWidth e0
  let len := if p = 0 then 128 else p * (128 / w)
  (mldbRead s (matrixWho s core ctx) (bit e0 39) (bits e0 44 40) (src + BitVec.ofNat 64 (128 * i)) len 128).bind (fun s bs =>
    let at_ := bstoreLoc cl (32768 * (bits e0 6 0 + i % n) + 128 * (bits e0 23 16 + i / n))
    let s := storeAt s ctx at_ (if p = 0 then bs else fromPlanes w p bs)
    .ok (modLease (forget s core ctx (jobUnit 3 0)) cl core ctx (fun l => { l with progress := i + 1 })) ())

/-- The k-blocks from a given one on. -/
def mldbFrom (s : State) (cl core ctx : Nat) (src e0 : Word) (i : Nat) : Nat → Eng Unit
  | 0 => .ok s ()
  | left + 1 => (mldbBlock s cl core ctx src e0 i).bind (fun s _ => mldbFrom s cl core ctx src e0 (i + 1) left)

/-- The engine runs MLDB: to its end, or to a fault or wait at an access, from which it goes on (R138). -/
def runMldb (s : State) (cl : Nat) (l : Lease) (src e0 : Word) : State :=
  let total := (bits e0 31 24 + 1) * (bits e0 14 8 + 1)
  match mldbFrom s cl l.core l.ctx src e0 l.progress (total - l.progress) with
  | .ok s _ => popCmd s cl l.core l.ctx
  | .wait s => s
  | .fault s c t => matrixFault s cl l.core l.ctx c t

/-! ### MBMETA and MZERO (R380, R383) -/

/-- MBMETA (R380). -/
def execMbmeta (b : VRegN) (s : State) : Host.Outcome State Fault Refusal :=
  issue (matrixGate (.mbmeta b)) (fun s =>
    orTrap s (leaseCheck s none false) (fun l => queueCmd s l (.mbmeta (rV s b)) .ok)) s

/-- MZERO (R383). -/
def execMzero (t : BitVec 2) (s : State) : Host.Outcome State Fault Refusal :=
  issue (matrixGate (.mzero t)) (fun s =>
    orTrap s (leaseCheck s (some t.toNat) false) (fun l => queueCmd s l (.mzero t.toNat) .ok)) s

/-- The physical tile of a lease tile. -/
def physOf (l : Lease) (t : Nat) : Nat :=
  match l.places.getD t .unassigned with
  | .phys x => x
  | _ => 0

/-- A lease tile becomes +0 with no pass. -/
def clearTile (s : State) (cl : Nat) (l : Lease) (t : Nat) : State :=
  let s := modClause s cl (fun c => { c with tiles := tset c.tiles (physOf l t) [] })
  modLease s cl l.core l.ctx (fun l => { l with passes := setAt l.passes t 0 })

/-! ### MMA (R214-R216, R381) -/

/-- Depth of a format's class: 128 for 8-bit, 256 for E2M1, 64 for 16-bit (R214). -/
def depthOf (fmt : Nat) : Nat :=
  match fmt with
  | 0 => 128 | 1 => 128 | 2 => 256 | _ => 64

/-- The exact value of element e of a block of a format (R213). -/
def blockElem (fmt : Nat) (byte : Nat → Nat) (e : Nat) : Xv :=
  match fmt with
  | 0 => t8Value (byte e)
  | 1 => e4m3Value (byte e)
  | 2 => e2m1Value (byte (e / 2) / (if e % 2 = 1 then 16 else 1) % 16)
  | 3 => bf16.decode (byte (2 * e) + 256 * byte (2 * e + 1))
  | _ => f16.decode (byte (2 * e) + 256 * byte (2 * e + 1))

/-- MMA's fields (R381). -/
structure MmaArgs where
  sparse : Nat
  scaled : Bool
  bfmt : Nat
  afmt : Nat
  b0 : Nat
  n : Nat
  j0 : Nat
  p : Nat
  m : Nat
  bsc : Nat
  asc : Nat
  stride : Nat
  off : Nat
  g : Nat
  deriving DecidableEq, Repr

/-- Reads MMA's fields. -/
def mmaArgs (addr e0 e1 : Word) (g : Nat) : MmaArgs where
  sparse := bits e0 48 47
  scaled := bit e0 46
  bfmt := bits e0 45 43
  afmt := bits e0 42 40
  b0 := bits e0 39 32
  n := bits e0 30 24 + 1
  j0 := bits e0 22 16
  p := bits e0 15 8 + 1
  m := bits e0 6 0 + 1
  bsc := bits e1 54 40
  asc := bits e1 39 20
  stride := bits e1 19 0
  off := windowOff addr
  g := g

/-- MMA's operand limits (R381). DEDUCED, log 40: unsafe. -/
def mmaBad (size : Nat) (e0 e1 : Word) (x : MmaArgs) : Bool :=
  let d := depthOf x.afmt
  let blocks := if x.sparse = 0 then x.p else (x.p + 1) / 2
  bits e0 63 49 != 0 || bit e0 31 || bit e0 23 || bit e0 7 || bits e1 63 55 != 0 || 5 ≤ x.bfmt || 5 ≤ x.afmt || x.sparse == 3 ||
  d != depthOf x.bfmt || (x.scaled && d == 64) || 128 < x.j0 + x.n || 256 < x.b0 + blocks || x.stride % 64 != 0 ||
  size < x.off + (x.m - 1) * x.stride + 128 * x.p ||
  (x.scaled && (size < x.asc + x.m * x.p * (d / 16) || 32768 < x.bsc + x.p * (d / 16)))

/-- MMA (R381): queued when dense, checked with sparsity (R375). -/
def execMma (g : BitVec 4) (t : BitVec 2) (b : SReg) (s : State) : Host.Outcome State Fault Refusal :=
  issue (matrixGate (.mma g t b)) (fun s =>
    let a := rS s b
    let e0 := rE s 0
    let e1 := rE s 1
    let x := mmaArgs a e0 e1 g.toNat
    let check : State → Except (Cause × Word) Lease := fun s =>
      if a.toNat % 64 ≠ 0 then .error (.misalign, a)
      else if rangeOf a ≠ .window 0 then .error (.window, a)
      else leaseCheck s (some t.toNat) (mmaBad (scratchSize (partNow s)) e0 e1 x)
    let cmd : MatCmd := .mma t.toNat a e0 e1 g.toNat
    if (x.sparse ≠ 0 ∧ !featureFor s (ctxId s) 6) ∨ ((x.afmt = 2 ∨ x.bfmt = 2) ∧ !featureFor s (ctxId s) 7) then .trap s .illegal (Instr.mma g t b).tval
    else if x.sparse = 0 then orTrap s (check s) (fun l => kick s (queueCmd s l cmd .ok))
    else checkedCmd s check cmd (fun s v => if v = 0 then .ok s else .trap s .lease 4)) s

/-- Bit k of the mask of pass p (R216, R381). -/
def maskBit (mask : VReg) (x : MmaArgs) (p k : Nat) : Bool :=
  bit (lane mask ((x.g + p * (depthOf x.afmt / 32) + k / 32) % 16)) (k % 32)

/-- Every group of the mask of every pass has its count of kept elements (R216). -/
def maskOk (mask : VReg) (x : MmaArgs) : Bool :=
  let grp := if x.sparse = 1 then 4 else 8
  (List.range x.p).all (fun p => (List.range (depthOf x.afmt / grp)).all (fun q =>
    ((List.range grp).filter (fun i => maskBit mask x p (q * grp + i))).length == grp / 2))

/-- The terms of one accumulator entry in one pass (R214, R381). -/
def mmaTerms (s : State) (cl : Nat) (l : Lease) (x : MmaArgs) (p m j : Nat) : List Xv :=
  let part := partOf s l.core l.ctx
  let base := scratchBase l.core part
  let swz := (ctxOf s l.core l.ctx).regs.mswz
  let d := depthOf x.afmt
  let aByte : Nat → Nat := fun i =>
    (readByte s (base + (swizzle (bit swz 8) (bits swz 4 0) (BitVec.ofNat 64 (x.off + m * x.stride + 128 * p + i))).toNat)).toNat
  let slice := bstoreLoc cl (32768 * j)
  let bBase := if x.sparse = 0 then slice + 128 * (x.b0 + p) else slice + 128 * (x.b0 + p / 2) + 64 * (p % 2)
  let bByte : Nat → Nat := fun i => (readByte s (bBase + i)).toNat
  let scale : Nat → Option Int := fun k =>
    if x.scaled then
      match e8m0 (readByte s (base + x.asc + (m * x.p + p) * (d / 16) + k / 16)).toNat,
            e8m0 (readByte s (slice + x.bsc + p * (d / 16) + k / 16)).toNat with
      | some a, some b => some (a + b)
      | _, _ => none
    else some 0
  let term : Nat → Nat → Xv := fun k kb =>
    match scale k with
    | none => .nan
    | some e => ((blockElem x.afmt aByte k).mul (blockElem x.bfmt bByte kb)).scale e
  if x.sparse = 0 then (List.range d).map (fun k => term k k)
  else ((List.range d).filter (fun k => maskBit l.mask x p k)).zipIdx.map (fun k => term k.1 k.2)

/-- One pass on one tile (R214): the new entries of the used rows and columns. -/
def mmaPass (s : State) (cl : Nat) (l : Lease) (x : MmaArgs) (tile : Tab A48) (p : Nat) : Tab A48 :=
  (List.range x.n).foldl (fun t jj => (List.range x.m).foldl (fun t m =>
    let i := 128 * (x.j0 + jj) + m
    let v := (a48.sum (a48.decode (tgetD t i 0).toNat :: mmaTerms s cl l x p m (x.j0 + jj))).1
    tput 0 t i (BitVec.ofNat 48 v)) t) tile

/-- The grains of scratchpad that hold MMA's A elements (R215). -/
def mmaRows (swz : Word) (x : MmaArgs) : List (Nat × Nat) :=
  (List.range x.m).flatMap (fun m => (List.range (8 * x.p)).map (fun i =>
    ((swizzle (bit swz 8) (bits swz 4 0) (BitVec.ofNat 64 (x.off + m * x.stride + 16 * i))).toNat, 16)))

/-- Scratchpad bytes that hold the scales of A (R381). -/
def mmaScales (x : MmaArgs) : List (Nat × Nat) := if x.scaled then [(x.asc, x.m * x.p * (depthOf x.afmt / 16))] else []

/-- B-store bytes that hold MMA's B elements and their scales (R213, R381). -/
def mmaBlocks (cl : Nat) (x : MmaArgs) : List (Nat × Nat) :=
  (List.range x.n).flatMap (fun j =>
    let slice := bstoreLoc cl (32768 * (x.j0 + j))
    (slice + 128 * x.b0, if x.sparse = 0 then 128 * x.p else 64 * x.p) ::
      (if x.scaled then [(slice + x.bsc, x.p * (depthOf x.afmt / 16))] else []))

/-- The engine runs MMA: its passes in ascending k (R204, R381). -/
def runMma (s : State) (cl : Nat) (l : Lease) (t : Nat) (x : MmaArgs) : State :=
  let fin : State → State := fun s => popCmd s cl l.core l.ctx
  if x.sparse ≠ 0 ∧ !maskOk l.mask x then checkedReply (fin s) l.core l.ctx checkedStage 1
  else
    match readsLost s l (mmaRows (ctxOf s l.core l.ctx).regs.mswz x ++ mmaScales x) (mmaBlocks cl x) with
    | some (c, va) => matrixFault s cl l.core l.ctx c va
    | none =>
      let ph := physOf l t
      let tile := (List.range x.p).foldl (fun tile p => mmaPass s cl l x tile p) (tgetD (clauseOf s cl).tiles ph [])
      let s := modClause s cl (fun c => { c with tiles := tset c.tiles ph tile })
      let s := modLease s cl l.core l.ctx (fun l => { l with passes := setAt l.passes t (l.passes.getD t 0 + x.p) })
      if x.sparse = 0 then fin s else checkedReply (fin s) l.core l.ctx checkedStage 0

/-! ### MMACODE (R245, R382) -/

/-- The limits of MMACODE's e0 (R382). DEDUCED, log 40: unsafe. -/
def mmacodeBad (e0 : Word) : Bool := bits e0 63 19 != 0 || bit e0 15 || bit e0 7 || 128 < bits e0 6 0 + bits e0 14 8 + 1

/-- A reply of MMACODE: kind 0 done, 1 a miss, 2 beyond the scratchpad; the code's row, its scratchpad offset, the miss's index. -/
def codeReply (kind row off idx : Nat) : Word := BitVec.ofNat 64 (kind + row * 4 + off * 2 ^ 12 + idx * 2 ^ 36)

/-- MMACODE's e0 once its first c codes are done (R382). -/
def codeRest (e0 : Word) (c : Nat) : Word :=
  BitVec.ofNat 64 (e0.toNat - bits e0 6 0 - bits e0 14 8 * 256 + (bits e0 6 0 + c) + (bits e0 14 8 - c) * 256)

/-- MMACODE (R382). -/
def execMmacode (t : BitVec 2) (b : SReg) (s : State) : Host.Outcome State Fault Refusal :=
  issue (matrixGate (.mmacode t b)) (fun s =>
    let a := rS s b
    let e0 := rE s 0
    let check : State → Except (Cause × Word) Lease := fun s =>
      if a.toNat % 8 ≠ 0 then .error (.misalign, a)
      else if rangeOf a ≠ .window 0 then .error (.window, a)
      else leaseCheck s (some t.toNat) (mmacodeBad e0)
    checkedCmd s check (.mmacode t.toNat a e0) (fun s v =>
      if bits v 1 0 = 0 then .ok s
      else
        let c := bits v 8 2 - bits e0 6 0
        let at_ : Word := BitVec.ofNat 64 (windowBase + bits v 35 12)
        let s := wE (wS s b at_) 0 (codeRest e0 c)
        if bits v 1 0 = 1 then .trap s .glossmiss (BitVec.ofNat 64 (bits v 46 36))
        else .trap s .window (BitVec.ofNat 64 (Nat.max at_.toNat (windowBase + scratchSize (partNow s)))))) s

/-- A pair's gloss entry in column j of a table: bfloat16 code and stamp. -/
def glossEntry (s : State) (cl : Nat) (g : Gloss) (k j : Nat) : Nat × Nat :=
  let v := readNat s (glossLoc cl g k j) 4
  (v % 65536, v / 65536)

/-- The check of one code under R245: none passes, or the value of CR.TVAL. -/
def codeCheck (s : State) (cl ctx gt : Nat) (w1 : Word) (pairs : List (Nat × Xv)) : Option Nat :=
  match glossOf s cl gt with
  | none => some 1024
  | some g =>
    match slotOf s cl ctx g.id with
    | none => some 1024
    | some l =>
      if g.ctx ≠ ctx ∨ codeId w1 ≠ g.id ∨ codeVersion w1 ≠ l.version then some 1024
      else if codeKind w1 ≠ 0 then none
      else
        (pairs.find? (fun p => !g.valid.contains p.1 ||
          (List.range g.m).any (fun i => (glossEntry s cl g p.1 (g.j0 + i)).2 != tgetD l.gens p.1 0))).map (·.1)

/-- Applies one code to a row of a tile (R382). -/
def applyCode (s : State) (cl gt row : Nat) (pairs : List (Nat × Xv)) (tile : Tab A48) : Tab A48 :=
  match glossOf s cl gt with
  | none => tile
  | some g =>
    if pairs.isEmpty then tile
    else
      (List.range g.m).foldl (fun t i =>
        let n := 128 * (g.j0 + i) + row
        let ts := pairs.map (fun p => p.2.mul (bf16.decode (glossEntry s cl g p.1 (g.j0 + i)).1))
        tput 0 t n (BitVec.ofNat 48 (a48.sum (a48.decode (tgetD t n 0).toNat :: ts)).1)) tile

/-- What an MMACODE has come to: the tile, how many of its codes added to it, and the code where it stopped: how many came before it, its
offset, and its reply, or the line it could not read. -/
structure Codes where
  tile : Tab A48
  added : Nat
  count : Nat
  off : Nat
  reply : Word
  lost : Option (Cause × Word)
  deriving DecidableEq, Repr

/-- Memory that the check and the sum of a code's pairs read: gloss entries and the generations of the slot (R244, R245). -/
def glossSpans (s : State) (cl ctx gt : Nat) (pairs : List (Nat × Xv)) : List (Nat × Nat) :=
  match glossOf s cl gt with
  | none => []
  | some g =>
    pairs.flatMap (fun p => (List.range g.m).map (fun i => (glossLoc cl g p.1 (g.j0 + i), 4))) ++
    (match slotOf s cl ctx g.id with
    | none => []
    | some l => pairs.map (fun p => (lexLoc cl (65536 * l.base + 2 * l.n * l.s + 4 * l.n + 2 * p.1), 2)))

/-- MMACODE's codes from one at a scratchpad offset on (R382). -/
def codesFrom (s : State) (cl : Nat) (l : Lease) (gt row0 : Nat) (d : Codes) : Nat → Codes
  | 0 => d
  | left + 1 =>
    let part := partOf s l.core l.ctx
    let size := scratchSize part
    let base := scratchBase l.core part
    let stop : Nat → Nat → Codes := fun kind idx => { d with reply := codeReply kind (row0 + d.count) d.off idx }
    if size < d.off + 8 then stop 2 0
    else
      let w1 := readWord s (base + d.off)
      let lost := readsLost s l [(d.off, 8)] []
      if lost.isSome then { d with lost := lost }
      else if codeBad w1 then stop 1 1024
      else if size < d.off + 8 + 8 * codeEntries w1 then stop 2 0
      else
        let pairs := if codeKind w1 = 0 then
            (List.range (codeCount w1)).map (fun i => codePair (codeFmt w1) (readWord s (base + d.off + 8 + 8 * i)))
          else []
        let lost := readsLost s l [(d.off + 8, 8 * codeEntries w1)] (glossSpans s cl l.ctx gt pairs)
        if lost.isSome then { d with lost := lost }
        else
          match codeCheck s cl l.ctx gt w1 pairs with
          | some v => stop 1 v
          | none =>
            codesFrom s cl l gt row0 { d with
              tile := applyCode s cl gt (row0 + d.count) pairs d.tile
              added := d.added + if pairs.isEmpty then 0 else 1
              count := d.count + 1
              off := d.off + 8 + 8 * codeEntries w1 } left

/-- The engine runs MMACODE (R382). Where a line is lost, the codes from that one on stay queued (R138). -/
def runMmacode (s : State) (cl : Nat) (l : Lease) (t : Nat) (addr e0 : Word) : State :=
  let ph := physOf l t
  let d := codesFrom s cl l (bits e0 18 16) (bits e0 6 0) ⟨tgetD (clauseOf s cl).tiles ph [], 0, 0, windowOff addr, 0, none⟩
    (bits e0 14 8 + 1)
  let s := modClause s cl (fun c => { c with tiles := tset c.tiles ph d.tile })
  let s := modLease s cl l.core l.ctx (fun l => { l with passes := setAt l.passes t (l.passes.getD t 0 + d.added) })
  match d.lost with
  | some (c, va) =>
    let rest : MatCmd := .mmacode t (BitVec.ofNat 64 (windowBase + d.off)) (codeRest e0 d.count)
    matrixFault (modLease s cl l.core l.ctx (fun l => { l with queue := rest :: l.queue.tail })) cl l.core l.ctx c va
  | none => checkedReply (popCmd s cl l.core l.ctx) l.core l.ctx checkedStage d.reply

/-! ### MDRAIN (R222, R384) -/

/-- The limits of MDRAIN's e1 (R384). -/
def mdrainBad (e1 : Word) : Bool := bits e1 63 31 != 0 || bit e1 23 || bits e1 15 10 != 0

/-- MDRAIN (R384). -/
def execMdrain (t : BitVec 2) (b : SReg) (s : State) : Host.Outcome State Fault Refusal :=
  issue (matrixGate (.mdrain t b)) (fun s =>
    checkedCmd s (fun s => leaseCheck s (some t.toNat) (mdrainBad (rE s 1))) (.mdrain t.toNat (rS s b) (rE s 0) (rE s 1) (rE s 2))
      (fun s v => if v = 0 then .ok s else .trap s .draindest (BitVec.ofNat 64 (bits (rS s b) 20 0)))) s

/-- The drain area size that a destination's port returns (R105, R222); that of another module's port is a free value.
DESIGN CHOICE, log 42: safe. -/
def drainArea (s : State) (ctx : Nat) (d : Node) : State × Nat :=
  match takerOf s d with
  | some c => (s, drainEntries (partOf s c ctx))
  | none => (nextFree s, (Config.freeWord s.freeCtr 900).toNat)

/-- Sends a drain's wake: a message, kept by its sender until its acceptance returns (R222, R46). -/
def sendWake (s : State) (core : Nat) (d : Node) (ctx : Nat) (ws : List Word) (src : Nat) : State :=
  let seq := s.ids
  let p := mkPacket (nodeOf s core) d ctx 4 0 3 (.wake ws src seq)
  modCore (launchPacket s p) core (fun k => { k with unacked := k.unacked ++ [⟨seq, d, p⟩] })

/-- Sends a drain's writes and its wake, all on path 0, and zeroes the tile (R222). -/
def sendDrain (s : State) (cl : Nat) (l : Lease) (t : Nat) (d : Node) (e0 e1 e2 : Word) : State :=
  let src := nodeOf s l.core
  let tile := tgetD (clauseOf s cl).tiles (physOf l t) []
  let c0 := bits e1 9 0
  let m := bits e1 22 16 + 1
  let n := bits e1 30 24 + 1
  let s := (List.range n).foldl (fun s j =>
    sendPkt s src d l.ctx 4 0 (.drain (128 * (c0 + j)) m ((List.range m).map (fun r => tgetD tile (128 * j + r) 0)))) s
  let w1 : Word := BitVec.ofNat 64 (128 * c0 + (m - 1) * 2 ^ 17 + (n - 1) * 2 ^ 25 + t * 2 ^ 32)
  let logical := (logicalOf s (ctxOf s l.core l.ctx).entry src).getD (2 ^ 21)
  clearTile (sendWake s l.core d l.ctx [e0, w1, e2] logical) cl l t

/-- The destination's port has answered: the drain proceeds, or MDRAIN raises DRAINDEST (R222). -/
def drainReply (s : State) (cl : Nat) (l : Lease) (t : Nat) (dest e0 e1 e2 : Word) : State :=
  let fin : State → Word → State := fun s v => checkedReply (popCmd s cl l.core l.ctx) l.core l.ctx checkedStage v
  match cmapEntry s (ctxOf s l.core l.ctx).entry (bits dest 20 0) with
  | none => fin s 1
  | some d =>
    if d.host then fin s 1
    else
      let (s, e) := drainArea s l.ctx d
      if e < 128 * (bits e1 9 0 + bits e1 30 24 + 1) then fin s 1
      else fin (sendDrain s cl l t d e0 e1 e2) 0

/-- EVENT DRAIN_SIZE_REPLY (R222): the answer to the current lease's MDRAIN, which the engine has taken. -/
def drainSizeReply (s : State) (cl : Nat) : State :=
  match currentLease s cl with
  | none => s
  | some l =>
    match l.taken, l.queue with
    | true, .mdrain t d e0 e1 e2 :: _ => drainReply s cl l t d e0 e1 e2
    | _, _ => s

/-- EVENT MATRIX_COMMAND_RUN (R218): the engine takes the current lease's next command. Withheld passes wait (R13), those of an
MMACODE among them. DEDUCED, log 40: unsafe. -/
def matrixCommandRun (s : State) (cl : Nat) : State :=
  match currentLease s cl with
  | none => s
  | some l =>
    if (clauseOf s cl).moves ≠ 0 || !leaseReady l || l.taken || turnOver s cl l then s
    else
      match l.queue with
      | [] => s
      | .mldb src e0 :: _ => runMldb s cl l src e0
      | .mbmeta m :: _ => popCmd (modLease s cl l.core l.ctx (fun l => { l with mask := m })) cl l.core l.ctx
      | .mzero t :: _ => popCmd (clearTile s cl l t) cl l.core l.ctx
      | .mma t a e0 e1 g :: _ => if s.module.withheld then s else runMma s cl l t (mmaArgs a e0 e1 g)
      | .mmacode t a e0 :: _ => if s.module.withheld then s else runMmacode s cl l t a e0
      | .mdrain _ _ _ _ _ :: _ => modLease s cl l.core l.ctx (fun l => { l with taken := true })

end Sys2Proof.Machine
end

