-- ==== Sys2Proof/Machine/Signature.lean ====
section
/-!
DEFINITION. Machine/Signature.lean: the signature engine (R256-R260, R405-R411).
-/

namespace Sys2Proof.Machine

/-! ### Leases (R257) -/

/-- The gate of a signature instruction: extension S (R279, R39). -/
def sigGate (i : Instr) : Gate := { engineGate i [2] with extS := true }

/-- The signature lease of a context on a core. -/
def sigLeaseOf (s : State) (core ctx : Nat) : Option SigLease :=
  (clauseOf s (clauseOfCore core)).sigLeases.find? (fun l => l.core == core && l.ctx == ctx)

/-- Changes it. -/
def modSigLease (s : State) (core ctx : Nat) (f : SigLease → SigLease) : State :=
  modClause s (clauseOfCore core) (fun c => { c with
    sigLeases := replaceFirst (fun l => l.core == core && l.ctx == ctx) f c.sigLeases })

/-- The number of entries of levels 1 to n in d dimensions (R257). -/
def sigTotal (d n : Nat) : Nat := ((List.range n).map (fun i => d ^ (i + 1))).sum

/-- The first entry of a level (R258). -/
def sigBase (d n : Nat) : Nat := sigTotal d (n - 1)

/-- Physical slots that no lease holds, lowest first. DESIGN CHOICE, log 19: unsafe. -/
def sigFree (c : Clause) : List Nat := (List.range 4).filter (fun i => !c.sigLeases.any (fun l => l.slots.contains i))

/-- The identity tagged [t, t) (R257, R407). -/
def sigIdentity (t : BitVec 32) : SigSlot := ⟨t, t, []⟩

/-- Enters a lease on the lowest free slots, each the identity tagged [0, 0) (R257). -/
def sigEnter (s : State) (core ctx d n k : Nat) : State :=
  modClause s (clauseOfCore core) (fun c =>
    let slots := (sigFree c).take k
    { c with
      sigLeases := c.sigLeases ++ [⟨core, ctx, d, n, slots, [], 0, s.cyc⟩]
      sigSlots := slots.foldl (fun t i => tset t i (sigIdentity 0)) c.sigSlots })

/-- Ends a lease: its slots are free (R257). -/
def sigEnd (s : State) (core ctx : Nat) : State :=
  modClause s (clauseOfCore core) (fun c => { c with
    sigLeases := c.sigLeases.filter (fun l => !(l.core == core && l.ctx == ctx))
    sigSlots := match c.sigLeases.find? (fun l => l.core == core && l.ctx == ctx) with
      | some l => c.sigSlots.filter (fun t => !l.slots.contains t.1)
      | none => c.sigSlots
    sigCurrent := if c.sigCurrent = some (core, ctx) then none else c.sigCurrent })

/-- The request that is granted next: context priority, then arrival (R257). -/
def sigNextReq (s : State) (c : Clause) : Option SigReq :=
  bestBy (fun a b => prioOf s b.core b.ctx < prioOf s a.core a.ctx) c.sigReqs

/-- EVENT SIGNATURE_LEASE_GRANT (R257). -/
def sigGrant (s : State) (cl : Nat) : State :=
  let c := clauseOf s cl
  match sigNextReq s c with
  | none => s
  | some r =>
    if (sigFree c).length < r.k then s
    else sigEnter (modClause s cl (fun c => { c with sigReqs := removeFirst (· == r) c.sigReqs })) r.core r.ctx r.d r.n r.k

/-- SGCFG (R257, R406): stage 1 waits for the grant. -/
def execSgcfg (a b : SReg) (s : State) : Host.Outcome State Fault Refusal :=
  issue (sigGate (.sgcfg a b)) (fun s =>
    let core := home s
    let ctx := ctxId s
    let x := rS s b
    let d := bits x 4 0
    let n := bits x 11 8
    let k := bits x 18 16
    let w := waitOr s 11 0
    if w.stage = 1 then
      if (sigLeaseOf s core ctx).isSome then .ok (wS s a 0) else .stall s w
    else if k ≠ 0 ∧ (d < 2 ∨ 16 < d ∨ n < 1 ∨ 8 < n ∨ 4 < k ∨ 8190 < sigTotal d n) then .trap s .lease 8
    else kick s (
      if (sigLeaseOf s core ctx).any (fun l => !l.queue.isEmpty) then .stall s w
      else
        let s := if (sigLeaseOf s core ctx).isSome then sigEnd s core ctx else s
        let c := clauseOf s (clauseNow s)
        if k = 0 then .ok (wS s a 0)
        else if c.sigReqs.isEmpty ∧ k ≤ (sigFree c).length then .ok (wS (sigEnter s core ctx d n k) a 0)
        else .stall (modClause s (clauseNow s) (fun c => { c with sigReqs := c.sigReqs ++ [⟨core, ctx, d, n, k⟩] })) { w with stage := 1 })) s

/-! ### Commands (R405, R407-R410) -/

/-- The checks of a command: a lease, and slot indices below its k (R405). -/
def sigCheck (s : State) (is : List Nat) : Except (Cause × Word) SigLease :=
  match sigLeaseOf s (home s) (ctxId s) with
  | none => .error (.lease, 9)
  | some l => if is.any (fun i => l.slots.length ≤ i) then .error (.lease, 10) else .ok l

/-- Queues a command if there is room (R256). -/
def sigPush (s : State) (l : SigLease) (c : SigCmd) (k : State → Res) : Res :=
  if 16 ≤ l.queue.length then .stall s (waitOr s 11 0)
  else k (modSigLease s l.core l.ctx (fun l => { l with
    queue := l.queue ++ [c]
    waitSince := if l.queue.isEmpty then s.cyc else l.waitSince }))

/-- A queued command (R375). -/
def sigQueued (is : List Nat) (c : State → SigCmd) (s : State) : Res :=
  orTrap s (sigCheck s is) (fun l => kick s (sigPush s l (c s) .ok))

/-- SGZERO (R407). -/
def execSgzero (i : BitVec 2) (b : SReg) (s : State) : Host.Outcome State Fault Refusal :=
  issue (sigGate (.sgzero i b)) (sigQueued [i.toNat] (fun s => .zero i.toNat ((rS s b).setWidth 32))) s

/-- SGTAG (R407). -/
def execSgtag (i : BitVec 2) (b c : SReg) (s : State) : Host.Outcome State Fault Refusal :=
  issue (sigGate (.sgtag i b c)) (sigQueued [i.toNat] (fun s => .tag i.toNat ((rS s b).setWidth 32) ((rS s c).setWidth 32))) s

/-- SGSTEP (R408). -/
def execSgstep (i : BitVec 2) (b : VRegN) (s : State) : Host.Outcome State Fault Refusal :=
  issue (sigGate (.sgstep i b)) (sigQueued [i.toNat] (fun s => .step i.toNat (rV s b))) s

/-- SGLOG (R410). -/
def execSglog (i j : BitVec 2) (s : State) : Host.Outcome State Fault Refusal :=
  issue (sigGate (.sglog i j)) (sigQueued [i.toNat, j.toNat] (fun _ => .log i.toNat j.toNat)) s

/-- The stage of the wait of SGJOIN. -/
def joinStage : Nat := 21

/-- SGJOIN (R260, R409): a checked command. -/
def execSgjoin (i j k : BitVec 2) (s : State) : Host.Outcome State Fault Refusal :=
  issue (sigGate (.sgjoin i j k)) (fun s =>
    let w := waitOr s 11 0
    if w.stage = joinStage then
      match w.reply with
      | some v => if bit v 0 then .trap s .seggap (BitVec.ofNat 64 (bits v 32 1)) else .ok s
      | none => .stall s w
    else
      orTrap s (sigCheck s [i.toNat, j.toNat, k.toNat]) (fun l => kick s
        (sigPush s l (.join i.toNat j.toNat k.toNat) (fun s => .stall s { w with stage := joinStage, reply := none })))) s

/-! ### The arithmetic (R408-R410) -/

/-- A tensor: the exact values of levels 1 to N. -/
abbrev Levels := List (List Xv)

/-- The levels of a slot. -/
def sigLevels (x : SigSlot) (d n : Nat) : Levels :=
  (List.range n).map (fun m => (List.range (d ^ (m + 1))).map (fun i => f32.decode (tgetD x.entries (sigBase d (m + 1) + i) 0).toNat))

/-- Entry r of level m of a tensor; level 0 is 1. -/
def levelAt (l : Levels) (m r : Nat) : Xv := if m = 0 then Xv.one else (l.getD (m - 1) []).getD r Xv.zero

/-- The product's term m of entry r of level n: the first m indices of one tensor, the rest of the other. -/
def chenTerm (d : Nat) (a b : Levels) (n r m : Nat) : Xv :=
  (levelAt a m (r / d ^ (n - m))).mul (levelAt b (n - m) (r % d ^ (n - m)))

/-- The product over some range of m by level, each entry one rounding (R408-R410). -/
def chen (d n : Nat) (a b : Levels) (ms : Nat → List Nat) : Levels :=
  (List.range n).map (fun q =>
    let k := q + 1
    (List.range (d ^ k)).map (fun r => f32.decode (f32.sum ((ms k).map (chenTerm d a b k r))).1))

/-- The exponential of an increment (R408). -/
def stepExp (d : Nat) (delta : List Xv) : Nat → Levels
  | 0 => []
  | 1 => [delta]
  | m + 1 =>
    let e := stepExp d delta m
    e ++ [(List.range (d ^ (m + 1))).map (fun r =>
      f32.decode (f32.round (((levelAt e m (r / d)).mul (delta.getD (r % d) Xv.zero)).divNat (m + 1))).1)]

/-- Powers of a tensor without level 0 (R410): a level below the power is absent, and so are its products. -/
def logPowers (d n : Nat) (p1 : Levels) : Nat → List Levels
  | 0 => []
  | 1 => [p1]
  | m + 1 =>
    let ps := logPowers d n p1 m
    -- P_m has its first level at m: the terms run over q = m … k − 1
    ps ++ [chen d n (ps.getLastD []) p1 (fun k => (List.range k).filter (fun q => m ≤ q))]

/-- The logarithm (R410). -/
def sigLog (d n : Nat) (p1 : Levels) : Levels :=
  let ps := logPowers d n p1 n
  (List.range n).map (fun q =>
    let k := q + 1
    (List.range (d ^ k)).map (fun r =>
      f32.decode (f32.sum ((List.range k).map (fun i =>
        let t := (levelAt (ps.getD i []) k r).divNat (i + 1)
        if i % 2 = 1 then t.neg else t))).1))

/-- The stored entries of levels. -/
def levelEntries (l : Levels) : Tab Lane :=
  (l.flatten.zipIdx.filterMap (fun x =>
    let c : Lane := BitVec.ofNat 32 (f32.round x.1).1
    if c = 0 then none else some (x.2, c)))

/-- A command's effect on the slots of its lease; a refused join answers with left.end (R260). -/
def sigRun (slots : Tab SigSlot) (l : SigLease) (c : SigCmd) : Tab SigSlot × Option (BitVec 32) :=
  let ph : Nat → Nat := fun i => l.slots.getD i 0
  let get : Nat → SigSlot := fun i => tgetD slots (ph i) (sigIdentity 0)
  let lv : Nat → Levels := fun i => sigLevels (get i) l.d l.n
  let all : Nat → List Nat := fun k => List.range (k + 1)
  match c with
  | .zero i t => (tset slots (ph i) (sigIdentity t), none)
  | .tag i a b => (tset slots (ph i) { get i with startTag := a, endTag := b }, none)
  | .step i delta =>
    let e := stepExp l.d ((List.range l.d).map (fun k => f32.decode (lane delta k).toNat)) l.n
    (tset slots (ph i) { get i with endTag := (get i).endTag + 1, entries := levelEntries (chen l.d l.n (lv i) e all) }, none)
  | .log i j => (tset slots (ph i) { get j with entries := levelEntries (sigLog l.d l.n (lv j)) }, none)
  | .join i j k =>
    if (get j).endTag ≠ (get k).startTag then (slots, some (get j).endTag)
    else (tset slots (ph i) ⟨(get j).startTag, (get k).endTag, levelEntries (chen l.d l.n (lv j) (lv k) all)⟩, none)

/-- The lease whose command the engine takes next, and whether its turn starts with it (R218, R257). DEDUCED, log 44: unsafe. -/
def sigTurn (s : State) (c : Clause) : Option (SigLease × Bool) :=
  let ready := c.sigLeases.filter (fun l => !l.queue.isEmpty)
  let is : SigLease → Bool := fun l => c.sigCurrent == some (l.core, l.ctx)
  let others := ready.filter (fun l => !is l)
  let best := bestBy (fun (a b : SigLease) =>
    let p := prioOf s b.core b.ctx
    let q := prioOf s a.core a.ctx
    p < q || (p == q && a.waitSince < b.waitSince)) others
  match ready.find? is with
  | some l =>
    if !others.isEmpty ∧ (ctxOf s l.core l.ctx).entry.lease.toNat ≤ l.turn then best.map (fun l => (l, true)) else some (l, false)
  | none => best.map (fun l => (l, true))

/-- EVENT SIGNATURE_COMMAND_RUN (R256, R218). -/
def sigCommandRun (s : State) (cl : Nat) : State :=
  let c := clauseOf s cl
  match sigTurn s c with
  | none => s
  | some (l, new) =>
    let s := if new then
        let s := match c.sigCurrent with
          | some (core, ctx) => modSigLease s core ctx (fun x => { x with waitSince := s.cyc })
          | none => s
        modSigLease (modClause s cl (fun c => { c with sigCurrent := some (l.core, l.ctx) })) l.core l.ctx (fun x => { x with turn := 0 })
      else s
    match l.queue with
    | [] => s
    | cmd :: _ =>
      let (slots, gap) := sigRun c.sigSlots l cmd
      let s := modClause s cl (fun c => { c with sigSlots := slots })
      let s := modSigLease s l.core l.ctx (fun x => { x with queue := x.queue.tail, turn := x.turn + 1 })
      match cmd with
      | .join _ _ _ =>
        checkedReply s l.core l.ctx joinStage (match gap with
          | some t => BitVec.ofNat 64 (1 + 2 * t.toNat)
          | none => 0)
      | _ => s

/-! ### Images (R259, R411) -/

/-- Bytes of an image. -/
def imageSize (l : SigLease) : Nat := 16 + 4 * sigTotal l.d l.n

/-- The checks of SGLD and SGST in their own order: MISALIGN, LEASE 9 and 10, WINDOW (R122, R411). -/
def imageCheck (s : State) (i : BitVec 2) (a : Word) : Except (Cause × Word) (SigLease × Nat) :=
  if a.toNat % 64 ≠ 0 then .error (.misalign, a)
  else
    match sigCheck s [i.toNat] with
    | .error e => .error e
    | .ok l =>
      match winBytes s a (imageSize l) with
      | .error e => .error e
      | .ok o => .ok (l, o)

/-- SGST (R259, R411): after the lease's earlier commands. -/
def execSgst (i : BitVec 2) (b : SReg) (s : State) : Host.Outcome State Fault Refusal :=
  issue (sigGate (.sgst i b)) (fun s =>
    orTrap s (imageCheck s i (rS s b)) (fun x => withWin s (rS s b) (imageSize x.1) (fun _ => kick s (
      let l := x.1
      if !l.queue.isEmpty then .stall s (waitOr s 11 0)
      else
        let slot := tgetD (clauseOf s (clauseNow s)).sigSlots (l.slots.getD i.toNat 0) (sigIdentity 0)
        let head := leBytes 4 slot.startTag.toNat ++ leBytes 4 slot.endTag.toNat ++ leBytes 8 (l.n * 256 + l.d)
        let body := (List.range (sigTotal l.d l.n)).flatMap (fun k => leBytes 4 (tgetD slot.entries k 0).toNat)
        .ok (scratchWrite s x.2 (head ++ body)))))) s

/-- SGLD (R259, R411). -/
def execSgld (i : BitVec 2) (b : SReg) (s : State) : Host.Outcome State Fault Refusal :=
  issue (sigGate (.sgld i b)) (fun s =>
    orTrap s (imageCheck s i (rS s b)) (fun x => withWin s (rS s b) (imageSize x.1) (fun _ => kick s (
      let l := x.1
      let at_ := scratchBase (home s) (partNow s) + x.2
      let w1 := readWord s (at_ + 8)
      if !l.queue.isEmpty then .stall s (waitOr s 11 0)
      else if bits w1 4 0 ≠ l.d ∨ bits w1 11 8 ≠ l.n then .trap s .lease 11
      else
        let es := (List.range (sigTotal l.d l.n)).foldl (fun t k => tput 0 t k (BitVec.ofNat 32 (readNat s (at_ + 16 + 4 * k) 4))) []
        let slot : SigSlot := ⟨BitVec.ofNat 32 (readNat s at_ 4), BitVec.ofNat 32 (readNat s (at_ + 4) 4), es⟩
        .ok (modClause s (clauseNow s) (fun c => { c with sigSlots := tset c.sigSlots (l.slots.getD i.toNat 0) slot })))))) s

end Sys2Proof.Machine
end

