-- ==== Sys2Proof/Machine/Controller.lean ====
section
/-!
DEFINITION. Machine/Controller.lean: the management controller and the host die's ports: start-up (R32, R33), withheld passes
(R13), part failures (R45, R47, R51), scrubbing (R50), notices (R44), MSI-X and card accesses (R31, R139, R146).
-/

namespace Sys2Proof.Machine

/-! ### Start-up (R32, R33) -/

/-- EVENT POWER_ON (R32): start-up begins from standby power. -/
def powerOn (s : State) : State := if s.module.powered then s else { s with module := { s.module with powered := true } }

/-- Fences parts: their bits, and the degraded and replace-me status (R33, R51). DEDUCED, log 52: unsafe. -/
def fenceParts (s : State) (ps : List Part) : State :=
  let new := ps.filter (fun p => !s.module.fenced.contains p)
  if new.isEmpty then s
  else { s with module := { s.module with fenced := s.module.fenced ++ new.eraseDups, degraded := true, replace := true } }

/-- Some compute die with a working stack remains (R33). -/
def someDie (s : State) : Bool :=
  (List.range 8).any (fun d => !partFenced s.module.fenced (.die d) &&
    (List.range 12).any (fun t => dieOfStack t == d && !partFenced s.module.fenced (.stack t)))

/-- Stage 5: every line holds zero data under owner tag 0 (R32). -/
def zeroMemory (s : State) : State :=
  { s with mem := [], undef := [], owners := [], poison := [], clauses := s.clauses.map (fun k => (k.1, { k.2 with lexTags := [] })) }

/-- The wait of an application core that the kernel has not released (R32); the first message to it releases it.
DEDUCED, log 60: unsafe. -/
def bootWait (s : State) : Wait := { Wait.plain s.cyc with kind := 15 }

/-- Stage 7: the kernel image is in HBM; application core 0 starts it and the others wait in privileged mode (R32).
DESIGN CHOICE, log 53: unsafe. No later start or switch loads context 0's entry there (R41). DEDUCED, log 69: unsafe. -/
def startKernel (s : State) : State :=
  let s := writeBytes s 0 0 s.module.flash
  (List.range Config.appCores).foldl (fun s i =>
    let a : Act := { Act.zero with pc := evenPc s.module.flashEntry, priv := true, wait := if i = 0 then none else some (bootWait s) }
    if partFenced s.module.fenced (.core (Config.computeCores + i)) then s
    else modCore s (Config.computeCores + i) (fun k => { k with active := some ⟨0, some a⟩ })) s

/-- Start-up stops (R33). -/
def stopStartup (s : State) : State := { s with module := { s.module with halt := true } }

/-- EVENT STARTUP_STAGE_COMPLETE (R32, R33): the stage that runs completes; stages 4 to 6 may find failed parts. -/
def startupStageComplete (s : State) (failed : List Part) (checksumOk : Bool) : State :=
  if !s.module.powered || s.module.halt || 7 ≤ s.module.stage then s
  else
    let n := s.module.stage + 1
    let s := { s with module := { s.module with stage := n } }
    match n with
    | 1 =>
      let s := { s with module := { s.module with flashSumOk := checksumOk } }
      if checksumOk then s else stopStartup s
    | 4 => fenceParts s failed
    | 5 => fenceParts (zeroMemory s) failed
    | 6 =>
      let s := fenceParts s failed
      if someDie s then s else stopStartup s
    | 7 => startKernel s
    | _ => s

/-! ### Withheld passes (R13) -/

/-- EVENT PASS_WITHHOLD. -/
def passWithhold (s : State) : State := { s with module := { s.module with withheld := true } }

/-- EVENT WITHHELD_PASSES_ISSUED. -/
def withheldPassesIssued (s : State) : State := { s with module := { s.module with withheld := false } }

/-! ### Uncorrectable errors (R50) -/

/-- A privileged trap on application core 0, if it runs (R50). DEDUCED, log 16: unsafe. -/
def hostTrap (s : State) (c : Cause) (tval : Word) : State :=
  let me : Cur := ⟨Config.computeCores, none⟩
  match actAt s me with
  | some _ => { privTrap { s with cur := me } false false c tval with cur := s.cur }
  | none => s

/-- EVENT SCRUB_LINE (R50): a correctable error is corrected in place; an uncorrectable one poisons the line, and ends its owner
or traps application core 0. -/
def scrubLine (s : State) (line : Nat) (uncorrectable : Bool) : State :=
  if !uncorrectable || s.poison.contains line then s
  else
    let owner := ownerOf s (64 * line)
    let s := { s with poison := s.poison ++ [line] }
    if owner ≠ 0 then contextEnd s owner else hostTrap s .uncorrectable (BitVec.ofNat 64 (64 * line))

/-! ### Part failures (R45, R47, R51) -/

/-- The cores of a part. -/
def partCores (p : Part) : List Nat :=
  match p with
  | .core n => [n]
  | .clause n => (List.range 8).map (· + 8 * n)
  | .die n => (List.range 1024).map (· + 1024 * n)
  | _ => []

/-- The clauses of a part. -/
def partClauses (p : Part) : List Nat :=
  match p with
  | .clause n => [n]
  | .die n => (List.range 128).map (· + 128 * n)
  | _ => []

/-- The part kind of R44 kind 4 and its number. -/
def partNumber (s : State) (p : Part) : Nat × Nat :=
  match p with
  | .core n => (0, (nodeOf s n).addr) | .clause n => (1, n) | .die n => (2, n) | .stack n => (3, n) | .link n => (4, n)
  | .ioDie n => (5, n) | .rootPort n => (6, n) | .package n => (7, n)

/-- What a part failure needs of an activation: its context, launch, work id and first message words. -/
structure Started where
  ctx : Nat
  work : Option LaunchRef
  wid : Word
  msg5 : List Word
  deriving DecidableEq, Repr

/-- The started activation of a frame. -/
def startedOf (f : Frame) : Option Started := f.act.map (fun a => ⟨f.ctx, a.work, a.cr.wid, a.msg5⟩)

/-- The live activations of a core: in its slots and in its save area. -/
def startedOn (s : State) (c : Nat) : List Started :=
  let k := coreOf s c
  (k.active.toList ++ k.shadow.toList ++ k.streaming.toList ++ k.away).filterMap startedOf ++
  k.ctxs.filterMap (fun x =>
    if !holdsSlot k x.1 && k.saveb != 0 && bit (tableWord s (frameLoc s c x.1 + 0x958)) 0 then
      x.2.residue.map (fun r => ⟨x.1, r.work, tableWord s (frameLoc s c x.1 + 0x988), r.msg5⟩)
    else none)

/-- A started activation of a failed part is recorded, or with RERUN waits to start again from its handler entry (R47). -/
def failStarted (s : State) (core kind : Nat) (x : Started) : State :=
  let rec_ : State → Word → State := fun s seq =>
    errorRecord s core x.ctx ([BitVec.ofNat 64 (1 + 256 * kind), if x.work.isSome then x.wid else 0, seq] ++
      (List.range 5).map (fun i => x.msg5.getD i 0))
  match x.work with
  | none => rec_ s 0
  | some w =>
    match launchOf s w.die w.seq with
    | none => rec_ s 0
    | some l =>
      if l.rerun then
        let ws := [l.words.getD 0 0, l.words.getD 12 0, l.words.getD 13 0, l.words.getD 14 0, l.words.getD 15 0]
        let m : Msg := ⟨s.ids, x.ctx, ws, 0, bits l.shape 41 40, true, 0, x.wid, l.shape, some w, .message, 0, s.cyc, none⟩
        enqueueMsg (setWorkState s w 0) core m
      else triggerWork (setWorkState (rec_ s (BitVec.ofNat 64 l.seq)) w 3) w

/-- A core stops: no slot holds a frame, and arriving messages are held until a successor is named (R47, R90); what remote stores its
port has counted, and the flags it holds, stay for the successor (R160). -/
def stopCore (s : State) (c : Nat) : State :=
  let k := coreOf s c
  let s := match k.phrase with
    | some p => dissolve s p
    | none => s
  let s := k.ctxs.foldl (fun s x =>
    if !holdsSlot k x.1 && k.saveb != 0 then
      let at_ := frameLoc s c x.1 + 0x958
      writeWord s 0 at_ (tableWord s at_ &&& ~~~(1#64))
    else s) s
  modCore s c (fun k => { Core.init with
    waiting := k.waiting
    hostq := k.hostq
    unacked := k.unacked
    lastSeq := k.lastSeq
    ctxs := k.ctxs.filterMap (fun x => if x.2.arrivals.isEmpty && x.2.heldFlags.isEmpty then none
      else some (x.1, { CtxCore.init with arrivals := x.2.arrivals, heldFlags := x.2.heldFlags }))
    saveb := k.saveb
    tvec := k.tvec
    successor := k.successor
    quiesced := true })

/-- The event bits that a core's sweeps in progress are to set, with their contexts (R70). -/
def sweepSetters (s : State) (c : Nat) : List (Nat × Nat) :=
  (coreOf s c).ctxs.flatMap (fun x => x.2.descs.filterMap (fun d =>
    if (d.2.active || d.2.asleep) && bit d.2.e0 46 then some (x.1, bits d.2.e0 45 38) else none))

/-- Leases and waiting requests of a core end in its clause's engines. -/
def endLeases (s : State) (c : Nat) : State :=
  if isApp c then s
  else
    let cl := clauseOfCore c
    let s := ((clauseOf s cl).sigLeases.filter (fun l => l.core == c)).foldl (fun s l => sigEnd s l.core l.ctx) s
    modClause s cl (fun k =>
      let gone := (k.leases.filter (fun l => l.core == c)).flatMap (fun l => l.places.filterMap (fun p => match p with
        | .phys t => some t
        | _ => none))
      { k with
        leases := k.leases.filter (fun l => l.core != c)
        leaseReqs := k.leaseReqs.filter (fun r => r.core != c)
        sigReqs := k.sigReqs.filter (fun r => r.core != c)
        tiles := k.tiles.filter (fun t => !gone.contains t.1)
        current := match k.current with
          | some (x, y) => if x = c then none else some (x, y)
          | none => none })

/-- Migrated activations that ran on a failed full core: their home cores, and what they were. -/
def ranOn (s : State) (c : Nat) : List (Nat × Started) :=
  s.cores.flatMap (fun k => if k.1 = c then [] else
    (k.2.away.filter (fun f => match f.act with
      | some a => a.runsOn == some c
      | none => false)).filterMap (fun f => (startedOf f).map (fun x => (k.1, x))))

/-- A core fails (R47); its sweeps' setters disarm (R71). -/
def failCore (s : State) (kind c : Nat) : State :=
  let on := startedOn s c
  let guests := ranOn s c
  let sweeps := sweepSetters s c
  let s := endLeases (stopCore s c) c
  let s := sweeps.foldl (fun s x => disarm s x.1 [x.2]) s
  let s := on.foldl (fun s x => failStarted s c kind x) s
  guests.foldl (fun s g =>
    failStarted (modCore s g.1 (fun k => { k with away := k.away.filter (fun f => f.ctx != g.2.ctx) })) g.1 kind g.2) s

/-- A clause fails: its engines' work is gone; the messages of its miss queue are held for their cores' successors (R47). -/
def failClause (s : State) (cl : Nat) : State :=
  let k := clauseOf s cl
  let s := modClause s cl (fun k => { Clause.init with missQueue := k.missQueue })
  let s := k.copies.foldl (fun s j => if bit (j.regs.getD 4 0) 2 then disarm s j.ctx [bits (j.regs.getD 4 0) 23 16] else s) s
  k.colls.foldl (fun s c => if bit (c.words.getD 3 0) 8 then disarm s c.ctx [bits (c.words.getD 3 0) 7 0] else s) s

/-- Launches that a part failure meets before acceptance are refused with status 2 (R45, R60). DEDUCED, log 48: unsafe. -/
def refuseLaunches (s : State) : State :=
  let early : List Launch := s.launches.filter (fun (l : Launch) => l.stage == LaunchStage.journaling)
  let s := early.foldl (fun (s : State) (l : Launch) => answerStatus s l.agent 2) s
  let s : State := { s with launches := s.launches.filter (fun (l : Launch) => l.stage != LaunchStage.journaling) }
  (s.dies.map (fun x => x.1)).foldl (fun (s : State) (d : Nat) =>
    let s := (dieOf s d).requests.foldl (fun (s : State) (r : LaunchReq) =>
      let st := launchStatus s d r
      answerStatus s r.agent (BitVec.ofNat 64 (if st = 0 then 2 else st))) s
    modDie s d (fun k => { k with requests := [] })) s

/-- The messages that stand at failed links are lost, and their senders' copies go out again (R46). -/
def loseMessages (s : State) (ls : List Nat) : State :=
  { s with net := s.net.map (fun p => (p.1, if ls.any (fun l => p.2.pos == .link l) && isMessage p.2 then { p.2 with pos := .lost } else p.2)) }

/-- The module links of a part (R37). -/
def partLinks (p : Part) : List Nat :=
  match p with
  | .link l => [l]
  | .ioDie d => (List.range 12).map (· + 12 * d)
  | _ => []

/-- EVENT PART_FAILURE (R47, R51): the part is fenced, its bits are set, a notice goes out, and what ran on it is settled. -/
def partFailure (s : State) (p : Part) : State :=
  if s.module.fenced.contains p then s
  else
    let (kind, number) := partNumber s p
    let s := refuseLaunches (fenceParts s [p])
    let s := (partCores p).foldl (fun s c => if (tget s.cores c).isSome then failCore s kind c else modCore s c (fun k => { k with quiesced := true })) s
    let s := loseMessages ((partClauses p).foldl failClause s) (partLinks p)
    let s := match p with
      | .die d =>
        -- the next live die's launch unit takes over the queues and evaluates them (R47)
        let s := { s with dies := tdel s.dies d }
        let to_ := liveDie s d
        ((s.launches.map (·.ctx)).eraseDups).foldl (fun s ctx => evalLaunches (ensureMirror s ctx to_) ctx to_) s
      | .stack n => { s with launches := s.launches.map (fun x => { x with journal := x.journal.filter (· != n) }) }
      | _ => s
    notice s 4 [BitVec.ofNat 64 kind, BitVec.ofNat 64 number, modStateWord s, 0]

/-! ### Notices and MSI-X (R44, R31) -/

/-- A notice's handler address fails the check of R99 against context 0's entry, which is live: an error record of the notice and a
privileged HBOUNDS take its place. DESIGN CHOICE, log 64: unsafe. -/
def noticeRefused (s : State) (h : Word) (ws : List Word) : State :=
  hostTrap (errorRecord s Config.computeCores 0 ([0x36#64, 0, 0] ++ (List.range 5).map (fun i => ws.getD i 0))) .hbounds h

/-- EVENT NOTICE_DELIVERY (R44, R99): the oldest notice enters application core 0's receive queue when it has room. -/
def noticeDelivery (s : State) : State :=
  match s.module.notices with
  | [] => s
  | n :: rest =>
    let core := Config.computeCores
    if 256 ≤ hostLoad s core then s
    else
      let w1 := BitVec.ofNat 64 ((n.headD 0).toNat + Nat.min 65535 s.module.noticesLost * 256)
      let h := s.module.noticeh
      let ws := h :: w1 :: n.tail
      let m : Msg := ⟨s.ids, 0, ws, 2, 3, true, 0, 0, 0, none, .message, 0, s.cyc, none⟩
      let t := { s with module := { s.module with notices := rest, noticesLost := 0 } }
      if ctxState s 0 = 1 ∧ !handlerOk (tableEntry s 0) h then noticeRefused t h ws else hostEnqueue t core m

/-- EVENT MSIX_VECTOR (R31): a message to the application core named for the vector: of context 0 and priority 3, with origin 2, no source
and one word that is left open; one that finds the core's receive queue full is dropped. DESIGN CHOICE, log 30: unsafe. -/
def msixVector (s : State) (port vector : Nat) : State :=
  match tget s.module.msix (65536 * port + vector) with
  | none => s
  | some i =>
    let core := Config.computeCores + i % 32
    if partFenced s.module.fenced (.rootPort port) || 256 ≤ hostLoad s core then s
    else
      let m : Msg := ⟨s.ids, 0, [Config.msixWord port vector 0], 2, 3, true, 0, 0, 0, none, .message, 0, s.cyc, none⟩
      hostEnqueue s core m

/-! ### Card accesses (R139, R144, R146) -/

/-- A function's index in the port function table (R146). -/
def functionIndex (r : PortReq) : Nat := 65536 * r.port + r.requester

/-- The location of a function's entry in the port function table (R146). -/
def functionLoc (s : State) (r : PortReq) : Nat := bits s.module.pftab 47 12 * 4096 + 32 * functionIndex r

/-- Words 0 and 1 of the function entry in force for a request, which is read once and held until it is invalidated (R146).
DESIGN CHOICE, log 65: unsafe. -/
def functionEntry (s : State) (r : PortReq) : State × (Word × Word) :=
  match tget s.module.portFns (functionIndex r) with
  | some e => (s, e)
  | none =>
    let e := (tableWord s (functionLoc s r), tableWord s (functionLoc s r + 8))
    ({ s with module := { s.module with portFns := tset s.module.portFns (functionIndex r) e } }, e)

/-- The agent of a function, for a request of a number (R130, R134, R146). -/
def portWho (s : State) (n : Nat) (r : PortReq) (e : Word × Word) : Who :=
  let ctx := bits e.1 11 0
  let unit := jobUnit 7 n
  { agent := unitAgent (2 ^ 20 + functionIndex r) ctx unit, unit := unit, ctx := ctx, asid := bits e.1 47 32,
    root := bits e.2 47 16 * 65536, priv := ctx == 0, group := none, tlb := .port r.port, node := ⟨true, moduleNumber s * 8192⟩ }

/-- Returns a read's completion to its card; a posted write has none. -/
def portReply (s : State) (r : PortReq) (status : Nat) (bs : List Byte) : State :=
  if r.write then s else { s with module := { s.module with portDone := s.module.portDone ++ [⟨r.port, r.requester, status, bs⟩] } }

/-- The completion of a read that is not performed: Unsupported Request or Completer Abort (R139). -/
def portStatus (c : Cause) : Nat :=
  match c with
  | .notmapped => 1
  | .walknonres => 1
  | .walkremote => 1
  | _ => 2

/-- A card access that is not performed: its completion and its notice (R139, R44). -/
def portRefuse (s : State) (r : PortReq) (cause : Nat) (status : Nat) : State :=
  notice (portReply s r status []) 3 [BitVec.ofNat 64 (r.port % 8 + r.requester % 65536 * 65536), BitVec.ofNat 64 cause, r.va, 0]

/-- The accesses of a card's request: its bytes read, or stored. -/
def portAccess (s : State) (w : Who) (r : PortReq) : Eng (List Byte) :=
  if rangeOf r.va ≠ .paged then .fault s .notmapped r.va
  else if r.write then (writeMem s w r.va r.bytes).bind (fun s _ => .ok s [])
  else readMem s w r.va r.len

/-- A card's request goes as far as it can: the state, and whether it is settled (R139, R144, R146). -/
def portServe (s : State) (n : Nat) (r : PortReq) : State × Bool :=
  let (s, e) := functionEntry s r
  if !bit e.1 63 then (portRefuse s r 0 1, true)
  else
    let w := portWho s n r e
    match portAccess s w r with
    | .ok s bs => (portReply (forget s w.agent.core w.ctx w.unit) r 0 bs, true)
    | .fault s c _ =>
      let s := forget (endWalks s w) w.agent.core w.ctx w.unit
      (portRefuse (if c = .uncorrectable then contextEnd s w.ctx else s) r c.code (portStatus c), true)
    | .wait s => (s, false)

/-- A held request leaves its port. -/
def dropHeldPort (s : State) (n : Nat) : State :=
  { s with module := { s.module with portHeld := s.module.portHeld.filter (fun h => h.id != n) } }

/-- The requests held at the ports try again, in order of arrival (R144); a fenced port drops its own (R51). -/
def portsAgain (s : State) : State :=
  s.module.portHeld.foldl (fun s h =>
    if partFenced s.module.fenced (.rootPort h.req.port) then dropHeldPort s h.id
    else
      match portServe s h.id h.req with
      | (t, true) => dropHeldPort t h.id
      | (t, false) => t) s

/-- EVENT PORT_REQUEST (R139, R146): a card's access. While its page migrates, or an answer is awaited, the request is held at the
port (R144). -/
def portRequest (s : State) (r : PortReq) : State :=
  if partFenced s.module.fenced (.rootPort r.port) then s
  else
    match portServe (newId s) s.ids r with
    | (t, true) => t
    | (t, false) => { t with module := { t.module with portHeld := t.module.portHeld ++ [⟨s.ids, r⟩] } }

/-! ### Walkers that wait (R144) -/

/-- What waits for a walker, a page or an answer and is issued again by no instruction tries again: error records (R48) and card
requests (R144). -/
def retryHeld (s : State) : State :=
  if s.faultPending.isEmpty && s.module.portHeld.isEmpty then s else portsAgain (flushRecords s)

/-- What is kept of a context that is not live, apart from its place in memory: its event vector starts from 0, its fault queue empty, its
drop counts with its next allotment, and its features when its entry is freed (R38, R48, R55, R251). -/
def forgetContext (s : State) (ctx : Nat) : State :=
  { s with
    evec := tdel s.evec ctx
    evHome := tdel s.evHome ctx
    mirrorQ := s.mirrorQ.filter (fun m => m.1 != ctx)
    dies := s.dies.map (fun d => (d.1, { d.2 with mirrors := tdel d.2.mirrors ctx }))
    faultCount := tdel s.faultCount ctx
    cores := s.cores.map (fun c => (c.1, { c.2 with ctxs := c.2.ctxs.map (fun x =>
      (x.1, if x.1 = ctx then { x.2 with drops := [], dropsAt := none } else x.2)) }))
    module := { s.module with early := s.module.early.filter (fun c => c != ctx || ctxState s ctx != 0) } }

/-- Contexts of which something is kept that lasts no longer than they are live. -/
def keptContexts (s : State) : List Nat :=
  s.evec.map (·.1) ++ s.evHome.map (·.1) ++ s.mirrorQ.map (·.1) ++ s.dies.flatMap (fun d => d.2.mirrors.map (·.1)) ++
  s.faultCount.map (·.1) ++ s.module.early ++
  s.cores.flatMap (fun c => (c.2.ctxs.filter (fun x => x.2.dropsAt.isSome)).map (·.1))

/-- A context that is no longer live is forgotten, so that one made live under its number begins afresh. -/
def settleContexts (s : State) : State :=
  ((keptContexts s).filter (fun c => c != 0 && ctxState s c != 1)).foldl forgetContext s

/-- A walker's state changes. -/
def walkGoes (s : State) (n : Nat) (w : Walk) (st : Nat) : State := { s with walks := tset s.walks n { w with st := st } }

/-- EVENT WALK_MIGRATING_REREAD (R144): the waiting walker goes on once it reads M = 0, unless its time is over. -/
def walkReread (s : State) (n : Nat) : State :=
  match tget s.walks n with
  | none => s
  | some w =>
    if w.st ≠ 0 then s
    else if w.start + 4096 < s.cyc then walkGoes s n w 2
    else if movedOn s w then walkGoes s n w 1
    else s

/-- EVENT WALK_MIGRATING_TIMEOUT (R144): 4,096 cycles after it first read M = 1, the walk ends with MIGRATING. -/
def walkTimeout (s : State) (n : Nat) : State :=
  match tget s.walks n with
  | none => s
  | some w => if w.st = 0 ∧ 4096 ≤ s.cyc - w.start then walkGoes s n w 2 else s

/-- EVENT PAGE_WALK (R129): a walker translates an address for the activation in a core's active slot, ahead of any access. A walk
that passes is buffered, and sets no bit, for no access is made (R133); one that waits takes a walker; one that faults leaves nothing
(R140). -/
def pageWalk (s : State) (core : Nat) (va : Word) (k : AccKind) : State :=
  match actAt s ⟨core, none⟩ with
  | none => s
  | some _ =>
    let w := whoAt s ⟨core, none⟩
    match translateAll s w k [(va.toNat, 1)] with
    | .ok _ ls =>
      let mine : Walk → Bool := fun x => x.agent == w.agent && x.unit == w.unit && x.va == va.toNat
      ls.foldl (fun s e => tlbFill s w.tlb e) { s with walks := s.walks.filter (fun x => !mine x.2) }
    | .wait a h => startWalk s w a h
    | .fault _ _ => s

end Sys2Proof.Machine
end

