-- ==== Sys2Proof/Machine/Removal.lean ====
section
/-!
DEFINITION. Machine/Removal.lean: CORE_REMOVAL (R90, R91, R162, R217): a core leaves every partition it belongs to, and a
successor of the module takes its place.
-/

namespace Sys2Proof.Machine

/-! ### When the removal may go on -/

/-- A context has an activation, or messages, on a core. -/
def liveOn (s : State) (c ctx : Nat) : Bool :=
  let k := coreOf s c
  (startedOn s c).any (fun x => x.ctx == ctx) || k.waiting.any (fun m => m.ctx == ctx)

/-- The contexts that a removal moves: every context of the core, context 0 only if it is live there; of a fenced core, none. -/
def movedCtxs (s : State) (c : Nat) : List Nat :=
  if partFenced s.module.fenced (.core c) then []
  else ((coreOf s c).ctxs.map (fun x => x.1)).filter (fun x => x != 0 || liveOn s c x)

/-- An agent's accesses are issued on a core: its own, or those of an activation that has migrated to it (R162). -/
def issuesOn (s : State) (c : Nat) (a : AgentId) : Bool :=
  a.core == c || (coreOf s a.core).away.any (fun f => f.ctx == a.ctx && match f.act with
    | some x => x.runsOn == some c && x.serial == a.serial
    | none => false)

/-- A packet of an access that a core issued and that is not complete (R162): the access, a step or count packet, or its answer, which a
fenced core takes no more. -/
def openAccess (s : State) (c : Nat) (p : Packet) : Bool :=
  let mine : AgentId → Bool := issuesOn s c
  let back := !partFenced s.module.fenced (.core c)
  match p.payload with
  | .count _ a => mine a || p.src == nodeOf s c
  | .step _ _ _ _ => p.src == nodeOf s c
  | .unbacked _ _ _ a => back && mine a
  | .reply _ _ _ _ a => back && mine a
  | .ack a _ _ => back && mine a
  | _ => match pendingAgent p with
    | some a => mine a
    | none => isNote p.payload && p.src == nodeOf s c

/-- Every access issued on a core has been performed, and none of its packets awaits an answer (R162). -/
def quietCore (s : State) (c : Nat) : Bool :=
  !s.reqs.any (fun r => issuesOn s c r.2.agent) && !s.net.any (fun p => openAccess s c p.2) &&
  !s.cores.any (fun k => k.2.ctxs.any (fun x => x.2.heldFlags.any (fun h => openAccess s c h.packet)))

/-- Entries of a clause's miss queue that stand for messages to a core. -/
def missesOf (s : State) (c : Nat) : List (Nat × MissEntry) := (clauseOf s (clauseOfCore c)).missQueue.filter (fun e => e.2.core == c)

/-- The places that the parked messages of a core take in another clause's miss queue: each its own number, or the first free one. -/
def missPlaces (s : State) (c d : Nat) : List (Nat × Nat) :=
  if clauseOfCore c = clauseOfCore d then []
  else
    let there := (clauseOf s (clauseOfCore d)).missQueue
    (missesOf s c).foldl (fun acc e =>
      let free : Nat → Bool := fun n => (tget there n).isNone && !acc.any (fun p => p.2 == n)
      acc ++ [(e.1, if free e.1 then e.1 else ((List.range 32).find? free).getD 31)]) []

/-- A waiting version miss under the new place of its message. -/
def renameMiss (places : List (Nat × Nat)) (m : Msg) : Msg :=
  match m.start with
  | .versionMiss n => { m with start := .versionMiss (tgetD places n n) }
  | _ => m

/-- The successor's clause has room for the core's leases and parked messages; copies and programs end first if the clause changes
(R217, R242, R258). -/
def clauseRoom (s : State) (c d : Nat) : Bool :=
  let a := clauseOf s (clauseOfCore c)
  let b := clauseOf s (clauseOfCore d)
  a.moves == 0 && !a.leases.any (fun l => l.core == c && l.taken) &&
  (clauseOfCore c == clauseOfCore d ||
    (!a.copies.any (fun j => j.core == c) && !a.colls.any (fun j => j.core == c) &&
      (missesOf s c).length ≤ missRoom s (clauseOfCore d) &&
      b.leases.length + (a.leases.filter (fun l => l.core == c)).length ≤ 16 &&
      ((a.sigLeases.filter (fun l => l.core == c)).map (fun l => l.slots.length)).sum ≤ (sigFree b).length))

/-- A core's slots hold no running activation, and none of them moves. -/
def slotsStill (k : Core) : Bool := idle k && !k.switching && k.streamIn.isNone && !k.streamOut

/-- The removal may go on from the quiesced core to its successor. DEDUCED, log 46: unsafe. -/
def removalReady (s : State) (c d : Nat) : Bool :=
  let k := coreOf s d
  c != d && !isApp c && !isApp d && !k.quiesced && !partFenced s.module.fenced (.core d) && quietCore s c && clauseRoom s c d &&
  (partFenced s.module.fenced (.core c) ||
    ((k.saveb != 0 || slotsStill k) && (movedCtxs s c).all (fun x => (tget k.ctxs x).isNone)))

/-! ### What moves -/

/-- A location in the pool of the core, moved to the same offset of the successor's pool. -/
def poolMoved (c d loc : Nat) : Nat := if loc / 2 ^ 20 = 2 ^ 28 + c then poolLoc d (loc % 2 ^ 20) else loc

/-- Copies bytes with their lines' owner tags. -/
def copyBytes (s : State) (from_ to_ : Nat) : Nat → State
  | 0 => s
  | n + 1 => copyBytes (writeByte s (ownerOf s from_) to_ (readByte s from_)) (from_ + 1) (to_ + 1) n

/-- Copies a context's allotment: queue, accumulator and scratchpad units (R90, R102, R106), an uncorrectable line as one (R50). -/
def copyPool (s : State) (c d ctx : Nat) : State :=
  let p := partOf s c ctx
  let lo := partBase p * 16384
  let n := (partQ p + partA p + partS p) * 16384
  let bad := (s.poison.filter (fun l => poolLoc c lo ≤ 64 * l && 64 * l < poolLoc c lo + n)).map (fun l => lineOf (poolMoved c d (64 * l)))
  let s := copyBytes s (poolLoc c lo) (poolLoc d lo) n
  { s with poison := s.poison ++ bad.filter (fun l => !s.poison.contains l) }

/-- A migrated activation goes on at a full core of the successor's clause (R86). -/
def rehome (s : State) (c d : Nat) (f : Frame) : Frame :=
  if clauseOfCore c = clauseOfCore d then f
  else { f with act := f.act.map (fun a => { a with runsOn := match migrateTarget s d with
    | some t => some t
    | none => a.runsOn }) }

/-- The full core at which an activation of a home core goes on whose full core is removed: the successor, if it is one of the home's
clause, or the clause's other one (R86, R90). -/
def guestTarget (s : State) (home d : Nat) : Nat :=
  if clauseOfCore d = clauseOfCore home ∧ hasExtD d then d else (migrateTarget s home).getD d

/-- The activations that migrated to the removed core go on elsewhere (R90, R91). -/
def moveGuests (s : State) (c d : Nat) : State :=
  { s with cores := s.cores.map (fun k => (k.1, { k.2 with away := k.2.away.map (fun f =>
      { f with act := f.act.map (fun a => if a.runsOn = some c then { a with runsOn := some (guestTarget s k.1 d) } else a) }) })) }

/-- Stores frames without an activation for the contexts of a core that hold no slot there: it had no save area until now (R104). -/
def saveIdle (s : State) (core : Nat) (cs : List Nat) : State :=
  cs.foldl (fun s x => if holdsSlot (coreOf s core) x then s else saveFrame s core ⟨x, none⟩) s

/-- Gives the successor a save area, if it had none: the removed core's (R79, R90). -/
def giveArea (s : State) (c d : Nat) : State :=
  let k := coreOf s c
  let m := coreOf s d
  if m.saveb ≠ 0 ∨ k.saveb = 0 then s
  else saveIdle (modCore s d (fun m => { m with saveb := k.saveb })) d (m.ctxs.map (·.1))

/-- Moves the saved frames of contexts that hold no slot. -/
def copyFrames (s : State) (c d : Nat) (cs : List Nat) : State :=
  let k := coreOf s c
  if (coreOf s d).saveb = k.saveb then s
  else if k.saveb = 0 then (cs.filter (fun x => !holdsSlot k x)).foldl (fun s x => saveFrame s d ⟨x, none⟩) s
  else cs.foldl (fun s x => if holdsSlot k x then s else copyBytes s (frameLoc s c x) (frameLoc s d x) 4096) s

/-- Moves the three slots (R90, R91): as they are to a successor that runs nothing, whose own frames are saved, else as saved frames. -/
def moveSlots (s : State) (c d : Nat) : State :=
  let k := coreOf s c
  let m := coreOf s d
  if slotsStill m then
    let s := if m.saveb = 0 then s else (m.active.toList ++ m.shadow.toList).foldl (fun s f =>
      saveFrame s d { f with act := f.act.map switchedOut }) s
    modCore s d (fun m => { m with
      active := k.active
      shadow := k.shadow
      streaming := k.streaming
      switching := k.switching
      streamIn := k.streamIn
      streamOut := k.streamOut
      goal := k.goal
      donation := k.donation })
  else
    (k.active.toList ++ k.shadow.toList ++ k.streaming.toList).foldl (fun s f =>
      saveFrame s d { f with act := f.act.map switchedOut }) s

/-- Moves the core's leases, requests and jobs to the successor's clause engines (R217, R258). -/
def moveEngines (s : State) (c d : Nat) : State :=
  let cl := clauseOfCore c
  let cd := clauseOfCore d
  let a := clauseOf s cl
  let mineL := a.leases.filter (fun l => l.core == c)
  let s := mineL.foldl (fun s l => (List.range l.places.length).foldl (fun s i => parkTile s cl c l.ctx i) s) s
  let a := clauseOf s cl
  let leases := (a.leases.filter (fun l => l.core == c)).map (fun (l : Lease) => { l with core := d })
  let reqs := (a.leaseReqs.filter (fun r => r.core == c)).map (fun (r : LeaseReq) => { r with core := d })
  let sreqs := (a.sigReqs.filter (fun r => r.core == c)).map (fun (r : SigReq) => { r with core := d })
  let sigs := a.sigLeases.filter (fun l => l.core == c)
  let s := modClause s cl (fun k => { k with
    leases := k.leases.filter (fun l => l.core != c)
    leaseReqs := k.leaseReqs.filter (fun r => r.core != c)
    sigReqs := k.sigReqs.filter (fun r => r.core != c)
    sigLeases := k.sigLeases.filter (fun l => l.core != c)
    copies := k.copies.map (fun j => if j.core = c then { j with core := d } else j)
    colls := k.colls.map (fun j => if j.core = c then { j with core := d } else j)
    missQueue := if cl = cd then k.missQueue.map (fun e => (e.1, if e.2.core = c then { e.2 with core := d } else e.2)) else k.missQueue
    current := match k.current with
      | some (x, y) => if x = c then none else some (x, y)
      | none => none
    sigCurrent := match k.sigCurrent with
      | some (x, y) => if x = c then none else some (x, y)
      | none => none })
  let s := modClause s cd (fun k => { k with
    leases := k.leases ++ leases
    leaseReqs := k.leaseReqs ++ reqs
    sigReqs := k.sigReqs ++ sreqs })
  sigs.foldl (fun s (l : SigLease) =>
    if cl = cd then modClause s cd (fun k => { k with sigLeases := k.sigLeases ++ [{ l with core := d }] })
    else
      let to_ := (sigFree (clauseOf s cd)).take l.slots.length
      let old := (clauseOf s cl).sigSlots
      let s := modClause s cl (fun k => { k with sigSlots := l.slots.foldl (fun t i => tdel t i) k.sigSlots })
      modClause s cd (fun k => { k with
        sigLeases := k.sigLeases ++ [{ l with core := d, slots := to_ }]
        sigSlots := (l.slots.zip to_).foldl (fun t p => match tget old p.1 with
          | some x => tset t p.2 x
          | none => tdel t p.2) k.sigSlots })) s

/-- Adds two lists of four counts. -/
def addCounts (a b : List Nat) : List Nat := (List.range 4).map (fun i => a.getD i 0 + b.getD i 0)

/-- Sending-table entries with those of the removed core under the successor's name, one for a destination and context. -/
def renameSends (from_ to_ : Node) (es : List SendEntry) : List SendEntry :=
  es.foldl (fun acc e =>
    let e := if e.dst = from_ then { e with dst := to_ } else e
    match acc.find? (fun x => x.dst == e.dst && x.ctx == e.ctx) with
    | some x => replaceFirst (fun y => y == x)
        (fun x => { x with counts := addCounts x.counts e.counts, used := Nat.max x.used e.used, since := Nat.min x.since e.since }) acc
    | none => acc ++ [e]) []

/-- What the removed core's port has counted, or holds, for a context goes to the successor's (R160). -/
def moveArrivals (s : State) (d : Nat) (x : Nat × CtxCore) : State :=
  if x.2.arrivals.isEmpty && x.2.heldFlags.isEmpty then s
  else modCtx s d x.1 (fun y =>
    let y := x.2.arrivals.foldl (fun y a => setArrivals y a.1 (addCounts (arrivalCounts y a.1) a.2)) y
    { y with heldFlags := y.heldFlags ++ x.2.heldFlags })

/-- Names the successor wherever other parts of the module name the core: phasers, launches, invalidations, walkers, watched lines,
sending tables, and buffered collective steps. Arrival tables start again from nothing outstanding for the core as a source (R162). -/
def renameCore (s : State) (c d : Nat) : State :=
  let from_ := nodeOf s c
  let to_ := nodeOf s d
  let ag : AgentId → AgentId := fun a => if a.core = c then { a with core := d } else a
  let addr : Nat → Nat := fun n => if n = from_.addr then to_.addr else n
  { s with
    cores := s.cores.map (fun k => (k.1, { k.2 with
      watch := k.2.watch.map (fun w => { w with line := lineOf (poolMoved c d (w.line * 64)) })
      sendTab := renameSends from_ to_ k.2.sendTab
      ctxs := k.2.ctxs.map (fun x => (x.1, { x.2 with arrivals := x.2.arrivals.filter (fun r => r.1 != from_) })) }))
    clauses := s.clauses.map (fun k => (k.1, { k.2 with
      colls := k.2.colls.map (fun j => { j with awaits := j.awaits.map (fun a => (addr a.1, a.2)), inbox := j.inbox.map (fun m => (addr m.1, m.2)) }) }))
    dies := s.dies.map (fun k => (k.1, { k.2 with
      requests := k.2.requests.map (fun r => { r with agent := ag r.agent })
      phasers := k.2.phasers.map (fun p => (p.1, { p.2 with
        members := p.2.members.map (fun m => if m.core = c then { m with core := d } else m) })) }))
    launches := s.launches.map (fun l => { l with agent := ag l.agent })
    walks := s.walks.map (fun w => (w.1, if w.2.agent.core = c then
      { w.2 with agent := ag w.2.agent, pool := if w.2.pool = clauseOfCore c then clauseOfCore d else w.2.pool } else w.2))
    memos := s.memos.map (fun m => if m.core = c then { m with core := d } else m)
    locks := s.locks.map (fun l => { l with agent := ag l.agent })
    mailboxes := s.mailboxes.map (poolMoved c d)
    faultPending := s.faultPending.map (fun r => if r.1 = c then (d, r.2) else r)
    invals := s.invals.map (fun v => (v.1, { v.2 with agent := ag v.2.agent })) }

/-- Moves what the core holds: contexts, slots, messages, tables (R90 step 2). -/
def moveCore (s : State) (c d : Nat) (places : List (Nat × Nat)) : State :=
  let cs := movedCtxs s c
  let k := coreOf s c
  let s := giveArea s c d
  let s := cs.foldl (fun s x => copyPool s c d x) s
  let s := modCore s d (fun m => { m with
    ctxs := k.ctxs.foldl (fun t x => if cs.contains x.1 then tset t x.1 x.2 else t) m.ctxs })
  let s := (k.ctxs.filter (fun x => !cs.contains x.1)).foldl (fun s x => moveArrivals s d x) s
  let s := copyFrames s c d cs
  let s := moveSlots s c d
  let s := modCore s d (fun m => { m with
    waiting := m.waiting ++ k.waiting.map (renameMiss places)
    away := m.away ++ k.away.map (rehome s c d)
    migrating := m.migrating ++ k.migrating
    refused := m.refused ++ k.refused
    recency := m.recency ++ k.recency.filter (fun x => !m.recency.contains x)
    watch := (m.watch ++ k.watch).take 16
    unacked := m.unacked ++ k.unacked
    lastSeq := m.lastSeq ++ k.lastSeq
    rotation := m.rotation ++ k.rotation })
  modCore (moveGuests s c d) c (fun k => { Core.init with
    saveb := k.saveb
    tvec := k.tvec
    quiesced := true
    successor := some d })

/-- Rewrites a context's core-map entries that name the core, and raises its generation (R90 step 3, R41). -/
def remapCtx (s : State) (c d ctx : Nat) : State :=
  let from_ := nodeOf s c
  let to_ := nodeOf s d
  let e := { CtxEntry.zero with cmapb := ctxWord s ctx 3, cmapn := ctxWord s ctx 4 }
  let base := bits e.cmapb 47 2 * 4
  let ls := (List.range (Nat.min e.cmapn.toNat 0x200000)).filter (fun l => cmapEntry s e l == some from_)
  if ls.isEmpty then s
  else
    let s := ls.foldl (fun s l => writeBytes s 0 (base + 4 * l) (leBytes 4 (2 ^ 31 + to_.addr))) s
    writeWord s 0 (ctxEntryLoc s ctx) (ctxWord s ctx 0 + 0x1000000000000#64)

/-- A message, or a drain's wake, that its sender addressed to a core that the successor now stands for. -/
def forwarded (s : State) (d : Nat) (p : Packet) : Bool :=
  takerOf s p.dst == some d && p.dst != nodeOf s d && isMessage p

/-- Messages in flight to the removed core, those lost on the way or refused among them, go to its successor, ahead of those sent later,
in their order (R90, R66). -/
def forwardMessages (s : State) (d : Nat) : State :=
  let ns := (s.net.filter (fun p => forwarded s d p.2)).map (fun p => p.1)
  ns.foldl (fun s n =>
    match tget s.net n with
    | some p => messageArrival (movePkt s n { p with intact := true, ring := RingTrip.off } .arrived) n
    | none => s) s

/-- The messages in the miss queue of a clause that the core leaves stand in the successor's clause, where their version misses find
them (R91, R242). -/
def moveMisses (s : State) (c d : Nat) (places : List (Nat × Nat)) : State :=
  let es := (missesOf s c).filterMap (fun e => (tget places e.1).map (fun n => (n, { e.2 with core := d })))
  if places.isEmpty then s
  else
    modClause (modClause s (clauseOfCore c) (fun k => { k with missQueue := k.missQueue.filter (fun e => e.2.core != c) }))
      (clauseOfCore d) (fun k => { k with missQueue := es.foldl (fun t e => tset t e.1 e.2) k.missQueue })

/-- The core is quiesced at an instruction boundary: its phrase splits, and no activation issues on it (R90, R85). -/
def quiesce (s : State) (c : Nat) : State :=
  let s := match (coreOf s c).phrase with
    | some p => dissolve s p
    | none => s
  modCore s c (fun k => { k with quiesced := true })

/-- EVENT CORE_REMOVAL (R90): the core is quiesced; once its accesses are performed, what it holds moves to the successor, the
core maps name the successor, and the messages held or in flight go to it. -/
def coreRemoval (s : State) (c d : Nat) : State :=
  if isApp c || (coreOf s c).successor.isSome then s
  else
    let s := quiesce s c
    if !removalReady s c d then s
    else
      let places := missPlaces s c d
      let s := renameCore (moveCore (moveMisses (moveEngines s c d) c d places) c d places) c d
      let s := ((List.range 4096).filter (fun x => ctxState s x == 1)).foldl (fun s x => remapCtx s c d x) s
      forwardMessages s d

end Sys2Proof.Machine
end

