-- ==== Sys2Proof/Machine/Events.lean ====
section
/-!
DEFINITION. Machine/Events.lean: the meaning of the opcode table's EVENT rows: steps of the machine that no word encodes.
-/

namespace Sys2Proof.Machine

/-! ### Waits that a time limit ends -/

/-- The places of a core where an activation executes: its active slot and its migrated activations. -/
def placesOf (s : State) (core : Nat) : List Cur :=
  ⟨core, none⟩ :: ((coreOf s core).away.map (fun f => (⟨core, some f.ctx⟩ : Cur)))

/-- The wait of the activation at a place. -/
def waitAt (s : State) (c : Cur) : Option Wait := (actAt s c).bind (fun a => a.wait)

/-- The first place of a core whose activation waits with a code and has waited for its limit. -/
def expired (s : State) (core kind : Nat) (limit : Cur → Wait → Option Nat) : Option Cur :=
  (placesOf s core).find? (fun c => match waitAt s c with
    | some w => w.kind == kind && match limit c w with
      | some n => n ≤ s.cyc - w.start
      | none => false
    | none => false)

/-- Issues the waiting 32-bit instruction at a place again, if it is one of those that `run` gives a meaning. -/
def reissue (s : State) (c : Cur) (run : Instr → State → Option (Host.Outcome State Fault Refusal)) : State :=
  let s1 := { s with cur := c }
  match fetchBytes s1 (act s1).pc with
  | .error _ => s
  | .ok (t, bs) =>
    match (if leNat bs % 4 = 3 then decode32 (leNat bs) else none) with
    | none => s
    | some i =>
      match run i t with
      | some (.next t) => { t with cur := s.cur }
      | _ => s

/-- EVENT EVWAIT_TIMEOUT (R72, R351): CR.EVTMO cycles have passed; EVWAIT ends with 1 if its mask names a core event bit. -/
def evwaitTimeout (s : State) (core : Nat) : State :=
  match expired s core 3 (fun c _ =>
      let n := (ctxOf s core (ctxAt s c)).entry.evtmo.toNat
      if n = 0 then none else some n) with
  | some c => reissue s c (fun i t => match i with
    | .evwait a b => some (execEvwait a b t)
    | _ => none)
  | none => s

/-- EVENT MWAIT_TIMEOUT (R361): the count that MWAIT read at issue has passed. -/
def mwaitTimeout (s : State) (core : Nat) : State :=
  match expired s core 5 (fun _ w => if w.operand = 0 then none else some w.operand.toNat) with
  | some c => reissue s c (fun i t => match i with
    | .mwait a b => some (execMwait a b t)
    | _ => none)
  | none => s

/-- EVENT WFE_TIMEOUT (R314): 65,536 cycles have passed. -/
def wfeTimeout (s : State) (core : Nat) : State :=
  match expired s core 9 (fun _ _ => some 65536) with
  | some c => reissue s c (fun i t => match i with
    | .wfe => some (execWfe t)
    | _ => none)
  | none => s

/-- EVENT SLEEP_EXPIRE (R313): the count of cycles has passed. -/
def sleepExpire (s : State) (core : Nat) : State :=
  match expired s core 6 (fun _ w => some w.operand.toNat) with
  | some c => reissue s c (fun i t => match i with
    | .sleep b => some (execSleep b t)
    | _ => none)
  | none => s

/-- The core starts its next activation, if the message that starts it is of a kind. -/
def startKindOf (s : State) (core : Nat) (is : StartKind → Bool) : State :=
  match choose s core with
  | some (_, some m) => if is m.start then activationStart s core else s
  | _ => s

/-- EVENT ENGINE_UPCALL_START (R138): the activation that starts next is an engine's upcall. -/
def engineUpcallStart (s : State) (core : Nat) : State :=
  startKindOf s core (fun k => match k with
    | .engine _ _ _ => true
    | _ => false)

/-- EVENT VERSION_MISS_START (R242): the activation that starts next is a version miss, queued by the check that failed (R420). -/
def versionMissStart (s : State) (core : Nat) : State :=
  startKindOf s core (fun k => match k with
    | .versionMiss _ => true
    | _ => false)

/-! ### The rows -/

/-- EVENT POWER_ON (R32). -/
def execPowerOn (s : State) : Host.Outcome State Fault Refusal := .next (powerOn s)

/-- EVENT STARTUP_STAGE_COMPLETE (R32). -/
def execStartupStageComplete (failed : List Part) (checksumOk : Bool) (s : State) : Host.Outcome State Fault Refusal := .next (startupStageComplete s failed checksumOk)

/-- EVENT FACC_WRITE (R38). -/
def execFaccWrite (high : Bool) (v : Word) (s : State) : Host.Outcome State Fault Refusal := .next (Sys2Proof.Machine.faccWrite s high v)

/-- EVENT MODNUM_WRITE (R36). -/
def execModnumWrite (v : Word) (s : State) : Host.Outcome State Fault Refusal := .next (Sys2Proof.Machine.modnumWrite s v)

/-- EVENT CTXTAB_WRITE (R36). -/
def execCtxtabWrite (v : Word) (s : State) : Host.Outcome State Fault Refusal := .next (Sys2Proof.Machine.ctxtabWrite s v)

/-- EVENT RING_PACKET_ARRIVAL (R20). -/
def execRingPacketArrival (n : Nat) (s : State) : Host.Outcome State Fault Refusal := .next (ringPacketArrival s n)

/-- EVENT MODULE_LINK_RECEIVE (R26). -/
def execModuleLinkReceive (link : Nat) (ok : Bool) (pkt : Packet) (s : State) : Host.Outcome State Fault Refusal := .next (moduleLinkReceive s link ok pkt)

/-- EVENT LINK_GROUP_RESEND (R26). -/
def execLinkGroupResend (link : Nat) (s : State) : Host.Outcome State Fault Refusal := .next (linkGroupResend s link)

/-- EVENT PASS_WITHHOLD (R13). -/
def execPassWithhold (s : State) : Host.Outcome State Fault Refusal := .next (passWithhold s)

/-- EVENT PART_FAILURE (R51). -/
def execPartFailure (part : Part) (s : State) : Host.Outcome State Fault Refusal := .next (partFailure s part)

/-- EVENT SCRUB_LINE (R50). -/
def execScrubLine (line : Nat) (uncorrectable : Bool) (s : State) : Host.Outcome State Fault Refusal := .next (scrubLine s line uncorrectable)

/-- EVENT NOTICE_DELIVERY (R44). -/
def execNoticeDelivery (s : State) : Host.Outcome State Fault Refusal := .next (noticeDelivery s)

/-- EVENT MSIX_VECTOR (R31). -/
def execMsixVector (port vector : Nat) (s : State) : Host.Outcome State Fault Refusal := .next (msixVector s port vector)

/-- EVENT PORT_REQUEST (R139). -/
def execPortRequest (req : PortReq) (s : State) : Host.Outcome State Fault Refusal := .next (portRequest s req)

/-- EVENT HOST_MESSAGE_ARRIVAL (R30). -/
def execHostMessageArrival (n : Nat) (s : State) : Host.Outcome State Fault Refusal := .next (hostMessageArrival s n)

/-- EVENT LAUNCH_REQUEST (R61). -/
def execLaunchRequest (die : Nat) (s : State) : Host.Outcome State Fault Refusal := .next (launchRequest s die)

/-- EVENT LAUNCH_JOURNALED (R45). -/
def execLaunchJournaled (die : Nat) (s : State) : Host.Outcome State Fault Refusal := .next (launchJournaled s die)

/-- EVENT CONSUME_CONFIRMATION (R62). -/
def execConsumeConfirmation (die seq : Nat) (s : State) : Host.Outcome State Fault Refusal := .next (consumeConfirm s die seq)

/-- EVENT ACTIVATION_MESSAGE_GENERATE (R63). -/
def execActivationMessageGenerate (die seq : Nat) (s : State) : Host.Outcome State Fault Refusal := .next (generateMessage s die seq)

/-- EVENT EVENT_MIRROR_UPDATE (R55). -/
def execEventMirrorUpdate (ctx die : Nat) (s : State) : Host.Outcome State Fault Refusal := .next (mirrorUpdate s ctx die)

/-- EVENT MESSAGE_ARRIVAL (R73). -/
def execMessageArrival (n : Nat) (s : State) : Host.Outcome State Fault Refusal := .next (messageArrival s n)

/-- EVENT MISS_QUEUE_RESEND (R242). -/
def execMissQueueResend (n : Nat) (s : State) : Host.Outcome State Fault Refusal := .next (missQueueResend s n)

/-- EVENT VERSION_MISS_START (R242). -/
def execVersionMissStart (core : Nat) (s : State) : Host.Outcome State Fault Refusal := .next (versionMissStart s core)

/-- EVENT MESSAGE_ACCEPTANCE_NOTICE (R344). -/
def execMessageAcceptanceNotice (n : Nat) (s : State) : Host.Outcome State Fault Refusal := .next (messageAcceptanceNotice s n)

/-- EVENT MESSAGE_COPY_RESEND (R46). -/
def execMessageCopyResend (n : Nat) (s : State) : Host.Outcome State Fault Refusal := .next (messageCopyResend s n)

/-- EVENT ACTIVATION_START (R74). -/
def execActivationStart (core : Nat) (s : State) : Host.Outcome State Fault Refusal := .next (activationStart s core)

/-- EVENT PREEMPTION (R75). -/
def execPreemption (core : Nat) (s : State) : Host.Outcome State Fault Refusal := .next (preempt s core)

/-- EVENT MESSAGE_AGING (R77). -/
def execMessageAging (core n : Nat) (s : State) : Host.Outcome State Fault Refusal := .next (messageAging s core n)

/-- EVENT SWITCH_COMPLETE (R79). -/
def execSwitchComplete (core : Nat) (s : State) : Host.Outcome State Fault Refusal := .next (switchComplete s core)

/-- EVENT STREAM_IN_COMPLETE (R79). -/
def execStreamInComplete (core : Nat) (s : State) : Host.Outcome State Fault Refusal := .next (streamInComplete s core)

/-- EVENT STREAM_OUT_COMPLETE (R79). -/
def execStreamOutComplete (core : Nat) (s : State) : Host.Outcome State Fault Refusal := .next (streamOutComplete s core)

/-- EVENT FUSE_TIMEOUT (R82). -/
def execFuseTimeout (core : Nat) (s : State) : Host.Outcome State Fault Refusal := .next (fuseTimeout s core)

/-- EVENT MIGRATION_COMPLETE (R86). -/
def execMigrationComplete (core ctx : Nat) (s : State) : Host.Outcome State Fault Refusal := .next (migrationComplete s core ctx)

/-- EVENT DONATION_LIMIT (R88). -/
def execDonationLimit (core : Nat) (s : State) : Host.Outcome State Fault Refusal := .next (donationLimit s core)

/-- EVENT ENGINE_UPCALL_START (R138). -/
def execEngineUpcallStart (core : Nat) (s : State) : Host.Outcome State Fault Refusal := .next (engineUpcallStart s core)

/-- EVENT PAGE_WALK (R129). -/
def execPageWalk (core : Nat) (va : Word) (kind : AccKind) (s : State) : Host.Outcome State Fault Refusal := .next (pageWalk s core va kind)

/-- EVENT WALK_MIGRATING_REREAD (R144). -/
def execWalkMigratingReread (n : Nat) (s : State) : Host.Outcome State Fault Refusal := .next (walkReread s n)

/-- EVENT WALK_MIGRATING_TIMEOUT (R144). -/
def execWalkMigratingTimeout (n : Nat) (s : State) : Host.Outcome State Fault Refusal := .next (walkTimeout s n)

/-- EVENT READ_LINE_EXPIRE (R151). -/
def execReadLineExpire (core n : Nat) (s : State) : Host.Outcome State Fault Refusal := .next (readLineExpire s core n)

/-- EVENT MEMORY_ACCESS_PERFORM (R148). -/
def execMemoryAccessPerform (acc : AccessRef) (s : State) : Host.Outcome State Fault Refusal := .next (memoryAccessPerform s acc)

/-- EVENT LOAD_REPLY_ARRIVAL (R150). -/
def execLoadReplyArrival (n : Nat) (s : State) : Host.Outcome State Fault Refusal := .next (loadReplyArrival s n)

/-- EVENT REMOTE_STORE_ARRIVAL (R160). -/
def execRemoteStoreArrival (n : Nat) (s : State) : Host.Outcome State Fault Refusal := .next (remoteStoreArrival s n)

/-- EVENT ORDERED_FLAG_ARRIVAL (R160). -/
def execOrderedFlagArrival (n : Nat) (s : State) : Host.Outcome State Fault Refusal := .next (orderedFlagArrival s n)

/-- EVENT COUNT_PACKET_SEND (R161). -/
def execCountPacketSend (core n : Nat) (s : State) : Host.Outcome State Fault Refusal := .next (countPacketSend s core n)

/-- EVENT REMOTE_NACK_RESEND (R161). -/
def execRemoteNackResend (n : Nat) (s : State) : Host.Outcome State Fault Refusal := .next (remoteNackResend s n)

/-- EVENT STORE_ACKNOWLEDGEMENT (R153). -/
def execStoreAcknowledgement (n : Nat) (s : State) : Host.Outcome State Fault Refusal := .next (storeAcknowledgement s n)

/-- EVENT ATOMIC_PERFORM (R164). -/
def execAtomicPerform (n : Nat) (s : State) : Host.Outcome State Fault Refusal := .next (atomicPerform s n)

/-- EVENT TWO_ADDRESS_ATOMIC_PERFORM (R165). -/
def execTwoAddressAtomicPerform (n : Nat) (s : State) : Host.Outcome State Fault Refusal := .next (twoAddressAtomicPerform s n)

/-- EVENT CHANNEL_WORD_ARRIVAL (R97). -/
def execChannelWordArrival (n : Nat) (s : State) : Host.Outcome State Fault Refusal := .next (channelWordArrival s n)

/-- EVENT MLEASE_GRANT (R377). -/
def execMleaseGrant (clause : Nat) (s : State) : Host.Outcome State Fault Refusal := .next (mleaseGrant s clause)

/-- EVENT LEASE_TURN (R218). -/
def execLeaseTurn (clause : Nat) (s : State) : Host.Outcome State Fault Refusal := .next (leaseTurn s clause)

/-- EVENT TILE_MOVE_COMPLETE (R219). -/
def execTileMoveComplete (clause : Nat) (s : State) : Host.Outcome State Fault Refusal := .next (tileMoveComplete s clause)

/-- EVENT LEASE_FORFEIT (R220). -/
def execLeaseForfeit (clause : Nat) (s : State) : Host.Outcome State Fault Refusal := .next (leaseForfeit s clause)

/-- EVENT MATRIX_COMMAND_RUN (R218). -/
def execMatrixCommandRun (clause : Nat) (s : State) : Host.Outcome State Fault Refusal := .next (matrixCommandRun s clause)

/-- EVENT DRAIN_SIZE_REPLY (R222). -/
def execDrainSizeReply (clause : Nat) (s : State) : Host.Outcome State Fault Refusal := .next (drainSizeReply s clause)

/-- EVENT DRAIN_WRITE_ARRIVAL (R222). -/
def execDrainWriteArrival (n : Nat) (s : State) : Host.Outcome State Fault Refusal := .next (drainWriteArrival s n)

/-- EVENT COPY_TRANSFER_COMPLETE (R225). -/
def execCopyTransferComplete (clause tid : Nat) (s : State) : Host.Outcome State Fault Refusal := .next (copyComplete s clause tid)

/-- EVENT COPY_PROMISE_EXPIRE (R226). -/
def execCopyPromiseExpire (clause tid : Nat) (s : State) : Host.Outcome State Fault Refusal := .next (copyPromiseExpire s clause tid)

/-- EVENT COPY_CANCEL_STOP (R363). -/
def execCopyCancelStop (clause tid : Nat) (s : State) : Host.Outcome State Fault Refusal := .next (copyCancelStop s clause tid)

/-- EVENT COLLECTIVE_STEP_RUN (R231). -/
def execCollectiveStepRun (clause handle : Nat) (s : State) : Host.Outcome State Fault Refusal := .next (collStep s clause handle)

/-- EVENT COLLECTIVE_STEP_ARRIVAL (R232). -/
def execCollectiveStepArrival (n : Nat) (s : State) : Host.Outcome State Fault Refusal := .next (stepArrival s n)

/-- EVENT COLLECTIVE_ABORT_NOTICE (R232). -/
def execCollectiveAbortNotice (n : Nat) (s : State) : Host.Outcome State Fault Refusal := .next (abortArrival s n)

/-- EVENT SWEEP_BEAT (R249). -/
def execSweepBeat (core : Nat) (s : State) : Host.Outcome State Fault Refusal := .next (sweepBeat s core)

/-- EVENT REMOTE_CHANGE_ARRIVAL (R251). -/
def execRemoteChangeArrival (n : Nat) (s : State) : Host.Outcome State Fault Refusal := .next (remoteChangeArrival s n)

/-- EVENT VALUE_WRITE_ARRIVAL (R404). -/
def execValueWriteArrival (n : Nat) (s : State) : Host.Outcome State Fault Refusal := .next (valueWriteArrival s n)

/-- EVENT SIGNATURE_LEASE_GRANT (R257). -/
def execSignatureLeaseGrant (clause : Nat) (s : State) : Host.Outcome State Fault Refusal := .next (sigGrant s clause)

/-- EVENT SIGNATURE_COMMAND_RUN (R256). -/
def execSignatureCommandRun (clause : Nat) (s : State) : Host.Outcome State Fault Refusal := .next (sigCommandRun s clause)

/-- EVENT EVWAIT_TIMEOUT (R72). -/
def execEvwaitTimeout (core : Nat) (s : State) : Host.Outcome State Fault Refusal := .next (evwaitTimeout s core)

/-- EVENT MWAIT_TIMEOUT (R361). -/
def execMwaitTimeout (core : Nat) (s : State) : Host.Outcome State Fault Refusal := .next (mwaitTimeout s core)

/-- EVENT WFE_TIMEOUT (R314). -/
def execWfeTimeout (core : Nat) (s : State) : Host.Outcome State Fault Refusal := .next (wfeTimeout s core)

/-- EVENT SLEEP_EXPIRE (R313). -/
def execSleepExpire (core : Nat) (s : State) : Host.Outcome State Fault Refusal := .next (sleepExpire s core)

/-- EVENT WITHHELD_PASSES_ISSUED (R13). -/
def execWithheldPassesIssued (s : State) : Host.Outcome State Fault Refusal := .next (withheldPassesIssued s)

/-- EVENT MESH_PACKET_ARRIVAL (R24). -/
def execMeshPacketArrival (n : Nat) (s : State) : Host.Outcome State Fault Refusal := .next (meshPacketArrival s n)

/-- EVENT INVALIDATION_COMPLETE (R141). -/
def execInvalidationComplete (n : Nat) (s : State) : Host.Outcome State Fault Refusal := .next (invalidationComplete s n)

/-- EVENT EVENT_VECTOR_HOME_MOVE (R55). -/
def execEventVectorHomeMove (ctx : Nat) (s : State) : Host.Outcome State Fault Refusal := .next (homeMove s ctx)

/-- EVENT CORE_REMOVAL (R90). -/
def execCoreRemoval (core successor : Nat) (s : State) : Host.Outcome State Fault Refusal := .next (coreRemoval s core successor)

/-- EVENT RESERVED_ENCODING (R280): the fetched word is no instruction; the activation at issue raises ILLEGAL with the word (R280). -/
def execReservedEncoding (word : BitVec 32) (s : State) : Host.Outcome State Fault Refusal :=
  issue ⟨word.setWidth 64, 4, false, false, false, [], none⟩ (fun s => .trap s .illegal (word.setWidth 64)) s

/-- EVENT INSTRUCTION_FETCH_FAULT (R107): the fetch at pc fails; the activation raises the cause with the faulting address. -/
def execInstructionFetchFault (cause : Cause) (va : Word) (s : State) : Host.Outcome State Fault Refusal :=
  issue ⟨0, 4, false, false, false, [], none⟩ (fun s => .trap s cause va) s

end Sys2Proof.Machine
end

