-- ==== Sys2Proof/Machine/Short.lean ====
section
/-!
DEFINITION. Machine/Short.lean: the 16-bit forms (R269, R278): each has the effect of the instruction it stands for.
-/

namespace Sys2Proof.Machine

/-- Issues a short form that writes a value to sA. -/
def shortSet (a : SReg) (f : State → Word) (s : State) : Host.Outcome State Fault Refusal :=
  issue shortGate (fun s => .ok (wS s a (f s))) s

/-- Issues a short form with a given effect. -/
def shortOp (body : State → Res) (s : State) : Host.Outcome State Fault Refusal := issue shortGate body s

/-- C.MOV (R269). -/
def execCMov (a b : SReg) (s : State) : Host.Outcome State Fault Refusal :=
  shortSet a (fun s => rS s b) s

/-- C.ADD (R269). -/
def execCAdd (a b : SReg) (s : State) : Host.Outcome State Fault Refusal :=
  shortSet a (fun s => rS s a + rS s b) s

/-- C.SUB (R269). -/
def execCSub (a b : SReg) (s : State) : Host.Outcome State Fault Refusal :=
  shortSet a (fun s => rS s a - rS s b) s

/-- C.AND (R269). -/
def execCAnd (a b : SReg) (s : State) : Host.Outcome State Fault Refusal :=
  shortSet a (fun s => rS s a &&& rS s b) s

/-- C.OR (R269). -/
def execCOr (a b : SReg) (s : State) : Host.Outcome State Fault Refusal :=
  shortSet a (fun s => rS s a ||| rS s b) s

/-- C.XOR (R269). -/
def execCXor (a b : SReg) (s : State) : Host.Outcome State Fault Refusal :=
  shortSet a (fun s => rS s a ^^^ rS s b) s

/-- C.ADDI (R269). -/
def execCAddi (a : SReg) (n : BitVec 5) (s : State) : Host.Outcome State Fault Refusal :=
  shortSet a (fun s => rS s a + n.signExtend 64) s

/-- C.LI (R269). -/
def execCLi (a : SReg) (n : BitVec 5) (s : State) : Host.Outcome State Fault Refusal :=
  shortSet a (fun _ => n.signExtend 64) s

/-- C.SHLI (R269). -/
def execCShli (a : SReg) (n : BitVec 5) (s : State) : Host.Outcome State Fault Refusal :=
  shortSet a (fun s => rS s a <<< n.toNat) s

/-- C.SHRI (R269). -/
def execCShri (a : SReg) (n : BitVec 5) (s : State) : Host.Outcome State Fault Refusal :=
  shortSet a (fun s => rS s a >>> n.toNat) s

/-- C.SARI (R269). -/
def execCSari (a : SReg) (n : BitVec 5) (s : State) : Host.Outcome State Fault Refusal :=
  shortSet a (fun s => (rS s a).sshiftRight n.toNat) s

/-- C.NOP (R269). -/
def execCNop (s : State) : Host.Outcome State Fault Refusal :=
  shortOp (fun s => .ok s) s

/-- C.ENDH (R269). -/
def execCEndh (s : State) : Host.Outcome State Fault Refusal :=
  shortOp endhBody s

/-- C.QPOP (R269). -/
def execCQpop (a : SReg) (q : BitVec 2) (s : State) : Host.Outcome State Fault Refusal :=
  shortOp (popBody true a q) s

/-- C.QPUSH (R269). -/
def execCQpush (q : BitVec 2) (b : SReg) (s : State) : Host.Outcome State Fault Refusal :=
  shortOp (pushBody q b) s

/-- The address s30 + n times a size of the short loads and stores (R278). -/
def stackAddr (n : BitVec 5) (size : Nat) (s : State) : Word := rS s 30 + BitVec.ofNat 64 (size * n.toNat)

/-- C.LDD (R269). -/
def execCLdd (a : SReg) (n : BitVec 5) (s : State) : Host.Outcome State Fault Refusal :=
  shortOp (loadBody a false 8 (stackAddr n 8)) s

/-- C.STD (R269). -/
def execCStd (a : SReg) (n : BitVec 5) (s : State) : Host.Outcome State Fault Refusal :=
  shortOp (storeBody a 8 (stackAddr n 8)) s

/-- C.LDW (R269). -/
def execCLdw (a : SReg) (n : BitVec 5) (s : State) : Host.Outcome State Fault Refusal :=
  shortOp (loadBody a true 4 (stackAddr n 4)) s

/-- C.STW (R269). -/
def execCStw (a : SReg) (n : BitVec 5) (s : State) : Host.Outcome State Fault Refusal :=
  shortOp (storeBody a 4 (stackAddr n 4)) s

/-- C.LDDR (R269). -/
def execCLddr (a b : SReg) (s : State) : Host.Outcome State Fault Refusal :=
  shortOp (loadBody a false 8 (fun s => rS s b)) s

/-- C.STDR (R269). -/
def execCStdr (a b : SReg) (s : State) : Host.Outcome State Fault Refusal :=
  shortOp (storeBody a 8 (fun s => rS s b)) s

/-- C.BEQZ (R269). -/
def execCBeqz (a : SReg) (n : BitVec 5) (s : State) : Host.Outcome State Fault Refusal :=
  shortOp (branchBody n (fun s => rS s a == 0)) s

/-- C.BNEZ (R269). -/
def execCBnez (a : SReg) (n : BitVec 5) (s : State) : Host.Outcome State Fault Refusal :=
  shortOp (branchBody n (fun s => rS s a != 0)) s

/-- C.J (R269). -/
def execCJ (n : BitVec 10) (s : State) : Host.Outcome State Fault Refusal :=
  shortOp (fun s => .jump s (relTarget s n)) s

/-- C.JR (R269). -/
def execCJr (a : SReg) (s : State) : Host.Outcome State Fault Refusal :=
  shortOp (jumpBody none 2 (fun s => rS s a)) s

/-- C.JALR (R269, R271): the link goes to s31. -/
def execCJalr (a : SReg) (s : State) : Host.Outcome State Fault Refusal :=
  shortOp (jumpBody (some 31) 2 (fun s => rS s a)) s

/-- C.VMOV (R269). -/
def execCVmov (a b : VRegN) (s : State) : Host.Outcome State Fault Refusal :=
  shortOp (fun s => .ok (wV s a (rV s b))) s

end Sys2Proof.Machine
end

