-- ==== Sys2Proof/Machine/Dispatch.lean ====
section
/-!
DEFINITION. Machine/Dispatch.lean: one arm per row of the opcode table.
-/

namespace Sys2Proof.Machine

def exec (i : Instr) (s : State) : Host.Outcome State Fault Refusal :=
  match i with
  | .add w a b c => Sys2Proof.Machine.execAdd w a b c s
  | .sub w a b c => Sys2Proof.Machine.execSub w a b c s
  | .and w a b c => Sys2Proof.Machine.execAnd w a b c s
  | .or w a b c => Sys2Proof.Machine.execOr w a b c s
  | .xor w a b c => Sys2Proof.Machine.execXor w a b c s
  | .andn w a b c => Sys2Proof.Machine.execAndn w a b c s
  | .shl w a b c => Sys2Proof.Machine.execShl w a b c s
  | .shr w a b c => Sys2Proof.Machine.execShr w a b c s
  | .sar w a b c => Sys2Proof.Machine.execSar w a b c s
  | .rotl w a b c => Sys2Proof.Machine.execRotl w a b c s
  | .mul w a b c => Sys2Proof.Machine.execMul w a b c s
  | .mulh w a b c => Sys2Proof.Machine.execMulh w a b c s
  | .mulhu w a b c => Sys2Proof.Machine.execMulhu w a b c s
  | .div w a b c => Sys2Proof.Machine.execDiv w a b c s
  | .divu w a b c => Sys2Proof.Machine.execDivu w a b c s
  | .rem w a b c => Sys2Proof.Machine.execRem w a b c s
  | .remu w a b c => Sys2Proof.Machine.execRemu w a b c s
  | .min w a b c => Sys2Proof.Machine.execMin w a b c s
  | .max w a b c => Sys2Proof.Machine.execMax w a b c s
  | .minu w a b c => Sys2Proof.Machine.execMinu w a b c s
  | .maxu w a b c => Sys2Proof.Machine.execMaxu w a b c s
  | .slt w a b c => Sys2Proof.Machine.execSlt w a b c s
  | .sltu w a b c => Sys2Proof.Machine.execSltu w a b c s
  | .seq w a b c => Sys2Proof.Machine.execSeq w a b c s
  | .clz w a b => Sys2Proof.Machine.execClz w a b s
  | .ctz w a b => Sys2Proof.Machine.execCtz w a b s
  | .popc w a b => Sys2Proof.Machine.execPopc w a b s
  | .brev w a b => Sys2Proof.Machine.execBrev w a b s
  | .sextb a b => Sys2Proof.Machine.execSextb a b s
  | .sexth a b => Sys2Proof.Machine.execSexth a b s
  | .sextw a b => Sys2Proof.Machine.execSextw a b s
  | .zextw a b => Sys2Proof.Machine.execZextw a b s
  | .addi a b imm => Sys2Proof.Machine.execAddi a b imm s
  | .andi a b imm => Sys2Proof.Machine.execAndi a b imm s
  | .ori a b imm => Sys2Proof.Machine.execOri a b imm s
  | .xori a b imm => Sys2Proof.Machine.execXori a b imm s
  | .slti a b imm => Sys2Proof.Machine.execSlti a b imm s
  | .shli a b n => Sys2Proof.Machine.execShli a b n s
  | .shri a b n => Sys2Proof.Machine.execShri a b n s
  | .sari a b n => Sys2Proof.Machine.execSari a b n s
  | .rotli a b n => Sys2Proof.Machine.execRotli a b n s
  | .lui a imm => Sys2Proof.Machine.execLui a imm s
  | .auipc a imm => Sys2Proof.Machine.execAuipc a imm s
  | .oxset a b => Sys2Proof.Machine.execOxset a b s
  | .oxget a b => Sys2Proof.Machine.execOxget a b s
  | .oxclr a => Sys2Proof.Machine.execOxclr a s
  | .oxldm a b m => Sys2Proof.Machine.execOxldm a b m s
  | .oxstm a b m => Sys2Proof.Machine.execOxstm a b m s
  | .ldb a b imm => Sys2Proof.Machine.execLdb a b imm s
  | .ldbu a b imm => Sys2Proof.Machine.execLdbu a b imm s
  | .ldh a b imm => Sys2Proof.Machine.execLdh a b imm s
  | .ldhu a b imm => Sys2Proof.Machine.execLdhu a b imm s
  | .ldw a b imm => Sys2Proof.Machine.execLdw a b imm s
  | .ldwu a b imm => Sys2Proof.Machine.execLdwu a b imm s
  | .ldd a b imm => Sys2Proof.Machine.execLdd a b imm s
  | .stb a b imm => Sys2Proof.Machine.execStb a b imm s
  | .sth a b imm => Sys2Proof.Machine.execSth a b imm s
  | .stw a b imm => Sys2Proof.Machine.execStw a b imm s
  | .std a b imm => Sys2Proof.Machine.execStd a b imm s
  | .lda d sc a b => Sys2Proof.Machine.execLda d sc a b s
  | .stl d sc a b => Sys2Proof.Machine.execStl d sc a b s
  | .stlf d sc a b => Sys2Proof.Machine.execStlf d sc a b s
  | .fence sc => Sys2Proof.Machine.execFence sc s
  | .aadd d sc a b c => Sys2Proof.Machine.execAadd d sc a b c s
  | .aand d sc a b c => Sys2Proof.Machine.execAand d sc a b c s
  | .aor d sc a b c => Sys2Proof.Machine.execAor d sc a b c s
  | .axor d sc a b c => Sys2Proof.Machine.execAxor d sc a b c s
  | .amin d sc a b c => Sys2Proof.Machine.execAmin d sc a b c s
  | .amax d sc a b c => Sys2Proof.Machine.execAmax d sc a b c s
  | .aminu d sc a b c => Sys2Proof.Machine.execAminu d sc a b c s
  | .amaxu d sc a b c => Sys2Proof.Machine.execAmaxu d sc a b c s
  | .aswp d sc a b c => Sys2Proof.Machine.execAswp d sc a b c s
  | .acas d sc a b c => Sys2Proof.Machine.execAcas d sc a b c s
  | .adcas d sc a b c => Sys2Proof.Machine.execAdcas d sc a b c s
  | .amove d sc a b c => Sys2Proof.Machine.execAmove d sc a b c s
  | .beq a b imm => Sys2Proof.Machine.execBeq a b imm s
  | .bne a b imm => Sys2Proof.Machine.execBne a b imm s
  | .blt a b imm => Sys2Proof.Machine.execBlt a b imm s
  | .bge a b imm => Sys2Proof.Machine.execBge a b imm s
  | .bltu a b imm => Sys2Proof.Machine.execBltu a b imm s
  | .bgeu a b imm => Sys2Proof.Machine.execBgeu a b imm s
  | .jal a imm => Sys2Proof.Machine.execJal a imm s
  | .jalr a b imm => Sys2Proof.Machine.execJalr a b imm s
  | .crd a cr => Sys2Proof.Machine.execCrd a cr s
  | .cwr a cr => Sys2Proof.Machine.execCwr a cr s
  | .trap n => Sys2Proof.Machine.execTrap n s
  | .cyc a => Sys2Proof.Machine.execCyc a s
  | .sleep b => Sys2Proof.Machine.execSleep b s
  | .fuse a n => Sys2Proof.Machine.execFuse a n s
  | .split b => Sys2Proof.Machine.execSplit b s
  | .bkpt n => Sys2Proof.Machine.execBkpt n s
  | .qpop a q => Sys2Proof.Machine.execQpop a q s
  | .qpush q a => Sys2Proof.Machine.execQpush q a s
  | .qpeek a q => Sys2Proof.Machine.execQpeek a q s
  | .qlen a q => Sys2Proof.Machine.execQlen a q s
  | .qdrop q b => Sys2Proof.Machine.execQdrop q b s
  | .send sc b => Sys2Proof.Machine.execSend sc b s
  | .sendw sc a b => Sys2Proof.Machine.execSendw sc a b s
  | .reply sc => Sys2Proof.Machine.execReply sc s
  | .launch a b => Sys2Proof.Machine.execLaunch a b s
  | .wid a f => Sys2Proof.Machine.execWid a f s
  | .srcid a => Sys2Proof.Machine.execSrcid a s
  | .evwait a b => Sys2Proof.Machine.execEvwait a b s
  | .evset b => Sys2Proof.Machine.execEvset b s
  | .evclr b => Sys2Proof.Machine.execEvclr b s
  | .evtest a b => Sys2Proof.Machine.execEvtest a b s
  | .phnew a => Sys2Proof.Machine.execPhnew a s
  | .phreg b m => Sys2Proof.Machine.execPhreg b m s
  | .phdrop b => Sys2Proof.Machine.execPhdrop b s
  | .phsig b => Sys2Proof.Machine.execPhsig b s
  | .phwait a b => Sys2Proof.Machine.execPhwait a b s
  | .phsw a b => Sys2Proof.Machine.execPhsw a b s
  | .phread a b => Sys2Proof.Machine.execPhread a b s
  | .phreset b => Sys2Proof.Machine.execPhreset b s
  | .mon b => Sys2Proof.Machine.execMon b s
  | .mwait a b => Sys2Proof.Machine.execMwait a b s
  | .cpwait b => Sys2Proof.Machine.execCpwait b s
  | .cpstat a b => Sys2Proof.Machine.execCpstat a b s
  | .cpcancel b => Sys2Proof.Machine.execCpcancel b s
  | .cpsort a k => Sys2Proof.Machine.execCpsort a k s
  | .gbind sz w b => Sys2Proof.Machine.execGbind sz w b s
  | .gunbind w => Sys2Proof.Machine.execGunbind w s
  | .collgo b => Sys2Proof.Machine.execCollgo b s
  | .collwait a b => Sys2Proof.Machine.execCollwait a b s
  | .fresume b => Sys2Proof.Machine.execFresume b s
  | .fstat a b => Sys2Proof.Machine.execFstat a b s
  | .tlbinv sc b c => Sys2Proof.Machine.execTlbinv sc b c s
  | .tlbinva sc b => Sys2Proof.Machine.execTlbinva sc b s
  | .xpref b => Sys2Proof.Machine.execXpref b s
  | .fdrop b => Sys2Proof.Machine.execFdrop b s
  | .vadd pr a b c => Sys2Proof.Machine.execVadd pr a b c s
  | .vsub pr a b c => Sys2Proof.Machine.execVsub pr a b c s
  | .vmul pr a b c => Sys2Proof.Machine.execVmul pr a b c s
  | .vmulh pr a b c => Sys2Proof.Machine.execVmulh pr a b c s
  | .vand pr a b c => Sys2Proof.Machine.execVand pr a b c s
  | .vor pr a b c => Sys2Proof.Machine.execVor pr a b c s
  | .vxor pr a b c => Sys2Proof.Machine.execVxor pr a b c s
  | .vshl pr a b c => Sys2Proof.Machine.execVshl pr a b c s
  | .vshr pr a b c => Sys2Proof.Machine.execVshr pr a b c s
  | .vsar pr a b c => Sys2Proof.Machine.execVsar pr a b c s
  | .vmin pr a b c => Sys2Proof.Machine.execVmin pr a b c s
  | .vmax pr a b c => Sys2Proof.Machine.execVmax pr a b c s
  | .vminu pr a b c => Sys2Proof.Machine.execVminu pr a b c s
  | .vmaxu pr a b c => Sys2Proof.Machine.execVmaxu pr a b c s
  | .vceq pr a b c => Sys2Proof.Machine.execVceq pr a b c s
  | .vclt pr a b c => Sys2Proof.Machine.execVclt pr a b c s
  | .vcltu pr a b c => Sys2Proof.Machine.execVcltu pr a b c s
  | .vadds pr a b c => Sys2Proof.Machine.execVadds pr a b c s
  | .vmuls pr a b c => Sys2Proof.Machine.execVmuls pr a b c s
  | .viota pr a => Sys2Proof.Machine.execViota pr a s
  | .vfadd t pr a b c => Sys2Proof.Machine.execVfadd t pr a b c s
  | .vfsub t pr a b c => Sys2Proof.Machine.execVfsub t pr a b c s
  | .vfmul t pr a b c => Sys2Proof.Machine.execVfmul t pr a b c s
  | .vfma t pr a b c => Sys2Proof.Machine.execVfma t pr a b c s
  | .vfms t pr a b c => Sys2Proof.Machine.execVfms t pr a b c s
  | .vfnma t pr a b c => Sys2Proof.Machine.execVfnma t pr a b c s
  | .vfdiv t pr a b c => Sys2Proof.Machine.execVfdiv t pr a b c s
  | .vfsqrt t pr a b => Sys2Proof.Machine.execVfsqrt t pr a b s
  | .vfmin t pr a b c => Sys2Proof.Machine.execVfmin t pr a b c s
  | .vfmax t pr a b c => Sys2Proof.Machine.execVfmax t pr a b c s
  | .vfabs t pr a b => Sys2Proof.Machine.execVfabs t pr a b s
  | .vfneg t pr a b => Sys2Proof.Machine.execVfneg t pr a b s
  | .vfceq t pr a b c => Sys2Proof.Machine.execVfceq t pr a b c s
  | .vfclt t pr a b c => Sys2Proof.Machine.execVfclt t pr a b c s
  | .vfcle t pr a b c => Sys2Proof.Machine.execVfcle t pr a b c s
  | .vfadds t pr a b c => Sys2Proof.Machine.execVfadds t pr a b c s
  | .vfmuls t pr a b c => Sys2Proof.Machine.execVfmuls t pr a b c s
  | .vmov pr a b => Sys2Proof.Machine.execVmov pr a b s
  | .vsplat pr a b => Sys2Proof.Machine.execVsplat pr a b s
  | .vmovs a b i1 => Sys2Proof.Machine.execVmovs a b i1 s
  | .vins a b i1 => Sys2Proof.Machine.execVins a b i1 s
  | .vperm pr a b c => Sys2Proof.Machine.execVperm pr a b c s
  | .vslideup pr a b c => Sys2Proof.Machine.execVslideup pr a b c s
  | .vslidedn pr a b c => Sys2Proof.Machine.execVslidedn pr a b c s
  | .vsel pr a b c => Sys2Proof.Machine.execVsel pr a b c s
  | .vcompress pr a b => Sys2Proof.Machine.execVcompress pr a b s
  | .vexpand pr a b => Sys2Proof.Machine.execVexpand pr a b s
  | .vredadd pr a b => Sys2Proof.Machine.execVredadd pr a b s
  | .vfredsum t pr a b => Sys2Proof.Machine.execVfredsum t pr a b s
  | .vfredmax pr a b => Sys2Proof.Machine.execVfredmax pr a b s
  | .vfdot t pr a b c => Sys2Proof.Machine.execVfdot t pr a b c s
  | .vprune a b m => Sys2Proof.Machine.execVprune a b m s
  | .vld pr a b c => Sys2Proof.Machine.execVld pr a b c s
  | .vst pr a b c => Sys2Proof.Machine.execVst pr a b c s
  | .vldk pr a b c => Sys2Proof.Machine.execVldk pr a b c s
  | .vstk pr a b c => Sys2Proof.Machine.execVstk pr a b c s
  | .vgath pr a b c => Sys2Proof.Machine.execVgath pr a b c s
  | .vscat pr a b c => Sys2Proof.Machine.execVscat pr a b c s
  | .vstb pr a b => Sys2Proof.Machine.execVstb pr a b s
  | .vcvtwf t pr a b => Sys2Proof.Machine.execVcvtwf t pr a b s
  | .vcvtfw t pr a b => Sys2Proof.Machine.execVcvtfw t pr a b s
  | .vcvtfd pr a b => Sys2Proof.Machine.execVcvtfd pr a b s
  | .vcvtdf pr a b => Sys2Proof.Machine.execVcvtdf pr a b s
  | .vxacc t pr a b => Sys2Proof.Machine.execVxacc t pr a b s
  | .vxrnd t pr a b => Sys2Proof.Machine.execVxrnd t pr a b s
  | .pand a b c => Sys2Proof.Machine.execPand a b c s
  | .por a b c => Sys2Proof.Machine.execPor a b c s
  | .pxor a b c => Sys2Proof.Machine.execPxor a b c s
  | .pnot a b => Sys2Proof.Machine.execPnot a b s
  | .pset a b => Sys2Proof.Machine.execPset a b s
  | .pmov a b => Sys2Proof.Machine.execPmov a b s
  | .pget a b => Sys2Proof.Machine.execPget a b s
  | .pcnt a b => Sys2Proof.Machine.execPcnt a b s
  | .pfirst a b => Sys2Proof.Machine.execPfirst a b s
  | .mlease nw a n => Sys2Proof.Machine.execMlease nw a n s
  | .mldb b => Sys2Proof.Machine.execMldb b s
  | .mbmeta b => Sys2Proof.Machine.execMbmeta b s
  | .mma g t b => Sys2Proof.Machine.execMma g t b s
  | .mmacode t b => Sys2Proof.Machine.execMmacode t b s
  | .mzero t => Sys2Proof.Machine.execMzero t s
  | .mdrain t b => Sys2Proof.Machine.execMdrain t b s
  | .mstat a => Sys2Proof.Machine.execMstat a s
  | .lxcfg a b c => Sys2Proof.Machine.execLxcfg a b c s
  | .lxput a b c => Sys2Proof.Machine.execLxput a b c s
  | .lxget a b c => Sys2Proof.Machine.execLxget a b c s
  | .lxver a b => Sys2Proof.Machine.execLxver a b s
  | .lxenc a b c => Sys2Proof.Machine.execLxenc a b c s
  | .lxsend sc a b c => Sys2Proof.Machine.execLxsend sc a b c s
  | .lxdec a b c => Sys2Proof.Machine.execLxdec a b c s
  | .lxmiss take a b => Sys2Proof.Machine.execLxmiss take a b s
  | .lxretry b => Sys2Proof.Machine.execLxretry b s
  | .glset a b c => Sys2Proof.Machine.execGlset a b c s
  | .glinv b c => Sys2Proof.Machine.execGlinv b c s
  | .glstat a b => Sys2Proof.Machine.execGlstat a b s
  | .ecdecl t => Sys2Proof.Machine.execEcdecl t s
  | .ecsweep t => Sys2Proof.Machine.execEcsweep t s
  | .ecwake t b c => Sys2Proof.Machine.execEcwake t b c s
  | .ecstat a t => Sys2Proof.Machine.execEcstat a t s
  | .ecstop t => Sys2Proof.Machine.execEcstop t s
  | .ecread a b t => Sys2Proof.Machine.execEcread a b t s
  | .sgcfg a b => Sys2Proof.Machine.execSgcfg a b s
  | .sgzero i1 b => Sys2Proof.Machine.execSgzero i1 b s
  | .sgstep i1 b => Sys2Proof.Machine.execSgstep i1 b s
  | .sgjoin i1 j k => Sys2Proof.Machine.execSgjoin i1 j k s
  | .sglog i1 j => Sys2Proof.Machine.execSglog i1 j s
  | .sgld i1 b => Sys2Proof.Machine.execSgld i1 b s
  | .sgst i1 b => Sys2Proof.Machine.execSgst i1 b s
  | .sgtag i1 b c => Sys2Proof.Machine.execSgtag i1 b c s
  | .fencea => Sys2Proof.Machine.execFencea s
  | .nop => Sys2Proof.Machine.execNop s
  | .eret => Sys2Proof.Machine.execEret s
  | .halt => Sys2Proof.Machine.execHalt s
  | .wfe => Sys2Proof.Machine.execWfe s
  | .migr => Sys2Proof.Machine.execMigr s
  | .yield => Sys2Proof.Machine.execYield s
  | .endh => Sys2Proof.Machine.execEndh s
  | .trig => Sys2Proof.Machine.execTrig s
  | .mrelease => Sys2Proof.Machine.execMrelease s
  | .cMov a b => Sys2Proof.Machine.execCMov a b s
  | .cAdd a b => Sys2Proof.Machine.execCAdd a b s
  | .cSub a b => Sys2Proof.Machine.execCSub a b s
  | .cAnd a b => Sys2Proof.Machine.execCAnd a b s
  | .cOr a b => Sys2Proof.Machine.execCOr a b s
  | .cXor a b => Sys2Proof.Machine.execCXor a b s
  | .cAddi a n => Sys2Proof.Machine.execCAddi a n s
  | .cLi a n => Sys2Proof.Machine.execCLi a n s
  | .cShli a n => Sys2Proof.Machine.execCShli a n s
  | .cShri a n => Sys2Proof.Machine.execCShri a n s
  | .cSari a n => Sys2Proof.Machine.execCSari a n s
  | .cNop => Sys2Proof.Machine.execCNop s
  | .cEndh => Sys2Proof.Machine.execCEndh s
  | .cQpop a q => Sys2Proof.Machine.execCQpop a q s
  | .cQpush q b => Sys2Proof.Machine.execCQpush q b s
  | .cLdd a n => Sys2Proof.Machine.execCLdd a n s
  | .cStd a n => Sys2Proof.Machine.execCStd a n s
  | .cLdw a n => Sys2Proof.Machine.execCLdw a n s
  | .cStw a n => Sys2Proof.Machine.execCStw a n s
  | .cLddr a b => Sys2Proof.Machine.execCLddr a b s
  | .cStdr a b => Sys2Proof.Machine.execCStdr a b s
  | .cBeqz a n => Sys2Proof.Machine.execCBeqz a n s
  | .cBnez a n => Sys2Proof.Machine.execCBnez a n s
  | .cJ n => Sys2Proof.Machine.execCJ n s
  | .cJr a => Sys2Proof.Machine.execCJr a s
  | .cJalr a => Sys2Proof.Machine.execCJalr a s
  | .cVmov a b => Sys2Proof.Machine.execCVmov a b s
  | .powerOn => Sys2Proof.Machine.execPowerOn s
  | .startupStageComplete failed checksumOk => Sys2Proof.Machine.execStartupStageComplete failed checksumOk s
  | .faccWrite high v => Sys2Proof.Machine.execFaccWrite high v s
  | .modnumWrite v => Sys2Proof.Machine.execModnumWrite v s
  | .ctxtabWrite v => Sys2Proof.Machine.execCtxtabWrite v s
  | .cpgoRead a => Sys2Proof.Machine.execCpgoRead a s
  | .ringPacketArrival n => Sys2Proof.Machine.execRingPacketArrival n s
  | .moduleLinkReceive link ok pkt => Sys2Proof.Machine.execModuleLinkReceive link ok pkt s
  | .linkGroupResend link => Sys2Proof.Machine.execLinkGroupResend link s
  | .passWithhold => Sys2Proof.Machine.execPassWithhold s
  | .partFailure part => Sys2Proof.Machine.execPartFailure part s
  | .scrubLine line uncorrectable => Sys2Proof.Machine.execScrubLine line uncorrectable s
  | .noticeDelivery => Sys2Proof.Machine.execNoticeDelivery s
  | .msixVector port vector => Sys2Proof.Machine.execMsixVector port vector s
  | .portRequest req => Sys2Proof.Machine.execPortRequest req s
  | .hostMessageArrival n => Sys2Proof.Machine.execHostMessageArrival n s
  | .launchRequest die => Sys2Proof.Machine.execLaunchRequest die s
  | .launchJournaled die => Sys2Proof.Machine.execLaunchJournaled die s
  | .consumeConfirmation die seq => Sys2Proof.Machine.execConsumeConfirmation die seq s
  | .activationMessageGenerate die seq => Sys2Proof.Machine.execActivationMessageGenerate die seq s
  | .eventMirrorUpdate ctx die => Sys2Proof.Machine.execEventMirrorUpdate ctx die s
  | .messageArrival n => Sys2Proof.Machine.execMessageArrival n s
  | .missQueueResend n => Sys2Proof.Machine.execMissQueueResend n s
  | .versionMissStart core => Sys2Proof.Machine.execVersionMissStart core s
  | .messageAcceptanceNotice n => Sys2Proof.Machine.execMessageAcceptanceNotice n s
  | .messageCopyResend n => Sys2Proof.Machine.execMessageCopyResend n s
  | .activationStart core => Sys2Proof.Machine.execActivationStart core s
  | .preemption core => Sys2Proof.Machine.execPreemption core s
  | .messageAging core n => Sys2Proof.Machine.execMessageAging core n s
  | .switchComplete core => Sys2Proof.Machine.execSwitchComplete core s
  | .streamInComplete core => Sys2Proof.Machine.execStreamInComplete core s
  | .streamOutComplete core => Sys2Proof.Machine.execStreamOutComplete core s
  | .fuseTimeout core => Sys2Proof.Machine.execFuseTimeout core s
  | .migrationComplete core ctx => Sys2Proof.Machine.execMigrationComplete core ctx s
  | .donationLimit core => Sys2Proof.Machine.execDonationLimit core s
  | .engineUpcallStart core => Sys2Proof.Machine.execEngineUpcallStart core s
  | .pageWalk core va kind => Sys2Proof.Machine.execPageWalk core va kind s
  | .walkMigratingReread n => Sys2Proof.Machine.execWalkMigratingReread n s
  | .walkMigratingTimeout n => Sys2Proof.Machine.execWalkMigratingTimeout n s
  | .readLineExpire core n => Sys2Proof.Machine.execReadLineExpire core n s
  | .memoryAccessPerform acc => Sys2Proof.Machine.execMemoryAccessPerform acc s
  | .loadReplyArrival n => Sys2Proof.Machine.execLoadReplyArrival n s
  | .remoteStoreArrival n => Sys2Proof.Machine.execRemoteStoreArrival n s
  | .orderedFlagArrival n => Sys2Proof.Machine.execOrderedFlagArrival n s
  | .countPacketSend core n => Sys2Proof.Machine.execCountPacketSend core n s
  | .remoteNackResend n => Sys2Proof.Machine.execRemoteNackResend n s
  | .storeAcknowledgement n => Sys2Proof.Machine.execStoreAcknowledgement n s
  | .atomicPerform n => Sys2Proof.Machine.execAtomicPerform n s
  | .twoAddressAtomicPerform n => Sys2Proof.Machine.execTwoAddressAtomicPerform n s
  | .channelWordArrival n => Sys2Proof.Machine.execChannelWordArrival n s
  | .mleaseGrant clause => Sys2Proof.Machine.execMleaseGrant clause s
  | .leaseTurn clause => Sys2Proof.Machine.execLeaseTurn clause s
  | .tileMoveComplete clause => Sys2Proof.Machine.execTileMoveComplete clause s
  | .leaseForfeit clause => Sys2Proof.Machine.execLeaseForfeit clause s
  | .matrixCommandRun clause => Sys2Proof.Machine.execMatrixCommandRun clause s
  | .drainSizeReply clause => Sys2Proof.Machine.execDrainSizeReply clause s
  | .drainWriteArrival n => Sys2Proof.Machine.execDrainWriteArrival n s
  | .copyTransferComplete clause tid => Sys2Proof.Machine.execCopyTransferComplete clause tid s
  | .copyPromiseExpire clause tid => Sys2Proof.Machine.execCopyPromiseExpire clause tid s
  | .copyCancelStop clause tid => Sys2Proof.Machine.execCopyCancelStop clause tid s
  | .collectiveStepRun clause handle => Sys2Proof.Machine.execCollectiveStepRun clause handle s
  | .collectiveStepArrival n => Sys2Proof.Machine.execCollectiveStepArrival n s
  | .collectiveAbortNotice n => Sys2Proof.Machine.execCollectiveAbortNotice n s
  | .sweepBeat core => Sys2Proof.Machine.execSweepBeat core s
  | .remoteChangeArrival n => Sys2Proof.Machine.execRemoteChangeArrival n s
  | .valueWriteArrival n => Sys2Proof.Machine.execValueWriteArrival n s
  | .signatureLeaseGrant clause => Sys2Proof.Machine.execSignatureLeaseGrant clause s
  | .signatureCommandRun clause => Sys2Proof.Machine.execSignatureCommandRun clause s
  | .evwaitTimeout core => Sys2Proof.Machine.execEvwaitTimeout core s
  | .mwaitTimeout core => Sys2Proof.Machine.execMwaitTimeout core s
  | .wfeTimeout core => Sys2Proof.Machine.execWfeTimeout core s
  | .sleepExpire core => Sys2Proof.Machine.execSleepExpire core s
  | .withheldPassesIssued => Sys2Proof.Machine.execWithheldPassesIssued s
  | .meshPacketArrival n => Sys2Proof.Machine.execMeshPacketArrival n s
  | .invalidationComplete n => Sys2Proof.Machine.execInvalidationComplete n s
  | .eventVectorHomeMove ctx => Sys2Proof.Machine.execEventVectorHomeMove ctx s
  | .coreRemoval core successor => Sys2Proof.Machine.execCoreRemoval core successor s
  | .reservedEncoding word => Sys2Proof.Machine.execReservedEncoding word s
  | .instructionFetchFault cause va => Sys2Proof.Machine.execInstructionFetchFault cause va s

end Sys2Proof.Machine
end

