-- ==== Sys2Proof/Machine/Agents.lean ====
section
/-!
DEFINITION. Machine/Agents.lean: one issue of an activation (fetch, decode, exec), which agent moves next where the agenda
names none, and how a single instruction is placed where the next step fetches it.
-/

namespace Sys2Proof.Machine

/-! ### One issue -/

/-- The activation is held at start-up until the kernel's first message releases it (R32; log 60). -/
def bootHeld (a : Act) : Bool :=
  match a.wait with
  | some w => w.kind == 15 && !w.woke
  | none => false

/-- A core runs: it is neither fenced nor quiesced (R51, R90). -/
def coreRuns (s : State) (c : Nat) : Bool := !(coreOf s c).quiesced && !partFenced s.module.fenced (.core c)

/-- The cores whose active activations issue with the one at a place: its phrase's members, or its own core (R83). -/
def issuers (s : State) (c : Cur) : List Nat :=
  match phraseNow { s with cur := c } with
  | some p => p.members.filter (inPhrase s p)
  | none => [c.core]

/-- The activation at a place may issue: its core is up, not quiesced, not exchanging slots, no waiting message pre-empts it before the
instruction, no migrated activation outranks it, and it neither migrates nor follows a phrase's leader (R75, R79, R83, R86, R90); one that
has migrated has its turn on its full core (R87). -/
def mayIssue (s : State) (c : Cur) : Bool :=
  let k := coreOf s c.core
  match actAt s c with
  | none => false
  | some a =>
    coreRuns s c.core && coreRuns s (a.runsOn.getD c.core) && !k.migrating.contains (ctxAt s c) && (c.away.isSome || !k.switching) &&
    !isFollower { s with cur := c } && !bootHeld a &&
    (if c.away.isSome then guestTurn s (a.runsOn.getD c.core) c else !(issuers s c).any (fun i => preemptDue s i || guestAbove s i))

/-- A released activation of start-up waits no more. -/
def clearBoot (s : State) : State :=
  modAct s (fun a => match a.wait with
    | some w => if w.kind = 15 then { a with wait := none } else a
    | none => a)

/-- The activation of a context at a place is blocked at its instruction. -/
def blockedAt (s : State) (c : Cur) (ctx : Nat) : Bool :=
  ctxAt s c == ctx && match actAt s c with
    | some a => a.wait.isSome
    | none => false

/-- After an issue, what an instruction that is complete has asked of other modules is forgotten (R129). -/
def forgetIssued (s : State) (cores : List Nat) (away : Option Nat) (ctx : Nat) : State :=
  if s.memos.isEmpty then s
  else cores.foldl (fun s c => if blockedAt s ⟨c, away⟩ ctx then s else forget s c ctx 0) s

/-- An instruction issues on the current activation, and what it has asked is forgotten once it is complete. -/
def execThen (s : State) (i : Instr) (cores : List Nat) (away : Option Nat) (ctx : Nat) : Host.Outcome State Fault Refusal :=
  match exec i s with
  | .next t => .next (forgetIssued t cores away ctx)
  | o => o

/-- The current activation issues: its instruction is fetched, decoded and executed; a fetch that waits leaves it (R270, R280). -/
noncomputable def issueFetched (s : State) : Host.Outcome State Fault Refusal :=
  let go : State → Instr → Host.Outcome State Fault Refusal := fun t i => execThen t i (issuers s s.cur) s.cur.away (ctxId s)
  match fetch s with
  | .instr t i => go t i
  | .bad t w => go t (.reservedEncoding (w.setWidth 32))
  | .fault t c va => go t (.instructionFetchFault c va)
  | .wait t => .next t

/-- The trap that the current activation still has to deliver (R116). -/
def pendingTrap (s : State) : Option (Cause × Word × Bool) := (act s).wait.bind (·.trap)

/-- The activation at a place issues, if it may; one whose trap waits for its fibre record delivers that trap instead (R116). -/
noncomputable def issueAt (s : State) (c : Cur) : Host.Outcome State Fault Refusal :=
  if mayIssue s c then
    let s := clearBoot { s with cur := c }
    match pendingTrap s with
    | some (cause, tval, phrase) => .next (forgetIssued (deliverTrap s phrase cause tval) [c.core] c.away (ctxId s))
    | none => issueFetched s
  else .next s

/-! ### Events -/

/-- Event rows that take place only inside an issue: the fetch of an undefined word, a failing fetch, a read of CR.CPGO. -/
def insideIssue (i : Instr) : Bool :=
  match i with
  | .reservedEncoding _ => true
  | .instructionFetchFault _ _ => true
  | .cpgoRead _ => true
  | _ => false

/-- An event takes place; what the agenda names and is no event of its own changes nothing. DESIGN CHOICE, log 54: safe. -/
def runEvent (s : State) (i : Instr) : Host.Outcome State Fault Refusal :=
  if (encode i).isSome || insideIssue i then .next s
  else
    match exec i s with
    | .next t => .next t
    | _ => .next s

/-- An event is enabled: it changes the state. -/
def mayHappen (s : State) (i : Instr) : Bool :=
  match runEvent s i with
  | .next t => t != s
  | _ => false

/-- The events of packets in flight. -/
noncomputable def packetEvents (n : Nat) : List Instr :=
  [.meshPacketArrival n, .ringPacketArrival n, .messageArrival n, .hostMessageArrival n, .messageAcceptanceNotice n,
    .missQueueResend n, .messageCopyResend n, .remoteStoreArrival n, .orderedFlagArrival n, .storeAcknowledgement n,
    .remoteNackResend n, .memoryAccessPerform (.request n), .atomicPerform n, .loadReplyArrival n, .channelWordArrival n,
    .drainWriteArrival n, .collectiveStepArrival n, .collectiveAbortNotice n, .remoteChangeArrival n, .valueWriteArrival n]

/-- The events of a request at its home port. -/
noncomputable def requestEvents (n : Nat) : List Instr :=
  [.memoryAccessPerform (.request n), .atomicPerform n, .twoAddressAtomicPerform n, .loadReplyArrival n]

/-- The events of a core that name no more than it. -/
noncomputable def bareCoreEvents (c : Nat) : List Instr :=
  [.switchComplete c, .streamOutComplete c, .streamInComplete c, .fuseTimeout c, .donationLimit c, .preemption c,
    .engineUpcallStart c, .activationStart c, .versionMissStart c, .sweepBeat c, .evwaitTimeout c, .mwaitTimeout c, .wfeTimeout c,
    .sleepExpire c]

/-- The lines that the activations in place on a core buffer (R151). -/
def bufferedLines (k : Core) : List Nat :=
  (k.active.toList ++ k.away).flatMap (fun f => match f.act with
    | some a => a.rlb.map (fun b => b.line)
    | none => [])

/-- The events of a core. -/
noncomputable def coreEvents (k : Core) (c : Nat) : List Instr :=
  List.flatten [bareCoreEvents c, k.waiting.map (fun m => Instr.messageAging c m.id),
    k.migrating.map (fun x => Instr.migrationComplete c x), (bufferedLines k).map (fun n => Instr.readLineExpire c n),
    (List.range k.sendTab.length).map (fun n => Instr.countPacketSend c n)]

/-- The events of a clause's engines that name no more than it. -/
noncomputable def bareClauseEvents (c : Nat) : List Instr :=
  [.tileMoveComplete c, .mleaseGrant c, .leaseForfeit c, .leaseTurn c, .drainSizeReply c, .matrixCommandRun c,
    .signatureLeaseGrant c, .signatureCommandRun c]

/-- The events of a transfer. -/
noncomputable def copyEvents (c id : Nat) : List Instr :=
  [Instr.copyCancelStop c id, Instr.copyTransferComplete c id, Instr.copyPromiseExpire c id, Instr.memoryAccessPerform (.copy c id)]

/-- The events of a clause. -/
noncomputable def clauseEvents (k : Clause) (c : Nat) : List Instr :=
  List.flatten [bareClauseEvents c, k.copies.flatMap (fun j => copyEvents c j.id),
    k.colls.map (fun j => Instr.collectiveStepRun c j.handle)]

/-- The events of a launch. -/
noncomputable def launchSteps (l : Launch) : List Instr :=
  [Instr.launchJournaled l.die, Instr.consumeConfirmation l.die l.seq, Instr.activationMessageGenerate l.die l.seq]

/-- The events of launches and event vectors. -/
noncomputable def launchEvents (s : State) : List Instr :=
  List.flatten [s.dies.map (fun d => Instr.launchRequest d.1), s.launches.flatMap launchSteps,
    s.mirrorQ.map (fun m => Instr.eventMirrorUpdate m.1 m.2.1), s.evec.map (fun h => Instr.eventVectorHomeMove h.1)]

/-- Every event that may take place by itself: before start-up is complete, its next stage; then those of the module's parts. -/
noncomputable def ownEvents (s : State) : List Instr :=
  if s.module.stage < 7 then [Instr.powerOn, Instr.startupStageComplete [] true]
  else
    List.flatten [s.reqs.flatMap (fun r => requestEvents r.1), s.net.flatMap (fun p => packetEvents p.1),
      s.walks.flatMap (fun w => [Instr.walkMigratingReread w.1, Instr.walkMigratingTimeout w.1]),
      s.invals.map (fun v => Instr.invalidationComplete v.1), launchEvents s,
      s.clauses.flatMap (fun k => clauseEvents k.2 k.1), s.cores.flatMap (fun k => coreEvents k.2 k.1),
      [Instr.noticeDelivery, Instr.withheldPassesIssued]]

/-! ### Which agent moves next -/

/-- The places whose activations may issue. -/
def readyPlaces (s : State) : List Cur := (s.cores.flatMap (fun k => placesOf s k.1)).filter (mayIssue s)

/-- An event takes place by itself, if one is enabled. -/
noncomputable def eventTurn (s : State) : Option (Host.Outcome State Fault Refusal) :=
  ((ownEvents s).find? (mayHappen s)).map (runEvent s)

/-- An activation issues, the places taking turns. -/
noncomputable def issueTurn (s : State) : Option (Host.Outcome State Fault Refusal) :=
  let ps := readyPlaces s
  (ps[s.cyc / 2 % Nat.max ps.length 1]?).map (issueAt s)

/-- Where the agenda is empty, events and activations take turns; where neither can move, a cycle passes.
DESIGN CHOICE, log 4: unsafe. -/
noncomputable def ownTurn (s : State) : Host.Outcome State Fault Refusal :=
  if s.cyc % 2 = 0 then ((eventTurn s).orElse (fun _ => issueTurn s)).getD (.next s)
  else ((issueTurn s).orElse (fun _ => eventTurn s)).getD (.next s)

/-! ### One instruction where the next step fetches it -/

/-- The physical address of the page-table root, of the instruction, and the core that runs it: full core 6. -/
def placedRoot : Nat := 0x20000
/-- The address of the placed instruction, virtual and physical. -/
def placedPc : Nat := 0x10000
/-- The core of the placed activation. -/
def placedCore : Nat := 6

/-- Places four bytes where the next step fetches: an activation of context 0 in privileged mode on a full core of a module
whose start-up is complete, under one 4 TiB leaf that maps every page to itself, with the instruction's line in its fetch buffer. DESIGN CHOICE, log 61: unsafe. -/
def placeBytes (s : State) (bs : List Byte) : State :=
  let s := { s with module := { s.module with powered := true, halt := false, stage := 7, fenced := [], suspects := [] }, walks := [], locks := [],
                    poison := s.poison.filter (fun l => l != lineOf placedPc && l != lineOf placedRoot) }
  let s := writeBytes s 0 placedPc bs
  let line : LineBuf := ⟨lineKey none placedPc, readBytes s placedPc 64, s.cyc⟩
  let s := writeWord (writeWord s 0 placedRoot 0x1BF#64) 0 (placedRoot + 8) (BitVec.allOnes 64)
  let s := modClause s (clauseOfCore placedCore) (fun k => { k with tlb := [] })
  let s := modCore s placedCore (fun k => { k with
    active := some ⟨0, some { Act.zero with pc := BitVec.ofNat 64 placedPc, priv := true, fetch := [line] }⟩
    switching := false
    phrase := none
    quiesced := false
    migrating := []
    waiting := []
    tlb := [] })
  let s := modCtx s placedCore 0 (fun x => { x with entry := { x.entry with ptroot := BitVec.ofNat 64 placedRoot, asid := 0 } })
  { s with agenda := [.core placedCore] }

end Sys2Proof.Machine
end

