-- ==== Sys2Proof/Machine/Step.lean ====
section
/-!
DEFINITION. Machine/Step.lean: one step of the module.
-/

namespace Sys2Proof.Machine

/-- A cycle passes with every step that gives a next state (R312): what is held for a walker, a page or an answer tries again, waiting
walkers read their entries (R144), and contexts that are no longer live are forgotten. DESIGN CHOICE, log 55: unsafe. -/
def tick (o : Host.Outcome State Fault Refusal) : Host.Outcome State Fault Refusal :=
  match o with
  | .next t => .next { settleContexts (passWalks (retryHeld t) 1) with cyc := t.cyc + 1 }
  | .fault f => .fault f
  | .refused r => .refused r

/-- The kernel loads the links that lead to a module, by a means of its own (R27, R28). DESIGN CHOICE, log 66: unsafe. -/
def loadLinks (s : State) (m : Nat) (links : List Nat) : State :=
  { s with module := { s.module with linkTable := tset s.module.linkTable m (links.filter (· < 24)) } }

/-- The kernel names the application core of a vector, by a means of its own (R31). DESIGN CHOICE, log 66: unsafe. -/
def loadMsix (s : State) (port vector core : Nat) : State :=
  { s with module := { s.module with msix := tset s.module.msix (65536 * port + vector) core } }

/-- What the agenda names next takes place; with an empty agenda the module's own agents take turns. -/
noncomputable def stepAgenda (s : State) : Host.Outcome State Fault Refusal :=
  match s.agenda with
  | [] => tick (ownTurn s)
  | .core c :: r => tick (issueAt { s with agenda := r } ⟨c, none⟩)
  | .away h x :: r => tick (issueAt { s with agenda := r } ⟨h, some x⟩)
  | .event i :: r => tick (runEvent { s with agenda := r } i)
  | .pass n :: r => .next { passWalks s n with agenda := r, cyc := s.cyc + n }
  | .loadLinks m ls :: r => tick (.next (loadLinks { s with agenda := r } m ls))
  | .loadMsix p v c :: r => tick (.next (loadMsix { s with agenda := r } p v c))
  | .damage n :: r => tick (.next (damageFlit { s with agenda := r } n))

/-- One step. The management controller judges failed, first, what a ring or link fault has named as its sender (R17, R51).
DEDUCED, log 67: unsafe. -/
noncomputable def step (s : State) : Host.Outcome State Fault Refusal :=
  if s.module.halt then .fault .halted
  else
    match s.module.suspects with
    | p :: r => tick (.next (partFailure { s with module := { s.module with suspects := r } } p))
    | [] => stepAgenda s

/-- The state with the instruction of the table word `w` placed where step fetches its next instruction. -/
def State.withFetchWord (s : State) (nbits w : Nat) : State := placeBytes s (leBytes 4 (w % 2 ^ nbits))

end Sys2Proof.Machine
end

