-- ==== Sys2Proof/Safety.lean ====
section
/-!
DEFINITION. Safety.lean: what a safe run of the module is, in the terms that statements use.
-/

namespace Sys2Proof.Machine

/-- An activation is current and no phrase holds its core: an instruction issues for it alone. -/
def Solo (s : State) : Prop := (actAt s s.cur).isSome = true ∧ phraseNow s = none

/-- The state `s` once an instruction of `n` bytes has completed on the current activation: pc past it, no wait. -/
def after (n : Nat) (s : State) : State := modAct s (fun a => { a with pc := a.pc + BitVec.ofNat 64 n, wait := none })

/-- The state `s` once a control transfer to `t` has completed on the current activation. -/
def jumped (s : State) (t : Word) : State := modAct s (fun a => { a with pc := t, wait := none })

/-- The state once an instruction of the current activation has raised a trap: `s` holds what the trap leaves of its effect. -/
def trapped (s : State) (c : Cause) (tval : Word) : State := finish shortGate (.trap s c tval)

/-- The state once an instruction of the current activation is blocked: it is issued again. -/
def blocked (s : State) (w : Wait) : State := modAct s (fun a => { a with wait := some w })

/-- An aligned access of `n` bytes lies in window 0, inside the scratchpad (R108). -/
def InWindow0 (s : State) (a : Word) (n : Nat) : Prop :=
  rangeOf a = .window 0 ∧ a.toNat % n = 0 ∧ windowOff a + n ≤ scratchSize (partNow s)

/-- The location that a window-0 address names (R108). -/
def window0Loc (s : State) (a : Word) : Nat := scratchBase (home s) (partNow s) + windowOff a

/-- An aligned access of `n` bytes to page-mapped memory translates, for the current activation, to a location of this module. -/
def Mapped (s : State) (k : AccKind) (a : Word) (n loc : Nat) (ls : List TlbEntry) : Prop :=
  rangeOf a = .paged ∧ a.toNat % n = 0 ∧ loc % n = 0 ∧ translateAll s (who s) k [(a.toNat, n)] = .ok [[(loc, none, n)]] ls

/-- The state after a translation has passed: accessed and dirty bits set, leaves buffered (R133, R135). -/
def touched (s : State) (k : AccKind) (ls : List TlbEntry) : State := commitLeaves s (who s) k ls

/-- The state once a plain load has its line in the read-line buffer (R151). -/
def lineHeld (s : State) (loc : Nat) : State := if (rlbFind s (loc / 64)).isSome then s else rlbFill s (loc / 64)

/-- What a plain load of `n` bytes sees at a location: the read-line buffer's bytes (R151). -/
def plainNat (s : State) (loc n : Nat) : Nat := leNat ((List.range n).map (fun i => rlbByte s none (loc + i)))

/-- The state once a store of the current activation to global memory has been made: the read-line buffer's copy is updated (R151),
and its home port has performed the store, or is asked to (R148). -/
def globalStore (s : State) (loc : Nat) (bs : List Byte) : State :=
  let t := rlbStore s none loc bs
  if t.heldPorts then sendReq t .store [(loc, bs.length, bs)] else storeAt t (ctxId t) loc bs

/-- A plain load need not ask a home port: home ports answer at once, or the line is in the read-line buffer (R148, R151). -/
def LineAtHand (s : State) (loc : Nat) : Prop := s.heldPorts = false ∨ (rlbFind s (loc / 64)).isSome = true

/-- Nothing stands against an access of the current activation to some pool bytes of its core: no line of them is poisoned (R50), and
none of its own earlier accesses to them is under way (R150). -/
def Quiet (s : State) (loc n : Nat) : Prop := poisonedIn s loc n = none ∧ ownPending s (agentNow s) loc n = false

/-- Nothing stands against an access of an element of a format window. -/
def QuietElem (s : State) (size w i : Nat) : Prop := ∀ x ∈ poolSpans s size (.fmt w i), Quiet s x.1 x.2

/-- No line of a lexicon slot is lost (R50). -/
def SlotSound (s : State) (cl : Nat) (l : LexSlot) : Prop :=
  poisonedIn s (lexLoc cl (65536 * l.base)) (2 * l.n * l.s + 6 * l.n + 4 * l.n * l.n) = none

/-- The state once a load has read some pool bytes: an acquire, where a mailbox word is among them (R154). -/
def seen (s : State) (loc n : Nat) : State := mailAcquire s [.pool loc n]

/-- The state once a load has read some bytes of this module's memory (R154). -/
def seenMem (s : State) (loc n : Nat) : State := mailAcquire s [.mem none loc n]

/-- A first issue: no earlier issue of the instruction is blocked. -/
def FirstIssue (s : State) : Prop := (act s).wait = none

/-- No earlier issue of the instruction has sent an access: it was not blocked, or only waited. -/
def Unsent (s : State) : Prop := ∀ w, (act s).wait = some w → w.tags = [] ∧ w.reply = none ∧ w.bytes = [] ∧ w.refused = [] ∧ w.stage = 0

/-- The instruction has been issued before, and what it asked for has come: these bytes. -/
def Answered (s : State) (bs : List Byte) : Prop := ∃ w, (act s).wait = some w ∧ w.tags = [] ∧ w.reply = none ∧ w.refused = [] ∧ w.bytes = bs

/-- The wait of an instruction at its first issue, of a kind and an operand (R104). -/
def waiting (s : State) (kind : Nat) (operand : Word) : Wait := ⟨kind, s.cyc, operand, 0, false, false, false, none, [], [], [], [], none, []⟩

/-- The low 32 bits of a word. -/
def low32 (x : Word) : BitVec 32 := x.setWidth 32

/-- A 32-bit result as a `.w` form writes it. -/
def sext32 (x : BitVec 32) : Word := x.signExtend 64

/-- Every byte of every location reads as it did. -/
def SameMemory (s t : State) : Prop := ∀ loc, readByte t loc = readByte s loc

/-- Nothing but the current activation differs: every other core, every other context and activation of its core, every clause,
die, queue and table, and every byte of memory, are as they were. -/
def OnlyActivation (s t : State) : Prop := t = setAct s (act t) ∧ SameMemory s t

/-- Memory is in its one canonical form: locations strictly rise, and none is listed with the value an unlisted one reads as. -/
def MemoryCanonical (s : State) : Prop := Memory.wf s.mem = true

/-- The module goes on for k steps: no fault and no refusal stops it. -/
def RunsFor (s : State) (k : Nat) : Prop := ∃ t, core.run k s = .next t

/-- A vector register once its enabled lanes have received their results and the others keep what they held (R320). -/
def lanesOf (p : BitVec 16) (old : VReg) (f : Fin 16 → Lane) : VReg := Vector.ofFn (fun i => if p.getLsbD i.val then f i else old[i])

/-- Lane j of a floating form is enabled: binary64 lane j by bit 2j of the predicate (R93, R320). -/
def floatOn (t : Bool) (p : BitVec 16) (j : Nat) : Bool := p.getLsbD (if t then 2 * j else j)

/-- A vector register once a floating form has written the codes of its enabled lanes: binary64 lane j in lanes 2j and 2j + 1 (R93). -/
def floatCodes (t : Bool) (p : BitVec 16) (old : VReg) (r : Nat → Nat) : VReg :=
  Vector.ofFn (fun i =>
    if floatOn t p (if t then i.val / 2 else i.val) then
      BitVec.ofNat 32 (if t then (if i.val % 2 = 0 then r (i.val / 2) else r (i.val / 2) / 2 ^ 32) else r i.val)
    else old[i])

/-- The status flags that the enabled lanes of a floating form raise (R199, R324). -/
def floatFlags (t : Bool) (p : BitVec 16) (r : Nat → Nat) : Nat :=
  ((List.range (if t then 8 else 16)).filter (floatOn t p)).foldl (fun acc j => acc ||| r j) 0

/-- The state once a floating form has written vector register a from each lane's code and flags (R323). -/
def floatLanes (t : Bool) (s : State) (p : PReg) (a : VRegN) (r : Nat → Nat × Nat) : State :=
  raiseFlags (wV s a (floatCodes t (rP s p) (rV s a) (fun j => (r j).1))) (floatFlags t (rP s p) (fun j => (r j).2))

/-- The number of enabled lanes below lane j. -/
def laneRank (p : BitVec 16) (j : Nat) : Nat := ((List.range j).filter (fun k => p.getLsbD k)).length

/-! ### Numbers: what a rounding is (R187-R200) -/

/-- The real number that an exact finite value stands for: (−1)^neg · num / den · 2^exp; a special value has none, and gives 0. -/
noncomputable def Xv.real : Xv → ℝ
  | .fin n a b e => (if n then -1 else 1) * ((a : ℝ) / b) * 2 ^ e
  | _ => 0

/-- The magnitude of a finite code without its sign bit (R187, R191, R193). -/
noncomputable def Fmt.magnitude (f : Fmt) (c : Nat) : ℝ :=
  let e : Nat := c / 2 ^ f.fbits
  let m : Nat := c % 2 ^ f.fbits
  if e = 0 then (m : ℝ) / 2 ^ f.fbits * 2 ^ (1 - f.bias) else (1 + (m : ℝ) / 2 ^ f.fbits) * 2 ^ ((e : Int) - f.bias)

/-- Of the codes below n, c has the value nearest to x, and is even where another is as near (R198). -/
def Nearest (val : Nat → ℝ) (n : Nat) (x : ℝ) (c : Nat) : Prop :=
  c < n ∧ ∀ d < n, |val c - x| ≤ |val d - x| ∧ (d ≠ c → |val d - x| = |val c - x| → c % 2 = 0)

/-- A code and flags are the one rounding of a magnitude x: the nearest code below n, with inexact raised where its value is not x, and
underflow too where x lies below the smallest normal (R198-R200). -/
def RoundsTo (val : Nat → ℝ) (n : Nat) (normal x : ℝ) (r : Nat × Nat) : Prop :=
  Nearest val n x r.1 ∧ (val r.1 = x → r.2 = 0) ∧ (val r.1 ≠ x → x < normal → r.2 = 3) ∧ (val r.1 ≠ x → normal ≤ x → r.2 = 1)

/-- A code and flags are the one rounding of the real number x, of that sign, to an IEEE format or A48: what would round past the
largest finite value becomes the infinity of its sign, with overflow and inexact (R187, R189). -/
def Fmt.Rounded (f : Fmt) (x : ℝ) (neg : Bool) (r : Nat × Nat) : Prop :=
  let sign := if neg then 2 ^ (f.ebits + f.fbits) else 0
  let top : ℝ := (2 - 1 / 2 ^ (f.fbits + 1)) * 2 ^ f.bias
  (top ≤ |x| → r = (f.infCode + sign, 5)) ∧
  (|x| < top → ∃ c, r.1 = c + sign ∧ RoundsTo f.magnitude f.infCode (2 ^ (1 - f.bias)) |x| (c, r.2))

/-- A code and flags are the one rounding of the real number x, of that sign, to a format whose codes without the sign lie below n and
whose greatest magnitude is `most`, of code `last`: beyond it the result saturates, with overflow and inexact (R192, R194, R197). -/
def Saturated (val : Nat → ℝ) (n last sign : Nat) (most normal x : ℝ) (r : Nat × Nat) : Prop :=
  (most < |x| → r = (last + sign, 5)) ∧ (|x| ≤ most → ∃ c, r.1 = c + sign ∧ RoundsTo val n normal |x| (c, r.2))

/-- An extension D form may run: the core has the extension, and the feature is accepted (R279, R39). -/
def DoubleReady (s : State) (t : Bool) : Prop := t = true → featureFor s (ctxId s) 3 = true ∧ hasExtD (runCore s) = true

end Sys2Proof.Machine
end

