-- ==== Sys2Proof/Certificates/Slice0/Obligations.lean ====
section
/-!
DEFINITION. Certificates/Slice0/Obligations.lean: the statements for the provers.
-/

open Sys2Proof Sys2Proof.Machine

/-! ### Scalar registers and the integer ALU -/

/-- R93, R283: s0 reads 0 and discards writes, p0 reads 0xFFFF and discards writes; every other scalar, vector, predicate and
operand-extension register reads what was last written to it, and a write leaves the other registers of its file alone. -/
def Obligations.RegisterFiles : Prop :=
  ∀ a : Act,
    (∀ w, a.getS 0 = 0 ∧ a.setS 0 w = a) ∧
    (∀ x, a.getP 0 = 0xFFFF#16 ∧ a.setP 0 x = a) ∧
    (∀ i w, i ≠ 0 → (a.setS i w).getS i = w) ∧ (∀ i j w, j ≠ i → (a.setS i w).getS j = a.getS j) ∧
    (∀ i x, (a.setV i x).getV i = x) ∧ (∀ i j x, j ≠ i → (a.setV i x).getV j = a.getV j) ∧
    (∀ i x, i ≠ 0 → (a.setP i x).getP i = x) ∧ (∀ i j x, j ≠ i → (a.setP i x).getP j = a.getP j) ∧
    (∀ i w, (a.setE i w).getE i = w) ∧ (∀ i j w, j ≠ i → (a.setE i w).getE j = a.getE j)

/-- R284: ADD, SUB, AND, OR, XOR, ANDN, MUL, in both widths: the value written to sA, and nothing else but pc. R284: SHL, SHR,
SAR, ROTL shift by the low six bits of sC, or by the low five with `.w`. -/
def Obligations.AluSumsLogicAndShifts : Prop :=
  (∀ (s : State) (a b c : SReg), Solo s →
    exec (.add false a b c) s = .next (after 4 (wS s a (rS s b + rS s c))) ∧
    exec (.add true a b c) s = .next (after 4 (wS s a (sext32 (low32 (rS s b) + low32 (rS s c))))) ∧
    exec (.sub false a b c) s = .next (after 4 (wS s a (rS s b - rS s c))) ∧
    exec (.sub true a b c) s = .next (after 4 (wS s a (sext32 (low32 (rS s b) - low32 (rS s c))))) ∧
    exec (.and false a b c) s = .next (after 4 (wS s a (rS s b &&& rS s c))) ∧
    exec (.and true a b c) s = .next (after 4 (wS s a (sext32 (low32 (rS s b) &&& low32 (rS s c))))) ∧
    exec (.or false a b c) s = .next (after 4 (wS s a (rS s b ||| rS s c))) ∧
    exec (.or true a b c) s = .next (after 4 (wS s a (sext32 (low32 (rS s b) ||| low32 (rS s c))))) ∧
    exec (.xor false a b c) s = .next (after 4 (wS s a (rS s b ^^^ rS s c))) ∧
    exec (.xor true a b c) s = .next (after 4 (wS s a (sext32 (low32 (rS s b) ^^^ low32 (rS s c))))) ∧
    exec (.andn false a b c) s = .next (after 4 (wS s a (rS s b &&& ~~~(rS s c)))) ∧
    exec (.andn true a b c) s = .next (after 4 (wS s a (sext32 (low32 (rS s b) &&& ~~~(low32 (rS s c)))))) ∧
    exec (.mul false a b c) s = .next (after 4 (wS s a (BitVec.ofNat 64 ((rS s b).toNat * (rS s c).toNat)))) ∧
    exec (.mul true a b c) s = .next (after 4 (wS s a (sext32 (BitVec.ofNat 32 ((low32 (rS s b)).toNat * (low32 (rS s c)).toNat)))))) ∧
  (∀ (s : State) (a b c : SReg), Solo s →
    let n := ((rS s c).extractLsb' 0 6).toNat
    let m := ((rS s c).extractLsb' 0 5).toNat
    exec (.shl false a b c) s = .next (after 4 (wS s a (BitVec.ofNat 64 ((rS s b).toNat * 2 ^ n)))) ∧
    exec (.shl true a b c) s = .next (after 4 (wS s a (sext32 (BitVec.ofNat 32 ((low32 (rS s b)).toNat * 2 ^ m))))) ∧
    exec (.shr false a b c) s = .next (after 4 (wS s a (BitVec.ofNat 64 ((rS s b).toNat / 2 ^ n)))) ∧
    exec (.shr true a b c) s = .next (after 4 (wS s a (sext32 (BitVec.ofNat 32 ((low32 (rS s b)).toNat / 2 ^ m))))) ∧
    exec (.sar false a b c) s = .next (after 4 (wS s a (BitVec.ofInt 64 ((rS s b).toInt / 2 ^ n)))) ∧
    exec (.sar true a b c) s = .next (after 4 (wS s a (sext32 (BitVec.ofInt 32 ((low32 (rS s b)).toInt / 2 ^ m))))) ∧
    exec (.rotl false a b c) s = .next (after 4 (wS s a ((rS s b).rotateLeft n))) ∧
    exec (.rotl true a b c) s = .next (after 4 (wS s a (sext32 ((low32 (rS s b)).rotateLeft m)))))

/-- R284, R285: MULH and MULHU give the high half of the exact product; DIV, DIVU, REM, REMU divide rounding toward zero, never
trap, and give all ones and the dividend for divisor 0; R285's example word and values are stated as such. R284: MIN, MAX, MINU, MAXU give the lesser or greater; SLT, SLTU, SEQ
give 1 or 0. -/
def Obligations.AluProductsDivisionAndComparisons : Prop :=
  (∀ (s : State) (a b c : SReg), Solo s →
    let x := rS s b
    let y := rS s c
    let u := low32 x
    let v := low32 y
    exec (.mulh false a b c) s = .next (after 4 (wS s a (BitVec.ofInt 64 (x.toInt * y.toInt / 2 ^ 64)))) ∧
    exec (.mulh true a b c) s = .next (after 4 (wS s a (sext32 (BitVec.ofInt 32 (u.toInt * v.toInt / 2 ^ 32))))) ∧
    exec (.mulhu false a b c) s = .next (after 4 (wS s a (BitVec.ofNat 64 (x.toNat * y.toNat / 2 ^ 64)))) ∧
    exec (.mulhu true a b c) s = .next (after 4 (wS s a (sext32 (BitVec.ofNat 32 (u.toNat * v.toNat / 2 ^ 32))))) ∧
    exec (.div false a b c) s = .next (after 4 (wS s a (if y = 0 then BitVec.allOnes 64 else BitVec.ofInt 64 (x.toInt.tdiv y.toInt)))) ∧
    exec (.div true a b c) s =
      .next (after 4 (wS s a (if v = 0 then BitVec.allOnes 64 else sext32 (BitVec.ofInt 32 (u.toInt.tdiv v.toInt))))) ∧
    exec (.divu false a b c) s = .next (after 4 (wS s a (if y = 0 then BitVec.allOnes 64 else BitVec.ofNat 64 (x.toNat / y.toNat)))) ∧
    exec (.divu true a b c) s =
      .next (after 4 (wS s a (if v = 0 then BitVec.allOnes 64 else sext32 (BitVec.ofNat 32 (u.toNat / v.toNat))))) ∧
    exec (.rem false a b c) s = .next (after 4 (wS s a (BitVec.ofInt 64 (x.toInt.tmod y.toInt)))) ∧
    exec (.rem true a b c) s = .next (after 4 (wS s a (sext32 (BitVec.ofInt 32 (u.toInt.tmod v.toInt))))) ∧
    exec (.remu false a b c) s = .next (after 4 (wS s a (BitVec.ofNat 64 (x.toNat % y.toNat)))) ∧
    exec (.remu true a b c) s = .next (after 4 (wS s a (sext32 (BitVec.ofNat 32 (u.toNat % v.toNat)))))) ∧
  (∀ (s : State) (a b c : SReg), Solo s →
    let x := rS s b
    let y := rS s c
    let u := low32 x
    let v := low32 y
    exec (.min false a b c) s = .next (after 4 (wS s a (BitVec.ofInt 64 (min x.toInt y.toInt)))) ∧
    exec (.min true a b c) s = .next (after 4 (wS s a (BitVec.ofInt 64 (min u.toInt v.toInt)))) ∧
    exec (.max false a b c) s = .next (after 4 (wS s a (BitVec.ofInt 64 (max x.toInt y.toInt)))) ∧
    exec (.max true a b c) s = .next (after 4 (wS s a (BitVec.ofInt 64 (max u.toInt v.toInt)))) ∧
    exec (.minu false a b c) s = .next (after 4 (wS s a (BitVec.ofNat 64 (min x.toNat y.toNat)))) ∧
    exec (.minu true a b c) s = .next (after 4 (wS s a (sext32 (BitVec.ofNat 32 (min u.toNat v.toNat))))) ∧
    exec (.maxu false a b c) s = .next (after 4 (wS s a (BitVec.ofNat 64 (max x.toNat y.toNat)))) ∧
    exec (.maxu true a b c) s = .next (after 4 (wS s a (sext32 (BitVec.ofNat 32 (max u.toNat v.toNat))))) ∧
    exec (.slt false a b c) s = .next (after 4 (wS s a (if x.toInt < y.toInt then 1 else 0))) ∧
    exec (.slt true a b c) s = .next (after 4 (wS s a (if u.toInt < v.toInt then 1 else 0))) ∧
    exec (.sltu false a b c) s = .next (after 4 (wS s a (if x.toNat < y.toNat then 1 else 0))) ∧
    exec (.sltu true a b c) s = .next (after 4 (wS s a (if u.toNat < v.toNat then 1 else 0))) ∧
    exec (.seq false a b c) s = .next (after 4 (wS s a (if x = y then 1 else 0))) ∧
    exec (.seq true a b c) s = .next (after 4 (wS s a (if u = v then 1 else 0)))) ∧
  (decode32 0x169CC503 = some (.div true 5 6 7) ∧
    ∀ s : State, Solo s →
      (rS s 6 = 0x180000000#64 → rS s 7 = 0xFFFFFFFFFFFFFFFF#64 →
        exec (.div true 5 6 7) s = .next (after 4 (wS s 5 0xFFFFFFFF80000000#64)) ∧
        exec (.rem true 5 6 7) s = .next (after 4 (wS s 5 0))) ∧
      (rS s 6 = 0x8000000000000000#64 → rS s 7 = 0xFFFFFFFFFFFFFFFF#64 →
        exec (.div false 5 6 7) s = .next (after 4 (wS s 5 0x8000000000000000#64)) ∧
        exec (.rem false 5 6 7) s = .next (after 4 (wS s 5 0))) ∧
      exec (.div false 5 6 0) s = .next (after 4 (wS s 5 (BitVec.allOnes 64))) ∧
      exec (.rem false 5 6 0) s = .next (after 4 (wS s 5 (rS s 6))))

/-- R284: CLZ, CTZ, POPC and BREV of sB: the counts are described by the bits they count, the reversal bit by bit; SEXTB, SEXTH,
SEXTW and ZEXTW extend the low part. R286, R287, R288: the immediate forms, with sext(imm14), with the shift amount n, and with
sext of imm19 shifted by 13, and the words of R286-R288 decode to them. R289: OXSET, OXGET, OXCLR move one e-register; OXLDM loads eA to eA+m from consecutive words of
window 0, OXSTM stores them there, and every other byte and register stays. -/
def Obligations.AluUnaryImmediatesAndExtensionMoves : Prop :=
  ((∀ (s : State) (a b : SReg), Solo s →
    let x := rS s b
    (∃ n, n ≤ 64 ∧ exec (.clz false a b) s = .next (after 4 (wS s a (BitVec.ofNat 64 n))) ∧
      (∀ i, 64 ≤ i + n → i < 64 → x.getLsbD i = false) ∧ (n < 64 → x.getLsbD (63 - n) = true)) ∧
    (∃ n, n ≤ 32 ∧ exec (.clz true a b) s = .next (after 4 (wS s a (BitVec.ofNat 64 n))) ∧
      (∀ i, 32 ≤ i + n → i < 32 → x.getLsbD i = false) ∧ (n < 32 → x.getLsbD (31 - n) = true)) ∧
    (∃ n, n ≤ 64 ∧ exec (.ctz false a b) s = .next (after 4 (wS s a (BitVec.ofNat 64 n))) ∧
      (∀ i, i < n → x.getLsbD i = false) ∧ (n < 64 → x.getLsbD n = true)) ∧
    (∃ n, n ≤ 32 ∧ exec (.ctz true a b) s = .next (after 4 (wS s a (BitVec.ofNat 64 n))) ∧
      (∀ i, i < n → x.getLsbD i = false) ∧ (n < 32 → x.getLsbD n = true)) ∧
    exec (.popc false a b) s =
      .next (after 4 (wS s a (BitVec.ofNat 64 ((Finset.range 64).filter (fun i => x.getLsbD i = true)).card))) ∧
    exec (.popc true a b) s =
      .next (after 4 (wS s a (BitVec.ofNat 64 ((Finset.range 32).filter (fun i => x.getLsbD i = true)).card))) ∧
    (∃ v : Word, exec (.brev false a b) s = .next (after 4 (wS s a v)) ∧ ∀ i < 64, v.getLsbD i = x.getLsbD (63 - i)) ∧
    (∃ v : BitVec 32, exec (.brev true a b) s = .next (after 4 (wS s a (sext32 v))) ∧ ∀ i < 32, v.getLsbD i = x.getLsbD (31 - i)) ∧
    exec (.sextb a b) s = .next (after 4 (wS s a (BitVec.ofInt 64 (x.setWidth 8).toInt))) ∧
    exec (.sexth a b) s = .next (after 4 (wS s a (BitVec.ofInt 64 (x.setWidth 16).toInt))) ∧
    exec (.sextw a b) s = .next (after 4 (wS s a (BitVec.ofInt 64 (x.setWidth 32).toInt))) ∧
    exec (.zextw a b) s = .next (after 4 (wS s a (BitVec.ofNat 64 (x.toNat % 2 ^ 32))))) ∧
  (∀ (s : State) (a b : SReg) (k : BitVec 14) (n : BitVec 6) (h : BitVec 19), Solo s →
    let x := rS s b
    let upper : Word := BitVec.ofInt 64 (h.toInt * 2 ^ 13)
    exec (.addi a b k) s = .next (after 4 (wS s a (BitVec.ofInt 64 (x.toInt + k.toInt)))) ∧
    exec (.andi a b k) s = .next (after 4 (wS s a (x &&& BitVec.ofInt 64 k.toInt))) ∧
    exec (.ori a b k) s = .next (after 4 (wS s a (x ||| BitVec.ofInt 64 k.toInt))) ∧
    exec (.xori a b k) s = .next (after 4 (wS s a (x ^^^ BitVec.ofInt 64 k.toInt))) ∧
    exec (.slti a b k) s = .next (after 4 (wS s a (if x.toInt < k.toInt then 1 else 0))) ∧
    exec (.shli a b n) s = .next (after 4 (wS s a (BitVec.ofNat 64 (x.toNat * 2 ^ n.toNat)))) ∧
    exec (.shri a b n) s = .next (after 4 (wS s a (BitVec.ofNat 64 (x.toNat / 2 ^ n.toNat)))) ∧
    exec (.sari a b n) s = .next (after 4 (wS s a (BitVec.ofInt 64 (x.toInt / 2 ^ n.toNat)))) ∧
    exec (.rotli a b n) s = .next (after 4 (wS s a (x.rotateLeft n.toNat))) ∧
    exec (.lui a h) s = .next (after 4 (wS s a upper)) ∧
    exec (.auipc a h) s = .next (after 4 (wS s a ((act s).pc + upper)))) ∧
  (∀ (a b : SReg) (k : BitVec 14) (n : BitVec 6) (h : BitVec 19),
    let ab := 2 ^ 13 * b.toNat + 2 ^ 8 * a.toNat
    let nC := 2 ^ 28 * (n.toNat / 32) + 2 ^ 18 * (n.toNat % 32)
    decode32 (2 ^ 18 * k.toNat + ab + 0x07) = some (.addi a b k) ∧ decode32 (2 ^ 18 * k.toNat + ab + 0x0B) = some (.andi a b k) ∧
    decode32 (2 ^ 18 * k.toNat + ab + 0x0F) = some (.ori a b k) ∧ decode32 (2 ^ 18 * k.toNat + ab + 0x13) = some (.xori a b k) ∧
    decode32 (2 ^ 18 * k.toNat + ab + 0x1B) = some (.slti a b k) ∧
    decode32 (nC + ab + 0x17) = some (.shli a b n) ∧ decode32 (nC + 2 ^ 23 + ab + 0x17) = some (.shri a b n) ∧
    decode32 (nC + 2 ^ 24 + ab + 0x17) = some (.sari a b n) ∧ decode32 (nC + 2 ^ 24 + 2 ^ 23 + ab + 0x17) = some (.rotli a b n) ∧
    decode32 (2 ^ 13 * h.toNat + 2 ^ 8 * a.toNat + 0x1F) = some (.lui a h) ∧
    decode32 (2 ^ 13 * h.toNat + 2 ^ 8 * a.toNat + 0x23) = some (.auipc a h)) ∧
  (decode32 0x000C2817 = some (.shli 8 1 3) ∧ decode32 0x10202817 = some (.shli 8 1 40) ∧
    ∀ w, w % 256 = 0x17 → 2 ^ 29 ≤ w → decode32 w = none)) ∧
  ((∀ (s : State) (a : EReg) (b : SReg), Solo s → exec (.oxset a b) s = .next (after 4 (wE s a (rS s b)))) ∧
  (∀ (s : State) (a : SReg) (b : EReg), Solo s → exec (.oxget a b) s = .next (after 4 (wS s a (rE s b)))) ∧
  (∀ (s : State) (a : EReg), Solo s → exec (.oxclr a) s = .next (after 4 (wE s a 0))) ∧
  (∀ (s : State) (a : EReg) (b : SReg) (m : BitVec 3), Solo s → Unsent s → a.toNat + m.toNat ≤ 7 →
    InWindow0 s (rS s b) 8 → windowOff (rS s b) + 8 * (m.toNat + 1) ≤ scratchSize (partNow s) →
    Quiet s (window0Loc s (rS s b)) (8 * (m.toNat + 1)) →
    ∃ t, exec (.oxldm a b m) s = .next t ∧ OnlyActivation s t ∧ (act t).pc = (act s).pc + 4 ∧
      (∀ i, i ≤ m.toNat → rE t (BitVec.ofNat 3 (a.toNat + i)) = BitVec.ofNat 64 (readNat s (window0Loc s (rS s b) + 8 * i) 8)) ∧
      (∀ r : EReg, (r < a ∨ a.toNat + m.toNat < r.toNat) → rE t r = rE s r) ∧ (∀ r, rS t r = rS s r)) ∧
  (∀ (s : State) (a : EReg) (b : SReg) (m : BitVec 3), Solo s → Unsent s → MemoryCanonical s → a.toNat + m.toNat ≤ 7 →
    InWindow0 s (rS s b) 8 → windowOff (rS s b) + 8 * (m.toNat + 1) ≤ scratchSize (partNow s) →
    Quiet s (window0Loc s (rS s b)) (8 * (m.toNat + 1)) →
    ∃ t, exec (.oxstm a b m) s = .next t ∧ (act t).pc = (act s).pc + 4 ∧
      (∀ i, i ≤ m.toNat → readNat t (window0Loc s (rS s b) + 8 * i) 8 = (rE s (BitVec.ofNat 3 (a.toNat + i))).toNat) ∧
      (∀ loc, (loc < window0Loc s (rS s b) ∨ window0Loc s (rS s b) + 8 * (m.toNat + 1) ≤ loc) → readByte t loc = readByte s loc) ∧
      (∀ r, rE t r = rE s r) ∧ (∀ r, rS t r = rS s r)))

/-! ### Operand-extension registers, loads and stores -/

/-- R292, R293: a scalar load from window 0 writes the little-endian bytes at its address, sign-extended by LDB, LDH and LDW,
and zero-extended by LDBU, LDHU, LDWU and LDD, and changes nothing else but pc; one that reads a mailbox word is an acquire
(R154). It waits while an earlier remote access of the activation to those bytes is under way (R150). R151, R292: a plain load of
page-mapped memory on this module reads through the read-line buffer, once translation has passed; where home ports do not answer
at once (log 5), a line that the buffer lacks is asked of its home. -/
def Obligations.ScalarLoads : Prop :=
  (∀ (s : State) (a b : SReg) (k : BitVec 9), Solo s →
    let x : Nat → Word := fun n => rS s b + BitVec.ofInt 64 (n * k.toInt)
    let v : Nat → Nat := fun n => readNat s (window0Loc s (x n)) n
    let ready : Nat → Prop := fun n => InWindow0 s (x n) n ∧ Quiet s (window0Loc s (x n)) n
    let t : Nat → State := fun n => seen s (window0Loc s (x n)) n
    (ready 1 → exec (.ldb a b k) s = .next (after 4 (wS (t 1) a (BitVec.ofInt 64 (BitVec.ofNat 8 (v 1)).toInt))) ∧
      exec (.ldbu a b k) s = .next (after 4 (wS (t 1) a (BitVec.ofNat 64 (v 1))))) ∧
    (ready 2 → exec (.ldh a b k) s = .next (after 4 (wS (t 2) a (BitVec.ofInt 64 (BitVec.ofNat 16 (v 2)).toInt))) ∧
      exec (.ldhu a b k) s = .next (after 4 (wS (t 2) a (BitVec.ofNat 64 (v 2))))) ∧
    (ready 4 → exec (.ldw a b k) s = .next (after 4 (wS (t 4) a (BitVec.ofInt 64 (BitVec.ofNat 32 (v 4)).toInt))) ∧
      exec (.ldwu a b k) s = .next (after 4 (wS (t 4) a (BitVec.ofNat 64 (v 4))))) ∧
    (ready 8 → exec (.ldd a b k) s = .next (after 4 (wS (t 8) a (BitVec.ofNat 64 (v 8))))) ∧
    (s.mailboxes = [] → ∀ n, t n = s) ∧
    (InWindow0 s (x 8) 8 → poisonedIn s (window0Loc s (x 8)) 8 = none → ownPending s (agentNow s) (window0Loc s (x 8)) 8 = true →
      FirstIssue s → exec (.ldd a b k) s = .next (blocked s (waiting s 0 0)))) ∧
  (∀ (s : State) (a b : SReg) (k : BitVec 9) (n loc : Nat) (ls : List TlbEntry), Solo s → Unsent s →
    Mapped s .load (rS s b + BitVec.ofInt 64 (n * k.toInt)) n loc ls → LineAtHand (touched s .load ls) loc →
    let u := lineHeld (touched s .load ls) loc
    let t := seenMem u loc n
    let v := plainNat u loc n
    (n = 1 → exec (.ldb a b k) s = .next (after 4 (wS t a (BitVec.ofInt 64 (BitVec.ofNat 8 v).toInt))) ∧
      exec (.ldbu a b k) s = .next (after 4 (wS t a (BitVec.ofNat 64 v)))) ∧
    (n = 2 → exec (.ldh a b k) s = .next (after 4 (wS t a (BitVec.ofInt 64 (BitVec.ofNat 16 v).toInt))) ∧
      exec (.ldhu a b k) s = .next (after 4 (wS t a (BitVec.ofNat 64 v)))) ∧
    (n = 4 → exec (.ldw a b k) s = .next (after 4 (wS t a (BitVec.ofInt 64 (BitVec.ofNat 32 v).toInt))) ∧
      exec (.ldwu a b k) s = .next (after 4 (wS t a (BitVec.ofNat 64 v)))) ∧
    (n = 8 → exec (.ldd a b k) s = .next (after 4 (wS t a (BitVec.ofNat 64 v))))) ∧
  (∀ (s : State) (a b : SReg) (k : BitVec 9) (loc : Nat) (ls : List TlbEntry), Solo s → FirstIssue s →
    Mapped s .load (rS s b + BitVec.ofInt 64 (8 * k.toInt)) 8 loc ls →
    let t := touched s .load ls
    ¬LineAtHand t loc →
    exec (.ldd a b k) s = .next (blocked (sendReq t .load [(loc / 64 * 64, 64, [])]) (askWait t [])))

/-- R292: a scalar store writes the low bytes of sA, least significant first, at its address, in window 0 and in page-mapped
memory of this module (or asks its home port to, log 5), and completes. The frame of a store to window 0: the stored bytes read back, every other byte of memory
reads as before, and no register, flag or control register of the activation changes but pc. The address is that of R292. -/
def Obligations.ScalarStores : Prop :=
  (∀ (s : State) (a b : SReg) (k : BitVec 9), Solo s → storeSent s = false →
    let x : Nat → Word := fun n => rS s b + BitVec.ofInt 64 (n * k.toInt)
    let bs : Nat → List Byte := fun n => leBytes n ((rS s a).toNat % 2 ^ (8 * n))
    let near : Nat → State := fun n => storeAt s (ctxId s) (window0Loc s (x n)) (bs n)
    let ready : Nat → Prop := fun n => InWindow0 s (x n) n ∧ Quiet s (window0Loc s (x n)) n
    (ready 1 → exec (.stb a b k) s = .next (after 4 (near 1))) ∧
    (ready 2 → exec (.sth a b k) s = .next (after 4 (near 2))) ∧
    (ready 4 → exec (.stw a b k) s = .next (after 4 (near 4))) ∧
    (ready 8 → exec (.std a b k) s = .next (after 4 (near 8))) ∧
    (∀ loc ls,
      (Mapped s .store (x 1) 1 loc ls → exec (.stb a b k) s = .next (after 4 (globalStore (touched s .store ls) loc (bs 1)))) ∧
      (Mapped s .store (x 2) 2 loc ls → exec (.sth a b k) s = .next (after 4 (globalStore (touched s .store ls) loc (bs 2)))) ∧
      (Mapped s .store (x 4) 4 loc ls → exec (.stw a b k) s = .next (after 4 (globalStore (touched s .store ls) loc (bs 4)))) ∧
      (Mapped s .store (x 8) 8 loc ls → exec (.std a b k) s = .next (after 4 (globalStore (touched s .store ls) loc (bs 8)))))) ∧
  (∀ (s : State) (a b : SReg) (k : BitVec 9), Solo s → MemoryCanonical s → storeSent s = false →
    let x : Nat → Word := fun n => rS s b + BitVec.ofInt 64 (n * k.toInt)
    let ready : Nat → Prop := fun n => InWindow0 s (x n) n ∧ Quiet s (window0Loc s (x n)) n
    let holds : Nat → State → Prop := fun n t =>
      readNat t (window0Loc s (x n)) n = (rS s a).toNat % 2 ^ (8 * n) ∧
      (∀ loc, (loc < window0Loc s (x n) ∨ window0Loc s (x n) + n ≤ loc) → readByte t loc = readByte s loc) ∧
      act t = { act s with pc := (act s).pc + 4, wait := none } ∧ regs t = regs s ∧ entry t = entry s ∧ MemoryCanonical t
    (ready 1 → ∃ t, exec (.stb a b k) s = .next t ∧ holds 1 t) ∧
    (ready 2 → ∃ t, exec (.sth a b k) s = .next t ∧ holds 2 t) ∧
    (ready 4 → ∃ t, exec (.stw a b k) s = .next t ∧ holds 4 t) ∧
    (ready 8 → ∃ t, exec (.std a b k) s = .next t ∧ holds 8 t))

/-- R292: a misaligned scalar load or store of any range raises MISALIGN with CR.TVAL = the address; nothing is read or written.
In windows 1 to 6 every access needs 4-byte alignment (R109). R108, R109, R205: LDW, LDWU and (in window 6) LDD of a format
window read element (a − window base) / 4, converted to binary32 or binary64, and raise the conversion's flags; STW and STD
write it. R190-R197, R205: and what a format window's element is: where it and its scale byte lie, the value that it has and that is
rounded once on a load, and the code that a store encodes, in T8, E4M3, E2M1, bfloat16, binary16 and A48. -/
def Obligations.MisalignmentAndFormatWindows : Prop :=
  ((List.range 128).map t8Mag = ([0, 1, 2, 4, 2 ^ 27, 3 * 2 ^ 26, 2 ^ 28, 3 * 2 ^ 27] ++ [2, 3, 4, 6, 8, 12, 16, 24].map (4 * ·) ++
      [4, 5, 6, 7, 8, 10, 12, 14].map (2 ^ 21 * ·) ++ [4, 5, 6, 7, 8, 10, 12, 14].map (2 ^ 23 * ·) ++
      ([5, 7, 9, 11] : List Nat).flatMap (fun k => [4, 5, 6, 7, 8, 10, 12, 14].map (2 ^ k * ·)) ++
      ([12, 13, 14, 15, 16, 17, 18, 19] : List Nat).flatMap (fun k => [8, 9, 10, 11, 12, 13, 14, 15].map (2 ^ k * ·)))) ∧
  (∀ c < 256, t8Value c = if c = 128 then .nan else .fin (decide (128 < c)) (t8Mag (c % 128)) 1 (-16)) ∧
  (∀ c < 256, (c % 128 = 127 → e4m3Value c = .nan) ∧
    (c % 128 < 127 → (∃ a e, e4m3Value c = .fin (decide (128 ≤ c)) a 1 e) ∧ |(e4m3Value c).real| = e4m3.magnitude (c % 128))) ∧
  (∀ c < 16, (∃ a e, e2m1Value c = .fin (decide (8 ≤ c)) a 1 e) ∧
    |(e2m1Value c).real| = (([0, 1, 2, 3, 4, 6, 8, 12] : List Nat).getD (c % 8) 0 : ℝ) / 2) ∧
  (∀ v < 256, e8m0 v = if v = 255 then none else some ((v : Int) - 127)) ∧
  (∀ n a b e, 0 < b →
    let x : Xv := .fin n a b e
    let t8 : Nat → ℝ := fun p => (t8Mag p : ℝ) / 65536
    (∀ k, (x.scale k).real = x.real * 2 ^ k) ∧
    Saturated e4m3.magnitude 127 126 (if n then 128 else 0) 448 (1 / 64) x.real (e4m3Encode x) ∧
    Saturated e2m1.magnitude 8 7 (if n then 8 else 0) 6 1 x.real (e2m1Encode x) ∧
    (6144 < |x.real| → t8Encode x = (if n then 135 else 7, 5)) ∧
    (|x.real| ≤ 6144 → ∃ p, RoundsTo t8 128 (1 / 65536) |x.real| (p, (t8Encode x).2) ∧
      (t8Encode x).1 = if p = 0 then 0 else if n then p + 128 else p)) ∧
  (e4m3Encode .nan = (127, 16) ∧ e2m1Encode .nan = (0, 16) ∧ t8Encode .nan = (128, 16) ∧
    ∀ n, e4m3Encode (.inf n) = (127, 16) ∧ e2m1Encode (.inf n) = (if n then 15 else 7, 16) ∧ t8Encode (.inf n) = (128, 16)) ∧
  (∀ (s : State) (i size : Nat),
    let f := if size = 8 then f64 else f32
    let base := scratchBase (home s) (partNow s)
    let byte : Nat → Nat := fun o => (readByte s (base + o)).toNat
    let v := byte ((regs s).wscale.toNat % 2 ^ 20 + i / 16)
    let nib := byte (i / 2) / (if i % 2 = 1 then 16 else 1) % 16
    let acc := accBase (home s) (partNow s) + 6 * i
    fmtLoad s 1 i size = f.round (t8Value (byte i)) ∧
    fmtLoad s 2 i size = (if v = 255 then f.round .nan else f.round ((e4m3Value (byte i)).scale ((v : Int) - 127))) ∧
    fmtLoad s 3 i size = (if v = 255 then f.round .nan else f.round ((e2m1Value nib).scale ((v : Int) - 127))) ∧
    fmtLoad s 4 i size = f.round (bf16.decode (byte (2 * i) + 256 * byte (2 * i + 1))) ∧
    fmtLoad s 5 i size = f.round (f16.decode (byte (2 * i) + 256 * byte (2 * i + 1))) ∧
    fmtLoad s 6 i size = f.round (a48.decode (readNat s acc 6)) ∧
    (∀ code,
      let x := f.decode code
      let flags : Nat × Nat → Nat := fun r => r.2 ||| if f.signalling code then 16 else 0
      let y : Xv := if v = 255 then x else x.scale (127 - (v : Int))
      let one : Nat → State := fun w => fmtStore s w size [] none [(i, code)]
      let at_ : (Nat × Nat) → Nat → Nat → State := fun r loc n => raiseFlags (storeAt s (ctxId s) loc (leBytes n r.1)) (flags r)
      one 1 = at_ (t8Encode x) (base + i) 1 ∧
      one 2 = at_ (e4m3Encode y) (base + i) 1 ∧
      one 3 = (let r := e2m1Encode y
        let b := if i % 2 = 1 then byte (i / 2) % 16 + 16 * r.1 else byte (i / 2) / 16 * 16 + r.1
        raiseFlags (storeAt s (ctxId s) (base + i / 2) [BitVec.ofNat 8 b]) (flags r)) ∧
      one 4 = at_ (bf16.round x) (base + 2 * i) 2 ∧
      one 5 = at_ (f16.round x) (base + 2 * i) 2 ∧
      one 6 = at_ (a48.round x) acc 6)) ∧
  (∀ (s : State) (a b : SReg) (k : BitVec 9), Solo s → storeSent s = false →
    let x : Nat → Word := fun n => rS s b + BitVec.ofInt 64 (n * k.toInt)
    (alignOk (x 2) 2 = false → exec (.ldh a b k) s = .next (trapped s .misalign (x 2)) ∧
      exec (.ldhu a b k) s = .next (trapped s .misalign (x 2)) ∧ exec (.sth a b k) s = .next (trapped s .misalign (x 2))) ∧
    (alignOk (x 4) 4 = false → exec (.ldw a b k) s = .next (trapped s .misalign (x 4)) ∧
      exec (.ldwu a b k) s = .next (trapped s .misalign (x 4)) ∧ exec (.stw a b k) s = .next (trapped s .misalign (x 4))) ∧
    (alignOk (x 8) 8 = false → exec (.ldd a b k) s = .next (trapped s .misalign (x 8)) ∧
      exec (.std a b k) s = .next (trapped s .misalign (x 8))) ∧
    (∀ y : Word, ∀ n : Nat, (∃ w, 1 ≤ w ∧ w ≤ 6 ∧ rangeOf y = .window w) → alignOk y n = (y.toNat % 4 == 0)) ∧
    (∀ y : Word, ∀ n : Nat, (rangeOf y = .paged ∨ rangeOf y = .window 0 ∨ rangeOf y = .aperture) → alignOk y n = (y.toNat % n == 0))) ∧
  (∀ (s : State) (a b : SReg) (k : BitVec 9) (w : Nat), Solo s → storeSent s = false → 1 ≤ w → w ≤ 6 →
    (w = 3 → featureFor s (ctxId s) 7 = true) →
    let x : Nat → Word := fun n => rS s b + BitVec.ofInt 64 (n * k.toInt)
    let i : Nat → Nat := fun n => windowOff (x n) / 4
    (rangeOf (x 4) = .window w → (x 4).toNat % 4 = 0 → fmtInside s w (i 4) = true → QuietElem s 4 w (i 4) →
      exec (.ldw a b k) s = .next (after 4 (wS (raiseFlags s (fmtLoad s w (i 4) 4).2) a
        (BitVec.ofInt 64 (BitVec.ofNat 32 (fmtLoad s w (i 4) 4).1).toInt))) ∧
      exec (.ldwu a b k) s = .next (after 4 (wS (raiseFlags s (fmtLoad s w (i 4) 4).2) a (BitVec.ofNat 64 (fmtLoad s w (i 4) 4).1))) ∧
      exec (.stw a b k) s = .next (after 4 (fmtStore s w 4 [] none [(i 4, (rS s a).toNat % 2 ^ 32)]))) ∧
    (w = 6 → rangeOf (x 8) = .window 6 → (x 8).toNat % 4 = 0 → fmtInside s 6 (i 8) = true → QuietElem s 8 6 (i 8) →
      exec (.ldd a b k) s = .next (after 4 (wS (raiseFlags s (fmtLoad s 6 (i 8) 8).2) a (BitVec.ofNat 64 (fmtLoad s 6 (i 8) 8).1))) ∧
      exec (.std a b k) s = .next (after 4 (fmtStore s 6 8 [] none [(i 8, (rS s a).toNat % 2 ^ 64)]))))

/-- R295, R296: LDA is an acquire that reads the home; STL and STLF are releases: they store once every earlier access of the
activation is performed, and stall until then. In the aperture STLF is an ordered flag that carries the counts (R159). R295,
R297, R282: FENCE waits for every earlier access, then empties the read-line and fetch buffers; FENCEA waits for every
acknowledgement, and orders nothing else. Where home ports do not answer at once (log 5), LDA asks the home, and completes with
the bytes of its answer. -/
def Obligations.AcquireReleaseAndFences : Prop :=
  (∀ (s : State) (d : Bool) (sc : Scope) (a b : SReg), Solo s →
    let n : Nat := if d then 8 else 4
    let x := rS s b
    let bs := leBytes n ((rS s a).toNat % 2 ^ (8 * n))
    (InWindow0 s x n → Quiet s (window0Loc s x) n →
      exec (.lda d sc a b) s = .next (after 4 (wS (acquire (seen s (window0Loc s x) n)) a (widen d (readNat s (window0Loc s x) n))))) ∧
    (∀ loc ls, Mapped s .load x n loc ls →
      let t := touched s .load ls
      (Unsent s → s.heldPorts = false →
        exec (.lda d sc a b) s = .next (after 4 (wS (acquire (seenMem t loc n)) a (widen d (readNat t loc n))))) ∧
      (FirstIssue s → s.heldPorts = true →
        exec (.lda d sc a b) s = .next (blocked (sendReq t .load [(loc, n, [])]) (askWait t []))) ∧
      (∀ got, got.length = n → Answered s got →
        exec (.lda d sc a b) s = .next (after 4 (wS (acquire (seenMem t loc n)) a (widen d (leNat got)))))) ∧
    (storeSent s = false → released s = true → InWindow0 s x n → Quiet s (window0Loc s x) n →
      exec (.stl d sc a b) s = .next (after 4 (storeAt s (ctxId s) (window0Loc s x) bs)) ∧
      exec (.stlf d sc a b) s = .next (after 4 (storeAt s (ctxId s) (window0Loc s x) bs))) ∧
    (∀ loc ls, storeSent s = false → released s = true → Mapped s .store x n loc ls →
      exec (.stl d sc a b) s = .next (after 4 (globalStore (touched s .store ls) loc bs)) ∧
      exec (.stlf d sc a b) s = .next (after 4 (globalStore (touched s .store ls) loc bs))) ∧
    (∀ dst o, x.toNat % n = 0 → rangeOf x = .aperture → classify s true x n = .ok (.far dst o) →
      performedBut s (agentNow s) (sendEntry s (runCore s) dst (ctxId s)) = true →
      let r := remoteFlag s (runCore s) dst (ctxId s) sc.code o (leBytes n (rS s a).toNat) (agentNow s)
      exec (.stlf d sc a b) s = .next (after 4 (modAct r.1 (fun k => { k with cr := { k.cr with pathcnt := pathWord r.2 } })))) ∧
    (FirstIssue s → released s = false → (InWindow0 s x n ∨ (rangeOf x = .paged ∧ x.toNat % n = 0)) →
      exec (.stl d sc a b) s = .next (blocked s (waiting s 0 0)))) ∧
  (∀ (s : State) (sc : Scope), Solo s →
    (released s = true → exec (.fence sc) s = .next (after 4 (setAct s { act s with rlb := [], fetch := [] }))) ∧
    (FirstIssue s → released s = false → exec (.fence sc) s = .next (blocked s (waiting s 0 0))) ∧
    (unackedAny s (agentNow s) = false → exec .fencea s = .next (after 4 s)) ∧
    (FirstIssue s → unackedAny s (agentNow s) = true →
      exec .fencea s = .next (blocked s (waiting s 7 0))))

/-- R299: a single-address atomic in window 0 writes the new value of its row to the location and the old one, sign-extended
from 32 bits in the 32-bit form, to sA; a failing ACAS writes nothing. It is an acquire and a release (R298). R300, R301: ADCAS
compares two words of page-mapped memory with e1 and e2 and, only if both match, stores sC and sA; AMOVE moves one word to
another and leaves e0 in its place. Each is one event. -/
def Obligations.Atomics : Prop :=
  (∀ (s : State) (d : Bool) (sc : Scope) (a b c : SReg), Solo s → Unsent s → released s = true →
    let n : Nat := if d then 8 else 4
    InWindow0 s (rS s b) n → Quiet s (window0Loc s (rS s b)) n →
    let loc := window0Loc s (rS s b)
    let old := readNat s loc n
    let y := (rS s c).toNat % 2 ^ (8 * n)
    let sg : Nat → Int := fun v => if v < 2 ^ (8 * n - 1) then v else v - 2 ^ (8 * n)
    let into : Nat → State := fun v => after 4 (wS (acquire (storeAt s (ctxId s) loc (leBytes n v))) a (widen d old))
    exec (.aadd d sc a b c) s = .next (into ((old + y) % 2 ^ (8 * n))) ∧
    exec (.aand d sc a b c) s = .next (into (old &&& y)) ∧
    exec (.aor d sc a b c) s = .next (into (old ||| y)) ∧
    exec (.axor d sc a b c) s = .next (into (old ^^^ y)) ∧
    exec (.amin d sc a b c) s = .next (into (if sg y < sg old then y else old)) ∧
    exec (.amax d sc a b c) s = .next (into (if sg old < sg y then y else old)) ∧
    exec (.aminu d sc a b c) s = .next (into (min old y)) ∧
    exec (.amaxu d sc a b c) s = .next (into (max old y)) ∧
    exec (.aswp d sc a b c) s = .next (into y) ∧
    (old = (rE s 0).toNat % 2 ^ (8 * n) → exec (.acas d sc a b c) s = .next (into y)) ∧
    (old ≠ (rE s 0).toNat % 2 ^ (8 * n) → exec (.acas d sc a b c) s = .next (after 4 (wS (acquire s) a (widen d old))))) ∧
  (∀ (s : State) (d : Bool) (sc : Scope) (a b c : SReg), Solo s → Unsent s → s.heldPorts = false →
    let n : Nat := if d then 8 else 4
    (∀ lx ly ls, rangeOf (rS s b) = .paged → rangeOf (rE s 0) = .paged → rS s b ≠ rE s 0 →
      (rS s b).toNat % n = 0 → (rE s 0).toNat % n = 0 →
      translateAll s (who s) .atomic [((rS s b).toNat, n), ((rE s 0).toNat, n)] = .ok [[(lx, none, n)], [(ly, none, n)]] ls →
      released (touched s .atomic ls) = true →
      let t := touched s .atomic ls
      let ox := readNat t lx n
      let oy := readNat t ly n
      let hit := ox = (rE s 1).toNat % 2 ^ (8 * n) ∧ oy = (rE s 2).toNat % 2 ^ (8 * n)
      let u := if hit then storeAt (storeAt t (ctxId s) lx (leBytes n (rS s c).toNat)) (ctxId s) ly (leBytes n (rS s a).toNat) else t
      exec (.adcas d sc a b c) s =
        .next (after 4 (wE (wE (wS (acquire u) a (if hit then 1 else 0)) 1 (widen d ox)) 2 (widen d oy)))) ∧
    (∀ lx ly ls, rangeOf (rS s b) = .paged → rangeOf (rS s c) = .paged → rS s b ≠ rS s c →
      (rS s b).toNat % n = 0 → (rS s c).toNat % n = 0 →
      translateAll s (who s) .atomic [((rS s b).toNat, n), ((rS s c).toNat, n)] = .ok [[(lx, none, n)], [(ly, none, n)]] ls →
      released (touched s .atomic ls) = true →
      let t := touched s .atomic ls
      let u := storeAt (storeAt t (ctxId s) ly (leBytes n (readNat t lx n))) (ctxId s) lx (leBytes n (rE s 0).toNat)
      exec (.amove d sc a b c) s = .next (after 4 (wS (acquire u) a (widen d (readNat t ly n))))))

/-! ### Control flow and the system group -/

/-- R303, R304: branches compare sA and sB and go to pc plus twice the immediate or to the next instruction; JAL and JALR link
to the next instruction; a JALR target that is odd raises MISALIGN. R309, R312, R313, R316: NOP does nothing, TRAP and BKPT
raise their traps with the immediate in CR.TVAL, CYC reads the cycle count, SLEEP completes once its count of cycles has passed,
counted from its issue, and SPLIT outside a phrase jumps to sB. -/
def Obligations.BranchesJumpsAndSystem : Prop :=
  (∀ (s : State) (a b : SReg) (k : BitVec 14) (h : BitVec 19), Solo s →
    let x := rS s a
    let y := rS s b
    let taken : State := jumped s ((act s).pc + BitVec.ofInt 64 (2 * k.toInt))
    exec (.beq a b k) s = .next (if x = y then taken else after 4 s) ∧
    exec (.bne a b k) s = .next (if x = y then after 4 s else taken) ∧
    exec (.blt a b k) s = .next (if x.toInt < y.toInt then taken else after 4 s) ∧
    exec (.bge a b k) s = .next (if x.toInt < y.toInt then after 4 s else taken) ∧
    exec (.bltu a b k) s = .next (if x.toNat < y.toNat then taken else after 4 s) ∧
    exec (.bgeu a b k) s = .next (if x.toNat < y.toNat then after 4 s else taken) ∧
    exec (.jal a h) s = .next (jumped (wS s a ((act s).pc + 4)) ((act s).pc + BitVec.ofInt 64 (2 * h.toInt))) ∧
    (let t := y + BitVec.ofInt 64 k.toInt
     (t.toNat % 2 = 0 → exec (.jalr a b k) s = .next (jumped (wS s a ((act s).pc + 4)) t)) ∧
     (t.toNat % 2 = 1 → exec (.jalr a b k) s = .next (trapped s .misalign t)))) ∧
  (∀ (s : State) (a b : SReg) (n : BitVec 10), Solo s →
    exec .nop s = .next (after 4 s) ∧
    exec (.trap n) s = .next (trapped s .trap (BitVec.ofNat 64 n.toNat)) ∧
    exec (.bkpt n) s = .next (trapped s .break (BitVec.ofNat 64 n.toNat)) ∧
    exec (.cyc a) s = .next (after 4 (wS s a (BitVec.ofNat 64 s.cyc))) ∧
    (FirstIssue s → rS s b = 0 → exec (.sleep b) s = .next (after 4 s)) ∧
    (FirstIssue s → rS s b ≠ 0 →
      exec (.sleep b) s = .next (blocked s (waiting s 6 (rS s b)))) ∧
    (∀ w, (act s).wait = some w → w.kind = 6 → w.operand.toNat ≤ s.cyc - w.start → exec (.sleep b) s = .next (after 4 s)) ∧
    (∀ w, (act s).wait = some w → w.kind = 6 → s.cyc - w.start < w.operand.toNat → exec (.sleep b) s = .next (blocked s w)) ∧
    ((rS s b).toNat % 2 = 0 → exec (.split b) s = .next (jumped s (rS s b))) ∧
    ((rS s b).toNat % 2 = 1 → exec (.split b) s = .next (trapped s .misalign (rS s b))))

/-- R311, R314: HALT, privileged, and WFE block the activation, and complete once a message, or for WFE a watched store, an
event or 65,536 cycles, has come. R317, R318, R86: MIGR of an activation that migration does not move, and YIELD with no message
of another context that ranks as high, have no effect; otherwise MIGR makes the activation migrate, and YIELD turns the core that
the activation runs on to such a context. The model's choices: a WFE completes where a woken watch entry stands, at its first issue too
(log 27); while it waits its die holds a mirror of the vector (log 90); ties of YIELD (log 11). -/
def Obligations.WaitsMigrationAndYield : Prop :=
  (∀ (s : State), Solo s →
    ((act s).priv = true → FirstIssue s → exec .halt s = .next (blocked s (waiting s 8 0))) ∧
    (∀ w, (act s).priv = true → (act s).wait = some w → (w.woke = true ∨ w.out = true) → exec .halt s = .next (after 4 s)) ∧
    (∀ w, (act s).priv = true → (act s).wait = some w → w.kind = 8 → w.woke = false → w.out = false →
      exec .halt s = .next (blocked s w)) ∧
    (watchWoken s = true → exec .wfe s = .next (after 4 s)) ∧
    (FirstIssue s → watchWoken s = false → exec .wfe s = .next (blocked (mirrorFor s (ctxId s) (home s)) (waiting s 9 0))) ∧
    (∀ w, (act s).wait = some w → (w.woke = true ∨ w.out = true ∨ 65536 ≤ s.cyc - w.start) → exec .wfe s = .next (after 4 s)) ∧
    (∀ w, (act s).wait = some w → w.kind = 9 → watchWoken s = false → w.woke = false → w.out = false → s.cyc - w.start < 65536 →
      exec .wfe s = .next (blocked (mirrorFor s (ctxId s) (home s)) w))) ∧
  (∀ (s : State), Solo s →
    (migrates s = false → exec .migr s = .next (after 4 s)) ∧
    (migrates s = true → ∃ t, exec .migr s = .next t ∧ (coreOf t (home s)).migrating = (coreOf s (home s)).migrating ++ [ctxId s] ∧
      act t = { act s with wait := none }) ∧
    (let here := runCore s
     let mine := prioOf s (home s) (ctxId s)
     ((∀ m ∈ (coreOf s here).waiting, m.ctx ≠ ctxId s → prioOf s here m.ctx < mine) → exec .yield s = .next (after 4 s)) ∧
     ((∃ m ∈ (coreOf s here).waiting, m.ctx ≠ ctxId s ∧ startable s here m.ctx = true ∧ mine ≤ prioOf s here m.ctx) →
      ∃ t c, exec .yield s = .next t ∧ c ≠ ctxId s ∧ (coreOf t here).goal = some c ∧
        mine ≤ prioOf s here c ∧ act t = { act s with pc := (act s).pc + 4, wait := none })))

/-- R82, R315: FUSE #2 of a core whose neighbour in the aligned pair already waits in a FUSE #2 of the same context, while no
other core of the clause waits, forms the phrase: both take status 1 and go on after the leader's FUSE (a removed core takes no part,
R90). An application core's FUSE completes with status 0. R83, R84: the two members of a phrase take one instruction in lock step: a NOP moves both pcs on, a branch taken by the
leader takes both to the leader's target, and the phrase stays. -/
def Obligations.Phrases : Prop :=
  ((∀ (s : State) (a : SReg) (f : FuseWait) (b : Act) (w : Wait), Solo s → s.cur.away = none → isApp (home s) = false →
    (coreOf s (home s)).fuse = none → (coreOf s (home s)).phrase = none →
    let other := if home s % 2 = 0 then home s + 1 else home s - 1
    (coreOf s other).fuse = some f → (coreOf s other).quiesced = false → f.n = 2 → f.ctx = ctxId s →
    actAt s ⟨other, none⟩ = some b → b.wait = some w →
    (∀ j, j / 8 = home s / 8 → j ≠ home s → j ≠ other → (coreOf s j).fuse = none ∨ (coreOf s j).quiesced = true) →
    let p : Phrase := ⟨[home s / 2 * 2, home s / 2 * 2 + 1], [], none, ctxId s⟩
    let next := (if home s % 2 = 0 then (act s).pc else b.pc) + 4
    ∃ t, exec (.fuse a 1) s = .next t ∧ phraseNow t = some p ∧ (coreOf t other).phrase = some p ∧ (coreOf t other).fuse = none ∧
      act t = { (act s).setS a 1 with pc := next, wait := none } ∧
      actAt t ⟨other, none⟩ = some { b.setS (BitVec.ofNat 5 w.stage) 1 with pc := next, wait := none }) ∧
  (∀ (s : State) (a : SReg) (n : BitVec 2), Solo s → isApp (home s) = true → exec (.fuse a n) s = .next (after 4 (wS s a 0)))) ∧
  (∀ (s : State) (x y : Act) (c m : Nat), s.cur = ⟨c, none⟩ → (coreOf s c).active = some ⟨m, some x⟩ →
    (coreOf s (c + 1)).active = some ⟨m, some y⟩ →
    (coreOf s c).phrase = some ⟨[c, c + 1], [], none, m⟩ → (coreOf s (c + 1)).phrase = some ⟨[c, c + 1], [], none, m⟩ →
    (∃ t, exec .nop s = .next t ∧ actAt t ⟨c, none⟩ = some { x with pc := x.pc + 4, wait := none } ∧
      actAt t ⟨c + 1, none⟩ = some { y with pc := x.pc + 4, wait := none } ∧ phraseNow t = phraseNow s) ∧
    (∀ a b k, x.getS a = x.getS b → ∃ t, exec (.beq a b k) s = .next t ∧
      actAt t ⟨c, none⟩ = some { x with pc := x.pc + BitVec.ofInt 64 (2 * k.toInt), wait := none } ∧
      actAt t ⟨c + 1, none⟩ = some { y with pc := x.pc + BitVec.ofInt 64 (2 * k.toInt), wait := none } ∧ phraseNow t = phraseNow s))

/-! ### Control registers -/

/-- R305, R123, R443: CRD writes the register's value to sA, for every number of the control-register map that has a value and
that user code may name, and, in privileged mode, for the others. -/
def Obligations.ControlRegisterReads : Prop :=
  ∀ (s : State) (a : SReg), Solo s →
    let c := (act s).cr
    let r := regs s
    let e := entry s
    (∀ i : Fin 16, exec (.crd a (BitVec.ofNat 9 (0x040 + i.val))) s = .next (after 4 (wS s a e.regions[i]))) ∧
    (∀ p ∈ ([(0x000, coreIdWord s (runCore s)),
        (0x001, (if hasExtD (runCore s) then 1 else 0) + (if hasExtS (runCore s) then 2 else 0)), (0x002, BitVec.ofNat 64 s.cyc), (0x003, BitVec.ofNat 64 (ctxId s + e.prio * 2 ^ 12)),
        (0x004, c.wid), (0x005, c.wshape), (0x006, r.part), (0x007, c.slot), (0x008, e.hlo), (0x009, e.hhi), (0x00A, c.msgsrc),
        (0x00B, c.msglen), (0x010, c.tcause), (0x011, c.tval), (0x012, c.tpc), (0x014, r.upcall), (0x015, r.fibre), (0x016, c.tstat),
        (0x017, c.xfer), (0x018, r.cpsrc), (0x019, r.cpdst), (0x01A, r.cplen), (0x01B, r.cpstr), (0x01C, r.cpflags),
        (0x01D, r.cphnd), (0x01E, r.cpswz), (0x020, r.lxstop), (0x021, r.lxesc), (0x022, r.lxkmax), (0x023, r.lxfmt),
        (0x024, r.lxmissh), (0x028, r.wscale), (0x029, r.wef), (0x02A, r.x128l), (0x02B, c.fflags), (0x030, e.lease),
        (0x031, r.mswz), (0x038, e.evtmo), (0x039, e.donate), (0x03A, e.migok), (0x03C, r.traceptr), (0x03D, c.pathcnt),
        (0x03B, if featureFor s (ctxId s) 8 then r.trace else 0), (0x050, Config.feat0), (0x051, 0), (0x052, r.freel)] : List (Nat × Word)),
      exec (.crd a (BitVec.ofNat 9 p.1)) s = .next (after 4 (wS s a p.2))) ∧
    ((act s).priv = true → ∀ p ∈ ([(0x013, (coreOf s (home s)).tvec), (0x100, s.module.facc0.getD 0), (0x101, s.module.facc1.getD 0),
        (0x102, s.module.ctxtab), (0x103, BitVec.ofNat 64 (moduleNumber s)), (0x104, modStateWord s), (0x105, modLinkWord s), (0x106, modTierWord s), (0x108, e.asid),
        (0x109, e.ptroot), (0x10A, e.pmask), (0x10B, e.cmapb), (0x10C, e.cmapn), (0x10D, e.ctxgen),
        (0x110, (coreOf s (home s)).saveb), (0x111, s.module.pftab), (0x112, s.module.noticeh)] : List (Nat × Word)),
      exec (.crd a (BitVec.ofNat 9 p.1)) s = .next (after 4 (wS s a p.2)))

/-- R305, R123, R38, R36, R145: CWR writes the RW fields of a register and nothing else: whole words, and the fields that a register
limits; FACC0, FACC1 and MODNUM take the first write after reset, and CTXTAB none while a context is live. The model's choices: which
contexts the second first write of a FACC register notes as created before it (log 17), and CR.TVEC held by each core (log 73). -/
def Obligations.ControlRegisterWrites : Prop :=
  ∀ (s : State) (b : SReg), Solo s →
    let w := rS s b
    let low : Nat → Word := fun n => BitVec.ofNat 64 (w.toNat % 2 ^ n)
    let set : (CtxRegs → CtxRegs) → State := fun f => after 4 (modRegs s f)
    exec (.cwr b 0x014) s = .next (set (fun r => { r with upcall := w })) ∧
    exec (.cwr b 0x015) s = .next (set (fun r => { r with fibre := w })) ∧
    exec (.cwr b 0x018) s = .next (set (fun r => { r with cpsrc := w })) ∧
    exec (.cwr b 0x019) s = .next (set (fun r => { r with cpdst := w })) ∧
    exec (.cwr b 0x01A) s = .next (set (fun r => { r with cplen := w })) ∧
    exec (.cwr b 0x020) s = .next (set (fun r => { r with lxstop := low 32 })) ∧
    exec (.cwr b 0x028) s = .next (set (fun r => { r with wscale := low 20 })) ∧
    exec (.cwr b 0x029) s = .next (set (fun r => { r with wef := w &&& 0x3E#64 })) ∧
    exec (.cwr b 0x02B) s = .next (after 4 (setAct s { act s with cr := { (act s).cr with fflags := low 7 } })) ∧
    exec (.cwr b 0x022) s = .next (set (fun r => { r with lxkmax := BitVec.ofNat 64 (max 1 (min 32 (w.toNat % 64))) })) ∧
    exec (.cwr b 0x052) s = .next (set (fun r => { r with freel := w })) ∧
    exec (.cwr b 0x01B) s = .next (set (fun r => { r with cpstr := w })) ∧
    exec (.cwr b 0x01C) s = .next (set (fun r => { r with cpflags := w })) ∧
    exec (.cwr b 0x01D) s = .next (set (fun r => { r with cphnd := w })) ∧
    exec (.cwr b 0x01E) s = .next (set (fun r => { r with cpswz := w })) ∧
    exec (.cwr b 0x021) s = .next (set (fun r => { r with lxesc := low 32 })) ∧
    exec (.cwr b 0x023) s = .next (set (fun r => { r with lxfmt := BitVec.ofNat 64 (w.toNat % 4 % 3) })) ∧
    exec (.cwr b 0x024) s = .next (set (fun r => { r with lxmissh := w })) ∧
    exec (.cwr b 0x02A) s = .next (set (fun r => { r with
      x128l := BitVec.ofNat 64 ((max (-1100) (min 1000 (w.setWidth 12).toInt)) % 4096).toNat })) ∧
    exec (.cwr b 0x031) s = .next (set (fun r => { r with
      mswz := BitVec.ofNat 64 (w.toNat / 2 ^ 8 % 2 * 2 ^ 8 + max 7 (min 16 (w.toNat % 32))) })) ∧
    (featureFor s (ctxId s) 8 = true → exec (.cwr b 0x03B) s = .next (set (fun r => { r with trace := w &&& 0xFF003#64 }))) ∧
    (featureFor s (ctxId s) 8 = false → exec (.cwr b 0x03B) s = .next (after 4 s)) ∧
    exec (.cwr b 0x03C) s = .next (set (fun r => { r with traceptr := w })) ∧
    ((act s).priv = true →
      let m := s.module
      (∃ l, exec (.cwr b 0x100) s = .next (after 4 { s with module := { m with facc0 := some (m.facc0.getD w), early := l } }) ∧
        ((m.facc0.isSome = true ∨ m.facc1 = none) → l = m.early) ∧
        (m.facc0 = none → m.facc1.isSome = true → s.undef = [] → ∀ c < 4096, c ∈ l ↔ ctxState s c ≠ 0)) ∧
      (∃ l, exec (.cwr b 0x101) s = .next (after 4 { s with module := { m with facc1 := some (m.facc1.getD w), early := l } }) ∧
        ((m.facc1.isSome = true ∨ m.facc0 = none) → l = m.early) ∧
        (m.facc1 = none → m.facc0.isSome = true → s.undef = [] → ∀ c < 4096, c ∈ l ↔ ctxState s c ≠ 0)) ∧
      ((∀ c < 4096, ctxState s c ≠ 1) →
        exec (.cwr b 0x102) s = .next (after 4 { s with module := { m with ctxtab := w &&& ~~~(0xFFFFF#64) } })) ∧
      (∀ c < 4096, ctxState s c = 1 → exec (.cwr b 0x102) s = .next (after 4 s)) ∧
      exec (.cwr b 0x103) s = .next (after 4 { s with module := { m with modnum := some (m.modnum.getD (w.toNat % 64)) } }) ∧
      exec (.cwr b 0x110) s = .next (after 4 (modCore s (home s) (fun k => { k with saveb := w &&& 0xFFFFFFFFF000#64 }))) ∧
      exec (.cwr b 0x111) s = .next (after 4 { s with module := { m with pftab := w &&& 0xFFFFFFFFF000#64 } }) ∧
      exec (.cwr b 0x112) s = .next (after 4 { s with module := { m with noticeh := w &&& 0x7FFFFFFFFFFFFE#64 } })) ∧
    ((act s).priv = true →
      exec (.cwr b 0x013) s = .next (after 4 (modCore s (home s) (fun k => { k with tvec := w }))) ∧
      exec (.cwr b 0x012) s = .next (after 4 (setAct s { act s with cr := { (act s).cr with tpc := w } })) ∧
      exec (.cwr b 0x016) s = .next (after 4 (setAct s { act s with cr := { (act s).cr with
        tstat := ((act s).cr.tstat &&& ~~~(9#64)) ||| (w &&& 9#64) } })))

/-- R35, R123, R124, R145, R305: user code that names CR.TVEC or a number from 0x100 up raises PRIV with CR.TVAL = the number. Every
reserved number, and a write of every register that is RO as a whole, in the mode that may name it, raise ILLEGAL with the instruction
word. -/
def Obligations.ControlRegisterTraps : Prop :=
  ∀ (s : State) (a : SReg) (n : BitVec 9), Solo s →
    ((act s).priv = false → (n = 0x013 ∨ 0x100 ≤ n.toNat) →
      exec (.crd a n) s = .next (trapped s .priv (BitVec.ofNat 64 n.toNat)) ∧
      exec (.cwr a n) s = .next (trapped s .priv (BitVec.ofNat 64 n.toNat))) ∧
    (let inRanges : List (Nat × Nat) → Prop := fun l => ∃ r ∈ l, r.1 ≤ n.toNat ∧ n.toNat ≤ r.2
     let cannotRead := exec (.crd a n) s = .next (trapped s .illegal (Instr.crd a n).tval)
     let cannotWrite := exec (.cwr a n) s = .next (trapped s .illegal (Instr.cwr a n).tval)
     (inRanges [(0x00C, 0x00F), (0x025, 0x027), (0x02C, 0x02F), (0x032, 0x037), (0x03E, 0x03F), (0x053, 0x0FF)] → cannotRead ∧ cannotWrite) ∧
     (inRanges [(0x000, 0x00B), (0x010, 0x011), (0x017, 0x017), (0x01F, 0x01F), (0x030, 0x030), (0x038, 0x03A), (0x03D, 0x03D),
       (0x040, 0x051)] → cannotWrite) ∧
     ((act s).priv = false → n = 0x012 ∨ n = 0x016 → cannotWrite) ∧
     ((act s).priv = true →
       (inRanges [(0x107, 0x107), (0x10E, 0x10F), (0x113, 0x1FF)] → cannotRead ∧ cannotWrite) ∧
       (inRanges [(0x104, 0x106), (0x108, 0x10D)] → cannotWrite)))

/-! ### Taking an exception and returning from it -/

/-- R307, R118, R121: a trap of privileged code sets CR.TCAUSE, CR.TVAL, CR.TPC and CR.TSTAT, stays in privileged mode and goes
on at CR.TVEC; every register, every other control register and every byte of memory is as before. R118, R102: a user trap with
no record to take (CR.FREEL 0 or not 4 KiB-aligned) or no handler that R99 admits is escalated: it enters privileged mode at CR.TVEC with
the escalated bit set; the handler is that of the context entry as it stands, reloaded if its generation has changed (R41). R310, R307: ERET in privileged mode goes on at CR.TPC, in the mode that CR.TSTAT's priv bit tells, with the escalated bit
cleared; an odd CR.TPC raises MISALIGN; user code raises PRIV. Nothing else changes. -/
def Obligations.TrapEntryAndReturn : Prop :=
  ((∀ (s : State) (c : Cause) (v : Word), Solo s → (act s).priv = true → c ≠ .uncorrectable →
    OnlyActivation s (trapped s c v) ∧
    act (trapped s c v) = { act s with
      cr := { (act s).cr with
        tcause := BitVec.ofNat 64 c.code
        tval := v
        tpc := (act s).pc
        tstat := if (act s).runsOn.isSome then 3 else 1 }
      wait := none
      pc := (coreOf s (home s)).tvec &&& ~~~1#64 }) ∧
  (∀ (s : State) (c : Cause) (v : Word), Solo s → (act s).priv = false → c ≠ .uncorrectable →
    ((regs s).freel = 0 ∨ (regs s).freel.toNat % 4096 ≠ 0 ∨ upcallOk s (home s) (ctxId s) = false) →
    OnlyActivation s (trapped s c v) ∧
    act (trapped s c v) = { act s with
      cr := { (act s).cr with
        tcause := BitVec.ofNat 64 c.code
        tval := v
        tpc := (act s).pc
        tstat := if (act s).runsOn.isSome then 10 else 8 }
      priv := true
      wait := none
      pc := (coreOf s (home s)).tvec &&& ~~~1#64 }) ∧
  (∀ s : State, upcallOk s (home s) (ctxId s) =
    if (entry s).ctxgen.toNat = (ctxWord s (ctxId s) 0).toNat / 2 ^ 48 then handlerOk (entry s) (regs s).upcall
    else handlerOk (tableEntry s (ctxId s)) (ctxWord s (ctxId s) 7))) ∧
  (∀ (s : State), Solo s →
    ((act s).priv = true → (act s).cr.tpc.toNat % 2 = 0 →
      exec .eret s = .next (setAct s { act s with
        priv := (act s).cr.tstat.getLsbD 0
        cr := { (act s).cr with tstat := (act s).cr.tstat &&& ~~~(8#64) }
        pc := (act s).cr.tpc
        wait := none })) ∧
    ((act s).priv = true → (act s).cr.tpc.toNat % 2 = 1 → exec .eret s = .next (trapped s .misalign (act s).cr.tpc)) ∧
    ((act s).priv = false → exec .eret s = .next (trapped s .priv (Instr.eret).tval) ∧
      exec .halt s = .next (trapped s .priv (Instr.halt).tval)))

/-- R116, R117, R119: a user trap takes the record at CR.FREEL, whose first word becomes the new CR.FREEL and whose address becomes
CR.FIBRE; the upcall activation starts at CR.UPCALL with the record, the cause and CR.TVAL in s1 to s3, a stack below the trapped
one, and the trap registers set, in user mode. The context entry is reloaded if its generation has changed (R41). The record is on one
page of this module's memory; the record is written once the activation's earlier accesses to it are performed (R150), as R117 lays it
out, and no other byte of memory changes. The model's choices: a record access that faults after the link was read leaves CR.FREEL as it
was (log 74), and a home core without a core-map entry has home logical address 0 (log 85). -/
def Obligations.UserUpcallEntry : Prop :=
  ∀ (s : State) (c : Cause) (v : Word) (loc : Nat) (ls ms : List TlbEntry), Solo s → s.cur.away = none → (act s).priv = false →
    c ≠ .uncorrectable →
    (regs s).freel ≠ 0 → (regs s).freel.toNat % 4096 = 0 → upcallOk s (home s) (ctxId s) = true →
    resolve s (who s) .load (regs s).freel 4096 = .ok [[(loc, none, 4096)]] ls →
    resolve s (who s) .store (regs s).freel 4096 = .ok [[(loc, none, 4096)]] ms →
    ownPending (touched s .store ms) (agentNow s) loc 4096 = false → (s.heldPorts = false ∨ 2 ^ 48 ≤ loc) →
    let t := trapped s c v
    let a := act t
    let b := act s
    let word : Nat → Nat := fun o => readNat t (loc + o) 8
    a.pc = (regs t).upcall ∧ ((entry t).ctxgen = (entry s).ctxgen → (regs t).upcall = (regs s).upcall) ∧ a.priv = false ∧ a.upcall = true ∧ a.wait = none ∧ a.qin = [] ∧ a.qout = [] ∧
    a.getS 1 = (regs s).freel ∧ a.getS 2 = BitVec.ofNat 64 c.code ∧ a.getS 3 = v ∧
    a.getS 30 = ((act s).getS 30 - 256#64) &&& ~~~(15#64) ∧
    a.cr.tcause = BitVec.ofNat 64 c.code ∧ a.cr.tval = v ∧ a.cr.tpc = (act s).pc ∧
    a.cr.tstat = (if (act s).runsOn.isSome then 2 else 0) ∧ a.cr.wid = (act s).cr.wid ∧ a.cr.wshape = (act s).cr.wshape ∧
    a.cr.fflags = 0 ∧ a.cr.xfer = 0 ∧
    (regs t).fibre = (regs s).freel ∧ (regs t).freel = BitVec.ofNat 64 (readNat (touched s .store ms) loc 8) ∧ ctxId t = ctxId s ∧
    (loc + 4096 ≤ 2 ^ 48 → MemoryCanonical s → b.qin.length ≤ 63 → b.qout.length ≤ 64 →
      (∀ x ∈ ([(0x00, 0), (0x08, b.pc), (0x10, BitVec.ofNat 64 c.code), (0x18, v), (0x20, if b.runsOn.isSome then 2 else 0), (0x28, b.cr.wid),
        (0x30, b.cr.wshape), (0x38, b.cr.msgsrc), (0x40, b.cr.msglen), (0x48, b.cr.fflags), (0x50, b.cr.xfer)] : List (Nat × Word)),
        word x.1 = x.2.toNat) ∧
      word 0x58 = b.qin.length * 2 ^ 16 + b.qout.length * 2 ^ 8 ∧
      word 0x60 = (logicalOf s (entry s) (nodeOf s (home s))).getD 0 ∧
      (∀ r : SReg, word (0x80 + 8 * r.toNat) = (b.getS r).toNat) ∧ (∀ r : EReg, word (0x180 + 8 * r.toNat) = (b.getE r).toNat) ∧
      (∀ r : PReg, readNat t (loc + 0x1C0 + 2 * r.toNat) 2 = (b.getP r).toNat) ∧
      (∀ (r : VRegN) (l : Fin 16), readNat t (loc + 0x200 + 64 * r.toNat + 4 * l.val) 4 = (b.getV r)[l].toNat) ∧
      (∀ i (h : i < b.qin.length), word (0xA00 + 8 * i) = b.qin[i].toNat) ∧
      (∀ i (h : i < b.qout.length), word (0xC00 + 8 * i) = b.qout[i].toNat) ∧
      (∀ z ∈ ([(0x68, 0x80), (0x1D0, 0x200), (0xE00, 0x1000)] : List (Nat × Nat)), ∀ o, z.1 ≤ o → o < z.2 → readByte t (loc + o) = 0) ∧
      (∀ l, l < 2 ^ 48 → (l < loc ∨ loc + 4096 ≤ l) → readByte t l = readByte (touched s .store ms) l))

/-! ### Queues, messages, launches, events, phasers and monitors -/

/-- R95-R98, R340, R341: QPOP and QPEEK of qin and q3 read the oldest word, QPOP removes it; QPUSH appends to qout, or sends a word to
the neighbour's q3; QLEN counts; QDROP removes words; an empty qin and a full qout raise DEADWAIT, an empty q3 blocks. -/
def Obligations.QueueInstructions : Prop :=
  ∀ (s : State) (a b : SReg), Solo s →
    (∀ w r, (act s).qin = w :: r →
      exec (.qpop a 0) s = .next (after 4 (wS (setAct s { act s with qin := r }) a w)) ∧
      exec (.qpeek a 0) s = .next (after 4 (wS s a w))) ∧
    ((act s).qin = [] → exec (.qpop a 0) s = .next (trapped s .deadwait 0) ∧ exec (.qpeek a 0) s = .next (trapped s .deadwait 0)) ∧
    (∀ w r, (ctxNow s).q3 = w :: r →
      exec (.qpop a 3) s = .next (after 4 (wS (modCtx s (home s) (ctxId s) (fun x => { x with q3 := r })) a w)) ∧
      exec (.qpeek a 3) s = .next (after 4 (wS s a w))) ∧
    (FirstIssue s → (ctxNow s).q3 = [] →
      exec (.qpop a 3) s = .next (blocked s (waiting s 1 3))) ∧
    ((act s).qout.length < 64 → exec (.qpush 1 b) s = .next (after 4 (setAct s { act s with qout := (act s).qout ++ [rS s b] }))) ∧
    (64 ≤ (act s).qout.length → exec (.qpush 1 b) s = .next (trapped s .deadwait 1)) ∧
    (q2Held s < 16 → ∃ t, exec (.qpush 2 b) s = .next t ∧ (act t).pc = (act s).pc + 4 ∧
      ∃ p, tget t.net s.ids = some p ∧ p.payload = .channel (rS s b) ∧ p.dst = nodeOf s (nextCore (home s)) ∧ p.ctx = ctxId s) ∧
    (∀ q : BitVec 2, exec (.qlen a q) s = .next (after 4 (wS s a (BitVec.ofNat 64
      (if q = 0 then (act s).qin.length else if q = 1 then (act s).qout.length else if q = 2 then q2Held s
        else (ctxNow s).q3.length))))) ∧
    ((rS s b).toNat ≤ (act s).qin.length →
      ∃ t, exec (.qdrop 0 b) s = .next t ∧ act t = { act s with qin := (act s).qin.drop (rS s b).toNat, pc := (act s).pc + 4, wait := none }) ∧
    ((act s).qin.length < (rS s b).toNat → exec (.qdrop 0 b) s = .next (trapped s .deadwait 0)) ∧
    (∃ t, exec (.qdrop 1 b) s = .next t ∧
      act t = { act s with qout := (act s).qout.take ((act s).qout.length - (rS s b).toNat), pc := (act s).pc + 4, wait := none }) ∧
    (FirstIssue s → (rS s b).toNat ≤ (ctxNow s).q3.length → ∃ t, exec (.qdrop 3 b) s = .next t ∧ (act t).pc = (act s).pc + 4 ∧
      (ctxNow t).q3 = (ctxNow s).q3.drop (rS s b).toNat)

/-- R343-R345: SEND, SENDW and REPLY send the words of qout as one message to the core that the core map names, once earlier accesses
are performed and the receiver has room, and wait until then; the message carries the priority and the code bit that sB names, a REPLY
those of its sender and code 0; with qout empty they send nothing; SENDW waits for the acceptance's status; an unmapped destination, and
a REPLY with no source to reply to, raise NOTMAPPED. -/
def Obligations.MessageSends : Prop :=
  ∀ (s : State) (sc : Scope) (a b : SReg), Solo s →
    let x := (rS s b).toNat
    let from_ := (act s).cr.msgsrc
    let unmapped : Nat → Prop := fun l => cmapEntry s (entry s) l = none
    let sent : State → Node → Nat → Bool → Prop := fun t dst prio code =>
      ∃ p, tget t.net s.ids = some p ∧ p.src = nodeOf s (home s) ∧ p.dst = dst ∧ p.ctx = ctxId s ∧ p.mprio = prio ∧
        p.scope = (if moduleOf p.src = moduleOf dst then sc.code else 4) ∧
        ∃ nosrc src, p.payload = .message (act s).qout code 1 nosrc src 0 0 none s.ids ∧
          (∀ l, logicalOf s (entry s) (nodeOf s (home s)) = some l → nosrc = false ∧ src = l)
    ((act s).qout = [] →
      exec (.send sc b) s = .next (after 4 s) ∧ exec (.reply sc) s = .next (after 4 s) ∧
      (FirstIssue s → exec (.sendw sc a b) s = .next (after 4 (wS s a 0)))) ∧
    ((act s).qout ≠ [] → ∀ dst, cmapEntry s (entry s) (x % 2 ^ 21) = some dst → sendReady s dst (act s).qout.length = true →
      (∃ t, exec (.send sc b) s = .next t ∧ sent t dst (x / 2 ^ 21 % 4) ((rS s b).getLsbD 23) ∧ act t = { act s with qout := [], pc := (act s).pc + 4, wait := none }) ∧
      (FirstIssue s → ∃ t, exec (.sendw sc a b) s = .next t ∧ sent t dst (x / 2 ^ 21 % 4) ((rS s b).getLsbD 23) ∧ (act t).qout = [] ∧ (act t).pc = (act s).pc ∧
        (act t).wait = some { waiting s 0 0 with stage := 1, tags := [s.ids] })) ∧
    (∀ w v, (act s).wait = some w → w.stage = 1 → w.reply = some v → exec (.sendw sc a b) s = .next (after 4 (wS s a v))) ∧
    ((act s).qout ≠ [] → from_.getLsbD 21 = false →
      ∀ dst, cmapEntry s (entry s) (from_.toNat % 2 ^ 21) = some dst → sendReady s dst (act s).qout.length = true →
      ∃ t, exec (.reply sc) s = .next t ∧ sent t dst (from_.toNat / 2 ^ 22 % 4) false ∧
        act t = { act s with qout := [], pc := (act s).pc + 4, wait := none }) ∧
    ((act s).qout ≠ [] → FirstIssue s → ∀ dst, sendReady s dst (act s).qout.length = false →
      (cmapEntry s (entry s) (x % 2 ^ 21) = some dst →
        exec (.send sc b) s = .next (blocked s (waiting s 0 0)) ∧ exec (.sendw sc a b) s = .next (blocked s (waiting s 0 0))) ∧
      (from_.getLsbD 21 = false → cmapEntry s (entry s) (from_.toNat % 2 ^ 21) = some dst →
        exec (.reply sc) s = .next (blocked s (waiting s 0 0)))) ∧
    ((act s).qout ≠ [] →
      (unmapped (x % 2 ^ 21) → exec (.send sc b) s = .next (trapped s .notmapped (BitVec.ofNat 64 (x % 2 ^ 21))) ∧
        (FirstIssue s → exec (.sendw sc a b) s = .next (trapped s .notmapped (BitVec.ofNat 64 (x % 2 ^ 21))))) ∧
      (from_.getLsbD 21 = false → unmapped (from_.toNat % 2 ^ 21) →
        exec (.reply sc) s = .next (trapped s .notmapped (BitVec.ofNat 64 (from_.toNat % 2 ^ 21)))) ∧
      (from_.getLsbD 21 = true → exec (.reply sc) s = .next (trapped s .notmapped (BitVec.ofNat 64 (from_.toNat % 2 ^ 22)))))

/-- R346-R349: ENDH ends the activation and disarms its watch entries; TRIG triggers it once earlier accesses are performed; LAUNCH
takes its descriptor to the launch unit of its die and completes with the unit's status; WID extracts field f of the work id, and
SRCID the sender. -/
def Obligations.LaunchesAndEnds : Prop :=
  ∀ (s : State) (a b : SReg), Solo s →
    (((act s).work = none ∨ (act s).triggered = true ∨ released s = true) →
      ∃ t, exec .endh s = .next t ∧ actAt t s.cur = none ∧ ∀ w ∈ (coreOf t (home s)).watch, w.ctx ≠ ctxId s) ∧
    (released s = true → (act s).work = none → exec .trig s = .next (after 4 s)) ∧
    (released s = true → (act s).work.isSome = true → ∃ t, exec .trig s = .next t ∧ (act t).triggered = true ∧ (act t).pc = (act s).pc + 4) ∧
    (∀ w v, (act s).wait = some w → w.stage = 1 → w.reply = some v → exec (.launch a b) s = .next (after 4 (wS s a v))) ∧
    (Unsent s → InWindow0 s (rS s b) 128 → Quiet s (window0Loc s (rS s b)) 128 → released s = true → isApp (home s) = false →
      ∃ t, exec (.launch a b) s = .next t ∧ (act t).pc = (act s).pc ∧
        (dieOf t (home s / 1024)).requests = (dieOf s (home s / 1024)).requests ++ [⟨agentNow s, ctxId s, (entry s).hlo, (entry s).hhi,
          (List.range 16).map (fun i => BitVec.ofNat 64 (readNat s (window0Loc s (rS s b) + 8 * i) 8))⟩]) ∧
    ((rS s b).toNat % 128 ≠ 0 → Unsent s → exec (.launch a b) s = .next (trapped s .misalign (rS s b))) ∧
    (∀ f : BitVec 3, f.toNat < 6 →
      let width : Nat → Nat := fun i => ((act s).cr.wshape.extractLsb' (6 * i) 6).toNat
      let off := ((List.range f.toNat).map width).sum
      exec (.wid a f) s = .next (after 4 (wS s a (BitVec.ofNat 64 ((act s).cr.wid.toNat / 2 ^ off % 2 ^ width f.toNat))))) ∧
    exec (.srcid a) s = .next (after 4 (wS s a ((act s).cr.msgsrc &&& 0x3FFFFF#64)))

/-- R350-R352, R56, R71: EVTEST and a satisfied EVWAIT, an empty mask included, read the vector as an acquire; EVSET ORs bits 192-255 into it after a release and
EVCLR clears bits; an EVWAIT on a clear hardware bit with no armed setter raises DEADWAIT; EVSET below bit 192 raises ILLEGAL. -/
def Obligations.EventInstructions : Prop :=
  ∀ (s : State) (a : SReg) (b : VRegN), Solo s → (homeDie s (ctxId s)).isSome = true →
    let m := eventMask (rV s b)
    let v := vectorNow s
    (v &&& m = m → exec (.evwait a b) s = .next (after 4 (wS (acquire s) a 0))) ∧
    (v &&& m = m → exec (.evtest a b) s = .next (after 4 (wS (acquire s) a 1))) ∧
    (v &&& m ≠ m → exec (.evtest a b) s = .next (after 4 (wS s a 0))) ∧
    (FirstIssue s → ∀ i, i < 192 → m.getLsbD i = true → v.getLsbD i = false → i ∉ armedBits s (ctxId s) →
      (∀ j, j < i → m.getLsbD j = true → v.getLsbD j = false → j ∈ armedBits s (ctxId s)) →
      exec (.evwait a b) s = .next (trapped s .deadwait (BitVec.ofNat 64 i))) ∧
    ((∃ i, i < 192 ∧ m.getLsbD i = true) → exec (.evset b) s = .next (trapped s .illegal (Instr.evset b).tval)) ∧
    ((∀ i, i < 192 → m.getLsbD i = false) → released s = true →
      ∃ t, exec (.evset b) s = .next t ∧ (act t).pc = (act s).pc + 4 ∧
        (s.launches = [] → tgetD t.evec (ctxId s) 0 = tgetD s.evec (ctxId s) 0 ||| m)) ∧
    (∃ t, exec (.evclr b) s = .next t ∧ (act t).pc = (act s).pc + 4 ∧
      (s.launches = [] → tgetD t.evec (ctxId s) 0 = tgetD s.evec (ctxId s) 0 &&& ~~~m))

/-- R353-R357: PHNEW hands out the lowest free phaser of the die (which one: log 19); PHREG registers the context at once where no signal-capable member is
in effect; PHSIG of the only signal-capable member advances the counter; PHWAIT returns 0 once the counter has passed its phase;
PHSW signals and waits; PHREAD reads; PHDROP and PHRESET leave and free the phaser; a bad handle raises ILLEGAL. -/
def Obligations.PhaserInstructions : Prop :=
  ∀ (s : State) (a b : SReg), Solo s → isApp (home s) = false →
    (∀ i, i < 4096 → tget (dieOf s (home s / 1024)).phasers i = none →
      (∀ j, j < i → ∃ p, tget (dieOf s (home s / 1024)).phasers j = some p ∧ p.free = false) →
      exec (.phnew a) s = .next (after 4 (wS (setPhaser s (home s / 1024) i ⟨1, false, ctxId s, 0, []⟩) a
        (BitVec.ofNat 64 (home s / 1024 * 2 ^ 29 + i * 2 ^ 17 + 1))))) ∧
    (∀ d i p, phaserOf s (rS s b) = some (d, i, p) → p.members = [] → ∀ m : BitVec 2,
      exec (.phreg b m) s = .next (after 4 (setPhaser s d i { p with
        members := [⟨ctxId s, home s, if m = 0 then .sig else if m = 1 then .wait else .sigWait, true, none, false, none, false⟩] }))) ∧
    (∀ d i p k, phaserOf s (rS s b) = some (d, i, p) → p.members = [k] → k.ctx = ctxId s → k.core = home s → k.live = true →
      k.mode = .sigWait → k.dropping = false → k.next = none →
      (k.psig ≠ some p.counter → released s = true → ∃ t q, exec (.phsig b) s = .next t ∧ (act t).pc = (act s).pc + 4 ∧
        tget (dieOf t d).phasers i = some q ∧ q.counter = p.counter + 1) ∧
      (k.psig ≠ some p.counter → released s = true → FirstIssue s → ∃ t q, exec (.phsw a b) s = .next t ∧
        act t = { (act s).setS a 0 with pc := (act s).pc + 4, wait := none, rlb := [] } ∧
        tget (dieOf t d).phasers i = some q ∧ q.counter = p.counter + 1) ∧
      (∀ c, k.psig = some c → p.counter = c + 1 → FirstIssue s → exec (.phwait a b) s = .next (after 4 (wS (acquire s) a 0))) ∧
      (k.psig ≠ some p.counter → exec (.phread a b) s = .next (after 4 (wS s a (BitVec.ofNat 64 (p.counter.toNat + 2 ^ 32 + 2 ^ 48))))) ∧
      (k.psig = some p.counter → exec (.phread a b) s = .next (after 4 (wS s a (BitVec.ofNat 64 (p.counter.toNat + 2 ^ 32))))) ∧
      (∃ t q, exec (.phdrop b) s = .next t ∧ (act t).pc = (act s).pc + 4 ∧ tget (dieOf t d).phasers i = some q ∧ q.members = []) ∧
      (∃ t q, exec (.phreset b) s = .next t ∧ (act t).pc = (act s).pc + 4 ∧ tget (dieOf t d).phasers i = some q ∧
        q.free = true ∧ q.members = [] ∧ q.gen ≠ p.gen)) ∧
    (phaserOf s (rS s b) = none →
      exec (.phsig b) s = .next (trapped s .illegal (Instr.phsig b).tval) ∧
      exec (.phdrop b) s = .next (trapped s .illegal (Instr.phdrop b).tval) ∧
      exec (.phread a b) s = .next (trapped s .illegal (Instr.phread a b).tval))

/-- R359-R361: MON arms a watch entry on the line that holds sB; MWAIT returns 0 once an entry of the activation is woken, 2 once a
message, a switch or an eviction, before its first issue too (log 10, the model's choice), has ended it, and 1 once its cycles have passed; each return disarms the entries and is an
acquire (R154). -/
def Obligations.MonitorInstructions : Prop :=
  ∀ (s : State) (a b : SReg), Solo s →
    (InWindow0 s (rS s b) 1 → (coreOf s (home s)).watch.length < 16 →
      (∀ w ∈ (coreOf s (home s)).watch, w.ctx = ctxId s → w.line ≠ window0Loc s (rS s b) / 64) →
      ∃ t, exec (.mon b) s = .next t ∧ act t = { act s with pc := (act s).pc + 4, wait := none } ∧
        (coreOf t (home s)).watch = (coreOf s (home s)).watch ++ [⟨ctxId s, window0Loc s (rS s b) / 64, false⟩]) ∧
    ((∃ w, 1 ≤ w ∧ rangeOf (rS s b) = .window w) → exec (.mon b) s = .next (trapped s .window (rS s b))) ∧
    ((∃ w ∈ (coreOf s (home s)).watch, w.ctx = ctxId s ∧ w.woken = true) →
      ∃ t, exec (.mwait a b) s = .next t ∧ act t = { (act s).setS a 0 with pc := (act s).pc + 4, wait := none, rlb := [] } ∧
        ∀ w ∈ (coreOf t (home s)).watch, w.ctx ≠ ctxId s) ∧
    ((∀ x ∈ (coreOf s (home s)).watch, x.ctx = ctxId s → x.woken = false) →
      ((∃ w, (act s).wait = some w ∧ w.out = true) ∨ (ctxNow s).watchLost = true) →
      ∃ t, exec (.mwait a b) s = .next t ∧ act t = { (act s).setS a 2 with pc := (act s).pc + 4, wait := none, rlb := [] }) ∧
    (∀ w, (∀ x ∈ (coreOf s (home s)).watch, x.ctx = ctxId s → x.woken = false) → (act s).wait = some w → w.kind = 5 → w.out = false →
      (ctxNow s).watchLost = false → w.operand ≠ 0 → w.operand.toNat ≤ s.cyc - w.start →
      ∃ t, exec (.mwait a b) s = .next t ∧ act t = { (act s).setS a 1 with pc := (act s).pc + 4, wait := none, rlb := [] }) ∧
    (FirstIssue s → (∀ x ∈ (coreOf s (home s)).watch, x.ctx = ctxId s → x.woken = false) → (ctxNow s).watchLost = false →
      exec (.mwait a b) s = .next (blocked s (waiting s 5 (rS s b))))


/-! ### Copies, collectives, fibres, invalidation and prefetch -/

/-- R224, R363-R365: a read of CR.CPGO and CPSORT queue one transfer of the shadow set (its id: log 19; its promise: log 9), or return why·2^16 with nothing queued; CPWAIT
and CPSTAT of a transfer that is not the context's active one complete as acquires, CPCANCEL does nothing; an active one is waited
for to its promise; CPCANCEL of one in flight, held or not, marks it cancelled, unless its mailbox store has been made (log 93, the
model's choice), and stalls until it has stopped; GBIND and GUNBIND set and clear a gather window. -/
def Obligations.CopyInstructions : Prop :=
  ∀ (s : State) (a b : SReg), Solo s → isApp (runCore s) = false →
    let cl := clauseOfCore (home s)
    let r := regs s
    let shadow : List Word := [r.cpsrc, r.cpdst, r.cplen, r.cpstr, r.cpflags, r.cphnd, r.cpswz]
    let went : Option Nat → State → Prop := fun k t => ∃ id p, (clauseOf t cl).copies = (clauseOf s cl).copies ++
      [⟨id, home s, ctxId s, shadow, k, p, 0, none, false, false⟩] ∧
      act t = { (act s).setS a (BitVec.ofNat 64 (p % 2 ^ 48 * 2 ^ 16 + id)) with pc := (act s).pc + 4, wait := none }
    (released s = true → copyRefusal shadow = 0 → (clauseOf s cl).copies.length < 64 →
      (∃ t, exec (.crd a 0x01F) s = .next t ∧ went none t) ∧ (∃ t, exec (.cpgoRead a) s = .next t ∧ went none t)) ∧
    (∀ k, released s = true → sortRefusal shadow (k.toNat + 1) = 0 → (clauseOf s cl).copies.length < 64 →
      ∃ t, exec (.cpsort a k) s = .next t ∧ went (some (k.toNat + 1)) t) ∧
    (released s = true → copyRefusal shadow ≠ 0 →
      exec (.cpgoRead a) s = .next (after 4 (wS s a (BitVec.ofNat 64 (copyRefusal shadow * 2 ^ 16))))) ∧
    (2 ^ 56 ≤ r.cplen.toNat → copyRefusal shadow = 1) ∧
    (namedCopy s (rS s b) = none →
      exec (.cpwait b) s = .next (after 4 (acquire s)) ∧ exec (.cpcancel b) s = .next (after 4 s) ∧
      ((clauseOf s cl).cancelled.contains ((rS s b).toNat % 65536, home s * 4096 + ctxId s) = false →
        exec (.cpstat a b) s = .next (after 4 (wS (acquire s) a 1))) ∧
      ((clauseOf s cl).cancelled.contains ((rS s b).toNat % 65536, home s * 4096 + ctxId s) = true →
        exec (.cpstat a b) s = .next (after 4 (wS s a 3)))) ∧
    (∀ j, namedCopy s (rS s b) = some j →
      exec (.cpstat a b) s = .next (after 4 (wS s a (BitVec.ofNat 64 (j.promise % 2 ^ 48 * 2 ^ 16 + if j.held.isSome then 2 else 0)))) ∧
      (FirstIssue s → s.cyc < j.promise →
        exec (.cpwait b) s = .next (blocked s (waiting s 4 (BitVec.ofNat 64 j.id)))) ∧
      (j.promise ≤ s.cyc → j.held.isSome = true → exec (.cpwait b) s = .next (trapped s .promise (BitVec.ofNat 64 j.id))) ∧
      (FirstIssue s → ∃ t, exec (.cpcancel b) s = .next t ∧ act t = { act s with wait := some (waiting s 4 (BitVec.ofNat 64 j.id)) } ∧
        copyOf t cl j.id = some { j with cancel := j.cancel || !j.mailed } ∧ (∀ i, i ≠ j.id → copyOf t cl i = copyOf s cl i))) ∧
    (∀ (sz : BitVec 2) (w : BitVec 4), (rS s b).toNat % 4 = 0 → (rE s 1).toNat < 2 ^ 32 →
      exec (.gbind sz w b) s = .next (after 4 (modCtx s (home s) (ctxId s) (fun c => { c with
        binds := tset c.binds w.toNat ⟨rS s b, rE s 0, 2 ^ sz.toNat, (rE s 1).toNat⟩ })))) ∧
    (∀ w : BitVec 4, exec (.gunbind w) s = .next (after 4 (modCtx s (home s) (ctxId s) (fun c => { c with
      binds := tdel c.binds w.toNat }))))

/-- R366, R367, R280: COLLGO starts the program that its descriptor in the scratchpad describes, in the lowest free handle (log 19), at step 0;
with feature bit 9 off it raises ILLEGAL; COLLWAIT loads the mailbox as an acquire once no program of the activation's context and
core has it, and blocks until then. -/
def Obligations.CollectiveInstructions : Prop :=
  ∀ (s : State) (a b : SReg), Solo s → isApp (runCore s) = false → Unsent s →
    let cl := clauseOfCore (home s)
    let ready : Nat → Prop := fun n => InWindow0 s (rS s b) n ∧ Quiet s (window0Loc s (rS s b)) n
    let ds := (List.range 8).map (fun i => BitVec.ofNat 64 (readNat s (window0Loc s (rS s b) + 8 * i) 8))
    (ready 64 → featureFor s (ctxId s) 9 = true → collIllegal ds = false → released s = true → (clauseOf s cl).colls.length < 4 →
      ∃ t c, exec (.collgo b) s = .next t ∧ (clauseOf t cl).colls = (clauseOf s cl).colls ++ [c] ∧ c.words = ds ∧ c.core = home s ∧
        c.ctx = ctxId s ∧ c.step = 0 ∧ c.counters = [0, 0, 0, 0] ∧ c.inbox = [] ∧ c.held = none ∧ c.handle = freeId (clauseOf s cl) ∧
        c.ending = none ∧ act t = { act (seen s (window0Loc s (rS s b)) 64) with pc := (act s).pc + 4, wait := none }) ∧
    (ready 64 → featureFor s (ctxId s) 9 = true → collIllegal ds = true →
      exec (.collgo b) s = .next (trapped (seen s (window0Loc s (rS s b)) 64) .illegal (Instr.collgo b).tval)) ∧
    (featureFor s (ctxId s) 9 = false → exec (.collgo b) s = .next (trapped s .illegal (Instr.collgo b).tval)) ∧
    (ready 8 → (∀ c ∈ (clauseOf s cl).colls, c.core = home s → c.ctx = ctxId s → c.mbox ≠ rS s b) →
      exec (.collwait a b) s = .next (after 4 (wS (acquire (seen s (window0Loc s (rS s b)) 8)) a (BitVec.ofNat 64 (readNat s (window0Loc s (rS s b)) 8))))) ∧
    (FirstIssue s → (rS s b).toNat % 8 = 0 → (∃ c ∈ (clauseOf s cl).colls, c.core = home s ∧ c.ctx = ctxId s ∧ c.mbox = rS s b) →
      exec (.collwait a b) s = .next (blocked s (waiting s 10 (rS s b))))

/-- R369-R372: FRESUME of a taken record of this core ends the activation and goes on with the record's registers, and the record
returns to CR.FREEL; with a copy's engine tag it restarts the copy; FDROP returns the record without resuming it and writes an error
record; both read word 0 as an acquire (R369); FSTAT reports a record or a tag; a record that is not taken raises ILLEGAL. The record lies in the scratchpad. -/
def Obligations.FibreInstructions : Prop :=
  ∀ (s : State) (a b : SReg), Solo s → s.cur.away = none → MemoryCanonical s →
    (act s).work = none → (coreOf s (home s)).donation = none →
    let x := rS s b
    let loc := window0Loc s x
    let w : Nat → Word := fun i => readWord s (loc + 8 * i)
    let looked := touched s .load []
    (InWindow0 s x 4096 → Quiet s loc 4096 → w 0 = 0 →
        (∃ d, cmapEntry s (entry s) ((w 12).toNat % 2 ^ 21) = some d ∧ d.host = false ∧ takerOf s d = some (home s)) →
        released s = true →
      (∃ t, exec (.fresume b) s = .next t ∧ ctxId t = ctxId s ∧ (act t).pc = w 1 &&& ~~~1#64 ∧ (act t).wait = none ∧ (act t).runsOn = none ∧
        (∀ i : SReg, i ≠ 0 → rS t i = w (16 + i.toNat)) ∧ (∀ i : EReg, rE t i = w (48 + i.toNat)) ∧
        (∀ i : PReg, i ≠ 0 → rP t i = BitVec.ofNat 16 (readNat s (loc + 0x1C0 + 2 * i.toNat) 2)) ∧
        (∀ (i : VRegN) (l : Fin 16), (rV t i)[l] = BitVec.ofNat 32 (readNat s (loc + 0x200 + 64 * i.toNat + 4 * l.val) 4)) ∧
        (act t).cr.tcause = w 2 ∧ (act t).cr.tval = w 3 ∧ (act t).cr.tstat = w 4 ∧ (act t).cr.wid = w 5 ∧ (act t).cr.fflags = w 9 &&& 0x7F#64 ∧
        (regs t).freel = x ∧ readNat t loc 8 = (regs s).freel.toNat) ∧
      (let u := storeAt s (ctxId s) loc (leBytes 8 (regs s).freel.toNat)
       let y := ctxWord u (ctxId s) 9 + BitVec.ofNat 64 (64 * tgetD s.faultCount (ctxId s) 0)
       s.fibres = [] → tgetD s.faultCount (ctxId s) 0 < (ctxWord u (ctxId s) 10).toNat → InWindow0 s y 64 →
         poisonedIn s (window0Loc s y) 64 = none → ownPending s (unitAgent (home s) (ctxId s) 9) (window0Loc s y) 64 = false →
         (windowOff y + 64 ≤ windowOff x ∨ windowOff x + 8 ≤ windowOff y) →
         ∃ t, exec (.fdrop b) s = .next t ∧ act t = { act s with pc := (act s).pc + 4, wait := none, rlb := [] } ∧ (regs t).freel = x ∧
           readNat t loc 8 = (regs s).freel.toNat ∧ readNat t (window0Loc s y) 8 = 2 + (w 2).toNat % 256 * 256 ∧
           readNat t (window0Loc s y + 8) 8 = (w 5).toNat)) ∧
    (InWindow0 s x 4096 → Quiet s loc 8 → w 0 ≠ 0 → exec (.fresume b) s = .next (trapped (acquire looked) .illegal (Instr.fresume b).tval) ∧
      exec (.fdrop b) s = .next (trapped (acquire looked) .illegal (Instr.fdrop b).tval)) ∧
    (InWindow0 s x 4096 → Quiet s loc 48 → exec (.fstat a b) s = .next (after 4 (wS (acquire looked) a (BitVec.ofNat 64
      ((w 4).toNat / 2 % 2 * 2 ^ 17 + (w 2).toNat % 256 * 256 + if w 0 = 0 then 1 else 0))))) ∧
    (x.toNat % 2 = 1 → heldJob s x = none → exec (.fstat a b) s = .next (after 4 (wS s a (2 ^ 16))) ∧
      exec (.fresume b) s = .next (trapped s .illegal (Instr.fresume b).tval)) ∧
    (∀ cl id c j, x.toNat % 2 = 1 → heldJob s x = some (.copy cl id, c) → copyOf s cl id = some j → released s = true →
      exec (.fstat a b) s = .next (after 4 (wS s a (BitVec.ofNat 64 (2 ^ 16 + c.code * 256 + 1)))) ∧
      ∃ t k, exec (.fresume b) s = .next t ∧ actAt t s.cur = none ∧ copyOf t cl id = some k ∧ k.held = none ∧ k.progress = j.progress)

/-- R141, R368, R373, R374: TLBINV and TLBINVA, privileged, remove what they name from every covered core's buffer and block until
the invalidation is complete; XPREF of a line of page-mapped memory that translates, with no permission check (R131), fills it into
the read-line buffer, asking its home port where that does not answer at once (log 5); any other XPREF does nothing and raises no trap. -/
def Obligations.InvalidationAndPrefetch : Prop :=
  ∀ (s : State) (sc : Scope) (b c : SReg), Solo s →
    ((act s).priv = true → FirstIssue s →
      (∃ t n, exec (.tlbinv sc b c) s = .next t ∧ (act t).pc = (act s).pc ∧ 
        (act t).wait = some { waiting s 0 0 with stage := 1, tags := [n] } ∧
        tget t.invals n = some ⟨agentNow s, sc, (rS s c).toNat % 65536, some ((rS s b).toNat % 2 ^ 55), false, n⟩ ∧
        ∀ k, coreInScope sc (home s) k = true → ∀ e ∈ (coreOf t k).tlb, tlbCovers ((rS s c).toNat % 65536) ((rS s b).toNat % 2 ^ 55) e = false) ∧
      (∃ t n, exec (.tlbinva sc b) s = .next t ∧ (act t).pc = (act s).pc ∧ 
        (act t).wait = some { waiting s 0 0 with stage := 1, tags := [n] } ∧
        tget t.invals n = some ⟨agentNow s, sc, (rS s b).toNat % 65536, none, false, n⟩ ∧
        ∀ k, coreInScope sc (home s) k = true → ∀ e ∈ (coreOf t k).tlb, e.asid ≠ (rS s b).toNat % 65536)) ∧
    (∀ w v, (act s).priv = true → (act s).wait = some w → w.stage = 1 → w.reply = some v →
      exec (.tlbinv sc b c) s = .next (after 4 { s with invals := s.invals.filter (fun i => !(w.tags.contains i.1)) }) ∧
      exec (.tlbinva sc b) s = .next (after 4 { s with invals := s.invals.filter (fun i => !(w.tags.contains i.1)) })) ∧
    ((act s).priv = false → exec (.tlbinv sc b c) s = .next (trapped s .priv (Instr.tlbinv sc b c).tval) ∧
      exec (.tlbinva sc b) s = .next (trapped s .priv (Instr.tlbinva sc b).tval)) ∧
    (rangeOf (rS s b) ≠ .paged → exec (.xpref b) s = .next (after 4 s)) ∧
    (∀ f v, rangeOf (rS s b) = .paged → translateAll s (who s) .prefetch [((rS s b).toNat, 1)] = .fault f v →
      exec (.xpref b) s = .next (after 4 s)) ∧
    (∀ v h, rangeOf (rS s b) = .paged → translateAll s (who s) .prefetch [((rS s b).toNat, 1)] = .wait v h →
      exec (.xpref b) s = .next (after 4 s)) ∧
    (∀ loc n ls, rangeOf (rS s b) = .paged → translateAll s (who s) .prefetch [((rS s b).toNat, 1)] = .ok [[(loc, none, n)]] ls →
      (Unsent s → LineAtHand s loc → exec (.xpref b) s = .next (after 4 (lineHeld s loc))) ∧
      (FirstIssue s → ¬LineAtHand s loc →
        exec (.xpref b) s = .next (blocked (sendReq s .load [(loc / 64 * 64, 64, [])]) (askWait s []))))

/-! ### Vector and predicate instructions -/

/-- R320, R322: an integer vector operation writes each enabled lane of vA from the same lanes of its operands, modulo 2^32; a compare
writes every bit of predicate pA, 0 for a disabled lane; nothing else changes but pc. A write to p0 is discarded; minors 0 to 19 are
the forms in the order of R322's table, and T = 1, a minor above 19, and a VIOTA with a B or C field decode to no instruction. -/
def Obligations.VectorIntegers : Prop :=
  ∀ (s : State) (p q : PReg) (a b c : VRegN) (k : SReg), Solo s →
    let x : Fin 16 → Lane := fun i => (rV s b)[i]
    let y : Fin 16 → Lane := fun i => (rV s c)[i]
    let n : Fin 16 → Nat := fun i => (y i).toNat % 32
    let into : (Fin 16 → Lane) → Host.Outcome State Fault Refusal := fun f => .next (after 4 (wV s a (lanesOf (rP s p) (rV s a) f)))
    let tests : Instr → (Fin 16 → Bool) → Prop := fun i f =>
      ∃ r, exec i s = .next (after 4 (wP s q r)) ∧ ∀ l : Fin 16, r.getLsbD l.val = ((rP s p).getLsbD l.val && f l)
    exec (.vadd p a b c) s = into (fun i => x i + y i) ∧
    exec (.vsub p a b c) s = into (fun i => x i - y i) ∧
    exec (.vmul p a b c) s = into (fun i => BitVec.ofNat 32 ((x i).toNat * (y i).toNat)) ∧
    exec (.vmulh p a b c) s = into (fun i => BitVec.ofInt 32 ((x i).toInt * (y i).toInt / 2 ^ 32)) ∧
    exec (.vand p a b c) s = into (fun i => x i &&& y i) ∧
    exec (.vor p a b c) s = into (fun i => x i ||| y i) ∧
    exec (.vxor p a b c) s = into (fun i => x i ^^^ y i) ∧
    exec (.vshl p a b c) s = into (fun i => BitVec.ofNat 32 ((x i).toNat * 2 ^ n i)) ∧
    exec (.vshr p a b c) s = into (fun i => BitVec.ofNat 32 ((x i).toNat / 2 ^ n i)) ∧
    exec (.vsar p a b c) s = into (fun i => BitVec.ofInt 32 ((x i).toInt / 2 ^ n i)) ∧
    exec (.vmin p a b c) s = into (fun i => BitVec.ofInt 32 (min (x i).toInt (y i).toInt)) ∧
    exec (.vmax p a b c) s = into (fun i => BitVec.ofInt 32 (max (x i).toInt (y i).toInt)) ∧
    exec (.vminu p a b c) s = into (fun i => BitVec.ofNat 32 (min (x i).toNat (y i).toNat)) ∧
    exec (.vmaxu p a b c) s = into (fun i => BitVec.ofNat 32 (max (x i).toNat (y i).toNat)) ∧
    exec (.vadds p a b k) s = into (fun i => x i + low32 (rS s k)) ∧
    exec (.vmuls p a b k) s = into (fun i => BitVec.ofNat 32 ((x i).toNat * (low32 (rS s k)).toNat)) ∧
    exec (.viota p a) s = into (fun i => BitVec.ofNat 32 i.val) ∧
    tests (.vceq p q b c) (fun i => decide (x i = y i)) ∧
    tests (.vclt p q b c) (fun i => decide ((x i).toInt < (y i).toInt)) ∧
    tests (.vcltu p q b c) (fun i => decide ((x i).toNat < (y i).toNat)) ∧
    (∀ r, wP s 0 r = s) ∧
    ([.vadd 0 0 0 0, .vsub 0 0 0 0, .vmul 0 0 0 0, .vmulh 0 0 0 0, .vand 0 0 0 0, .vor 0 0 0 0, .vxor 0 0 0 0, .vshl 0 0 0 0,
      .vshr 0 0 0 0, .vsar 0 0 0 0, .vmin 0 0 0 0, .vmax 0 0 0 0, .vminu 0 0 0 0, .vmaxu 0 0 0 0, .vceq 0 0 0 0, .vclt 0 0 0 0,
      .vcltu 0 0 0 0, .vadds 0 0 0 0, .vmuls 0 0 0 0, .viota 0 0] : List Instr).map some =
        (List.range 20).map (fun m => decode32 (2 ^ 23 * m + 0x83)) ∧
    (∀ w, w % 256 = 0x83 → (w / 2 ^ 28 % 2 = 1 ∨ 19 < w / 2 ^ 23 % 32 ∨ (w / 2 ^ 23 % 32 = 19 ∧ w / 2 ^ 13 % 1024 ≠ 0)) →
      decode32 w = none)

/-- R188, R202, R320, R323, R324: a floating vector operation rounds the exact result of each enabled lane once; a signalling NaN raises
invalid; VFABS and VFNEG are bit operations; VFMIN and VFMAX order −0 below +0; a compare of an unordered lane is 0, and raises
invalid but for VFCEQ of quiet NaNs. The binary64 forms need extension D and feature bit 3. What f.sum, f.round, f.div, f.sqrt, xcmp and
pickNum are in real numbers, the statement VectorConversions says. -/
def Obligations.VectorFloats : Prop :=
  ∀ (s : State) (t : Bool) (p q : PReg) (a b c : VRegN) (k : SReg), Solo s → DoubleReady s t →
    let f := if t then f64 else f32
    let x : Nat → Nat := laneT t (rV s b)
    let y : Nat → Nat := laneT t (rV s c)
    let z : Nat → Nat := laneT t (rV s a)
    let w : Nat := if t then (rS s k).toNat else (rS s k).toNat % 2 ^ 32
    let top : Nat := if t then 2 ^ 63 else 2 ^ 31
    let into : (Nat → Nat × Nat) → Host.Outcome State Fault Refusal := fun r => .next (after 4 (floatLanes t s p a r))
    let quiet : List Nat → Nat × Nat → Nat × Nat := fun cs r => (r.1, r.2 ||| if cs.any f.signalling then 16 else 0)
    let tests : Instr → Bool → (Ordering → Bool) → Prop := fun i equal g =>
      let no : Nat → Bool := fun j => f.decode (x j) == .nan || f.decode (y j) == .nan
      ∃ r, exec i s = .next (after 4 (raiseFlags (wP s q r) (floatFlags t (rP s p) (fun j =>
          if no j && (!equal || f.signalling (x j) || f.signalling (y j)) then 16 else 0)))) ∧
        ∀ l < 16, r.getLsbD l = (let j := if t then l / 2 else l
          floatOn t (rP s p) j && !no j && g (xcmp (f.decode (x j)) (f.decode (y j))))
    exec (.vfadd t p a b c) s = into (fun j => quiet [x j, y j] (f.sum [f.decode (x j), f.decode (y j)])) ∧
    exec (.vfsub t p a b c) s = into (fun j => quiet [x j, y j] (f.sum [f.decode (x j), (f.decode (y j)).neg])) ∧
    exec (.vfmul t p a b c) s = into (fun j => quiet [x j, y j] (f.round ((f.decode (x j)).mul (f.decode (y j))))) ∧
    exec (.vfma t p a b c) s =
      into (fun j => quiet [x j, y j, z j] (f.sum [(f.decode (x j)).mul (f.decode (y j)), f.decode (z j)])) ∧
    exec (.vfms t p a b c) s =
      into (fun j => quiet [x j, y j, z j] (f.sum [(f.decode (x j)).mul (f.decode (y j)), (f.decode (z j)).neg])) ∧
    exec (.vfnma t p a b c) s =
      into (fun j => quiet [x j, y j, z j] (f.sum [((f.decode (x j)).mul (f.decode (y j))).neg, f.decode (z j)])) ∧
    exec (.vfdiv t p a b c) s = into (fun j => quiet [x j, y j] (f.div (f.decode (x j)) (f.decode (y j)))) ∧
    exec (.vfsqrt t p a b) s = into (fun j => quiet [x j] (f.sqrt (f.decode (x j)))) ∧
    exec (.vfmin t p a b c) s =
      into (fun j => quiet [x j, y j] ((f.round (pickNum false (f.decode (x j)) (f.decode (y j)))).1, 0)) ∧
    exec (.vfmax t p a b c) s =
      into (fun j => quiet [x j, y j] ((f.round (pickNum true (f.decode (x j)) (f.decode (y j)))).1, 0)) ∧
    exec (.vfabs t p a b) s = into (fun j => (x j % top, 0)) ∧
    exec (.vfneg t p a b) s = into (fun j => (if x j / top % 2 = 1 then x j - top else x j + top, 0)) ∧
    exec (.vfadds t p a b k) s = into (fun j => quiet [x j, w] (f.sum [f.decode (x j), f.decode w])) ∧
    exec (.vfmuls t p a b k) s = into (fun j => quiet [x j, w] (f.round ((f.decode (x j)).mul (f.decode w)))) ∧
    tests (.vfceq t p q b c) true (fun o => o == .eq) ∧
    tests (.vfclt t p q b c) false (fun o => o == .lt) ∧
    tests (.vfcle t p q b c) false (fun o => o != .gt)

/-- R325, R326, R202: moves, permutes and slides of 32-bit lanes; VSEL and VCOMPRESS write every lane; reductions take the
enabled lanes alone and round their sum once (what f.sum is in real numbers, the statement VectorConversions says). R327: VPRUNE keeps, of each group of 4 or 8 lanes, the 2 or 4 of greatest
magnitude, the lower lane first among equals (NaNs: log 38), in ascending order in lanes 0-7, their mask in lane 8, and 0 above it. -/
def Obligations.VectorMovesReductionsAndPruning : Prop :=
  (∀ (s : State) (p : PReg) (a b c : VRegN) (d k : SReg) (n : BitVec 4), Solo s →
    let x := rV s b
    let y := rV s c
    let on : Nat → Bool := fun j => (rP s p).getLsbD j
    let into : (Fin 16 → Lane) → Host.Outcome State Fault Refusal := fun f => .next (after 4 (wV s a (lanesOf (rP s p) (rV s a) f)))
    exec (.vmov p a b) s = into (fun i => x[i]) ∧
    exec (.vsplat p a k) s = into (fun _ => low32 (rS s k)) ∧
    exec (.vmovs d b n) s = .next (after 4 (wS s d (sext32 (lane x n.toNat)))) ∧
    exec (.vins a k n) s = .next (after 4 (wV s a (Vector.ofFn (fun i => if i.val = n.toNat then low32 (rS s k) else (rV s a)[i])))) ∧
    exec (.vperm p a b c) s = into (fun i => lane x (y[i].toNat % 16)) ∧
    exec (.vslideup p a b k) s = into (fun i => if (rS s k).toNat ≤ i.val then lane x (i.val - (rS s k).toNat) else (rV s a)[i]) ∧
    exec (.vslidedn p a b k) s = into (fun i => if i.val + (rS s k).toNat ≤ 15 then lane x (i.val + (rS s k).toNat) else 0) ∧
    exec (.vsel p a b c) s = .next (after 4 (wV s a (Vector.ofFn (fun i => if on i.val then x[i] else y[i])))) ∧
    (∃ v, exec (.vcompress p a b) s = .next (after 4 (wV s a v)) ∧ (∀ j < 16, on j = true → lane v (laneRank (rP s p) j) = lane x j) ∧
      ∀ j < 16, laneRank (rP s p) 16 ≤ j → lane v j = 0) ∧
    exec (.vexpand p a b) s = into (fun i => lane x (laneRank (rP s p) i.val)) ∧
    exec (.vredadd p d b) s = .next (after 4 (wS s d (BitVec.ofInt 64
      (((List.range 16).filter on).map (fun j => (lane x j).toInt)).sum))) ∧
    (let cs := ((List.range 16).filter on).map (fun j => (lane x j).toNat)
     exec (.vfredmax p d b) s = .next (after 4 (raiseFlags (wS s d (BitVec.ofNat 64
       (f32.round (cs.foldl (fun m v => pickNum true m (f32.decode v)) (.inf true))).1)) (if cs.any f32.signalling then 16 else 0)))) ∧
    (∀ t, DoubleReady s t →
      let f := if t then f64 else f32
      let js := (List.range (if t then 8 else 16)).filter (floatOn t (rP s p))
      let xs := js.map (laneT t x)
      let ys := js.map (laneT t y)
      let sum := f.sum (xs.map f.decode)
      let dot := f.sum ((xs.zip ys).map (fun v => (f.decode v.1).mul (f.decode v.2)))
      exec (.vfredsum t p d b) s = .next (after 4 (raiseFlags (wS s d (BitVec.ofNat 64 sum.1))
        (sum.2 ||| if xs.any f.signalling then 16 else 0))) ∧
      exec (.vfdot t p d b c) s = .next (after 4 (raiseFlags (wS s d (BitVec.ofNat 64 dot.1))
        (dot.2 ||| if xs.any f.signalling || ys.any f.signalling then 16 else 0))))) ∧
  (∀ (s : State) (a b : VRegN) (m : Bool), Solo s →
    let x := rV s b
    let g : Nat := if m then 8 else 4
    let beats : Nat → Nat → Bool := fun j i =>
      j / g == i / g && (pruneKey (lane x i) < pruneKey (lane x j) || (pruneKey (lane x i) == pruneKey (lane x j) && j < i))
    let kept := (List.range 16).filter (fun i => ((List.range 16).filter (fun j => beats j i)).length < g / 2)
    kept.length = 8 ∧
    ∃ v, exec (.vprune a b m) s = .next (after 4 (wV s a v)) ∧ (∀ n < 8, lane v n = lane x (kept.getD n 0)) ∧
      (∀ j < 32, (lane v 8).getLsbD j = kept.contains j) ∧ ∀ n, 9 ≤ n → lane v n = 0)

/-- R328-R333: a vector load or store whose enabled lanes lie in window 0, aligned: VLD and VST at sB + 4j or sB + j·sC, VLDK
and VSTK at sB + 8j or sB + j·sC, VGATH and VSCAT at sB plus the zero-extended index; lanes load and store in ascending order; a
misaligned lane raises MISALIGN with the lowest such address and nothing is written; VLDK and VSTK of window 6 move consecutive
entries. R108-R110, R205-R207, R328, R334: VLD and
VST of format window w read and write one element a lane, from element (sB − base) / 4 up, in ascending lane order; VSTB of the
block-scaled windows first writes the scale byte of the block that its lanes fill, and stores with that scale (R207); a vector store
through a window whose CR.WEF bit is set carries the error from lane to lane (R206). What one element's load or store is, the statement
MisalignmentAndFormatWindows says; here, what a store of several elements and VSTB's scale byte are: the scale is the least that
brings the block's largest magnitude within the format, −127 at least; the byte is 255 where a lane is not finite, and none is written
where every lane is zero. -/
def Obligations.VectorMemory : Prop :=
  (∀ (s : State) (w size i code : Nat) (fixed : Tab Int) (r : List (Nat × Nat)), 1 ≤ w → w ≤ 6 →
    let f := if size = 8 then f64 else f32
    let sig := if f.signalling code then 16 else 0
    let v := (readByte s (scratchBase (home s) (partNow s) + (regs s).wscale.toNat % 2 ^ 20 + i / 16)).toNat
    let k : Int := (tget fixed (i / 16)).getD (if (w = 2 ∨ w = 3) ∧ v ≠ 255 then (v : Int) - 127 else 0)
    let lane_ : Xv → Nat → State := fun x g => raiseFlags (fmtPut s w i (fmtEncode w x).1) ((fmtEncode w x).2 ||| g)
    fmtStore s w size fixed none [] = s ∧
    (∀ n a b e, f.decode code = .fin n a b e →
      let y := (f.decode code).scale (-k)
      fmtStore s w size fixed none ((i, code) :: r) = fmtStore (lane_ y 0) w size fixed none r ∧
      ∀ c,
        let u := (xsum [y, c]).1
        let q := fmtEncode w u
        let d := f32.sum [u, (fmtCodeValue w q.1).neg]
        (q.2.testBit 2 = true → fmtStore s w size fixed (some c) ((i, code) :: r) = fmtStore (lane_ u 0) w size fixed (some Xv.zero) r) ∧
        (q.2.testBit 2 = false →
          fmtStore s w size fixed (some c) ((i, code) :: r) = fmtStore (lane_ u d.2) w size fixed (some (f32.decode d.1)) r)) ∧
    ((∀ n a b e, f.decode code ≠ .fin n a b e) →
      fmtStore s w size fixed none ((i, code) :: r) = fmtStore (lane_ (f.decode code) sig) w size fixed none r ∧
      ∀ c, fmtStore s w size fixed (some c) ((i, code) :: r) = fmtStore (lane_ (f.decode code) sig) w size fixed (some Xv.zero) r)) ∧
  (∀ (w : Nat) (cs : List Nat), (w = 2 ∨ w = 3) → (∀ c ∈ cs, c < 2 ^ 32) →
    let most : ℝ := if w = 2 then 448 else 6
    ((∃ c ∈ cs, ∀ n a b e, f32.decode c ≠ .fin n a b e) → vstbScale w cs = some 255) ∧
    ((∀ c ∈ cs, ∃ n a b e, f32.decode c = .fin n a b e) →
      ((∀ c ∈ cs, (f32.decode c).real = 0) → vstbScale w cs = none) ∧
      (∀ c ∈ cs, (∀ d ∈ cs, |(f32.decode d).real| ≤ |(f32.decode c).real|) → (f32.decode c).real ≠ 0 →
        ∃ t : Int, |(f32.decode c).real| * 2 ^ (-t) ≤ most ∧ most < |(f32.decode c).real| * 2 ^ (1 - t) ∧
          vstbScale w cs = some (max t (-127) + 127).toNat))) ∧
  (∀ (s : State) (p : PReg) (a c : VRegN) (b k : SReg), Solo s → storeSent s = false →
    let on : Nat → Bool := fun j => (rP s p).getLsbD j
    let ready : Nat → Word → Prop := fun n x => InWindow0 s x n ∧ Quiet s (window0Loc s x) n
    let single : Nat → Word := fun j => rS s b + (if k = 0 then BitVec.ofNat 64 (4 * j) else BitVec.ofNat 64 j * rS s k)
    let pair : Nat → Word := fun j => rS s b + (if k = 0 then BitVec.ofNat 64 (8 * j) else BitVec.ofNat 64 j * rS s k)
    let index : Nat → Word := fun j => rS s b + BitVec.ofNat 64 (lane (rV s c) j).toNat
    let from_ : Bool → (Nat → Word) → State := fun t ad =>
      mailAcquire s (((List.range (if t then 8 else 16)).filter (floatOn t (rP s p))).map (fun j =>
        .pool (window0Loc s (ad j)) (if t then 8 else 4)))
    let reads : (Nat → Word) → Host.Outcome State Fault Refusal := fun ad =>
      .next (after 4 (wV (from_ false ad) a (lanesOf (rP s p) (rV s a) (fun i => BitVec.ofNat 32 (readNat s (window0Loc s (ad i.val)) 4)))))
    let stores : Bool → (Nat → Word) → Host.Outcome State Fault Refusal := fun t ad =>
      .next (after 4 (((List.range (if t then 8 else 16)).filter (floatOn t (rP s p))).foldl (fun u j =>
        storeAt u (ctxId s) (window0Loc s (ad j)) (leBytes (if t then 8 else 4) (laneT t (rV s a) j))) s))
    ((∀ j < 16, on j = true → ready 4 (single j)) →
      exec (.vld p a b k) s = reads single ∧ exec (.vst p a b k) s = stores false single) ∧
    ((∀ j < 16, on j = true → ready 4 (index j)) →
      exec (.vgath p a b c) s = reads index ∧ exec (.vscat p a b c) s = stores false index) ∧
    ((∀ j < 8, on (2 * j) = true → ready 8 (pair j)) →
      exec (.vldk p a b k) s = .next (after 4 (wV (from_ true pair) a (floatCodes true (rP s p) (rV s a)
        (fun j => readNat s (window0Loc s (pair j)) 8)))) ∧
      exec (.vstk p a b k) s = stores true pair) ∧
    (∀ j < 16, on j = true → alignOk (single j) 4 = false →
      (∀ i < 16, on i = true → alignOk (single i) 4 = false → (single j).toNat ≤ (single i).toNat) →
      exec (.vld p a b k) s = .next (trapped s .misalign (single j)) ∧ exec (.vst p a b k) s = .next (trapped s .misalign (single j))) ∧
    (∀ j < 8, on (2 * j) = true → (k ≠ 0 ∨ rangeOf (rS s b) ≠ .window 6) → laneAligned (pair j) 8 = false →
      (∀ i < 8, on (2 * i) = true → laneAligned (pair i) 8 = false → (pair j).toNat ≤ (pair i).toNat) →
      exec (.vldk p a b k) s = .next (trapped s .misalign (pair j)) ∧ exec (.vstk p a b k) s = .next (trapped s .misalign (pair j))) ∧
    (∀ x : Word, ∀ n : Nat, (∀ w, 1 ≤ w → w ≤ 6 → rangeOf x = .window w → laneAligned x n = (x.toNat % 4 == 0)) ∧
      ((∀ w, 1 ≤ w → w ≤ 6 → rangeOf x ≠ .window w) → laneAligned x n = (x.toNat % n == 0)))) ∧
  (∀ (s : State) (p : PReg) (a : VRegN) (b : SReg) (w : Nat), Solo s → storeSent s = false → 1 ≤ w → w ≤ 6 →
    (w = 3 → featureFor s (ctxId s) 7 = true) →
    let js := (List.range 16).filter (fun j => (rP s p).getLsbD j)
    let i : Nat → Nat := fun j => windowOff (rS s b) / 4 + j
    let v := rV s a
    let es := js.map (fun j => (i j, (lane v j).toNat))
    rangeOf (rS s b) = .window w → (rS s b).toNat % 4 = 0 → windowOff (rS s b) + 64 ≤ 2 ^ 24 →
    ((∀ j ∈ js, fmtInside s w (i j) = true ∧ QuietElem s 4 w (i j)) → exec (.vld p a b 0) s = .next (after 4 (wV (raiseFlags s (js.foldl (fun f j => f ||| (fmtLoad s w (i j) 4).2) 0)) a
      (lanesOf (rP s p) v (fun j => BitVec.ofNat 32 (fmtLoad s w (i j.val) 4).1)))) ∧
    exec (.vst p a b 0) s = .next (after 4 (fmtStore s w 4 [] (startCarry s w) es)) ∧
    ((w = 2 ∨ w = 3) → windowOff (rS s b) % 64 = 0 →
      exec (.vstb p a b) s = .next (after 4 (match vstbScale w (es.map (·.2)) with
        | some x => fmtStore (storeAt s (ctxId s) (scratchBase (home s) (partNow s) + scaleOff s (i 0)) [BitVec.ofNat 8 x]) w 4
            [(i 0 / 16, if x = 255 then 0 else (x : Int) - 127)] (startCarry s w) es
        | none => fmtStore s w 4 [] (startCarry s w) es)))) ∧
    (let ks := (List.range 8).filter (fun j => (rP s p).getLsbD (2 * j))
     w = 6 → (∀ j ∈ ks, fmtInside s 6 (i j) = true ∧ QuietElem s 8 6 (i j)) →
      exec (.vldk p a b 0) s = .next (after 4 (wV (raiseFlags s (ks.foldl (fun f j => f ||| (fmtLoad s 6 (i j) 8).2) 0)) a
        (floatCodes true (rP s p) v (fun j => (fmtLoad s 6 (i j) 8).1)))) ∧
      exec (.vstk p a b 0) s = .next (after 4 (fmtStore s 6 8 [] (startCarry s 6) (ks.map (fun j => (i j, laneT true v j)))))))

/-- R208-R210, R335-R338: conversions between integers, binary32 and binary64, and between floats and X128 under CR.X128L: VXACC adds
the enabled lanes of each group exactly, and wraps with xsat; VXRND rounds once. The binary64 forms need extension D. R187-R189,
R198-R203: and what the operations by which this statement and others (VectorFloats, the windows, the engines) name values compute, in
each of the five IEEE-style formats: a code's real value; the one rounding of a real value, to the nearest code, ties to even, with its
flags; exact sums, products and comparisons; quotients and square roots rounded once; and the rounding to an integer and to X128. -/
def Obligations.VectorConversions : Prop :=
  (∀ f ∈ [f64, f32, f16, bf16, a48],
    let half := 2 ^ (f.ebits + f.fbits)
    let sign : Bool → Nat := fun n => if n then half else 0
    (∀ c < 2 * half,
      let n := decide (half ≤ c)
      (c % half < f.infCode → (∃ a e, f.decode c = .fin n a 1 e) ∧ |(f.decode c).real| = f.magnitude (c % half)) ∧
      (c % half = f.infCode → f.decode c = .inf n) ∧ (f.infCode < c % half → f.decode c = .nan ∧
        (f.signalling c = true ↔ c % half < f.infCode + 2 ^ (f.fbits - 1)))) ∧
    f.round .nan = (f.nanCode, 0) ∧ f.round .bad = (f.nanCode, 16) ∧ (∀ n, f.round (.inf n) = (f.infCode + sign n, 0)) ∧
    (∀ n a b e, 0 < b → f.Rounded (Xv.fin n a b e).real n (f.round (.fin n a b e))) ∧
    (∀ ts, f.sum ts = ((f.round (xsum ts).1).1, (xsum ts).2 ||| (f.round (xsum ts).1).2)) ∧
    (∀ m a b e n c d g, 0 < b → 0 < d →
      (c ≠ 0 → f.Rounded ((Xv.fin m a b e).real / (Xv.fin n c d g).real) (m != n) (f.div (.fin m a b e) (.fin n c d g))) ∧
      (c = 0 → f.div (.fin m a b e) (.fin n c d g) = if a = 0 then (f.nanCode, 16) else (f.infCode + sign (m != n), 8)) ∧
      f.div (.inf m) (.inf n) = (f.nanCode, 16) ∧ f.div (.inf m) (.fin n c d g) = (f.infCode + sign (m != n), 0) ∧
      f.div (.fin m a b e) (.inf n) = (sign (m != n), 0)) ∧
    (∀ x, f.div .nan x = (f.nanCode, 0) ∧ f.div x .nan = (f.nanCode, 0)) ∧
    (∀ a e, f.Rounded (Real.sqrt (Xv.fin false a 1 e).real) false (f.sqrt (.fin false a 1 e)) ∧
      f.sqrt (.fin true a 1 e) = if a = 0 then (half, 0) else (f.nanCode, 16)) ∧
    f.sqrt (.inf false) = (f.infCode, 0) ∧ f.sqrt (.inf true) = (f.nanCode, 16) ∧ f.sqrt .nan = (f.nanCode, 0)) ∧
  ([f64, f32, f16, bf16, a48].map Fmt.nanCode = [0x7FF8_0000_0000_0000, 0x7FC0_0000, 0x7E00, 0x7FC0, 0x7FF8_0000_0000]) ∧
  (∀ ts : List Xv,
    (.nan ∈ ts → xsum ts = (.nan, 0)) ∧
    (.nan ∉ ts → (.bad ∈ ts ∨ (.inf false ∈ ts ∧ .inf true ∈ ts)) → xsum ts = (.nan, 16)) ∧
    (∀ n, .nan ∉ ts → .bad ∉ ts → .inf n ∈ ts → .inf (!n) ∉ ts → xsum ts = (.inf n, 0)) ∧
    (ts ≠ [] → (∀ t ∈ ts, ∃ n a b e, t = .fin n a b e ∧ 0 < b) →
      ∃ n a b e, xsum ts = (.fin n a b e, 0) ∧ 0 < b ∧ (Xv.fin n a b e).real = (ts.map Xv.real).sum ∧
        (a = 0 → (n = true ↔ ∀ t ∈ ts, ∃ c d g, t = .fin true c d g)))) ∧
  (∀ m a b e n c d g, 0 < b → 0 < d →
    let x : Xv := .fin m a b e
    let y : Xv := .fin n c d g
    (∃ h, x.mul y = .fin (m != n) (a * c) (b * d) h) ∧ (x.mul y).real = x.real * y.real ∧
    x.mul (.inf n) = (if a = 0 then .bad else .inf (m != n)) ∧ (Xv.inf m).mul y = (if c = 0 then .bad else .inf (m != n)) ∧
    (Xv.inf m).mul (.inf n) = .inf (m != n) ∧ x.neg.real = -x.real ∧
    (xcmp x y = .lt ↔ x.real < y.real) ∧ (xcmp x y = .eq ↔ x.real = y.real) ∧ (xcmp x y = .gt ↔ y.real < x.real) ∧
    xcmp x (.inf n) = (if n then .gt else .lt) ∧ xcmp (.inf m) y = (if m then .lt else .gt) ∧
    (x.real < y.real → pickNum true x y = y ∧ pickNum false x y = x) ∧
    (y.real < x.real → pickNum true x y = x ∧ pickNum false x y = y) ∧
    (x.real = y.real → m = true → n = false → pickNum true x y = y ∧ pickNum false x y = x) ∧
    (x.real = y.real → m = false → n = true → pickNum true x y = x ∧ pickNum false x y = y) ∧
    (let r := roundInt m a b e
     |(r.1 : ℝ) - x.real| ≤ 1 / 2 ∧ (|(r.1 : ℝ) - x.real| = 1 / 2 → r.1 % 2 = 0) ∧ (r.2 = false ↔ (r.1 : ℝ) = x.real)) ∧
    (∀ l, let r := roundInt m a b (e - l)
      toX128 x l = if 2 ^ 127 ≤ r.1 then (2 ^ 127 - 1, 32) else if r.1 < -2 ^ 127 then (2 ^ 127, 32)
        else ((r.1 % 2 ^ 128).toNat, if r.2 then 1 else 0)) ∧
    ∀ l, toX128 (.inf m) l = (if m then 2 ^ 127 else 2 ^ 127 - 1, 32) ∧ toX128 .nan l = (0, 64)) ∧
  ∀ (s : State) (t : Bool) (p : PReg) (a b : VRegN), Solo s → DoubleReady s t →
    let f := if t then f64 else f32
    let n : Nat := if t then 64 else 32
    let x : Nat → Nat := laneT t (rV s b)
    let sg : Nat → Int := fun v => if v < 2 ^ (n - 1) then v else v - 2 ^ n
    let quiet : Fmt → Nat → Nat × Nat → Nat × Nat := fun g c r => (r.1, r.2 ||| if g.signalling c then 16 else 0)
    exec (.vcvtwf t p a b) s = .next (after 4 (floatLanes t s p a (fun j => f.round (.fin (decide (sg (x j) < 0)) (sg (x j)).natAbs 1 0)))) ∧
    exec (.vcvtfw t p a b) s = .next (after 4 (floatLanes t s p a (fun j =>
      match f.decode (x j) with
      | .fin m c d e =>
        let r := roundInt m c d e
        if r.1 < -2 ^ (n - 1) then (2 ^ (n - 1), 16)
        else if 2 ^ (n - 1) ≤ r.1 then (2 ^ (n - 1) - 1, 16)
        else ((r.1 % 2 ^ n).toNat, if r.2 then 1 else 0)
      | .inf m => (if m then 2 ^ (n - 1) else 2 ^ (n - 1) - 1, 16)
      | _ => (0, 16)))) ∧
    (DoubleReady s true →
      (exec (.vcvtfd p a b) s = .next (after 4 (floatLanes true s p a (fun j =>
        quiet f32 (lane (rV s b) j).toNat (f64.round (f32.decode (lane (rV s b) j).toNat)))))) ∧
      (let r : Nat → Nat × Nat := fun j => quiet f64 (laneT true (rV s b) j) (f32.round (f64.decode (laneT true (rV s b) j)))
       exec (.vcvtdf p a b) s = .next (after 4 (raiseFlags (wV s a (Vector.ofFn (fun i =>
         if i.val < 8 ∧ (rP s p).getLsbD i.val then BitVec.ofNat 32 (r i.val).1 else (rV s a)[i])))
         (((List.range 8).filter (fun j => (rP s p).getLsbD j)).foldl (fun acc j => acc ||| (r j).2) 0))))) ∧
    (featureFor s (ctxId s) 5 = true →
      let l : Int := (BitVec.ofNat 12 (regs s).x128l.toNat).toInt
      let old : Nat → Nat := fun j => laneT true (rV s a) (2 * j) + 2 ^ 64 * laneT true (rV s a) (2 * j + 1)
      let src : Nat → Nat := fun j => laneT true (rV s b) (2 * j) + 2 ^ 64 * laneT true (rV s b) (2 * j + 1)
      let signed : Nat → Int := fun v => if v < 2 ^ 127 then v else v - 2 ^ 128
      let per : Nat := if t then 2 else 4
      let terms : Nat → List (Nat × Nat) := fun j =>
        ((List.range per).filter (fun k => floatOn t (rP s p) (per * j + k))).map (fun k => toX128 (f.decode (x (per * j + k))) l)
      let sum : Nat → Int := fun j => signed (old j) + ((terms j).map (fun c => signed c.1)).sum
      (∃ v, exec (.vxacc t p a b) s = .next (after 4 (raiseFlags (wV s a v) ((List.range 4).foldl (fun acc j => acc |||
          ((terms j).foldl (fun g c => g ||| c.2) (if sum j < -2 ^ 127 ∨ 2 ^ 127 ≤ sum j then 32 else 0))) 0))) ∧
        ∀ j < 4, laneT true v (2 * j) + 2 ^ 64 * laneT true v (2 * j + 1) = (sum j % 2 ^ 128).toNat) ∧
      (let r : Nat → Nat × Nat := fun j => f.round (.fin (decide (signed (src j) < 0)) (signed (src j)).natAbs 1 l)
       exec (.vxrnd t p a b) s = .next (after 4 (raiseFlags
         (wV s a (floatCodes t (if t then rP s p &&& 0xFF else rP s p &&& 0xF) (rV s a) (fun j => (r j).1)))
         (floatFlags t (if t then rP s p &&& 0xFF else rP s p &&& 0xF) (fun j => (r j).2))))))

/-- R339: predicate logic, moves between predicates and scalar registers, the count of ones and the lowest one, 16 for none. -/
def Obligations.PredicateInstructions : Prop :=
  ∀ (s : State) (a b c : PReg) (d k : SReg), Solo s →
    exec (.pand a b c) s = .next (after 4 (wP s a (rP s b &&& rP s c))) ∧
    exec (.por a b c) s = .next (after 4 (wP s a (rP s b ||| rP s c))) ∧
    exec (.pxor a b c) s = .next (after 4 (wP s a (rP s b ^^^ rP s c))) ∧
    exec (.pnot a b) s = .next (after 4 (wP s a (~~~(rP s b)))) ∧
    exec (.pset a k) s = .next (after 4 (wP s a ((rS s k).extractLsb' 0 16))) ∧
    exec (.pmov a b) s = .next (after 4 (wP s a (rP s b))) ∧
    exec (.pget d b) s = .next (after 4 (wS s d (BitVec.ofNat 64 (rP s b).toNat))) ∧
    exec (.pcnt d b) s = .next (after 4 (wS s d (BitVec.ofNat 64 ((Finset.range 16).filter (fun i => (rP s b).getLsbD i = true)).card))) ∧
    (∃ n : Nat, exec (.pfirst d b) s = .next (after 4 (wS s d (BitVec.ofNat 64 n))) ∧ n ≤ 16 ∧ (∀ i < n, (rP s b).getLsbD i = false) ∧
      (n < 16 → (rP s b).getLsbD n = true))

/-! ### Engines: matrix, lexicon, parser, signature -/

/-- R217-R219, R377, R378: MLEASE enters a lease of its tiles, or returns 1 or blocks when the table is full, and raises LEASE 1 or 3
by its checks; MRELEASE with nothing queued frees it; MSTAT reports it. -/
def Obligations.MatrixLeases : Prop :=
  ∀ (s : State) (nw : Bool) (a : SReg) (n : BitVec 3), Solo s → isApp (runCore s) = false → FirstIssue s →
    let cl := clauseOfCore (home s)
    let mine := leaseOf s (home s) (ctxId s)
    (mine = none → n.toNat ≤ partPark (partNow s) → (clauseOf s cl).leases.length < 16 → (clauseOf s cl).leaseReqs = [] →
      ∃ t l, exec (.mlease nw a n) s = .next t ∧ act t = { (act s).setS a 0 with pc := (act s).pc + 4, wait := none } ∧
        leaseOf t (home s) (ctxId s) = some l ∧ l.places.length = n.toNat ∧ l.queue = [] ∧ l.held = none ∧
        ((clauseOf s cl).current = none → (clauseOf t cl).current = some (home s, ctxId s))) ∧
    (mine = none → n.toNat ≤ partPark (partNow s) → 16 ≤ (clauseOf s cl).leases.length →
      exec (.mlease true a n) s = .next (after 4 (wS s a 1)) ∧
      ∃ t, exec (.mlease false a n) s = .next t ∧ (act t).pc = (act s).pc ∧
        (act t).wait = some { waiting s 11 0 with stage := 1 } ∧
        (clauseOf t cl).leaseReqs = (clauseOf s cl).leaseReqs ++ [⟨home s, ctxId s, n.toNat⟩]) ∧
    (mine.isSome = true → exec (.mlease nw a n) s = .next (trapped s .lease 1)) ∧
    (mine = none → partPark (partNow s) < n.toNat → exec (.mlease nw a n) s = .next (trapped s .lease 3)) ∧
    (mine = none → exec .mrelease s = .next (trapped s .lease 0) ∧ exec (.mstat a) s = .next (after 4 (wS s a 0))) ∧
    (∀ l, mine = some l →
      (l.queue = [] → drainsOut s (home s) (ctxId s) = false →
        ∃ t, exec .mrelease s = .next t ∧ act t = { act s with pc := (act s).pc + 4, wait := none } ∧
          (clauseOf t cl).leases.length + 1 = (clauseOf s cl).leases.length ∧ (ctxOf t (home s) (ctxId s)).parkMap = []) ∧
      (1 ≤ l.places.length → l.places.length ≤ 4 → l.queue.length ≤ 16 →
        ∃ w : Word, exec (.mstat a) s = .next (after 4 (wS (if l.queue = [] then acquire s else s) a w)) ∧ w.getLsbD 0 = true ∧
          (w.getLsbD 1 = true ↔ (clauseOf s cl).current = some (l.core, l.ctx)) ∧ w.getLsbD 2 = l.out ∧
          w.toNat / 8 % 32 = l.queue.length ∧ w.toNat / 256 % 4 = l.places.length - 1 ∧
          ∀ i, i < l.places.length → (w.getLsbD (10 + i) = true ↔ ∃ p, l.places.getD i .unassigned = .parked p)))

/-- R218, R375, R376, R379-R384: MLDB, MBMETA, MZERO and dense MMA queue their command and go on; sparse MMA, MMACODE and MDRAIN queue it,
then hold the activation until the engine's reply, and complete or raise LEASE 4, GLOSSMISS or DRAINDEST by it. R382, R245: GLOSSMISS
sets sB to the failing code's address and e0 to what is left, and CR.TVAL to the index that failed, or 1,024 where the code as a
whole does, as a malformed word 1 does (kind 3, fmt 3 or a bit in [63:46]); the engine's check of a code answers so. With no lease every command raises LEASE 0. -/
def Obligations.MatrixCommands : Prop :=
  ∀ (s : State) (v : VRegN) (b : SReg) (g : BitVec 4) (t : BitVec 2), Solo s → isApp (runCore s) = false →
    let a := rS s b
    let e0 := rE s 0
    let e1 := rE s 1
    let m := mmaArgs a e0 e1 g.toNat
    let ready := (m.sparse ≠ 0 → featureFor s (ctxId s) 6 = true) ∧ ((m.afmt = 2 ∨ m.bfmt = 2) → featureFor s (ctxId s) 7 = true)
    let narrow := e0.toNat / 2 ^ 32 % 4 = 1 → featureFor s (ctxId s) 7 = true
    (∀ l, leaseOf s (home s) (ctxId s) = some l → l.queue.length < 16 →
      let queued : MatCmd → State → Prop := fun c u => ∃ k, leaseOf u (home s) (ctxId s) = some k ∧ k.queue = l.queue ++ [c] ∧
        k.places = l.places ∧ k.out = false
      let on : Instr → MatCmd → Prop := fun i c =>
        ∃ u, exec i s = .next u ∧ act u = { act s with pc := (act s).pc + 4, wait := none } ∧ queued c u
      let held : Instr → MatCmd → Prop := fun i c => ∃ u, exec i s = .next u ∧ (act u).pc = (act s).pc ∧
        (act u).wait = some { waiting s 11 0 with stage := 20 } ∧ queued c u
      on (.mbmeta v) (.mbmeta (rV s v)) ∧
      (t.toNat < l.places.length → on (.mzero t) (.mzero t.toNat)) ∧
      (released s = true → mldbBad e0 = false → narrow → on (.mldb b) (.mldb a e0)) ∧
      (ready → released s = true → a.toNat % 64 = 0 → rangeOf a = .window 0 → t.toNat < l.places.length →
        mmaBad (scratchSize (partNow s)) e0 e1 m = false →
        (m.sparse = 0 → on (.mma g t b) (.mma t.toNat a e0 e1 g.toNat)) ∧
        (FirstIssue s → m.sparse ≠ 0 → held (.mma g t b) (.mma t.toNat a e0 e1 g.toNat))) ∧
      (FirstIssue s → released s = true → a.toNat % 8 = 0 → rangeOf a = .window 0 → t.toNat < l.places.length → mmacodeBad e0 = false →
        held (.mmacode t b) (.mmacode t.toNat a e0)) ∧
      (FirstIssue s → released s = true → t.toNat < l.places.length → mdrainBad e1 = false →
        held (.mdrain t b) (.mdrain t.toNat a e0 e1 (rE s 2)))) ∧
    (∀ w, (act s).wait = some w → w.stage = 20 →
      (ready → m.sparse ≠ 0 → w.reply = some 0 → exec (.mma g t b) s = .next (after 4 s)) ∧
      (ready → m.sparse ≠ 0 → w.reply = some 1 → exec (.mma g t b) s = .next (trapped s .lease 4)) ∧
      (w.reply = some 0 → exec (.mmacode t b) s = .next (after 4 s)) ∧
      (∀ c off idx, e0.toNat % 128 + c < 128 → off < 2 ^ 24 → idx < 2 ^ 11 → w.reply = some (codeReply 1 (e0.toNat % 128 + c) off idx) →
        exec (.mmacode t b) s =
          .next (trapped (wE (wS s b (BitVec.ofNat 64 (windowBase + off))) 0 (codeRest e0 c)) .glossmiss (BitVec.ofNat 64 idx))) ∧
      (w.reply = some 0 → exec (.mdrain t b) s = .next (after 4 s)) ∧
      (w.reply = some 1 → exec (.mdrain t b) s = .next (trapped s .draindest (BitVec.ofNat 64 (a.toNat % 2 ^ 21))))) ∧
    (leaseOf s (home s) (ctxId s) = none →
      exec (.mbmeta v) s = .next (trapped s .lease 0) ∧ exec (.mzero t) s = .next (trapped s .lease 0) ∧
      (narrow → exec (.mldb b) s = .next (trapped s .lease 0)) ∧
      (FirstIssue s → ready → a.toNat % 64 = 0 → rangeOf a = .window 0 → exec (.mma g t b) s = .next (trapped s .lease 0)) ∧
      (FirstIssue s → a.toNat % 8 = 0 → rangeOf a = .window 0 → exec (.mmacode t b) s = .next (trapped s .lease 0)) ∧
      (FirstIssue s → exec (.mdrain t b) s = .next (trapped s .lease 0))) ∧
    (∀ w : Word, codeBad w = true ↔ (w.toNat / 2 ^ 38 % 4 = 3 ∨ w.toNat / 2 ^ 40 % 4 = 3 ∨ 2 ^ 46 ≤ w.toNat)) ∧
    (∀ cl (l : Lease) gt row0 (d : Codes) left,
      let part := partOf s l.core l.ctx
      d.off + 8 ≤ scratchSize part → readsLost s l [(d.off, 8)] [] = none → codeBad (readWord s (scratchBase l.core part + d.off)) = true →
      codesFrom s cl l gt row0 d (left + 1) = { d with reply := codeReply 1 (row0 + d.count) d.off 1024 }) ∧
    (∀ cl gt w pairs,
      ((glossOf s cl gt = none ∨ ∃ q, glossOf s cl gt = some q ∧ (slotOf s cl (ctxId s) q.id = none ∨
          (∃ l, slotOf s cl (ctxId s) q.id = some l ∧ (q.ctx ≠ ctxId s ∨ codeId w ≠ q.id ∨ codeVersion w ≠ l.version)))) →
        codeCheck s cl (ctxId s) gt w pairs = some 1024) ∧
      (∀ q l, glossOf s cl gt = some q → slotOf s cl (ctxId s) q.id = some l → q.ctx = ctxId s → codeId w = q.id →
        codeVersion w = l.version →
        let stale : Nat × Xv → Prop := fun p => p.1 ∉ q.valid ∨ ∃ j < q.m, (glossEntry s cl q p.1 (q.j0 + j)).2 ≠ tgetD l.gens p.1 0
        (codeKind w ≠ 0 → codeCheck s cl (ctxId s) gt w pairs = none) ∧
        (codeKind w = 0 → (∀ p ∈ pairs, ¬stale p) → codeCheck s cl (ctxId s) gt w pairs = none) ∧
        (∀ before p rest, codeKind w = 0 → pairs = before ++ p :: rest → (∀ x ∈ before, ¬stale x) → stale p →
          codeCheck s cl (ctxId s) gt w pairs = some p.1)))

/-- R234, R235, R237, R386-R388: LXCFG binds a slot if its shape, the slots and the units allow it, LXPUT replaces an atom and counts
the slot's version on, LXGET stores an atom as binary32, LXVER reports; a slot that is absent gives status 1 or 0. LXCFG's status is 3
for a bad shape, 2 for a ninth slot and 1 for slots beyond the store; a slot may be given a new shape with eight in use. Which units of
the store a slot takes is the model's choice (log 81). -/
def Obligations.LexiconSlots : Prop :=
  ∀ (s : State) (a b c : SReg), Solo s → isApp (runCore s) = false → featureFor s (ctxId s) 0 = true →
    let cl := clauseOfCore (home s)
    let x := rS s b
    let y := (rS s c).toNat
    let slots := (clauseOf s cl).lexicon
    let others := slots.filter (fun l => !(l.ctx == ctxId s && l.id == x.toNat % 65536))
    let n := y % 1024 + 1
    let lg := y / 65536 % 16
    let slot := slotOf s cl (ctxId s) (y % 65536)
    let k := y / 65536 % 1024
    let word : Nat → Nat → Nat → Word := fun gen version st => BitVec.ofNat 64 (st * 2 ^ 32 + version % 65536 * 65536 + gen % 65536)
    ((lg < 2 ∨ 8 < lg) → exec (.lxcfg a b c) s = .next (after 4 (wS s a 3))) ∧
    (2 ≤ lg → lg ≤ 8 → slotOf s cl (ctxId s) (x.toNat % 65536) = none → 8 ≤ slots.length →
      exec (.lxcfg a b c) s = .next (after 4 (wS s a 2))) ∧
    (let units := (others.map (fun l => slotUnits l.n l.s)).sum + slotUnits n (2 ^ lg)
     2 ≤ lg → lg ≤ 8 → ((slotOf s cl (ctxId s) (x.toNat % 65536)).isSome = true ∨ slots.length < 8) →
      (192 < units → exec (.lxcfg a b c) s = .next (after 4 (wS s a 1))) ∧
      (units ≤ 192 → ∃ t, exec (.lxcfg a b c) s = .next t ∧ act t = { (act s).setS a 0 with pc := (act s).pc + 4, wait := none } ∧
        slotOf t cl (ctxId s) (x.toNat % 65536) = some ⟨ctxId s, x.toNat % 65536, freeBase others (slotUnits n (2 ^ lg)),
          x.toNat / 65536 % 65536, n, 2 ^ lg, [], [], [], []⟩)) ∧
    (slotOf s cl (ctxId s) (x.toNat % 65536) = none → exec (.lxver a b) s = .next (after 4 (wS s a 0))) ∧
    (∀ l, slotOf s cl (ctxId s) (x.toNat % 65536) = some l → exec (.lxver a b) s = .next (after 4 (wS s a
      (BitVec.ofNat 64 (2 ^ 63 + Nat.log2 l.s * 2 ^ 26 + (l.n - 1) * 2 ^ 16 + l.version))))) ∧
    (InWindow0 s x 4 → slot = none →
      exec (.lxget a b c) s = .next (after 4 (wS s a (word 0 0 1))) ∧
      (released s = true → exec (.lxput a b c) s = .next (after 4 (wS s a (word 0 0 1))))) ∧
    (∀ l, InWindow0 s x 4 → slot = some l → l.n ≤ k →
      exec (.lxget a b c) s = .next (after 4 (wS s a (word 0 l.version 2))) ∧
      (released s = true → exec (.lxput a b c) s = .next (after 4 (wS s a (word 0 l.version 2))))) ∧
    (∀ l, InWindow0 s x 4 → slot = some l → k < l.n → windowOff x + 4 * l.s ≤ scratchSize (partNow s) →
      Quiet s (window0Loc s x) (4 * l.s) → SlotSound s cl l →
      exec (.lxget a b c) s = .next (after 4 (wS (storeAt s (ctxId s) (window0Loc s x)
        ((l.atom k).flatMap (fun v => leBytes 4 (f32.round v).1))) a (word (tgetD l.gens k 0) l.version 0))) ∧
      (released s = true → ∃ t m, exec (.lxput a b c) s = .next t ∧ slotOf t cl (ctxId s) (y % 65536) = some m ∧
        m = l.replace k ((List.range l.s).map (fun i => readNat s (window0Loc s x + 4 * i) 4)) ∧ m.version = (l.version + 1) % 65536 ∧
        act t = { (act s).setS a (word (tgetD m.gens k 0) m.version 0) with pc := (act s).pc + 4, wait := none } ∧ SameMemory s t)) ∧
    (x.toNat % 4 ≠ 0 → exec (.lxput a b c) s = .next (trapped s .misalign x) ∧ exec (.lxget a b c) s = .next (trapped s .misalign x))

/-- R238-R240, R389-R391: LXENC stores the code of S values with its result word, or the result 3 or 5 and no code; LXSEND sends it
behind e0 as a message marked as code; LXDEC stores the values of a code: the sums of its atoms, the escaped values, or zeros. -/
def Obligations.LexiconCoding : Prop :=
  ∀ (s : State) (sc : Scope) (a b c : SReg), Solo s → isApp (runCore s) = false → featureFor s (ctxId s) 0 = true → released s = true →
    let cl := clauseOfCore (home s)
    let x := rS s b
    let y := rS s c
    let e0 := rE s 0
    let size := scratchSize (partNow s)
    let result : Nat → Nat → Nat → Word := fun r n z => BitVec.ofNat 64 (z * 65536 + n * 256 + r)
    (∀ l, slotOf s cl (ctxId s) ((rE s 1).toNat % 65536) = some l → InWindow0 s x 4 → windowOff x + 4 * l.s ≤ size →
      Quiet s (window0Loc s x) (4 * l.s) → SlotSound s cl l →
      let codes := (List.range l.s).map (fun i => readNat s (window0Loc s x + 4 * i) 4)
      let g := lexRegs s
      let r := encodeLex l g codes
      let ws := codeWords l g.fmt codes r
      (InWindow0 s y 8 → windowOff y + 8 * ws.length ≤ size → Quiet s (window0Loc s y) (8 * ws.length) → 8 * ws.length ≤ e0.toNat →
        exec (.lxenc a b c) s = .next (after 4 (wS (storeAt s (ctxId s) (window0Loc s y) (ws.flatMap (fun w => leBytes 8 w.toNat))) a
          (result r.1 r.2.length (8 * ws.length))))) ∧
      (InWindow0 s y 8 → e0.toNat < 8 * ws.length → exec (.lxenc a b c) s = .next (after 4 (wS s a (result 3 0 0)))) ∧
      (∀ dst, cmapEntry s (entry s) (y.toNat % 2 ^ 21) = some dst → ws.length < 64 → sendReady s dst (ws.length + 1) = true →
        ∃ t p, exec (.lxsend sc a b c) s = .next t ∧
          act t = { (act s).setS a (result r.1 r.2.length (ws.length + 1)) with pc := (act s).pc + 4, wait := none } ∧
          tget t.net s.ids = some p ∧ p.dst = dst ∧ p.ctx = ctxId s ∧ p.mprio = y.toNat / 2 ^ 21 % 4 ∧
          p.scope = (if moduleOf p.src = moduleOf dst then sc.code else 4) ∧
          ∃ origin nosrc src, p.payload = .message (e0 :: ws) true origin nosrc src 0 0 none s.ids) ∧
      (∀ dst, cmapEntry s (entry s) (y.toNat % 2 ^ 21) = some dst → 64 ≤ ws.length →
        exec (.lxsend sc a b c) s = .next (after 4 (wS s a (result 4 0 0))))) ∧
    (slotOf s cl (ctxId s) ((rE s 1).toNat % 65536) = none → InWindow0 s x 4 →
      (InWindow0 s y 8 → exec (.lxenc a b c) s = .next (after 4 (wS s a (result 5 0 0)))) ∧
      (∀ dst, cmapEntry s (entry s) (y.toNat % 2 ^ 21) = some dst → exec (.lxsend sc a b c) s = .next (after 4 (wS s a (result 5 0 0))))) ∧
    (let w := readWord s (window0Loc s x)
     let slot := slotOf s cl (ctxId s) (codeId w)
     let put : List Nat → Host.Outcome State Fault Refusal := fun out => .next (after 4 (wS (storeAt s (ctxId s) (window0Loc s y)
       (out.flatMap (fun v => leBytes 4 v))) a 0))
     let entries := (List.range (codeEntries w)).map (fun i => readWord s (window0Loc s x + 8 + 8 * i))
     InWindow0 s x 8 → InWindow0 s y 4 → Quiet s (window0Loc s x) 8 →
     (slot = none → exec (.lxdec a b c) s = .next (after 4 (wS s a 1))) ∧
     (∀ l, slot = some l → (l.version ≠ codeVersion w ∨ l.s ≠ 2 ^ codeLgs w) → exec (.lxdec a b c) s = .next (after 4 (wS s a 1))) ∧
     (∀ l, slot = some l → l.version = codeVersion w → l.s = 2 ^ codeLgs w → codeBad w = true →
       exec (.lxdec a b c) s = .next (after 4 (wS s a 2))) ∧
     (∀ l, slot = some l → l.version = codeVersion w → l.s = 2 ^ codeLgs w → codeBad w = false →
       windowOff x + 8 + 8 * codeEntries w ≤ size → windowOff y + 4 * l.s ≤ size →
       Quiet s (window0Loc s x) (8 + 8 * codeEntries w) → Quiet s (window0Loc s y) (4 * l.s) → SlotSound s cl l →
       (codeKind w = 0 → (∀ e ∈ entries, e.toNat % 1024 < l.n) → exec (.lxdec a b c) s = put ((List.range l.s).map (fun i =>
         (f32.sum (entries.map (fun e => (codePair (codeFmt w) e).2.mul ((l.atom (e.toNat % 1024)).getD i Xv.zero)))).1))) ∧
       (codeKind w = 0 → (∃ e ∈ entries, l.n ≤ e.toNat % 1024) → exec (.lxdec a b c) s = .next (after 4 (wS s a 3))) ∧
       (codeKind w = 1 → exec (.lxdec a b c) s = put (entries.flatMap (fun e => [e.toNat % 2 ^ 32, e.toNat / 2 ^ 32]))) ∧
       (codeKind w = 2 → exec (.lxdec a b c) s = put (List.replicate l.s 0))))

/-- R241-R245, R392-R395: LXMISS looks at an entry of the miss queue, or takes it to the scratchpad and tells its sender; LXRETRY
checks the oldest entry of the named one's key again: one that passes goes to its core as a message, one that fails starts a
version-miss activation; one whose context's state is not 1 is discarded with a notice (R43; log 58, the model's choice for a parked
message). GLSET writes the B-store entries of one atom from the scratchpad or the accumulator, each with the stamp of
the atom's generation, and no other byte; GLINV clears valid bits; GLSTAT reports a table. -/
def Obligations.MissQueueAndGlosses : Prop :=
  ∀ (s : State) (a b c : SReg) (take : Bool), Solo s → isApp (runCore s) = false → featureFor s (ctxId s) 0 = true →
    let cl := clauseOfCore (home s)
    let e0 := rE s 0
    (missNamed s (rS s b) = none → exec (.lxmiss take a b) s = .next (after 4 (wS s a 0)) ∧ exec (.lxretry b) s = .next (after 4 s)) ∧
    (∀ n e, missNamed s (rS s b) = some (n, e) →
      exec (.lxmiss false a b) s = .next (after 4 (wS s a (e.msg.words.getD 1 0))) ∧
      (missOldest s cl e.core e.msg.ctx (msgCodeId e.msg) = some (n, e) → ctxState s e.msg.ctx = 1 → codePasses s e.core e.msg = false →
        ∃ t, exec (.lxretry b) s = .next t ∧ (act t).pc = (act s).pc + 4 ∧
          tget (clauseOf t cl).missQueue n = some { e with started := true } ∧
          ∃ m, (coreOf t e.core).waiting = (coreOf s e.core).waiting ++ [m] ∧ m.start = .versionMiss n ∧
            m.ctx = e.msg.ctx ∧ m.words = e.msg.words.take 2 ∧ m.mprio = 3) ∧
      (missOldest s cl e.core e.msg.ctx (msgCodeId e.msg) = some (n, e) → ctxState s e.msg.ctx ≠ 1 →
        (∀ p ∈ (clauseOf s cl).missQueue, missKey e.core e.msg.ctx (msgCodeId e.msg) p.2 = true → p = (n, e)) →
        ∃ t, exec (.lxretry b) s = .next t ∧ (act t).pc = (act s).pc + 4 ∧ tget (clauseOf t cl).missQueue n = none ∧
          (coreOf t e.core).waiting = (coreOf s e.core).waiting ∧
          (s.module.notices.length < 64 → t.module.notices = s.module.notices ++
            [[1, e.header, e.msg.words.headD 0, BitVec.ofNat 64 e.msg.ctx, BitVec.ofNat 64 (nodeOf s e.core).addr]])) ∧
      (missOldest s cl e.core e.msg.ctx (msgCodeId e.msg) = some (n, e) → ctxState s e.msg.ctx = 1 → codePasses s e.core e.msg = true →
        (∀ p ∈ (clauseOf s cl).missQueue, missKey e.core e.msg.ctx (msgCodeId e.msg) p.2 = true → p = (n, e)) →
        ∃ t m, exec (.lxretry b) s = .next t ∧ (act t).pc = (act s).pc + 4 ∧ tget (clauseOf t cl).missQueue n = none ∧
          (coreOf t e.core).waiting = (coreOf s e.core).waiting ++ [m] ∧ m = { e.msg with id := s.ids, since := s.cyc }) ∧
      (e0.toNat % 8 ≠ 0 → exec (.lxmiss true a b) s = .next (trapped s .misalign e0)) ∧
      (InWindow0 s e0 8 → windowOff e0 + 8 * e.msg.words.length ≤ scratchSize (partNow s) →
        Quiet s (window0Loc s e0) (8 * e.msg.words.length) → (clauseOf s cl).missQueue = [(n, e)] →
        let taken := modClause (storeAt s (ctxId s) (window0Loc s e0) (e.msg.words.flatMap (fun w => leBytes 8 w.toNat))) cl (fun k => { k with
          missQueue := [] })
        (e.msg.sender = none →
          exec (.lxmiss true a b) s = .next (after 4 (wS taken a (BitVec.ofNat 64 e.msg.words.length)))) ∧
        (∀ nd seq, e.msg.sender = some (nd, seq) →
          exec (.lxmiss true a b) s = .next (after 4 (wS (sendPkt taken (nodeOf s e.core) nd e.msg.ctx 4 0 (.accepted seq 0)) a
            (BitVec.ofNat 64 e.msg.words.length)))))) ∧
    (let gt := (rS s c).toNat / 65536 % 8
     let k := (rS s c).toNat % 1024
     let m := e0.toNat / 2 ^ 40 % 128 + 1
     let el := windowOff (rS s b) / 4
     (InWindow0 s (rS s b) 2 → windowOff (rS s b) + 2 * m ≤ scratchSize (partNow s) → Quiet s (window0Loc s (rS s b)) (2 * m) →
       glossSource s (rS s b) m = .val s ((List.range m).map (fun i => readNat s (window0Loc s (rS s b) + 2 * i) 2))) ∧
     (rangeOf (rS s b) = .window 6 → (rS s b).toNat % 4 = 0 →
       (∀ i < m, el + 128 * i < drainEntries (partNow s) ∧ QuietElem s 4 6 (el + 128 * i)) →
       glossSource s (rS s b) m = .val s ((List.range m).map (fun i => (bf16.round (a48.decode (accEntry s (el + 128 * i)))).1))) ∧
     (∀ vs, glossSource s (rS s b) m = .val s vs → released s = true → glossStatus s e0 k gt ≠ 0 →
       exec (.glset a b c) s = .next (after 4 (wS s a (BitVec.ofNat 64 (glossStatus s e0 k gt))))) ∧
     (∀ vs l, glossSource s (rS s b) m = .val s vs → released s = true → glossStatus s e0 k gt = 0 →
       slotOf s cl (ctxId s) (e0.toNat % 65536) = some l → SlotSound s cl l → MemoryCanonical s →
       let at_ : Nat → Nat := fun i => bstoreLoc cl (32768 * (e0.toNat / 2 ^ 32 % 128 + i) + e0.toNat / 2 ^ 16 % 2 ^ 15 + 4 * k)
       ∃ t g, exec (.glset a b c) s = .next t ∧ act t = { (act s).setS a 0 with pc := (act s).pc + 4, wait := none } ∧
         glossOf t cl gt = some g ∧ g.ctx = ctxId s ∧ g.id = l.id ∧ g.b = e0.toNat / 2 ^ 16 % 2 ^ 15 ∧ g.j0 = e0.toNat / 2 ^ 32 % 128 ∧
         g.m = m ∧ k ∈ g.valid ∧ (glossOf s cl gt = none → g.valid = [k]) ∧
         (∀ i < m, readNat t (at_ i) 4 = (tgetD l.gens k 0 * 2 ^ 16 + vs.getD i 0) % 2 ^ 32) ∧
         (∀ loc, (∀ i < m, loc < at_ i ∨ at_ i + 4 ≤ loc) → readByte t loc = readByte s loc))) ∧
    (∀ g, glossOf s cl ((rS s b).toNat % 8) = some g → g.ctx = ctxId s →
      exec (.glstat a b) s = .next (after 4 (wS s a (BitVec.ofNat 64 (2 ^ 63 + g.id * 2 ^ 32 + g.valid.length)))) ∧
      exec (.glinv b c) s = .next (after 4 (modClause s cl (fun q => { q with glosses := tset q.glosses ((rS s b).toNat % 8) { g with
        valid := if (rS s c).getLsbD 63 then [] else g.valid.filter (fun i => i ≠ (rS s c).toNat % 1024) } })))) ∧
    ((∀ g, glossOf s cl ((rS s b).toNat % 8) = some g → g.ctx ≠ ctxId s) → exec (.glstat a b) s = .next (after 4 (wS s a 0)) ∧
      exec (.glinv b c) s = .next (after 4 s))

/-- R246, R253, R397-R401: ECDECL checks and sets a descriptor, its program read from the scratchpad; ECSWEEP starts a sweep at beat
0, a sleeping one its next sweep; ECSTOP stops a sweep that is under way at its next beat boundary, and ends one that is queued or
asleep with code 3, at once where no note is on its way; ECWAKE sends a change; ECSTAT and ECREAD report; an instruction that names
no descriptor raises ILLEGAL. R402-R404: an element instruction of a lane acts as its row says: EL.WAIT and EL.DONE stop the lane, the
arithmetic rounds once, EL.SPDOT adds or subtracts the products of the element's row, EL.NOTIFY and EL.SEND note every successor, and
EL.BZ and EL.JMP go on at their target; a row or a successor list that breaks a limit is an error. -/
def Obligations.ParserInstructions : Prop :=
  (∀ (s : State) (core ctx t beat i : Nat) (d : Desc) (vals : List Nat) (l : LaneRun), l.x.length = 8 → poisonAbout s = false →
    let part := partOf s core ctx
    let at_ : Nat → Nat := fun off => scratchBase core part + off
    let fits : Nat → Nat → Prop := fun off n => off + n ≤ scratchSize part
    let f := d.fmt
    let reg : Nat → Xv := fun r => f.decode (l.x.getD r 0)
    let wrote : Nat → Nat → LaneRun := fun a v =>
      { l with x := (List.range 8).map (fun k => if k = a then v else l.x.getD k 0), epc := l.epc + 1 }
    let el : ElInstr → Option (LaneRun × Bool) := laneStep s core ctx t d beat vals i l
    (∀ k tg, el (.wait k tg) = some ({ l with wait := k, epc := tg, flag := if k = 2 then false else l.flag }, true)) ∧
    (el .done = some ({ l with wait := 15 }, true)) ∧
    (∀ a, el (.ldv a) = some (wrote a (vals.getD (i % 16) 0), false) ∧
      el (.stv a) = some ({ l with store := some (l.x.getD a 0), epc := l.epc + 1 }, false) ∧
      (let off := d.e3.toNat % 2 ^ 20 + d.size * i
       (fits off d.size → el (.ldx a) = some (wrote a (readNat s (at_ off) d.size), false)) ∧ (¬ fits off d.size → el (.ldx a) = none))) ∧
    (∀ a b c, el (.add a b c) = some (wrote a (f.sum [reg b, reg c]).1, false) ∧
      el (.fma a b c) = some (wrote a (f.sum [reg a, (reg b).mul (reg c)]).1, false) ∧
      el (.div a b c) = some (wrote a (f.div (reg b) (reg c)).1, false)) ∧
    (∀ a tg, el (.bz a tg) = some ({ l with epc := if l.x.getD a 0 % f.signBit = 0 then tg else l.epc + 1 }, false) ∧
      el (.jmp tg) = some ({ l with epc := tg }, false)) ∧
    (let rowp := d.e2.toNat % 2 ^ 20 + 4 * i
     let lo := readNat s (at_ rowp) 4
     let hi := readNat s (at_ (rowp + 4)) 4
     let col : Nat → Nat := fun k => d.e2.toNat / 2 ^ 20 % 2 ^ 20 + 4 * (lo + k)
     let coef : Nat → Nat := fun k => d.e2.toNat / 2 ^ 40 % 2 ^ 20 + d.size * (lo + k)
     let j : Nat → Nat := fun k => readNat s (at_ (col k)) 4
     let value : Nat → Nat := fun k => if j k / 16 = beat then vals.getD (j k % 16) 0 else readNat s (recordLoc s core ctx d (j k)) d.size
     let term : Nat → Xv := fun k => (f.decode (readNat s (at_ (coef k)) d.size)).mul (f.decode (value k))
     ∀ a sub,
      (fits rowp 8 → lo ≤ hi → hi - lo ≤ 256 →
        (∀ k < hi - lo, fits (col k) 4 ∧ fits (coef k) d.size ∧ j k < d.count) →
        el (.spdot a sub) = some (wrote a (f.sum (reg a :: (List.range (hi - lo)).map (fun k => if sub then (term k).neg else term k))).1,
          false)) ∧
      ((¬ fits rowp 8 ∨ hi < lo ∨ lo + 256 < hi) → el (.spdot a sub) = none)) ∧
    (let sucp := d.e3.toNat / 2 ^ 20 % 2 ^ 20 + 4 * i
     let lo := readNat s (at_ sucp) 4
     let hi := readNat s (at_ (sucp + 4)) 4
     let off : Nat → Nat := fun k => d.e3.toNat / 2 ^ 40 % 2 ^ 20 + 8 * (lo + k)
     let e : Nat → Nat := fun k => readNat s (at_ (off k)) 8
     let far : Nat → Option Node := fun k => if e k / 2 ^ 18 % 2 = 1 then cmapEntry s (ctxOf s core ctx).entry (e k / 2 ^ 19 % 2 ^ 21) else none
     let all := (List.range (hi - lo)).map (fun k => (⟨e k % 65536, e k / 2 ^ 16 % 4, far k⟩ : Succ))
     let good := fits sucp 8 ∧ lo ≤ hi ∧ hi - lo ≤ 64 ∧ ∀ k < hi - lo, fits (off k) 8 ∧
       (e k / 2 ^ 18 % 2 = 1 → ∃ n, far k = some n ∧ n.host = false) ∧ (e k / 2 ^ 18 % 2 = 0 → e k / 2 ^ 16 % 4 = t → e k % 65536 < d.count)
     (good → ∀ a op, el (.notify op) = some ({ l with notes := l.notes ++ [.change op all], epc := l.epc + 1 }, false) ∧
       el (.send a) = some ({ l with notes := l.notes ++ [.value (l.x.getD a 0) all], epc := l.epc + 1 }, false)) ∧
     ((¬ fits sucp 8 ∨ hi < lo ∨ lo + 64 < hi) → ∀ a op, el (.notify op) = none ∧ el (.send a) = none))) ∧
  ∀ (s : State) (t : BitVec 2) (a b c : SReg), Solo s → isApp (runCore s) = false → featureFor s (ctxId s) 1 = true →
    let e0 := rE s 0
    let e1 := rE s 1
    let d := tget (ctxNow s).descs t.toNat
    let size := scratchSize (partNow s)
    let base := scratchBase (home s) (partNow s)
    let n := e0.toNat / 2 ^ 20 % 65536 + 1
    let plen := e1.toNat / 2 ^ 40 % 64
    let prog := e1.toNat / 2 ^ 20 % 2 ^ 20
    let ws := (List.range (plen + 1)).map (fun i => readNat s (base + prog + 4 * i) 4)
    let done := { act s with pc := (act s).pc + 4, wait := none }
    (e0.toNat < 2 ^ 47 → e1.toNat < 2 ^ 46 → (e0.getLsbD 46 = true → e0.toNat / 2 ^ 38 % 256 < 192) → e0.toNat % 256 = 0 → prog % 4 = 0 →
      e1.toNat % 8 = 0 → e0.toNat % 2 ^ 20 + 16 * n ≤ size → prog + 4 * (plen + 1) ≤ size → e1.toNat % 2 ^ 20 + (n + 7) / 8 ≤ size →
      Quiet s (base + prog) (4 * (plen + 1)) → (∀ w ∈ ws, (decodeEl plen w).isSome = true) →
      (∀ x, d = some x → x.active = false ∧ x.asleep = false ∧ x.ending = false) →
      ∃ u k, exec (.ecdecl t) s = .next u ∧ act u = done ∧ tget (ctxNow u).descs t.toNat = some k ∧ k.e0 = e0 ∧ k.e1 = e1 ∧
        k.e2 = rE s 2 ∧ k.e3 = rE s 3 ∧ k.active = false ∧ k.asleep = false ∧ k.ending = false ∧ k.endCode = 0 ∧ k.sweeps = 0 ∧
        k.prog.map some = ws.map (decodeEl plen)) ∧
    (∀ x, d = some x →
      (x.active = false → released s = true → ∃ u k, exec (.ecsweep t) s = .next u ∧ act u = done ∧
        tget (ctxNow u).descs t.toNat = some k ∧ k.active = true ∧ k.beat = 0 ∧ k.asleep = false ∧
        (x.asleep = false → k.endCode = 0) ∧
        (coreOf u (home s)).rotation = (coreOf s (home s)).rotation ++ [(ctxId s, t.toNat)]) ∧
      (x.active = true → released s = true → exec (.ecsweep t) s = .next (after 4 s)) ∧
      (let runs := (coreOf s (home s)).rotation.head? = some (ctxId s, t.toNat) ∧ x.beat ≠ 0
       (x.ending = false → x.active = true → runs → ∃ u k, exec (.ecstop t) s = .next u ∧ act u = done ∧
         tget (ctxNow u).descs t.toNat = some k ∧ k.stopping = true ∧ k.active = true) ∧
       (x.ending = false → (x.active = true ∨ x.asleep = true) → ¬ (x.active = true ∧ runs) → notesOut s (home s) (ctxId s) = false →
         x.e0.getLsbD 46 = false → ∃ u k, exec (.ecstop t) s = .next u ∧ act u = done ∧ tget (ctxNow u).descs t.toNat = some k ∧
         k.active = false ∧ k.asleep = false ∧ k.endCode = 3 ∧
         (coreOf u (home s)).rotation = (coreOf s (home s)).rotation.filter (fun r => r ≠ (ctxId s, t.toNat)))) ∧
      (((x.active = false ∧ x.asleep = false) ∨ x.ending = true) → exec (.ecstop t) s = .next (after 4 s)) ∧
      (let code := if x.ending then 0 else x.endCode
       exec (.ecstat a t) s = .next (after 4 (wS (if code = 0 then s else acquire s) a (BitVec.ofNat 64
        (x.sweeps * 2 ^ 32 + (if (ctxNow s).dropsAt = some (partNow s) then tgetD (ctxNow s).drops t.toNat 0 else 0) * 2 ^ 16 + (if x.under then 32 else 0) + (if x.asleep then 16 else 0) +
          (if x.active then 8 else 0) + code))))) ∧
      (let i := (rS s b).toNat % 65536
       let count := x.e0.toNat / 2 ^ 20 % 65536 + 1
       (i < count → exec (.ecread a b t) s = .next (after 4 (wS s a (readWord s (base + x.e0.toNat % 2 ^ 20 + 16 * i + 8))))) ∧
       (count ≤ i → exec (.ecread a b t) s = .next (trapped s .illegal (Instr.ecread a b t).tval)))) ∧
    (d = none → exec (.ecsweep t) s = .next (trapped s .illegal (Instr.ecsweep t).tval) ∧
      exec (.ecstop t) s = .next (trapped s .illegal (Instr.ecstop t).tval) ∧
      exec (.ecstat a t) s = .next (trapped s .illegal (Instr.ecstat a t).tval) ∧
      exec (.ecread a b t) s = .next (trapped s .illegal (Instr.ecread a b t).tval)) ∧
    (∀ dst, cmapEntry s (entry s) ((rS s b).toNat % 2 ^ 21) = some dst → dst.host = false → (rS s c).toNat / 65536 % 4 ≠ 3 →
      released s = true → ∃ u p, exec (.ecwake t b c) s = .next u ∧ act u = done ∧ tget u.net s.ids = some p ∧ p.dst = dst ∧
        p.ctx = ctxId s ∧ p.payload = .change t.toNat ((rS s c).toNat % 65536) ((rS s c).toNat / 65536 % 4))

/-- R256-R260, R405-R411: SGCFG leases its slots, as identities tagged [0, 0), in place of a lease that is held and whose queue is empty,
or releases that one; it is stalled while a queue holds commands, and waits its turn while too few slots are free; which free slots it
takes, the lowest, is the model's choice (log 19). SGZERO, SGTAG, SGSTEP and SGLOG queue their commands; SGJOIN is held for its reply and raises SEGGAP by it; SGST and SGLD move one slot's image, once nothing is queued.
They need extension S and feature bit 2. -/
def Obligations.SignatureInstructions : Prop :=
  ∀ (s : State) (i j k : BitVec 2) (v : VRegN) (a b c : SReg), Solo s → hasExtS (runCore s) = true → featureFor s (ctxId s) 2 = true →
    let cl := clauseOfCore (home s)
    let x := rS s b
    let mine := sigLeaseOf s (home s) (ctxId s)
    let d := x.toNat % 32
    let n := x.toNat / 256 % 16
    let q := x.toNat / 65536 % 8
    let done := { act s with pc := (act s).pc + 4, wait := none }
    (FirstIssue s →
      let other : SigLease → Bool := fun r => !(r.core == home s && r.ctx == ctxId s)
      let free := (List.range 4).filter (fun p => (clauseOf s cl).sigLeases.all (fun r => !(other r && r.slots.contains p)))
      let fits := 1 ≤ q ∧ q ≤ 4 ∧ 2 ≤ d ∧ d ≤ 16 ∧ 1 ≤ n ∧ n ≤ 8 ∧ sigTotal d n ≤ 8190
      (q ≠ 0 → ¬ fits → exec (.sgcfg a b) s = .next (trapped s .lease 8)) ∧
      ((∀ l, mine = some l → l.queue = []) → released s = true →
        (q = 0 → ∃ t, exec (.sgcfg a b) s = .next t ∧ act t = { (act s).setS a 0 with pc := (act s).pc + 4, wait := none } ∧
          sigLeaseOf t (home s) (ctxId s) = none ∧ sigFree (clauseOf t cl) = free ∧
          (mine = none → t = after 4 (wS s a 0))) ∧
        (fits → (clauseOf s cl).sigReqs = [] → q ≤ free.length →
          ∃ t l, exec (.sgcfg a b) s = .next t ∧ act t = { (act s).setS a 0 with pc := (act s).pc + 4, wait := none } ∧
            sigLeaseOf t (home s) (ctxId s) = some l ∧ l.d = d ∧ l.n = n ∧ l.queue = [] ∧
            l.slots = free.take q ∧ ∀ p ∈ l.slots, tget (clauseOf t cl).sigSlots p = some ⟨0, 0, []⟩) ∧
        (fits → ((clauseOf s cl).sigReqs ≠ [] ∨ free.length < q) →
          ∃ t, exec (.sgcfg a b) s = .next t ∧ act t = { act s with wait := some { waiting s 11 0 with stage := 1 } } ∧
            (clauseOf t cl).sigReqs = (clauseOf s cl).sigReqs ++ [⟨home s, ctxId s, d, n, q⟩])) ∧
      (∀ l, mine = some l → l.queue ≠ [] → (q = 0 ∨ fits) → released s = true →
        exec (.sgcfg a b) s = .next (blocked s (waiting s 11 0)))) ∧
    (∀ w, (act s).wait = some w → w.stage = 1 → mine.isSome = true → exec (.sgcfg a b) s = .next (after 4 (wS s a 0))) ∧
    (∀ l, mine = some l → l.core = home s → l.ctx = ctxId s → l.queue.length < 16 → released s = true →
      i.toNat < l.slots.length → j.toNat < l.slots.length → k.toNat < l.slots.length →
      let queued : SigCmd → State → Prop := fun m u => ∃ r, sigLeaseOf u (home s) (ctxId s) = some r ∧ r.queue = l.queue ++ [m] ∧ r.slots = l.slots
      let on : Instr → SigCmd → Prop := fun m r => ∃ u, exec m s = .next u ∧ act u = done ∧ queued r u
      on (.sgzero i b) (.zero i.toNat (low32 x)) ∧
      on (.sgtag i b c) (.tag i.toNat (low32 x) (low32 (rS s c))) ∧
      on (.sgstep i v) (.step i.toNat (rV s v)) ∧
      on (.sglog i j) (.log i.toNat j.toNat) ∧
      (FirstIssue s → ∃ u, exec (.sgjoin i j k) s = .next u ∧ (act u).pc = (act s).pc ∧
        (act u).wait = some { waiting s 11 0 with stage := 21 } ∧ queued (.join i.toNat j.toNat k.toNat) u) ∧
      (let p := l.slots.getD i.toNat 0
       let slot := tgetD (clauseOf s cl).sigSlots p ⟨0, 0, []⟩
       let loc := window0Loc s x
       l.queue = [] → InWindow0 s x 64 → windowOff x + 16 + 4 * sigTotal l.d l.n ≤ scratchSize (partNow s) →
       Quiet s loc (16 + 4 * sigTotal l.d l.n) →
       exec (.sgst i b) s = .next (after 4 (storeAt s (ctxId s) loc (leBytes 4 slot.startTag.toNat ++ leBytes 4 slot.endTag.toNat ++
         leBytes 8 (l.n * 256 + l.d) ++ (List.range (sigTotal l.d l.n)).flatMap (fun e => leBytes 4 (tgetD slot.entries e 0).toNat)))) ∧
       ((readWord s (loc + 8)).toNat % 32 = l.d → (readWord s (loc + 8)).toNat / 256 % 16 = l.n →
         ∃ u r, exec (.sgld i b) s = .next u ∧ act u = done ∧ tget (clauseOf u cl).sigSlots p = some r ∧
           r.startTag = BitVec.ofNat 32 (readNat s loc 4) ∧ r.endTag = BitVec.ofNat 32 (readNat s (loc + 4) 4) ∧
           ∀ e, e < sigTotal l.d l.n → tgetD r.entries e 0 = BitVec.ofNat 32 (readNat s (loc + 16 + 4 * e) 4)))) ∧
    (∀ w r, (act s).wait = some w → w.stage = 21 → w.reply = some r →
      (r.getLsbD 0 = false → exec (.sgjoin i j k) s = .next (after 4 s)) ∧
      (r.getLsbD 0 = true → exec (.sgjoin i j k) s = .next (trapped s .seggap (BitVec.ofNat 64 (r.toNat / 2 % 2 ^ 32))))) ∧
    (mine = none → exec (.sgzero i b) s = .next (trapped s .lease 9) ∧ exec (.sgstep i v) s = .next (trapped s .lease 9) ∧
      exec (.sglog i j) s = .next (trapped s .lease 9))

/-! ### The 16-bit forms -/

/-- R269, R278: every 16-bit form has the effect of the 32-bit instruction it stands for, and moves the pc on by 2: register
moves and arithmetic on sA, 5-bit immediates sign-extended, shifts by n, branches and jumps by twice the immediate, the link of
C.JALR in s31. R269, R278: C.LDD, C.LDW, C.STD and C.STW access s30 plus the immediate times the size, C.LDDR and C.STDR the
address in sB; C.QPOP and C.QPUSH act on qin and qout, and C.ENDH ends the activation, as QPOP, QPUSH and ENDH do. -/
def Obligations.ShortForms : Prop :=
  (∀ (s : State) (a b : SReg) (x y : VRegN) (n : BitVec 5) (k : BitVec 10), Solo s →
    let u := rS s a
    let taken : State := jumped s ((act s).pc + BitVec.ofInt 64 (2 * n.toInt))
    exec .cNop s = .next (after 2 s) ∧
    exec (.cMov a b) s = .next (after 2 (wS s a (rS s b))) ∧
    exec (.cAdd a b) s = .next (after 2 (wS s a (u + rS s b))) ∧
    exec (.cSub a b) s = .next (after 2 (wS s a (u - rS s b))) ∧
    exec (.cAnd a b) s = .next (after 2 (wS s a (u &&& rS s b))) ∧
    exec (.cOr a b) s = .next (after 2 (wS s a (u ||| rS s b))) ∧
    exec (.cXor a b) s = .next (after 2 (wS s a (u ^^^ rS s b))) ∧
    exec (.cAddi a n) s = .next (after 2 (wS s a (u + BitVec.ofInt 64 n.toInt))) ∧
    exec (.cLi a n) s = .next (after 2 (wS s a (BitVec.ofInt 64 n.toInt))) ∧
    exec (.cShli a n) s = .next (after 2 (wS s a (BitVec.ofNat 64 (u.toNat * 2 ^ n.toNat)))) ∧
    exec (.cShri a n) s = .next (after 2 (wS s a (BitVec.ofNat 64 (u.toNat / 2 ^ n.toNat)))) ∧
    exec (.cSari a n) s = .next (after 2 (wS s a (BitVec.ofInt 64 (u.toInt / 2 ^ n.toNat)))) ∧
    exec (.cVmov x y) s = .next (after 2 (wV s x (rV s y))) ∧
    exec (.cBeqz a n) s = .next (if u = 0 then taken else after 2 s) ∧
    exec (.cBnez a n) s = .next (if u = 0 then after 2 s else taken) ∧
    exec (.cJ k) s = .next (jumped s ((act s).pc + BitVec.ofInt 64 (2 * k.toInt))) ∧
    (u.toNat % 2 = 0 → exec (.cJr a) s = .next (jumped s u) ∧
      exec (.cJalr a) s = .next (jumped (wS s 31 ((act s).pc + 2)) u)) ∧
    (u.toNat % 2 = 1 → exec (.cJr a) s = .next (trapped s .misalign u) ∧ exec (.cJalr a) s = .next (trapped s .misalign u))) ∧
  (∀ (s : State) (a b : SReg) (n : BitVec 5), Solo s → storeSent s = false →
    let x : Nat → Word := fun k => rS s 30 + BitVec.ofNat 64 (k * n.toNat)
    let y := rS s b
    let bs : Nat → List Byte := fun k => leBytes k ((rS s a).toNat % 2 ^ (8 * k))
    let ready : Word → Nat → Prop := fun z k => InWindow0 s z k ∧ Quiet s (window0Loc s z) k
    let got : Word → Nat → State := fun z k => seen s (window0Loc s z) k
    (ready (x 8) 8 →
      exec (.cLdd a n) s = .next (after 2 (wS (got (x 8) 8) a (BitVec.ofNat 64 (readNat s (window0Loc s (x 8)) 8)))) ∧
      exec (.cStd a n) s = .next (after 2 (storeAt s (ctxId s) (window0Loc s (x 8)) (bs 8)))) ∧
    (ready (x 4) 4 →
      exec (.cLdw a n) s = .next (after 2 (wS (got (x 4) 4) a (BitVec.ofInt 64 (BitVec.ofNat 32 (readNat s (window0Loc s (x 4)) 4)).toInt))) ∧
      exec (.cStw a n) s = .next (after 2 (storeAt s (ctxId s) (window0Loc s (x 4)) (bs 4)))) ∧
    (ready y 8 →
      exec (.cLddr a b) s = .next (after 2 (wS (got y 8) a (BitVec.ofNat 64 (readNat s (window0Loc s y) 8)))) ∧
      exec (.cStdr a b) s = .next (after 2 (storeAt s (ctxId s) (window0Loc s y) (bs 8)))) ∧
    (alignOk y 8 = false → exec (.cLddr a b) s = .next (trapped s .misalign y) ∧ exec (.cStdr a b) s = .next (trapped s .misalign y)) ∧
    (∀ w r, (act s).qin = w :: r → exec (.cQpop a 0) s = .next (after 2 (wS (setAct s { act s with qin := r }) a w))) ∧
    ((act s).qout.length < 64 →
      exec (.cQpush 1 b) s = .next (after 2 (setAct s { act s with qout := (act s).qout ++ [rS s b] }))) ∧
    (((act s).work = none ∨ (act s).triggered = true ∨ released s = true) →
      ∃ t, exec .cEndh s = .next t ∧ actAt t s.cur = none))


/-! ### Events of the networks and of the message interfaces -/

/-- R14, R17-R24, R26, R27: a mesh packet moves one router on, along the row first on an even path and along the column first on an
odd one, and at its target enters the ring or its clause's port; a ring packet that its stop grants the hop moves one stop on in its
direction, the shorter way, into a free shared slot or else an escape slot of its channel, its payload flits behind it, or leaves at
its exit stop once all of them are there; one that is not granted a hop or finds no slot keeps its stop; one that is damaged, or whose
header hardware never generates, is discarded with a notice, and the part that sent it is suspected; a link group that passes its
check enters at the link's stop. R30, R42, R43, R46, R73, R153, R161, R241, R242, R344: a message that has arrived at a compute core's
interface, for a live context, waits there, and a second copy of it goes; a code message of a wrong version goes to the miss queue,
which has its version miss wait for its turn, or is refused when that is full; a host message enters the receive queue, with its
interrupt, and is accepted; a message to a context that is not live goes, with a notice. An acceptance drops the sender's copy; lost
and refused packets are sent again; an acknowledgement is taken off. The model's choices: the slots of a packet's flits (log 13), entry 0
of an empty miss queue (log 19), and which part a fault suspects, at once (log 67). -/
def Obligations.NetworkAndMessageEvents : Prop :=
  (∀ (s : State) (n : Nat) (p : Packet), tget s.net n = some p → behind s n p = false →
    (∀ die cl out, p.pos = .mesh die cl out →
      let to_ : Nat := if out then (planeOf p) % 8 * 16 + (if planeOf p < 8 then 0 else 15) else p.dst.addr % 1024 / 8
      let q : Packet := { p with via := some cl }
      (cl = to_ → exec (.meshPacketArrival n) s = .next (movePkt s n q (if out then .inject (Config.dieStop die) else .arrived))) ∧
      (cl ≠ to_ → ∃ k, exec (.meshPacketArrival n) s = .next (movePkt s n q (.mesh die k out)) ∧
        (let first := if p.path % 2 = 0 then cl % 16 ≠ to_ % 16 else cl / 16 = to_ / 16
         (first → k / 16 = cl / 16 ∧ (cl % 16 < to_ % 16 → k % 16 = cl % 16 + 1) ∧ (to_ % 16 < cl % 16 → k % 16 + 1 = cl % 16)) ∧
         (¬ first → k % 16 = cl % 16 ∧ (cl / 16 < to_ / 16 → k / 16 = cl / 16 + 1) ∧ (to_ / 16 < cl / 16 → k / 16 + 1 = cl / 16))))) ∧
    (let faulty : Nat → Nat → State := fun k code =>
       let u := notice (if isMessage p then { s with net := tset s.net n { p with pos := .lost, ring := RingTrip.off } } else takePkt s n)
         5 [BitVec.ofNat 64 k, headerWord p, BitVec.ofNat 64 code, 0]
       { u with module := { u.module with suspects := u.module.suspects ++ (sendingPart u p).toList } }
     let off : Packet := { p with ring := RingTrip.off }
     (∀ k, (p.pos = .inject k ∨ ∃ shared, p.pos = .stop k shared) →
       (p.intact = false → exec (.ringPacketArrival n) s = .next (faulty k 1)) ∧
       (p.intact = true → (p.reserved ≠ 0 ∨ 4 < p.scope ∨ 16 < lenOf p) → exec (.ringPacketArrival n) s = .next (faulty k 0))) ∧
     (p.intact = true → headerBad p = false →
       (∀ k shared x, p.pos = .stop k shared → exitStop s p = some x →
         let to_ := if p.dir then (k + 10) % 11 else (k + 1) % 11
         let vc := p.vc || (if p.dir then k == 0 else k == 10)
         let pool := slotsUsed s to_ (planeOf p) p.dir none
         let own := slotsUsed s to_ (planeOf p) p.dir (some vc)
         let hop : Bool → Prop := fun b => ∃ r, exec (.ringPacketArrival n) s = .next { s with
           net := tset s.net n { p with vc := vc, pos := .stop to_ b, ring := r }
           grants := tset s.grants (grantKey p k) (s.cyc, false) } ∧
           r.segs.head? = some ⟨to_, b, vc, 1⟩ ∧ r.entry = p.ring.entry ∧ r.stamp = p.ring.stamp
         (x ≠ k → granted s p k false = true → pool < 16 → hop true) ∧
         (x ≠ k → granted s p k false = true → 16 ≤ pool → own < 4 → hop false) ∧
         (x ≠ k → (granted s p k false = false ∨ (16 ≤ pool ∧ 4 ≤ own)) → ∃ r, exec (.ringPacketArrival n) s =
           .next { s with net := tset s.net n { p with ring := r } }) ∧
         (x = k → moduleOf p.dst = moduleNumber s → p.ring.rest = 0 → (∃ g, p.ring.segs = [g] ∧ g.flits ≤ 1) →
           exec (.ringPacketArrival n) s = .next
             (if p.dst.host = true ∨ toMemory p.payload = true then movePkt s n off .arrived
              else movePkt s n { off with via := none }
                (.mesh (p.dst.addr % 8192 / 1024) ((planeOf p) % 8 * 16 + if planeOf p < 8 then 0 else 15) false))) ∧
         (x = k → p.ring.rest ≠ 0 → (∃ g, p.ring.segs = [g]) → ∃ r, exec (.ringPacketArrival n) s =
           .next { s with net := tset s.net n { p with ring := r } })) ∧
       (∀ k x, p.pos = .inject k → moduleOf p.dst = moduleNumber s → exitStop s p = some x → x ≠ k → x < 11 → k < 11 →
         let down := decide (5 < (x + 11 - k) % 11)
         let to_ := if down then (k + 10) % 11 else (k + 1) % 11
         let vc := if down then k == 0 else k == 10
         let q : Packet := { p with dir := down, vc := false }
         granted s q k true = true → slotsUsed s to_ (planeOf p) down none < 16 → exec (.ringPacketArrival n) s =
           .next { s with
             ids := s.ids + 1
             net := tset s.net n { p with dir := down, vc := vc, pos := .stop to_ true,
                                          ring := ⟨k, s.ids, [⟨to_, true, vc, 1⟩], lenOf p⟩ }
             grants := tset s.grants (grantKey q k) (s.cyc, true) }) ∧
       (∀ k, p.pos = .inject k → moduleOf p.dst ≠ moduleNumber s → tgetD s.module.linkTable (moduleOf p.dst) [] = [] →
         exec (.ringPacketArrival n) s = .next (notice
           (if isMessage p then { s with net := tset s.net n { p with link := none, dir := p.dir, pos := .lost, ring := RingTrip.off } }
            else takePkt s n) 5 [BitVec.ofNat 64 k, headerWord p, 2, 0])))) ∧
    (∀ link ok q, exec (.moduleLinkReceive link ok q) s = .next
      (let r : Packet := { q with pos := .inject (if link < 12 then 2 else 8), dir := false, vc := false, link := some link, via := none,
                                  ring := RingTrip.off }
       if ok = true ∧ link < 24 ∧ linksUp s = true ∧ partFenced s.module.fenced (.link link) = false then
         if q.intact = true ∧ headerBad q = false then { s with net := tset s.net s.ids r, ids := s.ids + 1 }
         else
           let u := notice s 5 [BitVec.ofNat 64 (32 + link), headerWord r, if headerBad q then 0 else 1, 0]
           { u with module := { u.module with suspects := u.module.suspects ++ [.link link] } }
       else s)) ∧
    (∀ link, exec (.linkGroupResend link) s = .next s)) ∧
  (∀ (s : State) (n c : Nat) (p : Packet),
    (arrivedAt s n = some (p, c) → ctxState s p.ctx = 1 →
      ∀ ws code origin nosrc src wid wshape work seq, p.payload = .message ws code origin nosrc src wid wshape work seq →
      let m : Msg := ⟨s.ids, p.ctx, ws, origin, p.mprio, nosrc, src, wid, wshape, work, .message, 0, s.cyc,
        if origin = 0 then none else some (p.src, seq)⟩
      let gone := takePkt s n
      (isApp c = false → duplicate s c p = true → exec (.messageArrival n) s = .next gone) ∧
      (isApp c = false → duplicate s c p = false →
        (code = false ∨ (missOldest s (c / 8) c p.ctx (msgCodeId m) = none ∧ codePasses s c m = true)) →
        ∃ t, exec (.messageArrival n) s = .next t ∧ t.net = gone.net ∧ (coreOf t c).waiting = (coreOf s c).waiting ++ [m] ∧
          t.ids = s.ids + 1 ∧ t.mem = s.mem) ∧
      (isApp c = false → duplicate s c p = false → code = true → codePasses s c m = false → 32 ≤ (clauseOf s (c / 8)).missQueue.length →
        exec (.messageArrival n) s = .next (movePkt s n p (.refused s.cyc))) ∧
      (isApp c = false → duplicate s c p = false → code = true → codePasses s c m = false → (clauseOf s (c / 8)).missQueue = [] →
        ∃ t, exec (.messageArrival n) s = .next t ∧ t.net = gone.net ∧ (clauseOf t (c / 8)).missQueue = [(0, ⟨c, m, s.ids, true, headerWord p⟩)] ∧
          (coreOf t c).waiting = (coreOf s c).waiting ++
            [⟨s.ids + 1, p.ctx, ws.take 2, 2, 3, nosrc, src, 0, 0, none, .versionMiss 0, 0, s.cyc, none⟩]) ∧
      (isApp c = true → duplicate s c p = false → (coreOf s c).hostq.length < 256 → ∃ t, exec (.hostMessageArrival n) s = .next t ∧
        (coreOf t c).hostq = (coreOf s c).hostq ++ [m] ∧ (coreOf t c).msgIrq = true ∧
        (origin ≠ 0 → ∃ q, tget t.net (s.ids + 1) = some q ∧ q.payload = .accepted seq 0 ∧ q.dst = p.src))) ∧
    (arrivedAt s n = some (p, c) → isApp c = false → duplicate s c p = false → ctxState s p.ctx ≠ 1 →
      ∀ ws code nosrc src wid wshape work seq, p.payload = .message ws code 0 nosrc src wid wshape work seq →
      exec (.messageArrival n) s =
        .next (notice (takePkt s n) 1 [headerWord p, ws.headD 0, BitVec.ofNat 64 p.ctx, BitVec.ofNat 64 p.dst.addr])) ∧
    (∀ seq st, arrivedAt s n = some (p, c) → p.payload = .accepted seq st →
      ∃ t, exec (.messageAcceptanceNotice n) s = .next t ∧
        (coreOf t c).unacked = (coreOf s c).unacked.filter (fun u => u.seq ≠ seq) ∧
        (∀ a w, actAt s ⟨c, none⟩ = some a → ctxAt s ⟨c, none⟩ = p.ctx → a.wait = some w → w.stage = 1 → seq ∈ w.tags →
          actAt t ⟨c, none⟩ = some { a with wait := some { w with tags := [], reply := some (BitVec.ofNat 64 st) } })) ∧
    (tget s.net n = some p →
      (∀ y, p.pos = .refused y → takerOf s p.dst = some c → isMessage p = true → (clauseOf s (c / 8)).missQueue.length < 32 →
        exec (.missQueueResend n) s = .next (restart s n p)) ∧
      (p.pos = .lost → isMessage p = true →
        exec (.messageCopyResend n) s = .next (restart s n p)) ∧
      (∀ y, p.pos = .refused y → kindOf p = 1 →
        exec (.remoteNackResend n) s = .next (if 64 ≤ s.cyc - y then restart s n p else s)) ∧
      tget (restart s n p).net n = some { p with intact := true, link := none, vc := false, dir := false, via := none,
                                                 ring := RingTrip.off, pos := startPos p.src p.dst p.payload }) ∧
    (∀ a off path, arrivedAt s n = some (p, c) → p.payload = .ack a off path → (∀ m ∈ s.net, ∀ l, m.2.pos ≠ .link l) →
      exec (.storeAcknowledgement n) s = .next (takePkt s n)))

/-! ### Events of memory -/

/-- R129, R133, R141, R144, R148, R150, R151, R164, R165: a home port performs a held request once no earlier overlapping access of its
agent is unperformed and no two-address atomic keeps its locations locked: a store writes, a load reads, an atomic reads and writes as
one event; its answer leaves the port that performed it, and reaches the instruction that waits, a whole line also the read-line
buffer, whose lines expire after 4,096 cycles. A load or atomic whose line has been lost since its issue is refused, and ends its context where
that owns the line (R50, R51). A walk ahead of any access is buffered and sets no bit; one that meets M = 1 takes a
walker and waits, re-reads, or times out after 4,096 cycles, and one that finds no walker free waits for one (R135); an invalidation
completes once every access that may have used a removed entry is performed, those included that were issued through an entry that came
back meanwhile, and one of a whole address space at package scope lets go of the port function entries of that space (R146). The model's
choices: what a held access is (log 5), a store to a lost line (log 91), and the accesses that an invalidation waits for (log 88). -/
def Obligations.HomePortEvents : Prop :=
  ∀ (s : State) (n c : Nat),
    (∀ r, tget s.reqs n = some r → reqReady s n r = true →
      let done : State → List Byte → State := fun t bs => { t with reqs := tset t.reqs n { r with performed := true, result := bs } }
      let sound := r.pieces.findSome? (fun x => poisonedIn s x.1 x.2.1) = none
      (∀ loc k bs, r.op = .store → r.pieces = [(loc, k, bs)] →
        exec (.memoryAccessPerform (.request n)) s =
          .next (storeAt (answerPorts { s with reqs := tdel s.reqs n } n 9 (fun _ => 0)) r.ctx loc bs)) ∧
      (∀ loc k bs, sound → r.op = .load → r.pieces = [(loc, k, bs)] →
        exec (.memoryAccessPerform (.request n)) s = .next (answerPorts (done s (readBytes s loc k)) n 6 id)) ∧
      (∀ loc bs op d b e, sound → r.op = .atomic op d b e → r.pieces = [(loc, if d then 8 else 4, bs)] →
        let size : Nat := if d then 8 else 4
        let old := readNat s loc size
        (∀ x, atomNew op d old b.toNat e.toNat = some x →
          exec (.atomicPerform n) s = .next (answerPorts (done (storeAt s r.ctx loc (leBytes size x)) (leBytes size old)) n 8 id)) ∧
        (atomNew op d old b.toNat e.toNat = none →
          exec (.atomicPerform n) s = .next (answerPorts (done s (leBytes size old)) n 8 id))) ∧
      (∀ x y kx ky bx by_ d e1 e2 nx ny, sound → r.op = .adcas d e1 e2 nx ny → r.pieces = [(x, kx, bx), (y, ky, by_)] →
        let size : Nat := if d then 8 else 4
        let ox := readNat s x size
        let oy := readNat s y size
        exec (.twoAddressAtomicPerform n) s = .next (answerPorts (done
          (if ox = e1.toNat % 2 ^ (8 * size) ∧ oy = e2.toNat % 2 ^ (8 * size) then
            storeAt (storeAt s r.ctx x (leBytes size nx.toNat)) r.ctx y (leBytes size ny.toNat) else s)
          (leBytes size ox ++ leBytes size oy)) n 8 id)) ∧
      (∀ x y kx ky bx by_ d v, sound → r.op = .amove d v → r.pieces = [(x, kx, bx), (y, ky, by_)] →
        let size : Nat := if d then 8 else 4
        exec (.twoAddressAtomicPerform n) s = .next (answerPorts (done
          (storeAt (storeAt s r.ctx y (leBytes size (readNat s x size))) r.ctx x (leBytes size v.toNat))
          (leBytes size (readNat s x size) ++ leBytes size (readNat s y size))) n 8 id)) ∧
      (∀ x, r.pieces.findSome? (fun x => poisonedIn s x.1 x.2.1) = some x →
        let refused : Nat → State := fun kind =>
          let u := answerPorts { s with reqs := tset s.reqs n { r with performed := true, lost := true } } n kind (fun _ => 0)
          if ownerOf u x = r.ctx ∧ r.ctx ≠ 0 then contextEnd u r.ctx else u
        (r.op = .load → exec (.memoryAccessPerform (.request n)) s = .next (refused 6)) ∧
        (∀ op d b e y, r.op = .atomic op d b e → r.pieces = [y] → exec (.atomicPerform n) s = .next (refused 8)) ∧
        (∀ d e1 e2 nx ny y z, r.op = .adcas d e1 e2 nx ny → r.pieces = [y, z] →
          exec (.twoAddressAtomicPerform n) s = .next (refused 8)) ∧
        (∀ d v y z, r.op = .amove d v → r.pieces = [y, z] → exec (.twoAddressAtomicPerform n) s = .next (refused 8))) ∧
      ((∀ m ∈ s.net, isPortOf n false m.2 = false) → ∀ kind len, answerPorts s n kind len = s) ∧
      (∀ i p kd pa k, s.net.filter (fun m => isPortOf n false m.2) = [(i, p)] → p.payload = .port n kd pa k → ∀ kind len,
        ∃ q, tget (answerPorts s n kind len).net s.ids = some q ∧ q.payload = .portReply n kind pa (len k) ∧ q.dst = p.src ∧
          q.pos = .inject (Config.dieStop (dieOfMemory pa)))) ∧
    (∀ r a w, tget s.reqs n = some r → r.performed = true → portsIn s n true = true → actAt s ⟨r.agent.core, none⟩ = some a →
      ctxAt s ⟨r.agent.core, none⟩ = r.agent.ctx → a.wait = some w → n ∈ w.tags →
      let got : List Byte → Wait := fun bs => { w with tags := w.tags.filter (fun i => i ≠ n), bytes := w.bytes ++ bs }
      (∀ loc k bs, r.lost = false → r.op = .load → r.pieces = [(loc, k, bs)] → k ≠ 64 → ∃ t, exec (.loadReplyArrival n) s = .next t ∧
        t.reqs = tdel s.reqs n ∧ actAt t ⟨r.agent.core, none⟩ = some { a with wait := some (got r.result) }) ∧
      (∀ loc bs, r.lost = false → r.op = .load → r.pieces = [(loc, 64, bs)] → a.rlb = [] → ∃ t, exec (.loadReplyArrival n) s = .next t ∧
        t.reqs = tdel s.reqs n ∧
        actAt t ⟨r.agent.core, none⟩ = some { a with wait := some (got []), rlb := [⟨loc / 64, r.result, s.cyc⟩] }) ∧
      (∀ va, r.lost = true → s.memos = [] → w.reply = none → w.vas = [(n, va)] → ∃ t, exec (.loadReplyArrival n) s = .next t ∧
        t.reqs = tdel s.reqs n ∧ actAt t ⟨r.agent.core, none⟩ = some { a with wait := some { got [] with reply := some va } })) ∧
    (∀ a, actAt s ⟨c, none⟩ = some a → ∃ t, exec (.readLineExpire c n) s = .next t ∧ actAt t ⟨c, none⟩ =
      some { a with rlb := a.rlb.filter (fun b => ¬ (b.line = n ∧ b.filled + 4096 ≤ s.cyc)) }) ∧
    (∀ a va k, actAt s ⟨c, none⟩ = some a →
      let w := whoAt s ⟨c, none⟩
      (∀ ps ls, translateAll s w k [(va.toNat, 1)] = .ok ps ls → exec (.pageWalk c va k) s = .next (ls.foldl (fun u e => tlbFill u w.tlb e)
        { s with walks := s.walks.filter (fun x => !(x.2.agent == w.agent && x.2.unit == w.unit && x.2.va == va.toNat)) })) ∧
      (∀ f v, translateAll s w k [(va.toNat, 1)] = .fault f v → exec (.pageWalk c va k) s = .next s) ∧
      (∀ x e, translateAll s w k [(va.toNat, 1)] = .wait x (.migrating e) → walkState s w x = none → exec (.pageWalk c va k) s = .next
        { s with walks := tset s.walks s.ids ⟨w.agent, w.unit, x, e, s.cyc, 0, walkPool w⟩, ids := s.ids + 1 }) ∧
      (∀ x, translateAll s w k [(va.toNat, 1)] = .wait x .walker → walkState s w x = none → exec (.pageWalk c va k) s = .next
        { s with walks := tset s.walks s.ids ⟨w.agent, w.unit, x, 0, s.cyc, 3, walkPool w⟩, ids := s.ids + 1 })) ∧
    (∀ w, tget s.walks n = some w → w.st = 0 →
      let ended : State := { s with walks := tset s.walks n { w with st := 2 } }
      exec (.walkMigratingReread n) s = .next
        (if w.start + 4096 < s.cyc then ended
         else if (readWord s w.entryPa).getLsbD 9 = true ∧ poisonedIn s w.entryPa 16 = none then s
         else { s with walks := tset s.walks n { w with st := 1 } }) ∧
      exec (.walkMigratingTimeout n) s = .next (if 4096 ≤ s.cyc - w.start then ended else s)) ∧
    (∀ i, tget s.invals n = some i →
      let since := if entriesLeft s i.scope i.agent.core i.asid i.va then s.ids else i.since
      let ended := accessLeft s i.agent.core since = false
      ∃ t, exec (.invalidationComplete n) s = .next t ∧
        tget t.invals n = some { i with complete := i.complete || !accessLeft s i.agent.core since, since := since } ∧
        (∀ k, coreInScope i.scope i.agent.core k = true → ∀ e ∈ (coreOf t k).tlb,
          (match i.va with | some v => tlbCovers i.asid v e = false | none => e.asid ≠ i.asid)) ∧
        ((i.scope = .package ∨ i.scope = .system) → i.va = none → ∀ f ∈ t.module.portFns, f.2.1.toNat / 2 ^ 32 % 65536 ≠ i.asid) ∧
        (ended → ∀ a w, actAt s ⟨i.agent.core, none⟩ = some a → ctxAt s ⟨i.agent.core, none⟩ = i.agent.ctx → a.wait = some w → n ∈ w.tags →
          actAt t ⟨i.agent.core, none⟩ = some { a with wait := some { w with reply := some 0 } }))

/-- R97, R113, R153, R158-R161, R163, R164, R182-R184, R222: what arrives at a core's port: a remote store writes its bytes, is counted
by source and path, is logged in the trace ring where logging is on (its size code: log 45), and is acknowledged; an ordered flag is performed once the counts
it carries are reached, which it takes off, and is held until then; an idle sending-table entry sends its counts; remote loads and
atomics are answered; a channel word joins q3; a drain write lands in the drain area. The model's choices: a load to the very bytes of a
held flag of its source waits behind it (log 63), and a lost line is answered as unbacked to a context that does not own it, and to
context 0 (log 16). -/
def Obligations.PortEvents : Prop :=
  ∀ (s : State) (n c : Nat) (p : Packet), arrivedAt s n = some (p, c) →
    let part := partOf s c p.ctx
    let base := scratchBase c part
    let x := ctxOf s c p.ctx
    let acked : State → AgentId → Nat → Prop := fun t agent off =>
      ∃ q, tget t.net s.ids = some q ∧ q.payload = .ack agent off p.path ∧ q.dst = p.src ∧ q.src = nodeOf s c ∧ q.ctx = p.ctx
    let wrote : State → Nat → List Byte → Prop := fun t loc bs =>
      readBytes t loc bs.length = bs ∧ ∀ l, (l < loc ∨ loc + bs.length ≤ l) → readByte t l = readByte s l
    let ready := isApp c = false ∧ arrivalsFull x p.src = false ∧ x.heldFlags = [] ∧ MemoryCanonical s ∧ frameHere s c p.ctx = true
    (∀ off bs agent, p.payload = .store off bs [] agent → ready → off + bs.length ≤ scratchSize part →
      (x.regs.trace.getLsbD 0 = false → ∃ t, exec (.remoteStoreArrival n) s = .next t ∧ wrote t (base + off) bs ∧ acked t agent off ∧
        ∀ i < 4, (arrivalCounts (ctxOf t c p.ctx) p.src).getD i 0 = (arrivalCounts x p.src).getD i 0 + if i = p.path then 1 else 0) ∧
      (let ring := x.regs.trace.toNat / 2 ^ 12 % 256 * 4096
       let at_ := base + ring + 16 * (x.regs.traceptr.toNat % 256)
       featureFor s p.ctx 8 = true → x.regs.trace.getLsbD 0 = true → ring + 4096 ≤ scratchSize part →
         ∃ t, exec (.remoteStoreArrival n) s = .next t ∧ acked t agent off ∧
           readNat t at_ 8 = sizeCode bs.length * 2 ^ 52 + p.path % 4 * 2 ^ 48 + s.cyc % 2 ^ 48 ∧
           readNat t (at_ + 8) 8 = (if p.src.host then 2 ^ 41 else 0) + p.src.addr % 2 ^ 21 * 2 ^ 20 + off % 2 ^ 20 ∧
           (ctxOf t c p.ctx).regs.traceptr.toNat % 2 ^ 63 = (x.regs.traceptr.toNat + 1) % 2 ^ 63)) ∧
    (∀ off bs holes agent, p.payload = .store off bs holes agent → isApp c = false → behindFlag x.heldFlags p = false →
      arrivalsFull x p.src = true →
      exec (.remoteStoreArrival n) s = .next (movePkt s n p (.refused s.cyc))) ∧
    (∀ off bs cs agent, p.payload = .flag off bs cs agent → ready → off + bs.length ≤ scratchSize part →
      ((∃ i < 4, (arrivalCounts x p.src).getD i 0 < cs.getD i 0) → exec (.orderedFlagArrival n) s =
        .next (modCtx (takePkt s n) c p.ctx (fun k => { k with heldFlags := k.heldFlags ++ [⟨p⟩] }))) ∧
      ((∀ i < 4, cs.getD i 0 ≤ (arrivalCounts x p.src).getD i 0) → x.regs.trace.getLsbD 0 = false →
        ∃ t, exec (.orderedFlagArrival n) s = .next t ∧ wrote t (base + off) bs ∧ acked t agent off ∧
          ∀ i < 4, (arrivalCounts (ctxOf t c p.ctx) p.src).getD i 0 = (arrivalCounts x p.src).getD i 0 - cs.getD i 0)) ∧
    (∀ d i e, (coreOf s d).sendTab[i]? = some e →
      (s.cyc - e.used < 4096 → exec (.countPacketSend d i) s = .next s) ∧
      (4096 ≤ s.cyc - e.used → ∃ t q, exec (.countPacketSend d i) s = .next t ∧ tget t.net s.ids = some q ∧ q.dst = e.dst ∧ q.ctx = e.ctx ∧
        q.path = 0 ∧ q.payload = .count e.counts ⟨d, e.ctx, 0⟩ ∧
        (coreOf t d).sendTab = removeFirst (fun k => k == e) (coreOf s d).sendTab)) ∧
    (∀ off size tag agent, p.payload = .loadReq off size tag agent → tget s.reqs n = none →
      (behindFlag x.heldFlags p = true → exec (.memoryAccessPerform (.request n)) s = .next s) ∧
      (behindFlag x.heldFlags p = false → poisonedIn s (base + off) size = none →
        ∃ t q, exec (.memoryAccessPerform (.request n)) s = .next t ∧ tget t.net s.ids = some q ∧ q.dst = p.src ∧
          q.payload = .reply 3 none tag (readBytes s (base + off) size) agent) ∧
      (∀ l, behindFlag x.heldFlags p = false → poisonedIn s (base + off) size = some l → (ownerOf s l ≠ p.ctx ∨ p.ctx = 0) →
        ∃ t q, exec (.memoryAccessPerform (.request n)) s = .next t ∧ tget t.net s.ids = some q ∧ q.dst = p.src ∧
          q.payload = .unbacked 3 none tag agent)) ∧
    (∀ off b e tag agent, p.payload = .atomic off .add true b e tag agent → tget s.reqs n = none → x.regs.trace.getLsbD 0 = false →
      behindFlag x.heldFlags p = false → poisonedIn s (base + off) 8 = none →
      frameHere s c p.ctx = true → MemoryCanonical s → ∃ t q, exec (.atomicPerform n) s = .next t ∧ tget t.net s.ids = some q ∧ q.dst = p.src ∧
        q.payload = .reply 8 none tag (readBytes s (base + off) 8) agent ∧
        readNat t (base + off) 8 = (readNat s (base + off) 8 + b.toNat) % 2 ^ 64) ∧
    (∀ w, p.payload = .channel w →
      (x.q3.length < 16 → exec (.channelWordArrival n) s =
        .next (modCtx (takePkt s n) c p.ctx (fun k => { k with q3 := k.q3 ++ [w] }))) ∧
      (16 ≤ x.q3.length → exec (.channelWordArrival n) s = .next s)) ∧
    (∀ first rows es, p.payload = .drain first rows es → first + es.length ≤ drainEntries part → MemoryCanonical s →
      ∃ t, exec (.drainWriteArrival n) s = .next t ∧
        (∀ i (h : i < es.length), readNat t (accBase c part + 6 * (first + i)) 6 = es[i].toNat) ∧
        (∀ l, (l < accBase c part + 6 * first ∨ accBase c part + 6 * (first + es.length) ≤ l) → readByte t l = readByte s l))

/-! ### Events of the scheduler -/

/-- R74, R76, R77, R99, R100, R138: an idle core starts the one waiting message of the context in its active slot: at its handler address,
with s1 = the work id, s2 = the word count, s30 = the stack top, the message's other words in qin, an empty qout, and the control
registers of R100; an engine upcall starts at CR.UPCALL, in user mode (R119), with the tag, the cause and the address in s1 to s3, and a
version miss at CR.LXMISSH with its queue entry in s1 (R242). A message that has waited
2^20 cycles gains a level. When a migrated activation holds a full core against such a start is the model's choice (log 89). -/
def Obligations.ActivationStarts : Prop :=
  ∀ (s : State) (c : Nat) (m : Msg) (g : Frame),
    (isApp c = false → (coreOf s c).active = some g → g.act = none → g.ctx = m.ctx → (coreOf s c).switching = false →
      (coreOf s c).quiesced = false → (coreOf s c).goal = none → (coreOf s c).waiting = [m] → startable s c m.ctx = true →
      guestHolds s c m.ctx = false → (∀ x, suspended s c x = false) → (ctxOf s c m.ctx).entry.ctxgen.toNat = (ctxWord s m.ctx 0).toNat / 2 ^ 48 →
      let e := (ctxOf s c m.ctx).entry
      let top : Word := BitVec.ofNat 64 (windowBase + e.regions[15].toNat % 2 ^ 32 + e.regions[15].toNat / 2 ^ 32)
      (m.start = .message → m.work = none → handlerOk e (m.words.headD 0) = true →
        ∃ t a, exec (.activationStart c) s = .next t ∧ actAt t ⟨c, none⟩ = some a ∧ ctxAt t ⟨c, none⟩ = m.ctx ∧
          a.pc = m.words.headD 0 ∧ a.qin = m.words.tail ∧ a.qout = [] ∧ a.wait = none ∧ a.priv = (m.ctx == 0) ∧ a.upcall = false ∧
          a.getS 1 = m.wid ∧ a.getS 2 = BitVec.ofNat 64 m.words.length ∧ a.getS 30 = top ∧
          a.cr.wid = m.wid ∧ a.cr.wshape = m.wshape ∧ a.cr.msglen = BitVec.ofNat 64 m.words.length ∧ a.cr.fflags = 0 ∧ a.cr.xfer = 0 ∧
          a.cr.msgsrc = BitVec.ofNat 64 (m.origin * 2 ^ 62 + m.mprio * 2 ^ 22 + (if m.nosrc then 2 ^ 21 else m.src % 2 ^ 21)) ∧
          (coreOf t c).waiting = [] ∧ (coreOf t c).recency = m.ctx :: (coreOf s c).recency.filter (fun x => x ≠ m.ctx)) ∧
      (∀ tag cause va, m.start = .engine tag cause va → handlerOk e (ctxOf s c m.ctx).regs.upcall = true →
        ∃ t a, exec (.engineUpcallStart c) s = .next t ∧ actAt t ⟨c, none⟩ = some a ∧ a.pc = (ctxOf s c m.ctx).regs.upcall ∧
          a.upcall = true ∧ a.priv = false ∧ a.getS 1 = tag ∧ a.getS 2 = cause ∧ a.getS 3 = va ∧ a.getS 30 = top ∧
          a.cr.tcause = cause ∧ a.cr.tval = va ∧ (ctxOf t c m.ctx).regs.fibre = tag) ∧
      (∀ n, m.start = .versionMiss n → m.work = none → handlerOk e (ctxOf s c m.ctx).regs.lxmissh = true →
        ∃ t a, exec (.versionMissStart c) s = .next t ∧ actAt t ⟨c, none⟩ = some a ∧ a.pc = (ctxOf s c m.ctx).regs.lxmissh ∧
          a.qin = m.words.take 2 ∧ a.getS 1 = BitVec.ofNat 64 n ∧ a.upcall = false ∧ a.priv = (m.ctx == 0))) ∧
    (∀ n, exec (.messageAging c n) s = .next (modCore s c (fun k => { k with waiting := k.waiting.map (fun x =>
      if x.id = n ∧ 2 ^ 20 ≤ s.cyc - x.since then { x with aged := x.aged + 1, since := x.since + 2 ^ 20 } else x) })))

/-- R75, R79, R82, R86-R88, R102, R104: a waiting message of a context of higher priority makes the core switch to that context, or load it;
a switch exchanges the slots, and the outgoing activation's SLOT counts it and its buffers empty; a frame is loaded from, and stored to,
the places of R104, but the registers of a context whose activation has migrated are those of its home (R443); a frame whose CR.PART
breaks a limit is refused, as is one of which a line is lost (log 83, the model's choice); nothing pre-empts an activation whose trap
waits for its fibre record (R122); a FUSE times out with 0; a migrating activation goes on at its full core; a donation ends at its limit. -/
def Obligations.SlotEvents : Prop :=
  ∀ (s : State) (c : Nat),
    (∀ f m, (coreOf s c).active = some f → f.act.isSome = true → (coreOf s c).switching = false → (coreOf s c).quiesced = false →
      (coreOf s c).phrase = none → (coreOf s c).waiting = [m] → m.ctx ≠ f.ctx → startable s c m.ctx = true → readyGuests s c = [] →
      ((prioOf s c m.ctx ≤ prioOf s c f.ctx ∨ trapPending f.act = true) → exec (.preemption c) s = .next s) ∧
      (prioOf s c f.ctx < prioOf s c m.ctx → trapPending f.act = false → ∃ t, exec (.preemption c) s = .next t ∧ (coreOf t c).goal = some m.ctx ∧
        (coreOf t c).active = some f ∧ ((coreOf s c).shadow.map (fun x => x.ctx) = some m.ctx → (coreOf t c).switching = true ∧ (coreOf t c).streamIn = none) ∧
        (holdsSlot (coreOf s c) m.ctx = false → (coreOf s c).streamOut = false → (coreOf t c).streamIn = some m.ctx))) ∧
    (∀ f a g, (coreOf s c).switching = true → (coreOf s c).active = some ⟨f, some a⟩ → (coreOf s c).shadow = some g →
      ∃ t b, exec (.switchComplete c) s = .next t ∧ (coreOf t c).active = some { g with act := g.act.map (fun k => { k with rlb := [] }) } ∧
        (coreOf t c).shadow = some ⟨f, some b⟩ ∧ (coreOf t c).switching = false ∧ b.s = a.s ∧ b.v = a.v ∧ b.pc = a.pc ∧ b.qin = a.qin ∧ b.qout = a.qout ∧ b.rlb = [] ∧ b.fetch = [] ∧
        b.wait = a.wait.map (fun w => { w with out := true }) ∧
        b.cr = { a.cr with slot := BitVec.ofNat 64 (min (a.cr.slot.toNat % 65536 + 1) 65535 + 65536) }) ∧
    (∀ x, (coreOf s c).streamIn = some x → (coreOf s c).switching = true → exec (.streamInComplete c) s = .next s) ∧
    (∀ x, (coreOf s c).streamIn = some x → (coreOf s c).switching = false →
      let at_ := frameLoc s c x
      let part := readWord s (at_ + 0x980)
      let away := ∃ f ∈ (coreOf s c).away, f.ctx = x
      let sound := poisonedIn s at_ 4096 = none
      (sound → away → partOk (ctxOf s c x).regs.part = true → ∃ t, exec (.streamInComplete c) s = .next t ∧
        (coreOf t c).shadow = some ⟨x, none⟩ ∧ (ctxOf t c x).regs = (ctxOf s c x).regs ∧ (ctxOf t c x).entry = (ctxOf s c x).entry) ∧
      (sound → ¬away → partOk part = true → ∃ t a, exec (.streamInComplete c) s = .next t ∧ (coreOf t c).shadow = some ⟨x, a⟩ ∧
        (coreOf t c).streaming = (coreOf s c).shadow ∧ (coreOf t c).streamIn = none ∧ (coreOf t c).streamOut = (coreOf s c).shadow.isSome ∧
        (ctxOf t c x).regs.part = part ∧ (ctxOf t c x).entry.ctxgen = readWord s (at_ + 0xAA0) ∧
        ((readWord s (at_ + 0x958)).getLsbD 0 = false → a = none) ∧
        ((readWord s (at_ + 0x958)).getLsbD 0 = true → ∃ b, a = some b ∧ b.pc = readWord s (at_ + 0x950) &&& ~~~1#64 ∧
          (∀ i : SReg, i ≠ 0 → b.getS i = readWord s (at_ + 0x800 + 8 * i.toNat)) ∧
          (∀ i : EReg, b.getE i = readWord s (at_ + 0x900 + 8 * i.toNat)) ∧
          (∀ i : PReg, i ≠ 0 → b.getP i = BitVec.ofNat 16 (readNat s (at_ + 0x940 + 2 * i.toNat) 2)))) ∧
      ((¬sound ∨ (¬away ∧ partOk part = false)) → ∃ t, exec (.streamInComplete c) s = .next t ∧ x ∈ (coreOf t c).refused ∧
        (coreOf t c).shadow = (coreOf s c).shadow ∧ (coreOf t c).streamIn = none)) ∧
    (∀ x a, (coreOf s c).streamOut = true → (coreOf s c).streaming = some ⟨x, some a⟩ → (coreOf s c).goal = none →
      MemoryCanonical s → a.qin.length ≤ 63 → a.qout.length ≤ 64 →
      let at_ := frameLoc s c x
      ∃ t, exec (.streamOutComplete c) s = .next t ∧ (coreOf t c).streaming = none ∧ (coreOf t c).streamOut = false ∧
        readWord t (at_ + 0x950) = a.pc ∧ (∀ i : SReg, readWord t (at_ + 0x800 + 8 * i.toNat) = a.getS i) ∧
        readWord t (at_ + 0x980) = (ctxOf s c x).regs.part ∧
        (∀ l, (l < at_ ∨ at_ + 4096 ≤ l) → readByte t l = readByte s l)) ∧
    (∀ f g a w, (coreOf s c).fuse = some f → (coreOf s c).active = some ⟨g, some a⟩ → a.wait = some w →
      (ctxOf s c g).entry.evtmo ≠ 0 → (ctxOf s c g).entry.evtmo.toNat ≤ s.cyc - f.start →
      ∃ t, exec (.fuseTimeout c) s = .next t ∧ (coreOf t c).fuse = none ∧
        actAt t ⟨c, none⟩ = some { a.setS (BitVec.ofNat 5 w.stage) 0 with pc := a.pc + 4, wait := none }) ∧
    (∀ x a d, x ∈ (coreOf s c).migrating → (coreOf s c).active = some ⟨x, some a⟩ → performed s ⟨c, x, a.serial⟩ = true →
      unackedAny s ⟨c, x, a.serial⟩ = false → migrateTarget s c = some d →
      ∃ t, exec (.migrationComplete c x) s = .next t ∧ (coreOf t c).active = some ⟨x, none⟩ ∧ x ∉ (coreOf t c).migrating ∧
        (coreOf t c).away = (coreOf s c).away ++ [⟨x, some { a with runsOn := some d, wait := none, rlb := [], fetch := [] }⟩]) ∧
    (∀ d g, (coreOf s c).donation = some d → (coreOf s c).active = some g → g.ctx = d.holder →
      (ctxOf s c d.waiter).entry.donate.toNat ≤ s.cyc - d.start →
      ∃ t, exec (.donationLimit c) s = .next t ∧ (coreOf t c).donation = none ∧ (coreOf t c).goal = some d.waiter)

/-- R72, R107, R280, R313, R314, R351, R361: a blocked EVWAIT, MWAIT, WFE or SLEEP whose count of cycles has passed is issued once more and completes,
EVWAIT and MWAIT with 1; a fetched word that is no instruction raises ILLEGAL with the word, and a failed fetch its cause. -/
def Obligations.TimeoutAndFetchEvents : Prop :=
  (∀ (s t : State) (c : Nat) (w : Wait) (bs : List Byte) (i : Instr), waitAt s ⟨c, none⟩ = some w →
    (let u := { s with cur := ⟨c, none⟩ }
     fetchBytes u (act u).pc = .ok (t, bs)) →
    (leNat bs) % 4 = 3 → decode32 (leNat bs) = some i → Solo t → t.cur = ⟨c, none⟩ → t.cyc = s.cyc → (act t).wait = some w →
    (w.kind = 6 → (∃ b, i = .sleep b) → w.operand.toNat ≤ s.cyc - w.start →
      exec (.sleepExpire c) s = .next { after 4 t with cur := s.cur }) ∧
    (w.kind = 9 → i = .wfe → 65536 ≤ s.cyc - w.start → exec (.wfeTimeout c) s = .next { after 4 t with cur := s.cur }) ∧
    (∀ a b, w.kind = 5 → i = .mwait a b → w.out = false → watchWoken t = false → (ctxNow t).watchLost = false → w.operand ≠ 0 →
      w.operand.toNat ≤ s.cyc - w.start →
      exec (.mwaitTimeout c) s = .next { after 4 (wS (dropWatch (acquire t)) a 1) with cur := s.cur }) ∧
    (∀ a b, w.kind = 3 → i = .evwait a b → w.recheck = false → (homeDie t (ctxId t)).isSome = true →
      2 ^ 192 ≤ (eventMask (rV t b)).toNat → vectorNow t &&& eventMask (rV t b) ≠ eventMask (rV t b) →
      (entry t).evtmo = (ctxOf s c (ctxAt s ⟨c, none⟩)).entry.evtmo → (entry t).evtmo ≠ 0 → (entry t).evtmo.toNat ≤ s.cyc - w.start →
      exec (.evwaitTimeout c) s = .next { after 4 (wS t a 1) with cur := s.cur })) ∧
  (∀ (s : State) (word : BitVec 32) (cause : Cause) (va : Word), Solo s →
    exec (.reservedEncoding word) s = .next (trapped s .illegal (word.setWidth 64)) ∧
    exec (.instructionFetchFault cause va) s = .next (trapped s cause va))

/-! ### Events of launches and event vectors -/

/-- R45, R55, R59-R64, R67-R69: a launch unit checks the oldest request and answers its status or journals it; once journaled, on two
working stacks of different dies (the lowest: log 48), the launch is queued and its LAUNCH completes with 0, or with 2 where no two are
left; it is released once its wait mask is set, which CONSUME clears, at a remote home by a
confirmation; each activation's message goes to the core it is dealt to, with its work id, whose fields count its index with field 0
innermost; the last trigger
sets the set mask and retires it, whether or not the context has a home then (log 90, the model's choice). Changes of a vector reach the
mirrors, and its home moves. -/
def Obligations.LaunchEvents : Prop :=
  ∀ (s : State) (die : Nat),
    (∀ r rest, (dieOf s die).requests = r :: rest →
      let u := modDie s die (fun d => { d with requests := rest })
      let w1 := r.words.getD 1 0
      (launchStatus s die r = 0 → exec (.launchRequest die) s = .next { homeMoved u r.ctx with
        launches := s.launches ++ [⟨die, s.launchSeq, r.agent, r.ctx, r.words,
          clauseDeal s (r.words.getD 3 0) (w1.getLsbD 36) (w1.getLsbD 37), .journaling, [], [], []⟩]
        launchSeq := s.launchSeq + 1 }) ∧
      (∀ a w, launchStatus s die r ≠ 0 → actAt s ⟨r.agent.core, none⟩ = some a → ctxAt s ⟨r.agent.core, none⟩ = r.agent.ctx →
        a.wait = some w → ∃ t, exec (.launchRequest die) s = .next t ∧ t.launches = s.launches ∧
          actAt t ⟨r.agent.core, none⟩ = some { a with wait := some { w with reply := some (BitVec.ofNat 64 (launchStatus s die r)) } }) ∧
      (ctxState s r.ctx ≠ 1 → launchStatus s die r = 5) ∧
      (ctxState s r.ctx = 1 → (homeDie s r.ctx).isSome = true →
        (r.words.getD 3 0 = 0 → launchStatus s die r = 1) ∧
        (r.words.getD 3 0 ≠ 0 → w1.toNat / 2 ^ 42 ≠ 0 → launchStatus s die r = 3) ∧
        (launchStatus s die r = 0 →
          r.hlo.toNat ≤ (r.words.getD 0 0).toNat ∧ (r.words.getD 0 0).toNat < r.hhi.toNat ∧
          r.words.getD 3 0 &&& ~~~(ctxWord s r.ctx 2) = 0))) ∧
    (∀ l : Launch, s.launches = [l] → l.die = die → liveDie s die = die →
      let v := tgetD s.evec l.ctx 0
      let ready := v &&& l.waitMask = l.waitMask
      let stands : State → List Nat → LaunchStage → EvVec → Prop := fun t on x u =>
        t.launches = [{ l with stage := x, journal := on }] ∧ tgetD t.evec l.ctx 0 = u
      let answered : State → Word → Prop := fun t v => ∀ a w, actAt s ⟨l.agent.core, none⟩ = some a →
        ctxAt s ⟨l.agent.core, none⟩ = l.agent.ctx → a.wait = some w → w.kind = 0 →
        actAt t ⟨l.agent.core, none⟩ = some { a with wait := some { w with reply := some v } }
      (l.stage = .journaling → journalStacks s = [] → ∃ t, exec (.launchJournaled die) s = .next t ∧ answered t 2 ∧ t.launches = []) ∧
      (∀ x y, l.stage = .journaling → journalStacks s = [x, y] → localHome s l.ctx = some die →
        dieOfStack x ≠ dieOfStack y ∧ partFenced s.module.fenced (.stack x) = false ∧ partFenced s.module.fenced (.stack y) = false ∧
        ∃ t, exec (.launchJournaled die) s = .next t ∧ answered t 0 ∧
          (ready → l.consume = false → stands t [x, y] (.generating 0) v) ∧
          (ready → l.consume = true → stands t [x, y] (.generating 0) (v &&& ~~~l.waitMask)) ∧
          (¬ ready → stands t [x, y] .queued v)) ∧
      (l.stage = .confirming → ∃ t, exec (.consumeConfirmation die l.seq) s = .next t ∧
        (ready → stands t l.journal (.generating 0) (v &&& ~~~l.waitMask)) ∧ (¬ ready → stands t l.journal .queued v)) ∧
      (∀ n, l.stage = .generating n → n < launchTotal l.words →
        let c := dealt l n
        (coreOf s c).successor = none → canBuffer s (nodeOf s c) l.ctx 5 = true →
        ∃ t p wid, exec (.activationMessageGenerate die l.seq) s = .next t ∧ t.launches = [{ l with stage := .generating (n + 1) }] ∧
          tget t.net s.ids = some p ∧ p.dst = nodeOf s c ∧ p.ctx = l.ctx ∧ p.mprio = l.shape.toNat / 2 ^ 40 % 4 ∧
          p.payload = .message [l.words.getD 0 0, l.words.getD 12 0, l.words.getD 13 0, l.words.getD 14 0, l.words.getD 15 0]
            false 0 true 0 wid l.shape (some ⟨die, l.seq, n⟩) s.ids ∧
          wid.toNat % 2 ^ (l.shape.toNat % 64) = n % extent l.shape (l.words.getD 2 0) 0 ∧
          (fieldOff l.shape 6 ≤ 64 → ∀ f < 6, wid.toNat / 2 ^ fieldOff l.shape f % 2 ^ fieldWidth l.shape f =
            n / (List.range f).foldl (fun m g => m * extent l.shape (l.words.getD 2 0) g) 1 % extent l.shape (l.words.getD 2 0) f)) ∧
      (∀ idx, Solo s → released s = true → (act s).work = some ⟨die, l.seq, idx⟩ → (act s).triggered = false → idx ∉ l.triggered →
        l.stage ≠ .retired → l.triggered.length + 1 = launchTotal l.words →
        ∃ t, exec .trig s = .next t ∧ tgetD t.evec l.ctx 0 = v ||| l.setMask ∧
          t.launches = [{ l with triggered := l.triggered ++ [idx], stage := .retired, states := tset l.states idx 2 }])) ∧
    (∀ ctx v, s.launches = [] → s.mirrorQ = [(ctx, die, v)] → ∃ t, exec (.eventMirrorUpdate ctx die) s = .next t ∧
      tget (dieOf t die).mirrors ctx = some v ∧ t.mirrorQ = [] ∧ t.evec = s.evec) ∧
    (∀ ctx d, s.launches = [] → homeDie s ctx = some d → localDie s d = some die →
      (tget s.evHome ctx = some d → exec (.eventVectorHomeMove ctx) s = .next s) ∧
      (tget s.evHome ctx ≠ some d → ∃ t, exec (.eventVectorHomeMove ctx) s = .next t ∧
      t.evec = s.evec ∧ tget t.evHome ctx = some d ∧ localHome t ctx = some die ∧ tget (dieOf t die).mirrors ctx = none ∧
      ∀ e o, tget s.evHome ctx = some e → localDie s e = some o → o ≠ die →
        tget (dieOf t o).mirrors ctx = some (tgetD s.evec ctx 0)))

/-! ### Events of the engines -/

/-- R13, R213-R222, R377, R379-R384: a waiting MLEASE is granted a free entry; a turn passes to a ready lease; a forfeited lease parks its
tiles; the engine takes the current lease's next command: MZERO and MBMETA set, MLDB fills the B-store, a dense MMA adds to every used
entry the exact sum of its products with one rounding, unless passes are withheld; a drain sends its entries, then its wake, of which it
keeps a copy until that is accepted (R46). A lease is forfeited once the commands that were queued when its context left are done; a
command that is queued later brings it back into the rotation. That an MMACODE counts as a pass is the model's choice (log 40), as is the
place of a parked tile (log 19). -/
def Obligations.MatrixEvents : Prop :=
  ∀ (s : State) (cl : Nat),
    (∀ r rest, (clauseOf s cl).leaseReqs = r :: rest →
      (16 ≤ (clauseOf s cl).leases.length → exec (.mleaseGrant cl) s = .next s) ∧
      ((clauseOf s cl).leases = [] → (clauseOf s cl).current = none → clauseOfCore r.core = cl → r.tiles ≤ 4 →
        ∃ t l, exec (.mleaseGrant cl) s = .next t ∧ (clauseOf t cl).leases = [l] ∧ l.core = r.core ∧ l.ctx = r.ctx ∧ l.queue = [] ∧
          l.places = (List.range r.tiles).map TilePlace.phys ∧ (clauseOf t cl).leaseReqs = rest ∧
          (clauseOf t cl).current = some (r.core, r.ctx))) ∧
    (exec (.tileMoveComplete cl) s = .next (modClause s cl (fun c => { c with moves := c.moves - 1 }))) ∧
    (∀ l m, (clauseOf s cl).leases = [l, m] → (clauseOf s cl).current = some (l.core, l.ctx) → (clauseOf s cl).moves = 0 →
      clauseOfCore l.core = cl → clauseOfCore m.core = cl → (l.core, l.ctx) ≠ (m.core, m.ctx) → leaseReady m = true → l.taken = false →
      ((leaseReady l = false ∨ (ctxOf s l.core l.ctx).entry.lease.toNat ≤ l.turn) →
        ∃ t, exec (.leaseTurn cl) s = .next t ∧ (clauseOf t cl).current = some (m.core, m.ctx)) ∧
      (leaseReady l = true → l.turn < (ctxOf s l.core l.ctx).entry.lease.toNat → exec (.leaseTurn cl) s = .next s)) ∧
    (∀ l, (clauseOf s cl).leases = [l] → clauseOfCore l.core = cl →
      let part := partOf s l.core l.ctx
      let base := scratchBase l.core part
      let gone : List MatCmd → Lease := fun rest => { l with queue := rest, turn := l.turn + 1, progress := 0, taken := false, forfeit := l.forfeit.map (fun k => k - 1) }
      (∀ x k, l.forfeit = some 0 → l.held = none → l.places = [.phys x] → l.passes = [k] →
        (ctxOf s l.core l.ctx).parkMap = [] → MemoryCanonical s →
        ∃ t, exec (.leaseForfeit cl) s = .next t ∧
          (clauseOf t cl).leases = [{ l with places := [.parked 0], forfeit := none, out := l.queue.isEmpty, waitSince := s.cyc }] ∧
          (clauseOf t cl).current ≠ some (l.core, l.ctx) ∧ (ctxOf t l.core l.ctx).parkMap = [(0, ⟨0, k⟩)] ∧
          (k ≠ 0 → ∀ i < 16384,
            readNat t (parkLoc s l.core l.ctx 0 + 6 * i) 6 = (tgetD (tgetD (clauseOf s cl).tiles x []) i 0).toNat)) ∧
      ((clauseOf s cl).current = some (l.core, l.ctx) → (clauseOf s cl).moves = 0 → l.held = none → l.out = false → l.taken = false →
        l.forfeit ≠ some 0 →
        (∀ t x rest, l.queue = .mzero t :: rest → l.places.getD t .unassigned = .phys x →
          ∃ u, exec (.matrixCommandRun cl) s = .next u ∧ (clauseOf u cl).leases = [{ gone rest with passes := setAt l.passes t 0 }] ∧
            (clauseOf u cl).tiles = tset (clauseOf s cl).tiles x []) ∧
        (∀ m rest, l.queue = .mbmeta m :: rest →
          ∃ u, exec (.matrixCommandRun cl) s = .next u ∧ (clauseOf u cl).leases = [{ gone rest with mask := m }]) ∧
        (∀ src e0 rest, l.queue = .mldb src e0 :: rest → rangeOf src = .window 0 → src.toNat % 64 = 0 → l.progress = 0 →
          windowOff src + 128 ≤ scratchSize (ctxOf s l.core l.ctx).regs.part → MemoryCanonical s → s.memos = [] → poisonAbout s = false →
          (∀ x, (x = 0 ∨ x = 64) → ownPending s (matrixWho s l.core l.ctx).agent
            (scratchBase l.core (ctxOf s l.core l.ctx).regs.part + windowOff src + x) 64 = false) →
          e0.toNat / 2 ^ 32 = 0 → e0.toNat / 2 ^ 24 % 256 = 0 → e0.toNat / 2 ^ 8 % 128 = 0 →
          ∃ u, exec (.matrixCommandRun cl) s = .next u ∧ (clauseOf u cl).leases = [gone rest] ∧ ∀ i < 128,
            readByte u (bstoreLoc cl (32768 * (e0.toNat % 128) + 128 * (e0.toNat / 2 ^ 16 % 256)) + i) =
              readByte s (scratchBase l.core (ctxOf s l.core l.ctx).regs.part + windowOff src + i)) ∧
        (s.module.withheld = true →
          (∀ t a e0 e1 g rest, l.queue = .mma t a e0 e1 g :: rest → exec (.matrixCommandRun cl) s = .next s) ∧
          (∀ t a e0 rest, l.queue = .mmacode t a e0 :: rest → exec (.matrixCommandRun cl) s = .next s)) ∧
        (∀ t y a e0 e1 g rest, l.queue = .mma t a e0 e1 g :: rest → s.module.withheld = false → l.places.getD t .unassigned = .phys y →
          let x := mmaArgs a e0 e1 g
          let tile := tgetD (clauseOf s cl).tiles y []
          x.sparse = 0 → x.scaled = false → x.p = 1 → poisonAbout s = false → (ctxOf s l.core l.ctx).regs.mswz.getLsbD 8 = false → risingFrom 0 tile = true →
          ∃ u, exec (.matrixCommandRun cl) s = .next u ∧
            (clauseOf u cl).leases = [{ gone rest with passes := setAt l.passes t (l.passes.getD t 0 + 1) }] ∧
            (∀ j m, x.j0 ≤ j → j < x.j0 + x.n → m < x.m →
              let aByte : Nat → Nat := fun i => (readByte s (base + x.off + m * x.stride + i)).toNat
              let bByte : Nat → Nat := fun i => (readByte s (bstoreLoc cl (32768 * j) + 128 * x.b0 + i)).toNat
              let terms := (List.range (depthOf x.afmt)).map (fun k => (blockElem x.afmt aByte k).mul (blockElem x.bfmt bByte k))
              tgetD (tgetD (clauseOf u cl).tiles y []) (128 * j + m) 0 =
                BitVec.ofNat 48 (a48.sum (a48.decode (tgetD tile (128 * j + m) 0).toNat :: terms)).1) ∧
            (∀ i, (i / 128 < x.j0 ∨ x.j0 + x.n ≤ i / 128 ∨ x.m ≤ i % 128) →
              tgetD (tgetD (clauseOf u cl).tiles y []) i 0 = tgetD tile i 0)) ∧
        (∀ t d e0 e1 e2 rest, l.queue = .mdrain t d e0 e1 e2 :: rest → ∃ u, exec (.matrixCommandRun cl) s = .next u ∧
          (clauseOf u cl).leases = [{ l with taken := true }] ∧ u.net = s.net)) ∧
      (∀ t d e0 e1 e2 rest dst c y, (clauseOf s cl).current = some (l.core, l.ctx) → l.taken = true → l.queue = .mdrain t d e0 e1 e2 :: rest →
        cmapEntry s (ctxOf s l.core l.ctx).entry (d.toNat % 2 ^ 21) = some dst → dst.host = false →
        takerOf s dst = some c → l.places.getD t .unassigned = .phys y →
        let c0 := e1.toNat % 1024
        let n := e1.toNat / 2 ^ 24 % 128 + 1
        let m := e1.toNat / 2 ^ 16 % 128 + 1
        let tile := tgetD (clauseOf s cl).tiles y []
        (drainEntries (partOf s c l.ctx) < 128 * (c0 + n) → ∃ u, exec (.drainSizeReply cl) s = .next u ∧
          (clauseOf u cl).leases = [gone rest] ∧ u.net = s.net ∧ (clauseOf u cl).tiles = (clauseOf s cl).tiles) ∧
        (128 * (c0 + n) ≤ drainEntries (partOf s c l.ctx) → ∃ u, exec (.drainSizeReply cl) s = .next u ∧
          (clauseOf u cl).leases = [{ gone rest with passes := setAt l.passes t 0 }] ∧ tgetD (clauseOf u cl).tiles y [] = [] ∧
          (∀ j < n, ∃ p, tget u.net (s.ids + j) = some p ∧ p.dst = dst ∧ p.path = 0 ∧ p.ctx = l.ctx ∧
            p.payload = .drain (128 * (c0 + j)) m ((List.range m).map (fun r => tgetD tile (128 * j + r) 0))) ∧
          (∃ p w1 src, tget u.net (s.ids + n) = some p ∧ p.dst = dst ∧ p.path = 0 ∧ p.payload = .wake [e0, w1, e2] src (s.ids + n) ∧
            (coreOf u l.core).unacked = (coreOf s l.core).unacked ++ [⟨s.ids + n, dst, p⟩] ∧
            w1 = BitVec.ofNat 64 (128 * c0 + (m - 1) * 2 ^ 17 + (n - 1) * 2 ^ 25 + t * 2 ^ 32)))))

/-- R138, R224-R226, R231-R233, R363: the copy unit moves a transfer's next piece; a finished transfer writes its mailbox and queues its
upcall, and leaves; a cancelled one leaves as cancelled; a sleep to a promise ends. A collective runs its next step: SEND, COPY, LOOP and
END; an arrived step packet is buffered, unless 64 KiB ahead of the step that is being taken are, and an abort notice ends the program,
whose step in progress leaves its buffers as they were (by what means, and which accesses are left out: log 32, the model's choice, as is
the dropping of step packets to a program that has aborted: log 45). -/
def Obligations.CopyAndCollectiveEvents : Prop :=
  ∀ (s : State) (cl : Nat),
    (∀ j : CopyJob, (clauseOf s cl).copies = [j] → j.held = none →
      let part := (ctxOf s j.core j.ctx).regs.part
      let flags := j.regs.getD 4 0
      let hnd := j.regs.getD 5 0
      let moved := copyPiece j
      let swz := j.regs.getD 6 0
      let dst := swizzle (swz.getLsbD 8) (swz.toNat % 32) moved.2.1
      let ag := (copyWho s j.core j.ctx j.id).agent
      let pad : Word → Nat := fun a => scratchBase j.core part + windowOff a
      let free : Word → Nat → Prop := fun a n => rangeOf a = .window 0 ∧ windowOff a + n ≤ scratchSize part ∧
        ownPending s ag (pad a) n = false ∧ poisonAbout s = false ∧ s.memos = []
      (j.cancel = false → j.sort = none → j.progress < copyTotal j → free moved.1 moved.2.2 → free dst moved.2.2 → MemoryCanonical s →
        ∃ t, exec (.memoryAccessPerform (.copy cl j.id)) s = .next t ∧
          (clauseOf t cl).copies = [{ j with progress := j.progress + moved.2.2 }] ∧
          readBytes t (pad dst) moved.2.2 = readBytes s (pad moved.1) moved.2.2 ∧
          ∀ l, (l < pad dst ∨ pad dst + moved.2.2 ≤ l) → readByte t l = readByte s l) ∧
      (j.cancel = false → j.progress < copyTotal j → exec (.copyTransferComplete cl j.id) s = .next s) ∧
      (j.cancel = false → copyTotal j ≤ j.progress → jobQuiet s ag = true → flags.getLsbD 2 = false →
        (flags.getLsbD 1 = false → ∃ t, exec (.copyTransferComplete cl j.id) s = .next t ∧ (clauseOf t cl).copies = [] ∧
          (clauseOf t cl).cancelled = (clauseOf s cl).cancelled ∧ SameMemory s t ∧
          (flags.getLsbD 0 = true → ∃ m, (coreOf t j.core).waiting = (coreOf s j.core).waiting ++ [m] ∧ m.ctx = j.ctx ∧
            m.start = .copyDone hnd j.id ∧ m.mprio = 3)) ∧
        (flags.getLsbD 1 = true → j.mailed = false → free hnd 8 → MemoryCanonical s →
          ∃ t, exec (.copyTransferComplete cl j.id) s = .next t ∧ (clauseOf t cl).copies = [] ∧
            readNat t (pad hnd) 8 = (2 ^ 63 + j.id) % 2 ^ 64)) ∧
      (j.cancel = true → jobQuiet s ag = true → flags.getLsbD 1 = false → flags.getLsbD 2 = false →
        ∃ t, exec (.copyCancelStop cl j.id) s = .next t ∧ (clauseOf t cl).copies = [] ∧
          (clauseOf t cl).cancelled = (clauseOf s cl).cancelled ++ [(j.id, j.core * 4096 + j.ctx)]) ∧
      (∀ a w, actAt s ⟨j.core, none⟩ = some a → ctxAt s ⟨j.core, none⟩ = j.ctx → a.wait = some w → w.kind = 4 → w.operand.toNat = j.id →
        (s.cyc < j.promise → exec (.copyPromiseExpire cl j.id) s = .next s) ∧
        (j.promise ≤ s.cyc → ∃ t, exec (.copyPromiseExpire cl j.id) s = .next t ∧
          actAt t ⟨j.core, none⟩ = some { a with wait := some { w with woke := true } }))) ∧
    (∀ c : Coll, (clauseOf s cl).colls = [c] → c.held = none → c.ending = none → c.status % 2 = 0 → ∀ (w : Word) (u : State),
      engLoad s (c.engine s) (c.words.getD 0 0 + BitVec.ofNat 64 (8 * c.step)) 8 = .ok u (leBytes 8 w.toNat) →
      (clauseOf u cl).colls = [c] → stepIllegal c c.step w = false →
      let op := w.toNat / 2 ^ 60
      let pm := w.toNat / 2 ^ 58 % 4
      let buf := w.toNat / 2 ^ 47 % 4
      let count := w.toNat % 2 ^ 24
      let i := c.counters.getD pm 0
      let set : Nat → List Nat := fun v => (List.range 4).map (fun k => if k = pm then v else c.counters.getD k 0)
      (op = 6 → ∃ t, exec (.collectiveStepRun cl c.handle) s = .next t ∧ (clauseOf t cl).colls =
        [if i < w.toNat / 2 ^ 42 % 2 ^ 16 then { c with counters := set (i + 1), step := count, sentStep := false, awaits := none, undo := [] }
          else { c with counters := set 0, step := c.step + 1, sentStep := false, awaits := none, undo := [] }] ∧ SameMemory u t) ∧
      (∀ bs d u1 u2, op = 1 → stepLoad u c w buf = .ok u1 bs →
        rankNode u1 c (peerOf c.rank c.n pm (stepK w)) = .ok u2 d → exec (.collectiveStepRun cl c.handle) s =
          .next (nextStep (sendStep u2 cl c (peerOf c.rank c.n pm (stepK w)) d count bs) cl c 0)) ∧
      (∀ bs u1 u2, op = 4 → stepLoad u c w buf = .ok u1 bs → stepStore u1 cl c w pm bs = .ok u2 () →
        exec (.collectiveStepRun cl c.handle) s = .next (nextStep u2 cl c 0)) ∧
      (let part := (ctxOf u c.core c.ctx).regs.part
       let mail := scratchBase c.core part + windowOff c.mbox
       op = 0 → jobQuiet u c.agent = true → c.mailed = false → rangeOf c.mbox = .window 0 → windowOff c.mbox + 8 ≤ scratchSize part →
        ownPending u c.agent mail 8 = false → poisonAbout u = false → (c.words.getD 3 0).getLsbD 8 = false → MemoryCanonical u →
        ∃ t, exec (.collectiveStepRun cl c.handle) s = .next t ∧ (clauseOf t cl).colls = [] ∧
          readNat t mail 8 = (2 ^ 63 + c.cid * 2 ^ 32 + c.status) % 2 ^ 64)) ∧
    (∀ n p core c, arrivedAt s n = some (p, core) → core / 8 = cl → (clauseOf s cl).colls = [c] → c.core = core → c.ctx = p.ctx →
      (∀ sender chk bs, p.payload = .step c.cid sender chk bs →
        let held : Nat → Nat := fun d => ((c.inbox.filter (fun x => x.1 = d)).map (fun x => x.2.2.length)).sum
        let all := (c.inbox.map (fun x => x.2.2.length)).sum
        let ahead := match c.awaits with
          | some (d, k) => all - min k (held d)
          | none => all
        let wanted := ∃ k, c.awaits = some (sender, k) ∧ held sender < k
        ((wanted ∨ ahead + bs.length ≤ 65536) →
          exec (.collectiveStepArrival n) s = .next (modClause (takePkt s n) cl (fun k => { k with
            colls := [{ c with inbox := c.inbox ++ [(sender, chk, bs)] }] }))) ∧
        (¬wanted → 65536 < ahead + bs.length → exec (.collectiveStepArrival n) s = .next s)) ∧
      (p.payload = .abort c.cid false → c.ending = none → ∀ a old,
        let v := dropSteps (forget (endWalks (takePkt s n) (c.engine s)) c.core c.ctx (jobUnit 2 c.handle)) c
        let loc := scratchBase c.core (ctxOf v c.core c.ctx).regs.part + windowOff a
        exec (.collectiveAbortNotice n) s = .next (collEnding (modColl (undoStores v c) cl c.handle (fun k => { k with
          ending := some (k.status ||| 1), held := none, sentStep := false, mailed := false, blame := c.blame, undo := [] })) cl c.handle) ∧
        (c.undo = [(a, old)] → rangeOf a = .window 0 → windowOff a + old.length ≤ scratchSize (ctxOf v c.core c.ctx).regs.part → v.memos = [] →
          ownPending v c.agent loc old.length = false → poisonAbout v = false → MemoryCanonical v →
          readBytes (undoStores v c) loc old.length = old ∧
          ∀ l, (l < loc ∨ loc + old.length ≤ l) → readByte (undoStores v c) l = readByte v l)) ∧
      (p.payload = .abort c.cid false → c.ending = none → c.undo = [] →
        let d : Coll := { c with ending := some (c.status ||| 1), held := none, sentStep := false, mailed := false }
        let u := modClause (dropSteps (forget (endWalks (takePkt s n) (c.engine s)) c.core c.ctx (jobUnit 2 c.handle)) c) cl
          (fun k => { k with colls := [d] })
        ∀ u1 ds, otherRanks u d (List.range c.n) = .ok u1 ds → (clauseOf u1 cl).colls = [d] →
          let part := (ctxOf u1 c.core c.ctx).regs.part
          let mail := scratchBase c.core part + windowOff c.mbox
          jobQuiet u1 c.agent = true → memoOf u1 (c.engine u1) true c.mbox.toNat 8 = none → rangeOf c.mbox = .window 0 →
          windowOff c.mbox + 8 ≤ scratchSize part → ownPending u1 c.agent mail 8 = false → poisonAbout u1 = false →
          (c.words.getD 3 0).getLsbD 8 = false → MemoryCanonical u1 →
          ∃ t, exec (.collectiveAbortNotice n) s = .next t ∧ (clauseOf t cl).colls = [] ∧
            readNat t mail 8 = (2 ^ 63 + c.cid * 2 ^ 32 + (c.status ||| 1)) % 2 ^ 64 ∧
            ∀ i (h : i < ds.length), ∃ q, tget t.net (u1.ids + i) = some q ∧ q.dst = ds[i] ∧ q.ctx = c.ctx ∧
              q.payload = .abort c.cid (c.blame == some ds[i])))

/-- R248-R255, R256-R260, R402, R404, R407-R410: the parser's sweep stops at a beat boundary with code 3, ends with code 1 once every
element is done and with code 2 where it ran no lane and QUIET is set, each end performed once the notes of the core have been applied;
a sweep that ran a lane, missed a change, or awaits an event bit that is set, repeats from beat 0 at the rotation's tail; one that ran
none sleeps. A beat that runs one lane stores its value and its context word, and its notes act: on its own descriptor at once, on
another core by a packet; a lane that errs ends the sweep with code 4 and queues ECERR with its element. An outside change acts on its
element, and clears its skip bit, or is counted as dropped; a value write stores. A signature lease is granted once its slots are free; the engine runs the
current lease's command. The model's choices: that a change on a beat already read makes the sweep repeat, in which allotment a dropped
change is counted and which notes wait for earlier ones (log 43), the mirror that a sleeping sweep keeps (log 90), and that a lease
takes the lowest free slots (log 19). -/
def Obligations.ParserAndSignatureEvents : Prop :=
  ∀ (s : State) (c : Nat),
    (∀ ctx t d rest, (coreOf s c).rotation = (ctx, t) :: rest → (coreOf s c).quiesced = false → partFenced s.module.fenced (.core c) = false →
      tget (ctxOf s c ctx).descs t = some d → sweepEnds s c = s →
      let left := (coreOf s c).rotation.filter (fun r => r ≠ (ctx, t))
      let done := { d with active := false, asleep := false, stopping := false, ending := false }
      let ran : (State → Desc → Prop) → Prop := fun h => ∃ u x, exec (.sweepBeat c) s = .next u ∧ tget (ctxOf u c ctx).descs t = some x ∧ h u x
      (d.stopping = true → notesOut s c ctx = false → d.e0.getLsbD 46 = false →
        ran (fun u x => x = { done with endCode := 3 } ∧ (coreOf u c).rotation = left ∧ u.evec = s.evec)) ∧
      (d.stopping = true → notesOut s c ctx = true →
        ran (fun u x => x = { done with endCode := 3, active := true, ending := true } ∧ (coreOf u c).rotation = left ∧ u.evec = s.evec)) ∧
      (d.stopping = true → notesOut s c ctx = false → d.e0.getLsbD 46 = true → (homeDie s ctx).isSome = true → s.launches = [] →
        ran (fun u _ => tgetD u.evec ctx 0 = tgetD s.evec ctx 0 ||| (1#256 <<< (d.e0.toNat / 2 ^ 38 % 256)))) ∧
      (d.stopping = false → nextBeat s c ctx d = none →
        let swept := (d.sweeps + 1) % 2 ^ 32
        let someLeft := ∃ i < d.count, (elemWord s c ctx d i).toNat / 2 ^ 8 % 16 ≠ 15
        let quiet := d.ran = false ∧ d.e0.getLsbD 37 = true
        let due := evtDue s c ctx d (vectorAt s ctx (unitOf c)) = true
        let settled := homeDie s ctx = none ∨ tget s.evHome ctx = homeDie s ctx
        (notesOut s c ctx = false → d.e0.getLsbD 46 = false → ¬ someLeft →
          ran (fun u x => x = { done with endCode := 1, sweeps := swept } ∧ (coreOf u c).rotation = left)) ∧
        (notesOut s c ctx = false → d.e0.getLsbD 46 = false → someLeft → quiet →
          ran (fun u x => x = { done with endCode := 2, sweeps := swept } ∧ (coreOf u c).rotation = left)) ∧
        (someLeft → ¬ quiet → (d.ran = true ∨ d.missed = true ∨ (settled ∧ due)) →
          ran (fun u x => x = { d with sweeps := swept, active := true, asleep := false, beat := 0, ran := false, missed := false } ∧
            (coreOf u c).rotation = left ++ [(ctx, t)] ∧ SameMemory s u)) ∧
        (someLeft → ¬ quiet → d.ran = false → d.missed = false → settled → ¬ due →
          ran (fun u x => x = { d with sweeps := swept, active := false, asleep := true, beat := 0 } ∧ (coreOf u c).rotation = left ∧
            (evtLane s c ctx d = true → ∀ e, unitOf c = some e → localHome s ctx = some e ∨ (tget (dieOf u e).mirrors ctx).isSome = true)))) ∧
      (∀ b, d.stopping = false → nextBeat s c ctx d = some b → poisonAbout s = false →
        let is := ((List.range 16).map (· + 16 * b)).filter (· < d.count)
        let vals := is.map (fun i => readNat s (recordLoc s c ctx d i) d.size)
        let out := laneOf s c ctx t d b vals (vectorAt s ctx (unitOf c))
        (∀ i, i ∈ is → out i = .bad → (∀ k ∈ is, k < i → out k ≠ .bad) → notesOut s c ctx = false → d.e0.getLsbD 46 = false →
          ran (fun u x => x = { done with endCode := 4 } ∧ SameMemory s u ∧ ∃ m, (coreOf u c).waiting = (coreOf s c).waiting ++ [m] ∧
            m.ctx = ctx ∧ m.mprio = 3 ∧ ∃ tag, m.start = .engine tag (BitVec.ofNat 64 Cause.ecerr.code) (BitVec.ofNat 64 i))) ∧
        (∀ i l, i ∈ is → out i = .run l → (∀ k ∈ is, k ≠ i → out k = .rest) → b + 1 < (d.count + 15) / 16 → d.active = true →
          d.ending = false → MemoryCanonical s → frameHere s c ctx = true →
          (let rec_ := d.e0.toNat % 2 ^ 20
           let skip := d.e1.toNat % 2 ^ 20
           skip + (d.count + 7) / 8 ≤ rec_ ∨ rec_ + 16 * d.count ≤ skip) →
          let w := laneWord (elemWord s c ctx d i) l
          (l.notes = [] → ran (fun u x => x = { d with beat := b + 1, ran := true } ∧ elemWord u c ctx d i = w ∧
            (∀ y, l.store = some y → readNat u (recordLoc s c ctx d i) d.size = y % 2 ^ (8 * d.size)) ∧
            (l.store = none → readNat u (recordLoc s c ctx d i) 8 = readNat s (recordLoc s c ctx d i) 8) ∧ u.net = s.net)) ∧
          (∀ e, l.notes = [.change 1 [⟨e, t, none⟩]] → e < d.count → e ≠ i →
            ran (fun u x => x = { d with beat := b + 1, ran := true } ∧ elemWord u c ctx d i = w ∧
              elemWord u c ctx d e = elemWord s c ctx d e ||| 0x1000 ∧ skipBit u c ctx d e = false)) ∧
          (∀ op e q dst, l.notes = [.change op [⟨e, q, some dst⟩]] →
            ran (fun u _ => ∃ p, tget u.net s.ids = some p ∧ p.dst = dst ∧ p.ctx = ctx ∧ p.path = 0 ∧ p.payload = .change q e op)) ∧
          (∀ v e q dst, l.notes = [.value v [⟨e, q, some dst⟩]] →
            ran (fun u _ => ∃ p, tget u.net s.ids = some p ∧ p.dst = dst ∧ p.ctx = ctx ∧ p.path = 0 ∧
              p.payload = .value q e (BitVec.ofNat 64 v)))))) ∧
    (∀ n p, arrivedAt s n = some (p, c) →
      (∀ t i op, p.payload = .change t i op → noteHeld s n p = false →
        ((tget (ctxOf s c p.ctx).descs t = none ∨ ∃ d, tget (ctxOf s c p.ctx).descs t = some d ∧ d.count ≤ i) →
          let part := partOf s c p.ctx
          let counted := if (ctxOf s c p.ctx).dropsAt = some part then tgetD (ctxOf s c p.ctx).drops t 0 else 0
          let alloted := partOk part = true ∧ (holdsSlot (coreOf s c) p.ctx = true ∨ (coreOf s c).saveb ≠ 0)
          ∃ u, exec (.remoteChangeArrival n) s = .next u ∧
            (alloted → tgetD (ctxOf u c p.ctx).drops t 0 = min 65535 (counted + 1) ∧ (ctxOf u c p.ctx).dropsAt = some part) ∧
            (¬ alloted → (ctxOf u c p.ctx).drops = (ctxOf s c p.ctx).drops)) ∧
        (∀ d, tget (ctxOf s c p.ctx).descs t = some d → i < d.count → d.asleep = false → MemoryCanonical s →
          frameHere s c p.ctx = true →
          (let skip := scratchBase c (partOf s c p.ctx) + d.e1.toNat % 2 ^ 20 + i / 8
           skip < recordLoc s c p.ctx d i + 8 ∨ recordLoc s c p.ctx d i + 16 ≤ skip) →
          let w := elemWord s c p.ctx d i
          ∃ u, exec (.remoteChangeArrival n) s = .next u ∧ skipBit u c p.ctx d i = false ∧
            (op = 0 → w.toNat / 2 ^ 16 % 2 ^ 16 ≠ 0 → elemWord u c p.ctx d i = w - 0x10000) ∧
            (op = 1 → elemWord u c p.ctx d i = w ||| 0x1000) ∧
            (op = 2 → w.toNat / 2 ^ 8 % 16 = 4 → elemWord u c p.ctx d i = w &&& ~~~0xF00#64) ∧
            (op = 0 → w.toNat / 2 ^ 16 % 2 ^ 16 = 0 → elemWord u c p.ctx d i = w ∧
              ∃ x, tget (ctxOf u c p.ctx).descs t = some x ∧ x.under = true))) ∧
      (∀ t i v d, p.payload = .value t i v → noteHeld s n p = false → tget (ctxOf s c p.ctx).descs t = some d → i < d.count →
        exec (.valueWriteArrival n) s = .next (storeAt (takePkt s n) p.ctx (recordLoc s c p.ctx d i) (leBytes d.size v.toNat)))) ∧
    (choose s c = none → exec (.versionMissStart c) s = .next s) ∧
    (∀ r, (clauseOf s (c / 8)).sigReqs = [r] → r.core / 8 = c / 8 →
      ((sigFree (clauseOf s (c / 8))).length < r.k → exec (.signatureLeaseGrant (c / 8)) s = .next s) ∧
      (r.k ≤ (sigFree (clauseOf s (c / 8))).length → ∃ u, exec (.signatureLeaseGrant (c / 8)) s = .next u ∧
        (clauseOf u (c / 8)).sigReqs = [] ∧ (clauseOf u (c / 8)).sigLeases = (clauseOf s (c / 8)).sigLeases ++
          [⟨r.core, r.ctx, r.d, r.n, (sigFree (clauseOf s (c / 8))).take r.k, [], 0, s.cyc⟩])) ∧
    (∀ l cmd rest, (clauseOf s (c / 8)).sigLeases = [l] → l.core / 8 = c / 8 → (clauseOf s (c / 8)).sigCurrent = some (l.core, l.ctx) →
      l.queue = cmd :: rest →
      let slots := (clauseOf s (c / 8)).sigSlots
      let ph : BitVec 2 → Nat := fun i => l.slots.getD i.toNat 0
      let get : BitVec 2 → SigSlot := fun i => tgetD slots (ph i) ⟨0, 0, []⟩
      ∃ u, exec (.signatureCommandRun (c / 8)) s = .next u ∧
        (clauseOf u (c / 8)).sigLeases = [{ l with queue := rest, turn := l.turn + 1 }] ∧ (clauseOf u (c / 8)).sigSlots = (sigRun slots l cmd).1 ∧
        (∀ (i : BitVec 2) x, cmd = .zero i.toNat x → (clauseOf u (c / 8)).sigSlots = tset slots (ph i) ⟨x, x, []⟩) ∧
        (∀ (i : BitVec 2) x y, cmd = .tag i.toNat x y →
          (clauseOf u (c / 8)).sigSlots = tset slots (ph i) { get i with startTag := x, endTag := y }) ∧
        (∀ (i : BitVec 2) x, cmd = .step i.toNat x → ∃ r, tget (clauseOf u (c / 8)).sigSlots (ph i) = some r ∧
          r.startTag = (get i).startTag ∧ r.endTag = (get i).endTag + 1) ∧
        (∀ (i j k : BitVec 2) a w, cmd = .join i.toNat j.toNat k.toNat → actAt s ⟨l.core, none⟩ = some a →
          ctxAt s ⟨l.core, none⟩ = l.ctx → a.wait = some w → w.stage = 21 →
          ((get j).endTag ≠ (get k).startTag → (clauseOf u (c / 8)).sigSlots = slots ∧ actAt u ⟨l.core, none⟩ = some { a with
            wait := some { w with reply := some (BitVec.ofNat 64 (1 + 2 * (get j).endTag.toNat)) } }) ∧
          ((get j).endTag = (get k).startTag → actAt u ⟨l.core, none⟩ = some { a with wait := some { w with reply := some 0 } } ∧
            ∃ r, tget (clauseOf u (c / 8)).sigSlots (ph i) = some r ∧ r.startTag = (get j).startTag ∧ r.endTag = (get k).endTag)))

/-! ### Events of the module -/

/-- R13, R31-R33, R36, R38, R44, R50, R51, R90, R139, R146: start-up stages; the first writes of FACC0, FACC1 and MODNUM, and CTXTAB
unless a context is live; withheld passes; a failed stack or link is fenced, with its status and notice, and the messages at a failed
link are lost; an uncorrectable line is poisoned, and ends its owner's context or traps application core 0; notices and MSI-X vectors
become messages of application cores, but a notice whose handler fails the check of R99 traps; a card's access is performed under the
function entry in force, held while it waits, or completed with its status; a removed core is quiesced, and its successor takes its
place. The model's choices, no rule's: the image's place (log 53) and the waiting cores (log 60); that the bits of FACC are all in force for
a context created before the second write (log 17); which parts may fail at start-up, and how (log 52); the trap on application core 0
for a line that no context owns (log 16); an MSI-X message's fields (log 30); the notice that fails the check (log 64); how long a
function entry is held (log 65); and when a removal may go on (log 46). -/
def Obligations.ModuleEvents : Prop :=
  ∀ (s : State),
    (exec .powerOn s = .next { s with module := { s.module with powered := true } }) ∧
    (s.module.powered = true → s.module.halt = false →
      (∀ failed, s.module.stage = 0 →
        exec (.startupStageComplete failed true) s = .next { s with module := { s.module with stage := 1, flashSumOk := true } } ∧
        (∃ t, exec (.startupStageComplete failed false) s = .next t ∧ t.module.halt = true ∧ step t = .fault .halted)) ∧
      (∀ p checksum, s.module.stage = 3 → p ∉ s.module.fenced → exec (.startupStageComplete [p] checksum) s = .next { s with module :=
        { s.module with stage := 4, fenced := s.module.fenced ++ [p], degraded := true, replace := true } }) ∧
      (∀ checksum, s.module.stage = 4 → ∃ t, exec (.startupStageComplete [] checksum) s = .next t ∧ t.module.stage = 5 ∧
        (∀ loc, readByte t loc = 0 ∧ ownerOf t loc = 0) ∧ t.poison = []) ∧
      (∀ failed checksum, s.module.stage = 6 → s.module.fenced = [] → MemoryCanonical s →
        ∃ t, exec (.startupStageComplete failed checksum) s = .next t ∧ t.module.stage = 7 ∧
          readBytes t 0 s.module.flash.length = s.module.flash ∧
          ∀ i < 32, ∃ a, actAt t ⟨8192 + i, none⟩ = some a ∧ ctxAt t ⟨8192 + i, none⟩ = 0 ∧ a.pc = s.module.flashEntry &&& ~~~1#64 ∧ a.priv = true ∧
            (i = 0 ↔ a.wait = none))) ∧
    (∀ v : Word,
      (s.module.facc0 = none → exec (.faccWrite false v) s = .next { s with module := { s.module with
        facc0 := some v, early := if s.module.facc1.isSome then created s else s.module.early } }) ∧
      (s.module.facc0.isSome = true → exec (.faccWrite false v) s = .next s) ∧
      (s.module.facc1 = none → exec (.faccWrite true v) s = .next { s with module := { s.module with
        facc1 := some v, early := if s.module.facc0.isSome then created s else s.module.early } }) ∧
      (s.module.facc1.isSome = true → exec (.faccWrite true v) s = .next s) ∧
      (s.module.modnum = none → exec (.modnumWrite v) s = .next { s with module := { s.module with modnum := some (v.toNat % 64) } }) ∧
      (s.module.modnum.isSome = true → exec (.modnumWrite v) s = .next s) ∧
      ((∀ x < 4096, ctxState s x ≠ 1) →
        exec (.ctxtabWrite v) s = .next { s with module := { s.module with ctxtab := v &&& ~~~(0xFFFFF#64) } }) ∧
      ((∃ x < 4096, ctxState s x = 1) → exec (.ctxtabWrite v) s = .next s)) ∧
    (exec .passWithhold s = .next { s with module := { s.module with withheld := true } }) ∧
    (exec .withheldPassesIssued s = .next { s with module := { s.module with withheld := false } }) ∧
    (∀ p, p ∈ s.module.fenced → exec (.partFailure p) s = .next s) ∧
    (∀ n, s.launches = [] → s.dies = [] →
      let fence : Part → State := fun p =>
        { s with module := { s.module with fenced := s.module.fenced ++ [p], degraded := true, replace := true } }
      (.stack n ∉ s.module.fenced → exec (.partFailure (.stack n)) s =
        .next (notice (fence (.stack n)) 4 [3, BitVec.ofNat 64 n, modStateWord (fence (.stack n)), 0])) ∧
      (.link n ∉ s.module.fenced →
        let t : State := { fence (.link n) with net := s.net.map (fun p =>
          (p.1, if p.2.pos = .link n ∧ isMessage p.2 = true then { p.2 with pos := .lost } else p.2)) }
        exec (.partFailure (.link n)) s = .next (notice t 4 [4, BitVec.ofNat 64 n, modStateWord t, 0]))) ∧
    (∀ line,
      exec (.scrubLine line false) s = .next s ∧
      (line ∉ s.poison → ownerOf s (64 * line) = 0 → ∀ a, actAt s ⟨8192, none⟩ = some a →
        ∃ t b, exec (.scrubLine line true) s = .next t ∧ t.poison = s.poison ++ [line] ∧ actAt t ⟨8192, none⟩ = some b ∧
          b.pc = (coreOf s 8192).tvec &&& ~~~1#64 ∧ b.priv = true ∧ b.cr.tcause = BitVec.ofNat 64 Cause.uncorrectable.code ∧
          b.cr.tval = BitVec.ofNat 64 (64 * line) ∧ b.cr.tpc = a.pc) ∧
      (line ∉ s.poison → ownerOf s (64 * line) ≠ 0 →
        ∃ t, exec (.scrubLine line true) s = .next t ∧ t.poison = s.poison ++ [line] ∧
          (∀ k f, (coreOf t k).active = some f → f.ctx ≠ ownerOf s (64 * line)) ∧
          (∀ l ∈ t.launches, l.ctx ≠ ownerOf s (64 * line)))) ∧
    (hostLoad s 8192 < 256 → ∀ n rest, s.module.notices = n :: rest →
      let h := s.module.noticeh
      let w1 := BitVec.ofNat 64 ((n.headD 0).toNat + min 65535 s.module.noticesLost * 256)
      let s1 : State := { s with module := { s.module with notices := rest, noticesLost := 0 } }
      (¬(ctxState s 0 = 1 ∧ handlerOk (tableEntry s 0) h = false) → ∃ t m, exec .noticeDelivery s = .next t ∧ t.module.notices = rest ∧
        t.module.noticesLost = 0 ∧ (coreOf t 8192).hostq = (coreOf s 8192).hostq ++ [m] ∧ (coreOf t 8192).msgIrq = true ∧ m.origin = 2 ∧
        m.words = h :: w1 :: n.tail) ∧
      (ctxState s 0 = 1 → handlerOk (tableEntry s 0) h = false → tgetD s.faultCount 0 0 < (ctxWord s 0 10).toNat → ∀ u a,
        writeMem s1 (recordWho s1 8192 0) (ctxWord s 0 9 + BitVec.ofNat 64 (64 * tgetD s.faultCount 0 0))
          (([0x36#64, 0, 0, h, w1] ++ (List.range 3).map (fun i => n.getD (i + 1) 0)).flatMap (fun x => leBytes 8 x.toNat)) = .ok u () →
        actAt u ⟨8192, none⟩ = some a → ∃ t b, exec .noticeDelivery s = .next t ∧ t.module.notices = rest ∧
          tgetD t.faultCount 0 0 = tgetD s.faultCount 0 0 + 1 ∧ actAt t ⟨8192, none⟩ = some b ∧
          b.cr.tcause = BitVec.ofNat 64 Cause.hbounds.code ∧ b.cr.tval = h ∧ b.cr.tpc = a.pc ∧ b.priv = true ∧
          b.pc = (coreOf u 8192).tvec &&& ~~~1#64)) ∧
    (∀ port vector i, tget s.module.msix (65536 * port + vector) = some i → partFenced s.module.fenced (.rootPort port) = false →
      hostLoad s (8192 + i % 32) < 256 → ∃ t m, exec (.msixVector port vector) s = .next t ∧
        (coreOf t (8192 + i % 32)).hostq = (coreOf s (8192 + i % 32)).hostq ++ [m] ∧ (coreOf t (8192 + i % 32)).msgIrq = true ∧
        m.words.length = 1 ∧ m.origin = 2 ∧ m.nosrc = true ∧ m.ctx = 0 ∧ m.mprio = 3) ∧
    (∀ r : PortReq, partFenced s.module.fenced (.rootPort r.port) = false →
      let fn := (functionEntry (newId s) r).1
      let e := (functionEntry (newId s) r).2
      let w := portWho fn s.ids r e
      let done : State → Nat → List Byte → Prop := fun t status bs => t.module.portDone =
        if r.write then s.module.portDone else s.module.portDone ++ [⟨r.port, r.requester, status, bs⟩]
      let refusal : State → Nat → Nat → Prop := fun t cause status => exec (.portRequest r) s = .next t ∧ SameMemory s t ∧
        done t status [] ∧ (s.module.notices.length < 64 → t.module.notices = s.module.notices ++
          [[3, BitVec.ofNat 64 (r.port % 8 + r.requester % 65536 * 65536), BitVec.ofNat 64 cause, r.va, 0]])
      (∀ x, tget s.module.portFns (65536 * r.port + r.requester) = some x → e = x ∧ fn = newId s) ∧
      (tget s.module.portFns (65536 * r.port + r.requester) = none →
        (poisonedIn s (functionLoc s r) 16 = none → e = (readWord s (functionLoc s r), readWord s (functionLoc s r + 8))) ∧
        tget fn.module.portFns (65536 * r.port + r.requester) = some e) ∧
      (e.1.getLsbD 63 = false → ∃ t, refusal t 0 1) ∧
      (e.1.getLsbD 63 = true → rangeOf r.va ≠ .paged → ∃ t, refusal t Cause.notmapped.code 1) ∧
      (e.1.getLsbD 63 = true → rangeOf r.va = .paged →
        (r.write = false → ∀ loc ls, translateAll fn w .load [(r.va.toNat, r.len)] = .ok [[(loc, none, r.len)]] ls →
          ownPending (commitLeaves fn w .load ls) w.agent loc r.len = false → (s.heldPorts = false ∨ 2 ^ 48 ≤ loc) → ∃ t, exec (.portRequest r) s = .next t ∧
            done t 0 (readBytes (commitLeaves fn w .load ls) loc r.len)) ∧
        (r.write = true → ∀ loc ls, translateAll fn w .store [(r.va.toNat, r.bytes.length)] = .ok [[(loc, none, r.bytes.length)]] ls →
          ownPending (commitLeaves fn w .store ls) w.agent loc r.bytes.length = false → (s.heldPorts = false ∨ 2 ^ 48 ≤ loc) → s.memos = [] →
          exec (.portRequest r) s = .next (storeAt (commitLeaves fn w .store ls) w.ctx loc r.bytes)) ∧
        (∀ c v, c ≠ .uncorrectable →
          translateAll fn w (if r.write then .store else .load) [(r.va.toNat, if r.write then r.bytes.length else r.len)] = .fault c v →
          ∃ t, refusal t c.code (if c = .notmapped ∨ c = .walknonres ∨ c = .walkremote then 1 else 2)) ∧
        (∀ va x, translateAll fn w (if r.write then .store else .load) [(r.va.toNat, if r.write then r.bytes.length else r.len)] =
          .wait va x → ∃ t, exec (.portRequest r) s = .next t ∧ SameMemory s t ∧ t.module.portDone = s.module.portDone ∧
            t.module.portHeld = s.module.portHeld ++ [⟨s.ids, r⟩]))) ∧
    (∀ c d, (isApp c = true ∨ (coreOf s c).successor.isSome = true) → exec (.coreRemoval c d) s = .next s) ∧
    (∀ c d, isApp c = false → (coreOf s c).successor = none →
      let u := quiesce s c
      (coreOf u c).quiesced = true ∧ (removalReady u c d = false → exec (.coreRemoval c d) s = .next u) ∧
      (removalReady u c d = true → s.net = [] → c / 8 = d / 8 → (coreOf s c).phrase = none →
        ∃ t, exec (.coreRemoval c d) s = .next t ∧ (coreOf t c).successor = some d ∧ (coreOf t c).quiesced = true ∧
          (coreOf t c).active = none ∧ (coreOf t c).waiting = [] ∧
          (coreOf t d).waiting = (coreOf s d).waiting ++ (coreOf s c).waiting))

/-! ### Decoding, stepping and reset -/

/-- R270, R276-R278, R280: words worked out in the encoding chapter, halfword by halfword, decode to the instruction that they stand
for; a reserved halfword, a word of the reserved space, a reserved major and a scope of 6 decode to none, each by its name. -/
def Obligations.DecodeWords : Prop :=
  decodeBytes [0x6B, 0x14, 0x00, 0x00] = .ok (.qpop 20 0, 4) ∧
  decodeBytes [0x03, 0x08, 0x51, 0x00] = .ok (.add false 8 8 20, 4) ∧
  decodeBytes [0x17, 0x28, 0x0C, 0x00] = .ok (.shli 8 1 3, 4) ∧
  decodeBytes [0x07, 0x6D, 0x01, 0x40] = .ok (.addi 13 11 0x1000, 4) ∧
  decodeBytes [0x2B, 0x88, 0x9A, 0x00] = .ok (.ldd 8 20 1, 4) ∧
  decodeBytes [0x2F, 0x00, 0x0D, 0x00] = .ok (.std 0 8 0, 4) ∧
  decodeBytes [0x33, 0xAE, 0x01, 0xA1] = .ok (.stlf true .die 14 13, 4) ∧
  decodeBytes [0x33, 0x00, 0x00, 0x00] = .ok (.lda false .core 0 0, 4) ∧
  decodeBytes [0x1F, 0x07, 0x00, 0x04] = .ok (.lui 7 0x2000, 4) ∧
  decodeBytes [0x3B, 0x0A, 0x80, 0xFF] = .ok (.beq 10 0 0x3FE0, 4) ∧
  decodeBytes [0x6F, 0x00, 0x80, 0x01] = .ok (.endh, 4) ∧
  decodeBytes [0x38, 0x05] = .ok (.cQpop 20 0, 2) ∧ decodeBytes [0x08, 0xA2] = .ok (.cAdd 8 20, 2) ∧
  decodeBytes [0x16, 0x40] = .ok (.cStdr 0 8, 2) ∧ decodeBytes [0x34, 0x00] = .ok (.cEndh, 2) ∧
  decodeBytes [0x22, 0x50] = .ok (.cJ 10, 2) ∧ decodeBytes [0x1C, 0xEA] = .ok (.cAddi 8 0x1D, 2) ∧
  decodeBytes [0x02, 0x00] = .error (.reservedHalfword 2) ∧
  decodeBytes [0x01, 0x00, 0x00, 0x00] = .error (.reservedSpace 1) ∧
  decodeBytes [0x67, 0x00, 0x00, 0x00] = .error (.undefinedWord 0x67) ∧
  decodeBytes [0x33, 0x00, 0x00, 0xE1] = .error (.undefinedWord 0xE1000033)

/-- Every well-formed instruction that the encoding tables give a word (R270-R278) has one of two or four bytes, and the decoder reads
exactly that instruction, every operand at its value, from the word's bytes, whatever bytes follow. -/
def Obligations.DecodeOfEncode : Prop :=
  ∀ (i : Instr) (n w : Nat) (rest : List Byte), i.WellFormed → encode i = some (n, w) →
    (n = 2 ∨ n = 4) ∧ w < 2 ^ (8 * n) ∧ decodeBytes (encodeBytes i ++ rest) = .ok (i, n)

/-- R270, R280, R282: where the agenda names an activation that may issue, a step fetches at its pc, decodes and runs the instruction,
and a cycle passes, in which what is held tries again, waiting walkers look again and contexts no longer live are forgotten (log 55). A word that is no instruction raises ILLEGAL with itself in CR.TVAL, a
failing fetch raises its cause, and a waiting one leaves the activation. With an empty fetch buffer the bytes decoded are those of
memory at the location that pc translates to, and their line is buffered. What the instruction asked of other modules is forgotten once
it is complete. A trap that waits for its fibre record is delivered before anything is fetched (R116), and a part that a ring or link
fault names is fenced before all else (log 67). -/
def Obligations.StepRunsDecoded : Prop :=
  ∀ (s : State) (c : Cur) (r : List Agenda),
    let s1 := { s with agenda := r }
    let s0 := clearBoot { s1 with cur := c }
    let next : Host.Outcome State Fault Refusal → Host.Outcome State Fault Refusal := fun o =>
      match o with
      | .next t => .next { settleContexts (passWalks (retryHeld t) 1) with cyc := t.cyc + 1 }
      | x => x
    let run : Instr → State → Host.Outcome State Fault Refusal := fun i t =>
      match exec i t with
      | .next u => .next (if u.memos = [] then u else forgetIssued u (issuers s0 c) c.away (ctxId s0))
      | x => x
    let filled : Nat → State := fun loc => pushLine s0 ⟨loc / 64, readBytes s0 (loc / 64 * 64) 64, s0.cyc⟩
    let fetched : Nat → List TlbEntry → State := fun loc ls =>
      forget (commitLeaves (filled loc) (fetchWho (filled loc)) .fetch ls) (home s0) (ctxId s0) 8
    s.module.halt = false →
    (∀ p ps, s.module.suspects = p :: ps →
      step s = next (.next (partFailure { s with module := { s.module with suspects := ps } } p))) ∧
    (s.module.suspects = [] → s.agenda = (match c.away with | none => .core c.core | some x => .away c.core x) :: r →
      (mayIssue s1 c = false → step s = next (.next s1)) ∧
      (mayIssue s1 c = true → ∀ cause tval ph, pendingTrap s0 = some (cause, tval, ph) →
        step s = next (.next (forgetIssued (deliverTrap s0 ph cause tval) [c.core] c.away (ctxId s0)))) ∧
      (mayIssue s1 c = true → pendingTrap s0 = none →
        (∀ t bs i n, fetchBytes s0 (act s0).pc = .ok (t, bs) → decodeBytes bs = .ok (i, n) → step s = next (run i t)) ∧
        (∀ t bs e, fetchBytes s0 (act s0).pc = .ok (t, bs) → decodeBytes bs = .error e →
          step s = next (run (.reservedEncoding (BitVec.ofNat 32 e.word)) t)) ∧
        (∀ t f va, fetchBytes s0 (act s0).pc = .error (.fault t f va) → step s = next (run (.instructionFetchFault f va) t)) ∧
        (∀ t, fetchBytes s0 (act s0).pc = .error (.wait t) → step s = next (.next t)) ∧
        (∀ loc ls i n, (act s0).fetch = [] → s0.heldPorts = false → loc % 64 + 2 ≤ 64 → (readByte s0 loc).getLsbD 0 = false →
          fetchSpan s0 (act s0).pc 2 = .ok [[(loc, none, 2)]] ls → decodeBytes (readBytes s0 loc 2) = .ok (i, n) →
          step s = next (run i (fetched loc ls))) ∧
        (∀ loc ls l2 i n, (act s0).fetch = [] → s0.heldPorts = false → loc % 64 + 4 ≤ 64 → (readByte s0 loc).getLsbD 0 = true →
          fetchSpan s0 (act s0).pc 2 = .ok [[(loc, none, 2)]] l2 → fetchSpan (filled loc) (act s0).pc 4 = .ok [[(loc, none, 4)]] ls →
          decodeBytes (readBytes s0 loc 4) = .ok (i, n) → step s = next (run i (fetched loc ls)))))

/-- R29, R39, R86, R279, R280: the fates of a defined encoding before its own effect. On an application core every engine instruction
raises ILLEGAL; without its feature bit a lexicon, parser, signature, binary64, extended-accumulator or COLLGO instruction raises
ILLEGAL; a lean core migrates an extension D instruction to a full core, or raises EXTABSENT; a privileged one raises PRIV in
user mode. CR.TVAL is the instruction word. -/
def Obligations.DecodeFates : Prop :=
  ∀ (s : State) (a b c : SReg) (va vb vc : VRegN) (p pa : PReg) (sc : Scope) (i j k t g : BitVec 2) (m : BitVec 3) (n : BitVec 4)
    (nw : Bool),
    let lexicon : List Instr := [.lxcfg a b c, .lxput a b c, .lxget a b c, .lxver a b, .lxenc a b c, .lxsend sc a b c, .lxdec a b c,
      .lxmiss nw a b, .lxretry b, .glset a b c, .glinv b c, .glstat a b]
    let parser : List Instr := [.ecdecl t, .ecsweep t, .ecwake t b c, .ecstat a t, .ecstop t, .ecread a b t]
    let signature : List Instr := [.sgcfg a b, .sgzero i b, .sgstep i vb, .sgjoin i j k, .sglog i j, .sgld i b, .sgst i b, .sgtag i b c]
    let others : List Instr := [.mlease nw a m, .mldb b, .mbmeta vb, .mma n t b, .mmacode t b, .mzero t, .mdrain t b, .mstat a,
      .mrelease, .cpwait b, .cpstat a b, .cpcancel b, .cpsort a n, .gbind g n b, .gunbind n, .collgo b, .collwait a b]
    let double : List Instr := [.vfadd true p va vb vc, .vfsub true p va vb vc, .vfmul true p va vb vc, .vfma true p va vb vc,
      .vfms true p va vb vc, .vfnma true p va vb vc, .vfdiv true p va vb vc, .vfsqrt true p va vb, .vfmin true p va vb vc,
      .vfmax true p va vb vc, .vfabs true p va vb, .vfneg true p va vb, .vfceq true p pa vb vc, .vfclt true p pa vb vc,
      .vfcle true p pa vb vc, .vfadds true p va vb c, .vfmuls true p va vb c, .vfredsum true p a vb, .vfdot true p a vb vc,
      .vcvtwf true p va vb, .vcvtfw true p va vb, .vcvtfd p va vb, .vcvtdf p va vb, .vxacc true p va vb, .vxrnd true p va vb]
    let fate : List Instr → Cause → Prop := fun l f => ∀ x ∈ l, exec x s = .next (trapped s f x.tval)
    Solo s →
    (isApp (runCore s) = true → fate (lexicon ++ parser ++ signature ++ others) .illegal) ∧
    (featureFor s (ctxId s) 0 = false → fate lexicon .illegal) ∧ (featureFor s (ctxId s) 1 = false → fate parser .illegal) ∧
    (featureFor s (ctxId s) 2 = false → fate signature .illegal) ∧ (featureFor s (ctxId s) 3 = false → fate double .illegal) ∧
    (featureFor s (ctxId s) 5 = false → fate [.vxacc nw p va vb, .vxrnd nw p va vb] .illegal) ∧
    (featureFor s (ctxId s) 9 = false → fate [.collgo b] .illegal) ∧
    (isApp (runCore s) = false → runCore s % 8 < 6 → featureFor s (ctxId s) 3 = true → featureFor s (ctxId s) 5 = true →
      (canMigrate s = false → fate double .extabsent) ∧
      (canMigrate s = true → ∀ x ∈ double, ∃ u, exec x s = .next u ∧
        (coreOf u (home s)).migrating = (coreOf s (home s)).migrating ++ [ctxId s] ∧ act u = { act s with wait := none })) ∧
    ((act s).priv = false → fate [.eret, .halt, .tlbinv sc b c, .tlbinva sc b] .priv)

/-- R125-R131, R133, R134, R144: the walk. Through valid nodes at levels 1 and 2 it reads the entry of level 3; a valid leaf there that
permits the access gives its frame with the low 16 bits of the address. The checks of a leaf are made in order: PRIV, GROUP, then
those of the access kind. An entry that is not valid gives NOTMAPPED, one with M = 1 waits, a node with N = 1 WALKNONRES, a node of
tier 2 WALKREMOTE; a prefetch makes no check of its own. With no walker free, the access waits for one (R135). Once an access has
passed, its leaf is buffered with the accessed bit set, and the dirty bit for a store or an atomic (neither for a prefetch), in the
entry too if that still holds what the walk read, and no other byte changes. -/
def Obligations.Translation : Prop :=
  ∀ (s : State) (who : Who) (k : AccKind) (va : Nat) (w1 w2 w3 m3 : Word),
    let walk := translate1 s who va k
    let frame : Word → Nat := fun w => (w.extractLsb' 16 32).toNat * 65536
    let inTier : Word → Prop := fun w =>
      (w.extractLsb' 10 2 = 0 ∧ inHbm (frame w) = true) ∨ (w.extractLsb' 10 2 = 1 ∧ inTier2 (frame w) = true)
    let entry : Word → Prop := fun w => w.getLsbD 0 = true ∧ w.getLsbD 9 = false ∧ w &&& 0xFFFF_0000_0000_E000#64 = 0
    let node : Word → Prop := fun w => entry w ∧ w.getLsbD 1 = false ∧ w.getLsbD 12 = false ∧ w.getLsbD 16 = false ∧ inTier w
    let at1 := who.root + 16 * (va / 2 ^ 42 % 8192)
    let at3 := frame w2 + 16 * (va / 2 ^ 16 % 8192)
    va < 2 ^ 55 → (tlbOf s who.tlb).find? (tlbCovers who.asid va) = none → poisonAbout s = false → readWord s at1 = w1 →
    (walkerFree s who va = false → walk = .busy) ∧
    (walkerFree s who va = true → (w1.getLsbD 0 = false → walk = .fault .notmapped) ∧
    (w1.getLsbD 0 = true → w1.getLsbD 9 = true → walk = .migrating at1) ∧
    (entry w1 → w1.getLsbD 1 = false → w1.extractLsb' 10 2 ≠ 3 → w1.getLsbD 12 = true → walk = .fault .walknonres) ∧
    (entry w1 → w1.getLsbD 1 = false → w1.getLsbD 12 = false → w1.extractLsb' 10 2 = 2 → walk = .fault .walkremote) ∧
    (node w1 → readWord s (frame w1 + 16 * (va / 2 ^ 29 % 8192)) = w2 → node w2 → readWord s at3 = w3 → readWord s (at3 + 8) = m3 →
      (w3.getLsbD 0 = false → walk = .fault .notmapped) ∧ (entry w3 → w3.getLsbD 1 = false → walk = .fault .notmapped) ∧
      (entry w3 → w3.getLsbD 1 = true → inTier w3 →
        let leaf : TlbEntry := ⟨who.asid, 3, va / 2 ^ 16, w3, m3, at3⟩
        let found : WalkRes := .ok (frame w3 + va % 2 ^ 16) none leaf
        (w3.getLsbD 6 = true → who.priv = false → walk = .fault .priv) ∧
        ((w3.getLsbD 6 = false ∨ who.priv = true) →
          (∀ g, who.group = some g → m3.getLsbD g = false → walk = .fault .group) ∧
          ((∀ g, who.group = some g → m3.getLsbD g = true) →
            (k = .load → walk = if w3.getLsbD 2 then found else .fault .read) ∧
            (k = .store → walk = if w3.getLsbD 3 then found else .fault .write) ∧
            (k = .fetch → walk = if w3.getLsbD 4 then found else .fault .exec) ∧
            (k = .atomic → walk = if w3.getLsbD 3 = false then .fault .write else if w3.getLsbD 5 = false then .fault .atomic
              else if w3.getLsbD 2 then found else .fault .read) ∧
            (k = .prefetch → walk = found))) ∧
        (MemoryCanonical s →
          let w := w3 ||| (if k = .prefetch then 0#64 else if k = .store ∨ k = .atomic then 0x180#64 else 0x100#64)
          let t := commitLeaves s who k [leaf]
          readWord t at3 = w ∧ { leaf with w0 := w } ∈ tlbOf t who.tlb ∧
          (∀ loc, (loc < at3 ∨ at3 + 8 ≤ loc) → readByte t loc = readByte s loc)))))

/-- R32, R36-R38, R102, R123, R145, R220, R238: at reset every control register that the manual gives a reset value reads that value, on
every core and for every context; the module is in standby with every table empty, no part fenced, FACC0, FACC1 and MODNUM not yet
written, and no core runs an activation. Memory then lists nothing and is in canonical form. The model's choices: every byte reads 0 (log 7), and the links that
lead to other modules are named by nothing yet (log 66). -/
def Obligations.ResetState : Prop :=
  (∀ (c : Cur), ∀ p ∈ ([(0x002, 0), (0x004, 0), (0x005, 0), (0x006, 0x80001), (0x007, 0), (0x00A, 0), (0x00B, 0), (0x010, 0), (0x011, 0),
      (0x012, 0), (0x013, 0), (0x015, 0), (0x016, 0), (0x017, 0), (0x018, 0), (0x019, 0), (0x01A, 0), (0x01B, 0), (0x01C, 0), (0x01D, 0),
      (0x01E, 0), (0x020, 0), (0x021, 0), (0x022, 1), (0x023, 0), (0x028, 0), (0x029, 0), (0x02A, 0), (0x02B, 0), (0x031, 7), (0x03B, 0),
      (0x03C, 0), (0x03D, 0), (0x050, Config.feat0), (0x051, 0), (0x052, 0), (0x100, 0), (0x101, 0), (0x102, 0), (0x103, 0), (0x104, 0),
      (0x105, 0), (0x106, 0), (0x110, 0), (0x111, 0), (0x112, 0)] : List (Nat × Word)),
    readCr { State.reset with cur := c } p.1 = some p.2) ∧
  State.reset.module.stage = 0 ∧ State.reset.module.powered = false ∧ State.reset.module.halt = false ∧
  State.reset.module.facc0 = none ∧ State.reset.module.facc1 = none ∧ State.reset.module.modnum = none ∧
  State.reset.module.fenced = [] ∧ State.reset.module.suspects = [] ∧ State.reset.module.linkTable = [] ∧ linksUp State.reset = false ∧
  (∀ c, actAt State.reset c = none ∧ coreOf State.reset c.core = Core.init) ∧ (∀ n, clauseOf State.reset n = Clause.init) ∧
  (∀ b, b ∈ ([0, 1, 2, 3, 4, 5, 6, 7, 8, 9, 10] : List Nat) → featureOn State.reset b = true) ∧
  State.reset.net = [] ∧ State.reset.launches = [] ∧ (∀ loc, readByte State.reset loc = 0) ∧ MemoryCanonical State.reset

/-! ### What every step does -/

/-- A step gives a next state in every state of a module that start-up did not stop: no instruction, no event and no operand ends a run
(an event that the agenda names where it cannot happen changes nothing: log 54). A halted module steps no more (R33). -/
def Obligations.StepGoesOn : Prop :=
  ∀ s : State, (s.module.halt = true → step s = .fault .halted) ∧ (s.module.halt = false → ∃ t, step s = .next t)

/-- Every step, whatever it runs, keeps memory in its one canonical form. -/
def Obligations.StepKeepsMemoryCanonical : Prop :=
  ∀ s t : State, MemoryCanonical s → step s = .next t → MemoryCanonical t
end

