-- ==== Sys2Proof/Laws/State.lean ====
section
/-!
SUPPORT. Laws/State.lean: one lemma per field per update of the state: what each shared update leaves alone.
-/

namespace Sys2Proof.Machine

variable (s : State)

/-! ### setCore -/

@[simp] theorem setCore_mem (c : Nat) (x : Core) : (setCore s c x).mem = s.mem := rfl
@[simp] theorem setCore_undef (c : Nat) (x : Core) : (setCore s c x).undef = s.undef := rfl
@[simp] theorem setCore_owners (c : Nat) (x : Core) : (setCore s c x).owners = s.owners := rfl
@[simp] theorem setCore_poison (c : Nat) (x : Core) : (setCore s c x).poison = s.poison := rfl
@[simp] theorem setCore_clauses (c : Nat) (x : Core) : (setCore s c x).clauses = s.clauses := rfl
@[simp] theorem setCore_dies (c : Nat) (x : Core) : (setCore s c x).dies = s.dies := rfl
@[simp] theorem setCore_module (c : Nat) (x : Core) : (setCore s c x).module = s.module := rfl
@[simp] theorem setCore_evec (c : Nat) (x : Core) : (setCore s c x).evec = s.evec := rfl
@[simp] theorem setCore_evHome (c : Nat) (x : Core) : (setCore s c x).evHome = s.evHome := rfl
@[simp] theorem setCore_mirrorQ (c : Nat) (x : Core) : (setCore s c x).mirrorQ = s.mirrorQ := rfl
@[simp] theorem setCore_launches (c : Nat) (x : Core) : (setCore s c x).launches = s.launches := rfl
@[simp] theorem setCore_net (c : Nat) (x : Core) : (setCore s c x).net = s.net := rfl
@[simp] theorem setCore_reqs (c : Nat) (x : Core) : (setCore s c x).reqs = s.reqs := rfl
@[simp] theorem setCore_walks (c : Nat) (x : Core) : (setCore s c x).walks = s.walks := rfl
@[simp] theorem setCore_memos (c : Nat) (x : Core) : (setCore s c x).memos = s.memos := rfl
@[simp] theorem setCore_locks (c : Nat) (x : Core) : (setCore s c x).locks = s.locks := rfl
@[simp] theorem setCore_mailboxes (c : Nat) (x : Core) : (setCore s c x).mailboxes = s.mailboxes := rfl
@[simp] theorem setCore_grants (c : Nat) (x : Core) : (setCore s c x).grants = s.grants := rfl
@[simp] theorem setCore_invals (c : Nat) (x : Core) : (setCore s c x).invals = s.invals := rfl
@[simp] theorem setCore_fibres (c : Nat) (x : Core) : (setCore s c x).fibres = s.fibres := rfl
@[simp] theorem setCore_faultCount (c : Nat) (x : Core) : (setCore s c x).faultCount = s.faultCount := rfl
@[simp] theorem setCore_faultPending (c : Nat) (x : Core) : (setCore s c x).faultPending = s.faultPending := rfl
@[simp] theorem setCore_ids (c : Nat) (x : Core) : (setCore s c x).ids = s.ids := rfl
@[simp] theorem setCore_launchSeq (c : Nat) (x : Core) : (setCore s c x).launchSeq = s.launchSeq := rfl
@[simp] theorem setCore_cyc (c : Nat) (x : Core) : (setCore s c x).cyc = s.cyc := rfl
@[simp] theorem setCore_freeCtr (c : Nat) (x : Core) : (setCore s c x).freeCtr = s.freeCtr := rfl
@[simp] theorem setCore_heldPorts (c : Nat) (x : Core) : (setCore s c x).heldPorts = s.heldPorts := rfl
@[simp] theorem setCore_agenda (c : Nat) (x : Core) : (setCore s c x).agenda = s.agenda := rfl
@[simp] theorem setCore_cur (c : Nat) (x : Core) : (setCore s c x).cur = s.cur := rfl

/-! ### modCore -/

@[simp] theorem modCore_mem (c : Nat) (f : Core → Core) : (modCore s c f).mem = s.mem := rfl
@[simp] theorem modCore_undef (c : Nat) (f : Core → Core) : (modCore s c f).undef = s.undef := rfl
@[simp] theorem modCore_owners (c : Nat) (f : Core → Core) : (modCore s c f).owners = s.owners := rfl
@[simp] theorem modCore_poison (c : Nat) (f : Core → Core) : (modCore s c f).poison = s.poison := rfl
@[simp] theorem modCore_clauses (c : Nat) (f : Core → Core) : (modCore s c f).clauses = s.clauses := rfl
@[simp] theorem modCore_dies (c : Nat) (f : Core → Core) : (modCore s c f).dies = s.dies := rfl
@[simp] theorem modCore_module (c : Nat) (f : Core → Core) : (modCore s c f).module = s.module := rfl
@[simp] theorem modCore_evec (c : Nat) (f : Core → Core) : (modCore s c f).evec = s.evec := rfl
@[simp] theorem modCore_evHome (c : Nat) (f : Core → Core) : (modCore s c f).evHome = s.evHome := rfl
@[simp] theorem modCore_mirrorQ (c : Nat) (f : Core → Core) : (modCore s c f).mirrorQ = s.mirrorQ := rfl
@[simp] theorem modCore_launches (c : Nat) (f : Core → Core) : (modCore s c f).launches = s.launches := rfl
@[simp] theorem modCore_net (c : Nat) (f : Core → Core) : (modCore s c f).net = s.net := rfl
@[simp] theorem modCore_reqs (c : Nat) (f : Core → Core) : (modCore s c f).reqs = s.reqs := rfl
@[simp] theorem modCore_walks (c : Nat) (f : Core → Core) : (modCore s c f).walks = s.walks := rfl
@[simp] theorem modCore_memos (c : Nat) (f : Core → Core) : (modCore s c f).memos = s.memos := rfl
@[simp] theorem modCore_locks (c : Nat) (f : Core → Core) : (modCore s c f).locks = s.locks := rfl
@[simp] theorem modCore_mailboxes (c : Nat) (f : Core → Core) : (modCore s c f).mailboxes = s.mailboxes := rfl
@[simp] theorem modCore_grants (c : Nat) (f : Core → Core) : (modCore s c f).grants = s.grants := rfl
@[simp] theorem modCore_invals (c : Nat) (f : Core → Core) : (modCore s c f).invals = s.invals := rfl
@[simp] theorem modCore_fibres (c : Nat) (f : Core → Core) : (modCore s c f).fibres = s.fibres := rfl
@[simp] theorem modCore_faultCount (c : Nat) (f : Core → Core) : (modCore s c f).faultCount = s.faultCount := rfl
@[simp] theorem modCore_faultPending (c : Nat) (f : Core → Core) : (modCore s c f).faultPending = s.faultPending := rfl
@[simp] theorem modCore_ids (c : Nat) (f : Core → Core) : (modCore s c f).ids = s.ids := rfl
@[simp] theorem modCore_launchSeq (c : Nat) (f : Core → Core) : (modCore s c f).launchSeq = s.launchSeq := rfl
@[simp] theorem modCore_cyc (c : Nat) (f : Core → Core) : (modCore s c f).cyc = s.cyc := rfl
@[simp] theorem modCore_freeCtr (c : Nat) (f : Core → Core) : (modCore s c f).freeCtr = s.freeCtr := rfl
@[simp] theorem modCore_heldPorts (c : Nat) (f : Core → Core) : (modCore s c f).heldPorts = s.heldPorts := rfl
@[simp] theorem modCore_agenda (c : Nat) (f : Core → Core) : (modCore s c f).agenda = s.agenda := rfl
@[simp] theorem modCore_cur (c : Nat) (f : Core → Core) : (modCore s c f).cur = s.cur := rfl

/-! ### modCtx -/

@[simp] theorem modCtx_mem (c x : Nat) (f : CtxCore → CtxCore) : (modCtx s c x f).mem = s.mem := rfl
@[simp] theorem modCtx_undef (c x : Nat) (f : CtxCore → CtxCore) : (modCtx s c x f).undef = s.undef := rfl
@[simp] theorem modCtx_owners (c x : Nat) (f : CtxCore → CtxCore) : (modCtx s c x f).owners = s.owners := rfl
@[simp] theorem modCtx_poison (c x : Nat) (f : CtxCore → CtxCore) : (modCtx s c x f).poison = s.poison := rfl
@[simp] theorem modCtx_clauses (c x : Nat) (f : CtxCore → CtxCore) : (modCtx s c x f).clauses = s.clauses := rfl
@[simp] theorem modCtx_dies (c x : Nat) (f : CtxCore → CtxCore) : (modCtx s c x f).dies = s.dies := rfl
@[simp] theorem modCtx_module (c x : Nat) (f : CtxCore → CtxCore) : (modCtx s c x f).module = s.module := rfl
@[simp] theorem modCtx_evec (c x : Nat) (f : CtxCore → CtxCore) : (modCtx s c x f).evec = s.evec := rfl
@[simp] theorem modCtx_evHome (c x : Nat) (f : CtxCore → CtxCore) : (modCtx s c x f).evHome = s.evHome := rfl
@[simp] theorem modCtx_mirrorQ (c x : Nat) (f : CtxCore → CtxCore) : (modCtx s c x f).mirrorQ = s.mirrorQ := rfl
@[simp] theorem modCtx_launches (c x : Nat) (f : CtxCore → CtxCore) : (modCtx s c x f).launches = s.launches := rfl
@[simp] theorem modCtx_net (c x : Nat) (f : CtxCore → CtxCore) : (modCtx s c x f).net = s.net := rfl
@[simp] theorem modCtx_reqs (c x : Nat) (f : CtxCore → CtxCore) : (modCtx s c x f).reqs = s.reqs := rfl
@[simp] theorem modCtx_walks (c x : Nat) (f : CtxCore → CtxCore) : (modCtx s c x f).walks = s.walks := rfl
@[simp] theorem modCtx_memos (c x : Nat) (f : CtxCore → CtxCore) : (modCtx s c x f).memos = s.memos := rfl
@[simp] theorem modCtx_locks (c x : Nat) (f : CtxCore → CtxCore) : (modCtx s c x f).locks = s.locks := rfl
@[simp] theorem modCtx_mailboxes (c x : Nat) (f : CtxCore → CtxCore) : (modCtx s c x f).mailboxes = s.mailboxes := rfl
@[simp] theorem modCtx_grants (c x : Nat) (f : CtxCore → CtxCore) : (modCtx s c x f).grants = s.grants := rfl
@[simp] theorem modCtx_invals (c x : Nat) (f : CtxCore → CtxCore) : (modCtx s c x f).invals = s.invals := rfl
@[simp] theorem modCtx_fibres (c x : Nat) (f : CtxCore → CtxCore) : (modCtx s c x f).fibres = s.fibres := rfl
@[simp] theorem modCtx_faultCount (c x : Nat) (f : CtxCore → CtxCore) : (modCtx s c x f).faultCount = s.faultCount := rfl
@[simp] theorem modCtx_faultPending (c x : Nat) (f : CtxCore → CtxCore) : (modCtx s c x f).faultPending = s.faultPending := rfl
@[simp] theorem modCtx_ids (c x : Nat) (f : CtxCore → CtxCore) : (modCtx s c x f).ids = s.ids := rfl
@[simp] theorem modCtx_launchSeq (c x : Nat) (f : CtxCore → CtxCore) : (modCtx s c x f).launchSeq = s.launchSeq := rfl
@[simp] theorem modCtx_cyc (c x : Nat) (f : CtxCore → CtxCore) : (modCtx s c x f).cyc = s.cyc := rfl
@[simp] theorem modCtx_freeCtr (c x : Nat) (f : CtxCore → CtxCore) : (modCtx s c x f).freeCtr = s.freeCtr := rfl
@[simp] theorem modCtx_heldPorts (c x : Nat) (f : CtxCore → CtxCore) : (modCtx s c x f).heldPorts = s.heldPorts := rfl
@[simp] theorem modCtx_agenda (c x : Nat) (f : CtxCore → CtxCore) : (modCtx s c x f).agenda = s.agenda := rfl
@[simp] theorem modCtx_cur (c x : Nat) (f : CtxCore → CtxCore) : (modCtx s c x f).cur = s.cur := rfl

/-! ### modClause -/

@[simp] theorem modClause_mem (c : Nat) (f : Clause → Clause) : (modClause s c f).mem = s.mem := rfl
@[simp] theorem modClause_undef (c : Nat) (f : Clause → Clause) : (modClause s c f).undef = s.undef := rfl
@[simp] theorem modClause_owners (c : Nat) (f : Clause → Clause) : (modClause s c f).owners = s.owners := rfl
@[simp] theorem modClause_poison (c : Nat) (f : Clause → Clause) : (modClause s c f).poison = s.poison := rfl
@[simp] theorem modClause_cores (c : Nat) (f : Clause → Clause) : (modClause s c f).cores = s.cores := rfl
@[simp] theorem modClause_dies (c : Nat) (f : Clause → Clause) : (modClause s c f).dies = s.dies := rfl
@[simp] theorem modClause_module (c : Nat) (f : Clause → Clause) : (modClause s c f).module = s.module := rfl
@[simp] theorem modClause_evec (c : Nat) (f : Clause → Clause) : (modClause s c f).evec = s.evec := rfl
@[simp] theorem modClause_evHome (c : Nat) (f : Clause → Clause) : (modClause s c f).evHome = s.evHome := rfl
@[simp] theorem modClause_mirrorQ (c : Nat) (f : Clause → Clause) : (modClause s c f).mirrorQ = s.mirrorQ := rfl
@[simp] theorem modClause_launches (c : Nat) (f : Clause → Clause) : (modClause s c f).launches = s.launches := rfl
@[simp] theorem modClause_net (c : Nat) (f : Clause → Clause) : (modClause s c f).net = s.net := rfl
@[simp] theorem modClause_reqs (c : Nat) (f : Clause → Clause) : (modClause s c f).reqs = s.reqs := rfl
@[simp] theorem modClause_walks (c : Nat) (f : Clause → Clause) : (modClause s c f).walks = s.walks := rfl
@[simp] theorem modClause_memos (c : Nat) (f : Clause → Clause) : (modClause s c f).memos = s.memos := rfl
@[simp] theorem modClause_locks (c : Nat) (f : Clause → Clause) : (modClause s c f).locks = s.locks := rfl
@[simp] theorem modClause_mailboxes (c : Nat) (f : Clause → Clause) : (modClause s c f).mailboxes = s.mailboxes := rfl
@[simp] theorem modClause_grants (c : Nat) (f : Clause → Clause) : (modClause s c f).grants = s.grants := rfl
@[simp] theorem modClause_invals (c : Nat) (f : Clause → Clause) : (modClause s c f).invals = s.invals := rfl
@[simp] theorem modClause_fibres (c : Nat) (f : Clause → Clause) : (modClause s c f).fibres = s.fibres := rfl
@[simp] theorem modClause_faultCount (c : Nat) (f : Clause → Clause) : (modClause s c f).faultCount = s.faultCount := rfl
@[simp] theorem modClause_faultPending (c : Nat) (f : Clause → Clause) : (modClause s c f).faultPending = s.faultPending := rfl
@[simp] theorem modClause_ids (c : Nat) (f : Clause → Clause) : (modClause s c f).ids = s.ids := rfl
@[simp] theorem modClause_launchSeq (c : Nat) (f : Clause → Clause) : (modClause s c f).launchSeq = s.launchSeq := rfl
@[simp] theorem modClause_cyc (c : Nat) (f : Clause → Clause) : (modClause s c f).cyc = s.cyc := rfl
@[simp] theorem modClause_freeCtr (c : Nat) (f : Clause → Clause) : (modClause s c f).freeCtr = s.freeCtr := rfl
@[simp] theorem modClause_heldPorts (c : Nat) (f : Clause → Clause) : (modClause s c f).heldPorts = s.heldPorts := rfl
@[simp] theorem modClause_agenda (c : Nat) (f : Clause → Clause) : (modClause s c f).agenda = s.agenda := rfl
@[simp] theorem modClause_cur (c : Nat) (f : Clause → Clause) : (modClause s c f).cur = s.cur := rfl

/-! ### modDie -/

@[simp] theorem modDie_mem (d : Nat) (f : Die → Die) : (modDie s d f).mem = s.mem := rfl
@[simp] theorem modDie_undef (d : Nat) (f : Die → Die) : (modDie s d f).undef = s.undef := rfl
@[simp] theorem modDie_owners (d : Nat) (f : Die → Die) : (modDie s d f).owners = s.owners := rfl
@[simp] theorem modDie_poison (d : Nat) (f : Die → Die) : (modDie s d f).poison = s.poison := rfl
@[simp] theorem modDie_cores (d : Nat) (f : Die → Die) : (modDie s d f).cores = s.cores := rfl
@[simp] theorem modDie_clauses (d : Nat) (f : Die → Die) : (modDie s d f).clauses = s.clauses := rfl
@[simp] theorem modDie_module (d : Nat) (f : Die → Die) : (modDie s d f).module = s.module := rfl
@[simp] theorem modDie_evec (d : Nat) (f : Die → Die) : (modDie s d f).evec = s.evec := rfl
@[simp] theorem modDie_evHome (d : Nat) (f : Die → Die) : (modDie s d f).evHome = s.evHome := rfl
@[simp] theorem modDie_mirrorQ (d : Nat) (f : Die → Die) : (modDie s d f).mirrorQ = s.mirrorQ := rfl
@[simp] theorem modDie_launches (d : Nat) (f : Die → Die) : (modDie s d f).launches = s.launches := rfl
@[simp] theorem modDie_net (d : Nat) (f : Die → Die) : (modDie s d f).net = s.net := rfl
@[simp] theorem modDie_reqs (d : Nat) (f : Die → Die) : (modDie s d f).reqs = s.reqs := rfl
@[simp] theorem modDie_walks (d : Nat) (f : Die → Die) : (modDie s d f).walks = s.walks := rfl
@[simp] theorem modDie_memos (d : Nat) (f : Die → Die) : (modDie s d f).memos = s.memos := rfl
@[simp] theorem modDie_locks (d : Nat) (f : Die → Die) : (modDie s d f).locks = s.locks := rfl
@[simp] theorem modDie_mailboxes (d : Nat) (f : Die → Die) : (modDie s d f).mailboxes = s.mailboxes := rfl
@[simp] theorem modDie_grants (d : Nat) (f : Die → Die) : (modDie s d f).grants = s.grants := rfl
@[simp] theorem modDie_invals (d : Nat) (f : Die → Die) : (modDie s d f).invals = s.invals := rfl
@[simp] theorem modDie_fibres (d : Nat) (f : Die → Die) : (modDie s d f).fibres = s.fibres := rfl
@[simp] theorem modDie_faultCount (d : Nat) (f : Die → Die) : (modDie s d f).faultCount = s.faultCount := rfl
@[simp] theorem modDie_faultPending (d : Nat) (f : Die → Die) : (modDie s d f).faultPending = s.faultPending := rfl
@[simp] theorem modDie_ids (d : Nat) (f : Die → Die) : (modDie s d f).ids = s.ids := rfl
@[simp] theorem modDie_launchSeq (d : Nat) (f : Die → Die) : (modDie s d f).launchSeq = s.launchSeq := rfl
@[simp] theorem modDie_cyc (d : Nat) (f : Die → Die) : (modDie s d f).cyc = s.cyc := rfl
@[simp] theorem modDie_freeCtr (d : Nat) (f : Die → Die) : (modDie s d f).freeCtr = s.freeCtr := rfl
@[simp] theorem modDie_heldPorts (d : Nat) (f : Die → Die) : (modDie s d f).heldPorts = s.heldPorts := rfl
@[simp] theorem modDie_agenda (d : Nat) (f : Die → Die) : (modDie s d f).agenda = s.agenda := rfl
@[simp] theorem modDie_cur (d : Nat) (f : Die → Die) : (modDie s d f).cur = s.cur := rfl

/-! ### writeByte -/

@[simp] theorem writeByte_poison (x l : Nat) (b : Byte) : (writeByte s x l b).poison = s.poison := rfl
@[simp] theorem writeByte_cores (x l : Nat) (b : Byte) : (writeByte s x l b).cores = s.cores := rfl
@[simp] theorem writeByte_clauses (x l : Nat) (b : Byte) : (writeByte s x l b).clauses = s.clauses := rfl
@[simp] theorem writeByte_dies (x l : Nat) (b : Byte) : (writeByte s x l b).dies = s.dies := rfl
@[simp] theorem writeByte_module (x l : Nat) (b : Byte) : (writeByte s x l b).module = s.module := rfl
@[simp] theorem writeByte_evec (x l : Nat) (b : Byte) : (writeByte s x l b).evec = s.evec := rfl
@[simp] theorem writeByte_evHome (x l : Nat) (b : Byte) : (writeByte s x l b).evHome = s.evHome := rfl
@[simp] theorem writeByte_mirrorQ (x l : Nat) (b : Byte) : (writeByte s x l b).mirrorQ = s.mirrorQ := rfl
@[simp] theorem writeByte_launches (x l : Nat) (b : Byte) : (writeByte s x l b).launches = s.launches := rfl
@[simp] theorem writeByte_net (x l : Nat) (b : Byte) : (writeByte s x l b).net = s.net := rfl
@[simp] theorem writeByte_reqs (x l : Nat) (b : Byte) : (writeByte s x l b).reqs = s.reqs := rfl
@[simp] theorem writeByte_walks (x l : Nat) (b : Byte) : (writeByte s x l b).walks = s.walks := rfl
@[simp] theorem writeByte_memos (x l : Nat) (b : Byte) : (writeByte s x l b).memos = s.memos := rfl
@[simp] theorem writeByte_locks (x l : Nat) (b : Byte) : (writeByte s x l b).locks = s.locks := rfl
@[simp] theorem writeByte_mailboxes (x l : Nat) (b : Byte) : (writeByte s x l b).mailboxes = s.mailboxes := rfl
@[simp] theorem writeByte_grants (x l : Nat) (b : Byte) : (writeByte s x l b).grants = s.grants := rfl
@[simp] theorem writeByte_invals (x l : Nat) (b : Byte) : (writeByte s x l b).invals = s.invals := rfl
@[simp] theorem writeByte_fibres (x l : Nat) (b : Byte) : (writeByte s x l b).fibres = s.fibres := rfl
@[simp] theorem writeByte_faultCount (x l : Nat) (b : Byte) : (writeByte s x l b).faultCount = s.faultCount := rfl
@[simp] theorem writeByte_faultPending (x l : Nat) (b : Byte) : (writeByte s x l b).faultPending = s.faultPending := rfl
@[simp] theorem writeByte_ids (x l : Nat) (b : Byte) : (writeByte s x l b).ids = s.ids := rfl
@[simp] theorem writeByte_launchSeq (x l : Nat) (b : Byte) : (writeByte s x l b).launchSeq = s.launchSeq := rfl
@[simp] theorem writeByte_cyc (x l : Nat) (b : Byte) : (writeByte s x l b).cyc = s.cyc := rfl
@[simp] theorem writeByte_freeCtr (x l : Nat) (b : Byte) : (writeByte s x l b).freeCtr = s.freeCtr := rfl
@[simp] theorem writeByte_heldPorts (x l : Nat) (b : Byte) : (writeByte s x l b).heldPorts = s.heldPorts := rfl
@[simp] theorem writeByte_agenda (x l : Nat) (b : Byte) : (writeByte s x l b).agenda = s.agenda := rfl
@[simp] theorem writeByte_cur (x l : Nat) (b : Byte) : (writeByte s x l b).cur = s.cur := rfl

/-! ### nextFree -/

@[simp] theorem nextFree_mem : (nextFree s).mem = s.mem := rfl
@[simp] theorem nextFree_undef : (nextFree s).undef = s.undef := rfl
@[simp] theorem nextFree_owners : (nextFree s).owners = s.owners := rfl
@[simp] theorem nextFree_poison : (nextFree s).poison = s.poison := rfl
@[simp] theorem nextFree_cores : (nextFree s).cores = s.cores := rfl
@[simp] theorem nextFree_clauses : (nextFree s).clauses = s.clauses := rfl
@[simp] theorem nextFree_dies : (nextFree s).dies = s.dies := rfl
@[simp] theorem nextFree_module : (nextFree s).module = s.module := rfl
@[simp] theorem nextFree_evec : (nextFree s).evec = s.evec := rfl
@[simp] theorem nextFree_evHome : (nextFree s).evHome = s.evHome := rfl
@[simp] theorem nextFree_mirrorQ : (nextFree s).mirrorQ = s.mirrorQ := rfl
@[simp] theorem nextFree_launches : (nextFree s).launches = s.launches := rfl
@[simp] theorem nextFree_net : (nextFree s).net = s.net := rfl
@[simp] theorem nextFree_reqs : (nextFree s).reqs = s.reqs := rfl
@[simp] theorem nextFree_walks : (nextFree s).walks = s.walks := rfl
@[simp] theorem nextFree_memos : (nextFree s).memos = s.memos := rfl
@[simp] theorem nextFree_locks : (nextFree s).locks = s.locks := rfl
@[simp] theorem nextFree_mailboxes : (nextFree s).mailboxes = s.mailboxes := rfl
@[simp] theorem nextFree_grants : (nextFree s).grants = s.grants := rfl
@[simp] theorem nextFree_invals : (nextFree s).invals = s.invals := rfl
@[simp] theorem nextFree_fibres : (nextFree s).fibres = s.fibres := rfl
@[simp] theorem nextFree_faultCount : (nextFree s).faultCount = s.faultCount := rfl
@[simp] theorem nextFree_faultPending : (nextFree s).faultPending = s.faultPending := rfl
@[simp] theorem nextFree_ids : (nextFree s).ids = s.ids := rfl
@[simp] theorem nextFree_launchSeq : (nextFree s).launchSeq = s.launchSeq := rfl
@[simp] theorem nextFree_cyc : (nextFree s).cyc = s.cyc := rfl
@[simp] theorem nextFree_heldPorts : (nextFree s).heldPorts = s.heldPorts := rfl
@[simp] theorem nextFree_agenda : (nextFree s).agenda = s.agenda := rfl
@[simp] theorem nextFree_cur : (nextFree s).cur = s.cur := rfl

/-! ### newId -/

@[simp] theorem newId_mem : (newId s).mem = s.mem := rfl
@[simp] theorem newId_undef : (newId s).undef = s.undef := rfl
@[simp] theorem newId_owners : (newId s).owners = s.owners := rfl
@[simp] theorem newId_poison : (newId s).poison = s.poison := rfl
@[simp] theorem newId_cores : (newId s).cores = s.cores := rfl
@[simp] theorem newId_clauses : (newId s).clauses = s.clauses := rfl
@[simp] theorem newId_dies : (newId s).dies = s.dies := rfl
@[simp] theorem newId_module : (newId s).module = s.module := rfl
@[simp] theorem newId_evec : (newId s).evec = s.evec := rfl
@[simp] theorem newId_evHome : (newId s).evHome = s.evHome := rfl
@[simp] theorem newId_mirrorQ : (newId s).mirrorQ = s.mirrorQ := rfl
@[simp] theorem newId_launches : (newId s).launches = s.launches := rfl
@[simp] theorem newId_net : (newId s).net = s.net := rfl
@[simp] theorem newId_reqs : (newId s).reqs = s.reqs := rfl
@[simp] theorem newId_walks : (newId s).walks = s.walks := rfl
@[simp] theorem newId_memos : (newId s).memos = s.memos := rfl
@[simp] theorem newId_locks : (newId s).locks = s.locks := rfl
@[simp] theorem newId_mailboxes : (newId s).mailboxes = s.mailboxes := rfl
@[simp] theorem newId_grants : (newId s).grants = s.grants := rfl
@[simp] theorem newId_invals : (newId s).invals = s.invals := rfl
@[simp] theorem newId_fibres : (newId s).fibres = s.fibres := rfl
@[simp] theorem newId_faultCount : (newId s).faultCount = s.faultCount := rfl
@[simp] theorem newId_faultPending : (newId s).faultPending = s.faultPending := rfl
@[simp] theorem newId_launchSeq : (newId s).launchSeq = s.launchSeq := rfl
@[simp] theorem newId_cyc : (newId s).cyc = s.cyc := rfl
@[simp] theorem newId_freeCtr : (newId s).freeCtr = s.freeCtr := rfl
@[simp] theorem newId_heldPorts : (newId s).heldPorts = s.heldPorts := rfl
@[simp] theorem newId_agenda : (newId s).agenda = s.agenda := rfl
@[simp] theorem newId_cur : (newId s).cur = s.cur := rfl

/-! ### setActAt -/

@[simp] theorem setActAt_mem (c : Cur) (a : Option Act) : (setActAt s c a).mem = s.mem := by unfold setActAt; split <;> rfl
@[simp] theorem setActAt_undef (c : Cur) (a : Option Act) : (setActAt s c a).undef = s.undef := by unfold setActAt; split <;> rfl
@[simp] theorem setActAt_owners (c : Cur) (a : Option Act) : (setActAt s c a).owners = s.owners := by unfold setActAt; split <;> rfl
@[simp] theorem setActAt_poison (c : Cur) (a : Option Act) : (setActAt s c a).poison = s.poison := by unfold setActAt; split <;> rfl
@[simp] theorem setActAt_clauses (c : Cur) (a : Option Act) : (setActAt s c a).clauses = s.clauses := by unfold setActAt; split <;> rfl
@[simp] theorem setActAt_dies (c : Cur) (a : Option Act) : (setActAt s c a).dies = s.dies := by unfold setActAt; split <;> rfl
@[simp] theorem setActAt_module (c : Cur) (a : Option Act) : (setActAt s c a).module = s.module := by unfold setActAt; split <;> rfl
@[simp] theorem setActAt_evec (c : Cur) (a : Option Act) : (setActAt s c a).evec = s.evec := by unfold setActAt; split <;> rfl
@[simp] theorem setActAt_evHome (c : Cur) (a : Option Act) : (setActAt s c a).evHome = s.evHome := by unfold setActAt; split <;> rfl
@[simp] theorem setActAt_mirrorQ (c : Cur) (a : Option Act) : (setActAt s c a).mirrorQ = s.mirrorQ := by unfold setActAt; split <;> rfl
@[simp] theorem setActAt_launches (c : Cur) (a : Option Act) : (setActAt s c a).launches = s.launches := by unfold setActAt; split <;> rfl
@[simp] theorem setActAt_net (c : Cur) (a : Option Act) : (setActAt s c a).net = s.net := by unfold setActAt; split <;> rfl
@[simp] theorem setActAt_reqs (c : Cur) (a : Option Act) : (setActAt s c a).reqs = s.reqs := by unfold setActAt; split <;> rfl
@[simp] theorem setActAt_walks (c : Cur) (a : Option Act) : (setActAt s c a).walks = s.walks := by unfold setActAt; split <;> rfl
@[simp] theorem setActAt_memos (c : Cur) (a : Option Act) : (setActAt s c a).memos = s.memos := by unfold setActAt; split <;> rfl
@[simp] theorem setActAt_locks (c : Cur) (a : Option Act) : (setActAt s c a).locks = s.locks := by unfold setActAt; split <;> rfl
@[simp] theorem setActAt_mailboxes (c : Cur) (a : Option Act) : (setActAt s c a).mailboxes = s.mailboxes := by unfold setActAt; split <;> rfl
@[simp] theorem setActAt_grants (c : Cur) (a : Option Act) : (setActAt s c a).grants = s.grants := by unfold setActAt; split <;> rfl
@[simp] theorem setActAt_invals (c : Cur) (a : Option Act) : (setActAt s c a).invals = s.invals := by unfold setActAt; split <;> rfl
@[simp] theorem setActAt_fibres (c : Cur) (a : Option Act) : (setActAt s c a).fibres = s.fibres := by unfold setActAt; split <;> rfl
@[simp] theorem setActAt_faultCount (c : Cur) (a : Option Act) : (setActAt s c a).faultCount = s.faultCount := by unfold setActAt; split <;> rfl
@[simp] theorem setActAt_faultPending (c : Cur) (a : Option Act) : (setActAt s c a).faultPending = s.faultPending := by unfold setActAt; split <;> rfl
@[simp] theorem setActAt_ids (c : Cur) (a : Option Act) : (setActAt s c a).ids = s.ids := by unfold setActAt; split <;> rfl
@[simp] theorem setActAt_launchSeq (c : Cur) (a : Option Act) : (setActAt s c a).launchSeq = s.launchSeq := by unfold setActAt; split <;> rfl
@[simp] theorem setActAt_cyc (c : Cur) (a : Option Act) : (setActAt s c a).cyc = s.cyc := by unfold setActAt; split <;> rfl
@[simp] theorem setActAt_freeCtr (c : Cur) (a : Option Act) : (setActAt s c a).freeCtr = s.freeCtr := by unfold setActAt; split <;> rfl
@[simp] theorem setActAt_heldPorts (c : Cur) (a : Option Act) : (setActAt s c a).heldPorts = s.heldPorts := by unfold setActAt; split <;> rfl
@[simp] theorem setActAt_agenda (c : Cur) (a : Option Act) : (setActAt s c a).agenda = s.agenda := by unfold setActAt; split <;> rfl
@[simp] theorem setActAt_cur (c : Cur) (a : Option Act) : (setActAt s c a).cur = s.cur := by unfold setActAt; split <;> rfl

/-! ### setAct -/

@[simp] theorem setAct_mem (a : Act) : (setAct s a).mem = s.mem := setActAt_mem s s.cur (some a)
@[simp] theorem setAct_undef (a : Act) : (setAct s a).undef = s.undef := setActAt_undef s s.cur (some a)
@[simp] theorem setAct_owners (a : Act) : (setAct s a).owners = s.owners := setActAt_owners s s.cur (some a)
@[simp] theorem setAct_poison (a : Act) : (setAct s a).poison = s.poison := setActAt_poison s s.cur (some a)
@[simp] theorem setAct_clauses (a : Act) : (setAct s a).clauses = s.clauses := setActAt_clauses s s.cur (some a)
@[simp] theorem setAct_dies (a : Act) : (setAct s a).dies = s.dies := setActAt_dies s s.cur (some a)
@[simp] theorem setAct_module (a : Act) : (setAct s a).module = s.module := setActAt_module s s.cur (some a)
@[simp] theorem setAct_evec (a : Act) : (setAct s a).evec = s.evec := setActAt_evec s s.cur (some a)
@[simp] theorem setAct_evHome (a : Act) : (setAct s a).evHome = s.evHome := setActAt_evHome s s.cur (some a)
@[simp] theorem setAct_mirrorQ (a : Act) : (setAct s a).mirrorQ = s.mirrorQ := setActAt_mirrorQ s s.cur (some a)
@[simp] theorem setAct_launches (a : Act) : (setAct s a).launches = s.launches := setActAt_launches s s.cur (some a)
@[simp] theorem setAct_net (a : Act) : (setAct s a).net = s.net := setActAt_net s s.cur (some a)
@[simp] theorem setAct_reqs (a : Act) : (setAct s a).reqs = s.reqs := setActAt_reqs s s.cur (some a)
@[simp] theorem setAct_walks (a : Act) : (setAct s a).walks = s.walks := setActAt_walks s s.cur (some a)
@[simp] theorem setAct_memos (a : Act) : (setAct s a).memos = s.memos := setActAt_memos s s.cur (some a)
@[simp] theorem setAct_locks (a : Act) : (setAct s a).locks = s.locks := setActAt_locks s s.cur (some a)
@[simp] theorem setAct_mailboxes (a : Act) : (setAct s a).mailboxes = s.mailboxes := setActAt_mailboxes s s.cur (some a)
@[simp] theorem setAct_grants (a : Act) : (setAct s a).grants = s.grants := setActAt_grants s s.cur (some a)
@[simp] theorem setAct_invals (a : Act) : (setAct s a).invals = s.invals := setActAt_invals s s.cur (some a)
@[simp] theorem setAct_fibres (a : Act) : (setAct s a).fibres = s.fibres := setActAt_fibres s s.cur (some a)
@[simp] theorem setAct_faultCount (a : Act) : (setAct s a).faultCount = s.faultCount := setActAt_faultCount s s.cur (some a)
@[simp] theorem setAct_faultPending (a : Act) : (setAct s a).faultPending = s.faultPending := setActAt_faultPending s s.cur (some a)
@[simp] theorem setAct_ids (a : Act) : (setAct s a).ids = s.ids := setActAt_ids s s.cur (some a)
@[simp] theorem setAct_launchSeq (a : Act) : (setAct s a).launchSeq = s.launchSeq := setActAt_launchSeq s s.cur (some a)
@[simp] theorem setAct_cyc (a : Act) : (setAct s a).cyc = s.cyc := setActAt_cyc s s.cur (some a)
@[simp] theorem setAct_freeCtr (a : Act) : (setAct s a).freeCtr = s.freeCtr := setActAt_freeCtr s s.cur (some a)
@[simp] theorem setAct_heldPorts (a : Act) : (setAct s a).heldPorts = s.heldPorts := setActAt_heldPorts s s.cur (some a)
@[simp] theorem setAct_agenda (a : Act) : (setAct s a).agenda = s.agenda := setActAt_agenda s s.cur (some a)
@[simp] theorem setAct_cur (a : Act) : (setAct s a).cur = s.cur := setActAt_cur s s.cur (some a)

/-! ### modAct -/

@[simp] theorem modAct_mem (g : Act → Act) : (modAct s g).mem = s.mem := setAct_mem s _
@[simp] theorem modAct_undef (g : Act → Act) : (modAct s g).undef = s.undef := setAct_undef s _
@[simp] theorem modAct_owners (g : Act → Act) : (modAct s g).owners = s.owners := setAct_owners s _
@[simp] theorem modAct_poison (g : Act → Act) : (modAct s g).poison = s.poison := setAct_poison s _
@[simp] theorem modAct_clauses (g : Act → Act) : (modAct s g).clauses = s.clauses := setAct_clauses s _
@[simp] theorem modAct_dies (g : Act → Act) : (modAct s g).dies = s.dies := setAct_dies s _
@[simp] theorem modAct_module (g : Act → Act) : (modAct s g).module = s.module := setAct_module s _
@[simp] theorem modAct_evec (g : Act → Act) : (modAct s g).evec = s.evec := setAct_evec s _
@[simp] theorem modAct_evHome (g : Act → Act) : (modAct s g).evHome = s.evHome := setAct_evHome s _
@[simp] theorem modAct_mirrorQ (g : Act → Act) : (modAct s g).mirrorQ = s.mirrorQ := setAct_mirrorQ s _
@[simp] theorem modAct_launches (g : Act → Act) : (modAct s g).launches = s.launches := setAct_launches s _
@[simp] theorem modAct_net (g : Act → Act) : (modAct s g).net = s.net := setAct_net s _
@[simp] theorem modAct_reqs (g : Act → Act) : (modAct s g).reqs = s.reqs := setAct_reqs s _
@[simp] theorem modAct_walks (g : Act → Act) : (modAct s g).walks = s.walks := setAct_walks s _
@[simp] theorem modAct_memos (g : Act → Act) : (modAct s g).memos = s.memos := setAct_memos s _
@[simp] theorem modAct_locks (g : Act → Act) : (modAct s g).locks = s.locks := setAct_locks s _
@[simp] theorem modAct_mailboxes (g : Act → Act) : (modAct s g).mailboxes = s.mailboxes := setAct_mailboxes s _
@[simp] theorem modAct_grants (g : Act → Act) : (modAct s g).grants = s.grants := setAct_grants s _
@[simp] theorem modAct_invals (g : Act → Act) : (modAct s g).invals = s.invals := setAct_invals s _
@[simp] theorem modAct_fibres (g : Act → Act) : (modAct s g).fibres = s.fibres := setAct_fibres s _
@[simp] theorem modAct_faultCount (g : Act → Act) : (modAct s g).faultCount = s.faultCount := setAct_faultCount s _
@[simp] theorem modAct_faultPending (g : Act → Act) : (modAct s g).faultPending = s.faultPending := setAct_faultPending s _
@[simp] theorem modAct_ids (g : Act → Act) : (modAct s g).ids = s.ids := setAct_ids s _
@[simp] theorem modAct_launchSeq (g : Act → Act) : (modAct s g).launchSeq = s.launchSeq := setAct_launchSeq s _
@[simp] theorem modAct_cyc (g : Act → Act) : (modAct s g).cyc = s.cyc := setAct_cyc s _
@[simp] theorem modAct_freeCtr (g : Act → Act) : (modAct s g).freeCtr = s.freeCtr := setAct_freeCtr s _
@[simp] theorem modAct_heldPorts (g : Act → Act) : (modAct s g).heldPorts = s.heldPorts := setAct_heldPorts s _
@[simp] theorem modAct_agenda (g : Act → Act) : (modAct s g).agenda = s.agenda := setAct_agenda s _
@[simp] theorem modAct_cur (g : Act → Act) : (modAct s g).cur = s.cur := setAct_cur s _

/-! ### modRegs -/

@[simp] theorem modRegs_mem (g : CtxRegs → CtxRegs) : (modRegs s g).mem = s.mem := rfl
@[simp] theorem modRegs_undef (g : CtxRegs → CtxRegs) : (modRegs s g).undef = s.undef := rfl
@[simp] theorem modRegs_owners (g : CtxRegs → CtxRegs) : (modRegs s g).owners = s.owners := rfl
@[simp] theorem modRegs_poison (g : CtxRegs → CtxRegs) : (modRegs s g).poison = s.poison := rfl
@[simp] theorem modRegs_clauses (g : CtxRegs → CtxRegs) : (modRegs s g).clauses = s.clauses := rfl
@[simp] theorem modRegs_dies (g : CtxRegs → CtxRegs) : (modRegs s g).dies = s.dies := rfl
@[simp] theorem modRegs_module (g : CtxRegs → CtxRegs) : (modRegs s g).module = s.module := rfl
@[simp] theorem modRegs_evec (g : CtxRegs → CtxRegs) : (modRegs s g).evec = s.evec := rfl
@[simp] theorem modRegs_evHome (g : CtxRegs → CtxRegs) : (modRegs s g).evHome = s.evHome := rfl
@[simp] theorem modRegs_mirrorQ (g : CtxRegs → CtxRegs) : (modRegs s g).mirrorQ = s.mirrorQ := rfl
@[simp] theorem modRegs_launches (g : CtxRegs → CtxRegs) : (modRegs s g).launches = s.launches := rfl
@[simp] theorem modRegs_net (g : CtxRegs → CtxRegs) : (modRegs s g).net = s.net := rfl
@[simp] theorem modRegs_reqs (g : CtxRegs → CtxRegs) : (modRegs s g).reqs = s.reqs := rfl
@[simp] theorem modRegs_walks (g : CtxRegs → CtxRegs) : (modRegs s g).walks = s.walks := rfl
@[simp] theorem modRegs_memos (g : CtxRegs → CtxRegs) : (modRegs s g).memos = s.memos := rfl
@[simp] theorem modRegs_locks (g : CtxRegs → CtxRegs) : (modRegs s g).locks = s.locks := rfl
@[simp] theorem modRegs_mailboxes (g : CtxRegs → CtxRegs) : (modRegs s g).mailboxes = s.mailboxes := rfl
@[simp] theorem modRegs_grants (g : CtxRegs → CtxRegs) : (modRegs s g).grants = s.grants := rfl
@[simp] theorem modRegs_invals (g : CtxRegs → CtxRegs) : (modRegs s g).invals = s.invals := rfl
@[simp] theorem modRegs_fibres (g : CtxRegs → CtxRegs) : (modRegs s g).fibres = s.fibres := rfl
@[simp] theorem modRegs_faultCount (g : CtxRegs → CtxRegs) : (modRegs s g).faultCount = s.faultCount := rfl
@[simp] theorem modRegs_faultPending (g : CtxRegs → CtxRegs) : (modRegs s g).faultPending = s.faultPending := rfl
@[simp] theorem modRegs_ids (g : CtxRegs → CtxRegs) : (modRegs s g).ids = s.ids := rfl
@[simp] theorem modRegs_launchSeq (g : CtxRegs → CtxRegs) : (modRegs s g).launchSeq = s.launchSeq := rfl
@[simp] theorem modRegs_cyc (g : CtxRegs → CtxRegs) : (modRegs s g).cyc = s.cyc := rfl
@[simp] theorem modRegs_freeCtr (g : CtxRegs → CtxRegs) : (modRegs s g).freeCtr = s.freeCtr := rfl
@[simp] theorem modRegs_heldPorts (g : CtxRegs → CtxRegs) : (modRegs s g).heldPorts = s.heldPorts := rfl
@[simp] theorem modRegs_agenda (g : CtxRegs → CtxRegs) : (modRegs s g).agenda = s.agenda := rfl
@[simp] theorem modRegs_cur (g : CtxRegs → CtxRegs) : (modRegs s g).cur = s.cur := rfl

/-! ### wS -/

@[simp] theorem wS_mem (i : SReg) (w : Word) : (wS s i w).mem = s.mem := setAct_mem s _
@[simp] theorem wS_undef (i : SReg) (w : Word) : (wS s i w).undef = s.undef := setAct_undef s _
@[simp] theorem wS_owners (i : SReg) (w : Word) : (wS s i w).owners = s.owners := setAct_owners s _
@[simp] theorem wS_poison (i : SReg) (w : Word) : (wS s i w).poison = s.poison := setAct_poison s _
@[simp] theorem wS_clauses (i : SReg) (w : Word) : (wS s i w).clauses = s.clauses := setAct_clauses s _
@[simp] theorem wS_dies (i : SReg) (w : Word) : (wS s i w).dies = s.dies := setAct_dies s _
@[simp] theorem wS_module (i : SReg) (w : Word) : (wS s i w).module = s.module := setAct_module s _
@[simp] theorem wS_evec (i : SReg) (w : Word) : (wS s i w).evec = s.evec := setAct_evec s _
@[simp] theorem wS_evHome (i : SReg) (w : Word) : (wS s i w).evHome = s.evHome := setAct_evHome s _
@[simp] theorem wS_mirrorQ (i : SReg) (w : Word) : (wS s i w).mirrorQ = s.mirrorQ := setAct_mirrorQ s _
@[simp] theorem wS_launches (i : SReg) (w : Word) : (wS s i w).launches = s.launches := setAct_launches s _
@[simp] theorem wS_net (i : SReg) (w : Word) : (wS s i w).net = s.net := setAct_net s _
@[simp] theorem wS_reqs (i : SReg) (w : Word) : (wS s i w).reqs = s.reqs := setAct_reqs s _
@[simp] theorem wS_walks (i : SReg) (w : Word) : (wS s i w).walks = s.walks := setAct_walks s _
@[simp] theorem wS_memos (i : SReg) (w : Word) : (wS s i w).memos = s.memos := setAct_memos s _
@[simp] theorem wS_locks (i : SReg) (w : Word) : (wS s i w).locks = s.locks := setAct_locks s _
@[simp] theorem wS_mailboxes (i : SReg) (w : Word) : (wS s i w).mailboxes = s.mailboxes := setAct_mailboxes s _
@[simp] theorem wS_grants (i : SReg) (w : Word) : (wS s i w).grants = s.grants := setAct_grants s _
@[simp] theorem wS_invals (i : SReg) (w : Word) : (wS s i w).invals = s.invals := setAct_invals s _
@[simp] theorem wS_fibres (i : SReg) (w : Word) : (wS s i w).fibres = s.fibres := setAct_fibres s _
@[simp] theorem wS_faultCount (i : SReg) (w : Word) : (wS s i w).faultCount = s.faultCount := setAct_faultCount s _
@[simp] theorem wS_faultPending (i : SReg) (w : Word) : (wS s i w).faultPending = s.faultPending := setAct_faultPending s _
@[simp] theorem wS_ids (i : SReg) (w : Word) : (wS s i w).ids = s.ids := setAct_ids s _
@[simp] theorem wS_launchSeq (i : SReg) (w : Word) : (wS s i w).launchSeq = s.launchSeq := setAct_launchSeq s _
@[simp] theorem wS_cyc (i : SReg) (w : Word) : (wS s i w).cyc = s.cyc := setAct_cyc s _
@[simp] theorem wS_freeCtr (i : SReg) (w : Word) : (wS s i w).freeCtr = s.freeCtr := setAct_freeCtr s _
@[simp] theorem wS_heldPorts (i : SReg) (w : Word) : (wS s i w).heldPorts = s.heldPorts := setAct_heldPorts s _
@[simp] theorem wS_agenda (i : SReg) (w : Word) : (wS s i w).agenda = s.agenda := setAct_agenda s _
@[simp] theorem wS_cur (i : SReg) (w : Word) : (wS s i w).cur = s.cur := setAct_cur s _

/-! ### wV -/

@[simp] theorem wV_mem (i : VRegN) (w : VReg) : (wV s i w).mem = s.mem := setAct_mem s _
@[simp] theorem wV_undef (i : VRegN) (w : VReg) : (wV s i w).undef = s.undef := setAct_undef s _
@[simp] theorem wV_owners (i : VRegN) (w : VReg) : (wV s i w).owners = s.owners := setAct_owners s _
@[simp] theorem wV_poison (i : VRegN) (w : VReg) : (wV s i w).poison = s.poison := setAct_poison s _
@[simp] theorem wV_clauses (i : VRegN) (w : VReg) : (wV s i w).clauses = s.clauses := setAct_clauses s _
@[simp] theorem wV_dies (i : VRegN) (w : VReg) : (wV s i w).dies = s.dies := setAct_dies s _
@[simp] theorem wV_module (i : VRegN) (w : VReg) : (wV s i w).module = s.module := setAct_module s _
@[simp] theorem wV_evec (i : VRegN) (w : VReg) : (wV s i w).evec = s.evec := setAct_evec s _
@[simp] theorem wV_evHome (i : VRegN) (w : VReg) : (wV s i w).evHome = s.evHome := setAct_evHome s _
@[simp] theorem wV_mirrorQ (i : VRegN) (w : VReg) : (wV s i w).mirrorQ = s.mirrorQ := setAct_mirrorQ s _
@[simp] theorem wV_launches (i : VRegN) (w : VReg) : (wV s i w).launches = s.launches := setAct_launches s _
@[simp] theorem wV_net (i : VRegN) (w : VReg) : (wV s i w).net = s.net := setAct_net s _
@[simp] theorem wV_reqs (i : VRegN) (w : VReg) : (wV s i w).reqs = s.reqs := setAct_reqs s _
@[simp] theorem wV_walks (i : VRegN) (w : VReg) : (wV s i w).walks = s.walks := setAct_walks s _
@[simp] theorem wV_memos (i : VRegN) (w : VReg) : (wV s i w).memos = s.memos := setAct_memos s _
@[simp] theorem wV_locks (i : VRegN) (w : VReg) : (wV s i w).locks = s.locks := setAct_locks s _
@[simp] theorem wV_mailboxes (i : VRegN) (w : VReg) : (wV s i w).mailboxes = s.mailboxes := setAct_mailboxes s _
@[simp] theorem wV_grants (i : VRegN) (w : VReg) : (wV s i w).grants = s.grants := setAct_grants s _
@[simp] theorem wV_invals (i : VRegN) (w : VReg) : (wV s i w).invals = s.invals := setAct_invals s _
@[simp] theorem wV_fibres (i : VRegN) (w : VReg) : (wV s i w).fibres = s.fibres := setAct_fibres s _
@[simp] theorem wV_faultCount (i : VRegN) (w : VReg) : (wV s i w).faultCount = s.faultCount := setAct_faultCount s _
@[simp] theorem wV_faultPending (i : VRegN) (w : VReg) : (wV s i w).faultPending = s.faultPending := setAct_faultPending s _
@[simp] theorem wV_ids (i : VRegN) (w : VReg) : (wV s i w).ids = s.ids := setAct_ids s _
@[simp] theorem wV_launchSeq (i : VRegN) (w : VReg) : (wV s i w).launchSeq = s.launchSeq := setAct_launchSeq s _
@[simp] theorem wV_cyc (i : VRegN) (w : VReg) : (wV s i w).cyc = s.cyc := setAct_cyc s _
@[simp] theorem wV_freeCtr (i : VRegN) (w : VReg) : (wV s i w).freeCtr = s.freeCtr := setAct_freeCtr s _
@[simp] theorem wV_heldPorts (i : VRegN) (w : VReg) : (wV s i w).heldPorts = s.heldPorts := setAct_heldPorts s _
@[simp] theorem wV_agenda (i : VRegN) (w : VReg) : (wV s i w).agenda = s.agenda := setAct_agenda s _
@[simp] theorem wV_cur (i : VRegN) (w : VReg) : (wV s i w).cur = s.cur := setAct_cur s _

/-! ### wP -/

@[simp] theorem wP_mem (i : PReg) (w : BitVec 16) : (wP s i w).mem = s.mem := setAct_mem s _
@[simp] theorem wP_undef (i : PReg) (w : BitVec 16) : (wP s i w).undef = s.undef := setAct_undef s _
@[simp] theorem wP_owners (i : PReg) (w : BitVec 16) : (wP s i w).owners = s.owners := setAct_owners s _
@[simp] theorem wP_poison (i : PReg) (w : BitVec 16) : (wP s i w).poison = s.poison := setAct_poison s _
@[simp] theorem wP_clauses (i : PReg) (w : BitVec 16) : (wP s i w).clauses = s.clauses := setAct_clauses s _
@[simp] theorem wP_dies (i : PReg) (w : BitVec 16) : (wP s i w).dies = s.dies := setAct_dies s _
@[simp] theorem wP_module (i : PReg) (w : BitVec 16) : (wP s i w).module = s.module := setAct_module s _
@[simp] theorem wP_evec (i : PReg) (w : BitVec 16) : (wP s i w).evec = s.evec := setAct_evec s _
@[simp] theorem wP_evHome (i : PReg) (w : BitVec 16) : (wP s i w).evHome = s.evHome := setAct_evHome s _
@[simp] theorem wP_mirrorQ (i : PReg) (w : BitVec 16) : (wP s i w).mirrorQ = s.mirrorQ := setAct_mirrorQ s _
@[simp] theorem wP_launches (i : PReg) (w : BitVec 16) : (wP s i w).launches = s.launches := setAct_launches s _
@[simp] theorem wP_net (i : PReg) (w : BitVec 16) : (wP s i w).net = s.net := setAct_net s _
@[simp] theorem wP_reqs (i : PReg) (w : BitVec 16) : (wP s i w).reqs = s.reqs := setAct_reqs s _
@[simp] theorem wP_walks (i : PReg) (w : BitVec 16) : (wP s i w).walks = s.walks := setAct_walks s _
@[simp] theorem wP_memos (i : PReg) (w : BitVec 16) : (wP s i w).memos = s.memos := setAct_memos s _
@[simp] theorem wP_locks (i : PReg) (w : BitVec 16) : (wP s i w).locks = s.locks := setAct_locks s _
@[simp] theorem wP_mailboxes (i : PReg) (w : BitVec 16) : (wP s i w).mailboxes = s.mailboxes := setAct_mailboxes s _
@[simp] theorem wP_grants (i : PReg) (w : BitVec 16) : (wP s i w).grants = s.grants := setAct_grants s _
@[simp] theorem wP_invals (i : PReg) (w : BitVec 16) : (wP s i w).invals = s.invals := setAct_invals s _
@[simp] theorem wP_fibres (i : PReg) (w : BitVec 16) : (wP s i w).fibres = s.fibres := setAct_fibres s _
@[simp] theorem wP_faultCount (i : PReg) (w : BitVec 16) : (wP s i w).faultCount = s.faultCount := setAct_faultCount s _
@[simp] theorem wP_faultPending (i : PReg) (w : BitVec 16) : (wP s i w).faultPending = s.faultPending := setAct_faultPending s _
@[simp] theorem wP_ids (i : PReg) (w : BitVec 16) : (wP s i w).ids = s.ids := setAct_ids s _
@[simp] theorem wP_launchSeq (i : PReg) (w : BitVec 16) : (wP s i w).launchSeq = s.launchSeq := setAct_launchSeq s _
@[simp] theorem wP_cyc (i : PReg) (w : BitVec 16) : (wP s i w).cyc = s.cyc := setAct_cyc s _
@[simp] theorem wP_freeCtr (i : PReg) (w : BitVec 16) : (wP s i w).freeCtr = s.freeCtr := setAct_freeCtr s _
@[simp] theorem wP_heldPorts (i : PReg) (w : BitVec 16) : (wP s i w).heldPorts = s.heldPorts := setAct_heldPorts s _
@[simp] theorem wP_agenda (i : PReg) (w : BitVec 16) : (wP s i w).agenda = s.agenda := setAct_agenda s _
@[simp] theorem wP_cur (i : PReg) (w : BitVec 16) : (wP s i w).cur = s.cur := setAct_cur s _

/-! ### wE -/

@[simp] theorem wE_mem (i : EReg) (w : Word) : (wE s i w).mem = s.mem := setAct_mem s _
@[simp] theorem wE_undef (i : EReg) (w : Word) : (wE s i w).undef = s.undef := setAct_undef s _
@[simp] theorem wE_owners (i : EReg) (w : Word) : (wE s i w).owners = s.owners := setAct_owners s _
@[simp] theorem wE_poison (i : EReg) (w : Word) : (wE s i w).poison = s.poison := setAct_poison s _
@[simp] theorem wE_clauses (i : EReg) (w : Word) : (wE s i w).clauses = s.clauses := setAct_clauses s _
@[simp] theorem wE_dies (i : EReg) (w : Word) : (wE s i w).dies = s.dies := setAct_dies s _
@[simp] theorem wE_module (i : EReg) (w : Word) : (wE s i w).module = s.module := setAct_module s _
@[simp] theorem wE_evec (i : EReg) (w : Word) : (wE s i w).evec = s.evec := setAct_evec s _
@[simp] theorem wE_evHome (i : EReg) (w : Word) : (wE s i w).evHome = s.evHome := setAct_evHome s _
@[simp] theorem wE_mirrorQ (i : EReg) (w : Word) : (wE s i w).mirrorQ = s.mirrorQ := setAct_mirrorQ s _
@[simp] theorem wE_launches (i : EReg) (w : Word) : (wE s i w).launches = s.launches := setAct_launches s _
@[simp] theorem wE_net (i : EReg) (w : Word) : (wE s i w).net = s.net := setAct_net s _
@[simp] theorem wE_reqs (i : EReg) (w : Word) : (wE s i w).reqs = s.reqs := setAct_reqs s _
@[simp] theorem wE_walks (i : EReg) (w : Word) : (wE s i w).walks = s.walks := setAct_walks s _
@[simp] theorem wE_memos (i : EReg) (w : Word) : (wE s i w).memos = s.memos := setAct_memos s _
@[simp] theorem wE_locks (i : EReg) (w : Word) : (wE s i w).locks = s.locks := setAct_locks s _
@[simp] theorem wE_mailboxes (i : EReg) (w : Word) : (wE s i w).mailboxes = s.mailboxes := setAct_mailboxes s _
@[simp] theorem wE_grants (i : EReg) (w : Word) : (wE s i w).grants = s.grants := setAct_grants s _
@[simp] theorem wE_invals (i : EReg) (w : Word) : (wE s i w).invals = s.invals := setAct_invals s _
@[simp] theorem wE_fibres (i : EReg) (w : Word) : (wE s i w).fibres = s.fibres := setAct_fibres s _
@[simp] theorem wE_faultCount (i : EReg) (w : Word) : (wE s i w).faultCount = s.faultCount := setAct_faultCount s _
@[simp] theorem wE_faultPending (i : EReg) (w : Word) : (wE s i w).faultPending = s.faultPending := setAct_faultPending s _
@[simp] theorem wE_ids (i : EReg) (w : Word) : (wE s i w).ids = s.ids := setAct_ids s _
@[simp] theorem wE_launchSeq (i : EReg) (w : Word) : (wE s i w).launchSeq = s.launchSeq := setAct_launchSeq s _
@[simp] theorem wE_cyc (i : EReg) (w : Word) : (wE s i w).cyc = s.cyc := setAct_cyc s _
@[simp] theorem wE_freeCtr (i : EReg) (w : Word) : (wE s i w).freeCtr = s.freeCtr := setAct_freeCtr s _
@[simp] theorem wE_heldPorts (i : EReg) (w : Word) : (wE s i w).heldPorts = s.heldPorts := setAct_heldPorts s _
@[simp] theorem wE_agenda (i : EReg) (w : Word) : (wE s i w).agenda = s.agenda := setAct_agenda s _
@[simp] theorem wE_cur (i : EReg) (w : Word) : (wE s i w).cur = s.cur := setAct_cur s _

/-! ### raiseFlags -/

@[simp] theorem raiseFlags_mem (n : Nat) : (raiseFlags s n).mem = s.mem := setAct_mem s _
@[simp] theorem raiseFlags_undef (n : Nat) : (raiseFlags s n).undef = s.undef := setAct_undef s _
@[simp] theorem raiseFlags_owners (n : Nat) : (raiseFlags s n).owners = s.owners := setAct_owners s _
@[simp] theorem raiseFlags_poison (n : Nat) : (raiseFlags s n).poison = s.poison := setAct_poison s _
@[simp] theorem raiseFlags_clauses (n : Nat) : (raiseFlags s n).clauses = s.clauses := setAct_clauses s _
@[simp] theorem raiseFlags_dies (n : Nat) : (raiseFlags s n).dies = s.dies := setAct_dies s _
@[simp] theorem raiseFlags_module (n : Nat) : (raiseFlags s n).module = s.module := setAct_module s _
@[simp] theorem raiseFlags_evec (n : Nat) : (raiseFlags s n).evec = s.evec := setAct_evec s _
@[simp] theorem raiseFlags_evHome (n : Nat) : (raiseFlags s n).evHome = s.evHome := setAct_evHome s _
@[simp] theorem raiseFlags_mirrorQ (n : Nat) : (raiseFlags s n).mirrorQ = s.mirrorQ := setAct_mirrorQ s _
@[simp] theorem raiseFlags_launches (n : Nat) : (raiseFlags s n).launches = s.launches := setAct_launches s _
@[simp] theorem raiseFlags_net (n : Nat) : (raiseFlags s n).net = s.net := setAct_net s _
@[simp] theorem raiseFlags_reqs (n : Nat) : (raiseFlags s n).reqs = s.reqs := setAct_reqs s _
@[simp] theorem raiseFlags_walks (n : Nat) : (raiseFlags s n).walks = s.walks := setAct_walks s _
@[simp] theorem raiseFlags_memos (n : Nat) : (raiseFlags s n).memos = s.memos := setAct_memos s _
@[simp] theorem raiseFlags_locks (n : Nat) : (raiseFlags s n).locks = s.locks := setAct_locks s _
@[simp] theorem raiseFlags_mailboxes (n : Nat) : (raiseFlags s n).mailboxes = s.mailboxes := setAct_mailboxes s _
@[simp] theorem raiseFlags_grants (n : Nat) : (raiseFlags s n).grants = s.grants := setAct_grants s _
@[simp] theorem raiseFlags_invals (n : Nat) : (raiseFlags s n).invals = s.invals := setAct_invals s _
@[simp] theorem raiseFlags_fibres (n : Nat) : (raiseFlags s n).fibres = s.fibres := setAct_fibres s _
@[simp] theorem raiseFlags_faultCount (n : Nat) : (raiseFlags s n).faultCount = s.faultCount := setAct_faultCount s _
@[simp] theorem raiseFlags_faultPending (n : Nat) : (raiseFlags s n).faultPending = s.faultPending := setAct_faultPending s _
@[simp] theorem raiseFlags_ids (n : Nat) : (raiseFlags s n).ids = s.ids := setAct_ids s _
@[simp] theorem raiseFlags_launchSeq (n : Nat) : (raiseFlags s n).launchSeq = s.launchSeq := setAct_launchSeq s _
@[simp] theorem raiseFlags_cyc (n : Nat) : (raiseFlags s n).cyc = s.cyc := setAct_cyc s _
@[simp] theorem raiseFlags_freeCtr (n : Nat) : (raiseFlags s n).freeCtr = s.freeCtr := setAct_freeCtr s _
@[simp] theorem raiseFlags_heldPorts (n : Nat) : (raiseFlags s n).heldPorts = s.heldPorts := setAct_heldPorts s _
@[simp] theorem raiseFlags_agenda (n : Nat) : (raiseFlags s n).agenda = s.agenda := setAct_agenda s _
@[simp] theorem raiseFlags_cur (n : Nat) : (raiseFlags s n).cur = s.cur := setAct_cur s _

/-! ### writeBytes -/

@[simp] theorem writeBytes_poison (s : State) (x l : Nat) (bs : List Byte) : (writeBytes s x l bs).poison = s.poison := by
  induction bs generalizing s l with
  | nil => rfl
  | cons b r ih => exact ih (writeByte s x l b) (l + 1)
@[simp] theorem writeBytes_cores (s : State) (x l : Nat) (bs : List Byte) : (writeBytes s x l bs).cores = s.cores := by
  induction bs generalizing s l with
  | nil => rfl
  | cons b r ih => exact ih (writeByte s x l b) (l + 1)
@[simp] theorem writeBytes_clauses (s : State) (x l : Nat) (bs : List Byte) : (writeBytes s x l bs).clauses = s.clauses := by
  induction bs generalizing s l with
  | nil => rfl
  | cons b r ih => exact ih (writeByte s x l b) (l + 1)
@[simp] theorem writeBytes_dies (s : State) (x l : Nat) (bs : List Byte) : (writeBytes s x l bs).dies = s.dies := by
  induction bs generalizing s l with
  | nil => rfl
  | cons b r ih => exact ih (writeByte s x l b) (l + 1)
@[simp] theorem writeBytes_module (s : State) (x l : Nat) (bs : List Byte) : (writeBytes s x l bs).module = s.module := by
  induction bs generalizing s l with
  | nil => rfl
  | cons b r ih => exact ih (writeByte s x l b) (l + 1)
@[simp] theorem writeBytes_evec (s : State) (x l : Nat) (bs : List Byte) : (writeBytes s x l bs).evec = s.evec := by
  induction bs generalizing s l with
  | nil => rfl
  | cons b r ih => exact ih (writeByte s x l b) (l + 1)
@[simp] theorem writeBytes_evHome (s : State) (x l : Nat) (bs : List Byte) : (writeBytes s x l bs).evHome = s.evHome := by
  induction bs generalizing s l with
  | nil => rfl
  | cons b r ih => exact ih (writeByte s x l b) (l + 1)
@[simp] theorem writeBytes_mirrorQ (s : State) (x l : Nat) (bs : List Byte) : (writeBytes s x l bs).mirrorQ = s.mirrorQ := by
  induction bs generalizing s l with
  | nil => rfl
  | cons b r ih => exact ih (writeByte s x l b) (l + 1)
@[simp] theorem writeBytes_launches (s : State) (x l : Nat) (bs : List Byte) : (writeBytes s x l bs).launches = s.launches := by
  induction bs generalizing s l with
  | nil => rfl
  | cons b r ih => exact ih (writeByte s x l b) (l + 1)
@[simp] theorem writeBytes_net (s : State) (x l : Nat) (bs : List Byte) : (writeBytes s x l bs).net = s.net := by
  induction bs generalizing s l with
  | nil => rfl
  | cons b r ih => exact ih (writeByte s x l b) (l + 1)
@[simp] theorem writeBytes_reqs (s : State) (x l : Nat) (bs : List Byte) : (writeBytes s x l bs).reqs = s.reqs := by
  induction bs generalizing s l with
  | nil => rfl
  | cons b r ih => exact ih (writeByte s x l b) (l + 1)
@[simp] theorem writeBytes_walks (s : State) (x l : Nat) (bs : List Byte) : (writeBytes s x l bs).walks = s.walks := by
  induction bs generalizing s l with
  | nil => rfl
  | cons b r ih => exact ih (writeByte s x l b) (l + 1)
@[simp] theorem writeBytes_memos (s : State) (x l : Nat) (bs : List Byte) : (writeBytes s x l bs).memos = s.memos := by
  induction bs generalizing s l with
  | nil => rfl
  | cons b r ih => exact ih (writeByte s x l b) (l + 1)
@[simp] theorem writeBytes_locks (s : State) (x l : Nat) (bs : List Byte) : (writeBytes s x l bs).locks = s.locks := by
  induction bs generalizing s l with
  | nil => rfl
  | cons b r ih => exact ih (writeByte s x l b) (l + 1)
@[simp] theorem writeBytes_mailboxes (s : State) (x l : Nat) (bs : List Byte) : (writeBytes s x l bs).mailboxes = s.mailboxes := by
  induction bs generalizing s l with
  | nil => rfl
  | cons b r ih => exact ih (writeByte s x l b) (l + 1)
@[simp] theorem writeBytes_grants (s : State) (x l : Nat) (bs : List Byte) : (writeBytes s x l bs).grants = s.grants := by
  induction bs generalizing s l with
  | nil => rfl
  | cons b r ih => exact ih (writeByte s x l b) (l + 1)
@[simp] theorem writeBytes_invals (s : State) (x l : Nat) (bs : List Byte) : (writeBytes s x l bs).invals = s.invals := by
  induction bs generalizing s l with
  | nil => rfl
  | cons b r ih => exact ih (writeByte s x l b) (l + 1)
@[simp] theorem writeBytes_fibres (s : State) (x l : Nat) (bs : List Byte) : (writeBytes s x l bs).fibres = s.fibres := by
  induction bs generalizing s l with
  | nil => rfl
  | cons b r ih => exact ih (writeByte s x l b) (l + 1)
@[simp] theorem writeBytes_faultCount (s : State) (x l : Nat) (bs : List Byte) : (writeBytes s x l bs).faultCount = s.faultCount := by
  induction bs generalizing s l with
  | nil => rfl
  | cons b r ih => exact ih (writeByte s x l b) (l + 1)
@[simp] theorem writeBytes_faultPending (s : State) (x l : Nat) (bs : List Byte) : (writeBytes s x l bs).faultPending = s.faultPending := by
  induction bs generalizing s l with
  | nil => rfl
  | cons b r ih => exact ih (writeByte s x l b) (l + 1)
@[simp] theorem writeBytes_ids (s : State) (x l : Nat) (bs : List Byte) : (writeBytes s x l bs).ids = s.ids := by
  induction bs generalizing s l with
  | nil => rfl
  | cons b r ih => exact ih (writeByte s x l b) (l + 1)
@[simp] theorem writeBytes_launchSeq (s : State) (x l : Nat) (bs : List Byte) : (writeBytes s x l bs).launchSeq = s.launchSeq := by
  induction bs generalizing s l with
  | nil => rfl
  | cons b r ih => exact ih (writeByte s x l b) (l + 1)
@[simp] theorem writeBytes_cyc (s : State) (x l : Nat) (bs : List Byte) : (writeBytes s x l bs).cyc = s.cyc := by
  induction bs generalizing s l with
  | nil => rfl
  | cons b r ih => exact ih (writeByte s x l b) (l + 1)
@[simp] theorem writeBytes_freeCtr (s : State) (x l : Nat) (bs : List Byte) : (writeBytes s x l bs).freeCtr = s.freeCtr := by
  induction bs generalizing s l with
  | nil => rfl
  | cons b r ih => exact ih (writeByte s x l b) (l + 1)
@[simp] theorem writeBytes_heldPorts (s : State) (x l : Nat) (bs : List Byte) : (writeBytes s x l bs).heldPorts = s.heldPorts := by
  induction bs generalizing s l with
  | nil => rfl
  | cons b r ih => exact ih (writeByte s x l b) (l + 1)
@[simp] theorem writeBytes_agenda (s : State) (x l : Nat) (bs : List Byte) : (writeBytes s x l bs).agenda = s.agenda := by
  induction bs generalizing s l with
  | nil => rfl
  | cons b r ih => exact ih (writeByte s x l b) (l + 1)
@[simp] theorem writeBytes_cur (s : State) (x l : Nat) (bs : List Byte) : (writeBytes s x l bs).cur = s.cur := by
  induction bs generalizing s l with
  | nil => rfl
  | cons b r ih => exact ih (writeByte s x l b) (l + 1)

/-! ### What an update sets -/

@[simp] theorem nextFree_freeCtr : (nextFree s).freeCtr = s.freeCtr + 1 := rfl
@[simp] theorem newId_ids : (newId s).ids = s.ids + 1 := rfl

end Sys2Proof.Machine
end

