-- ==== Sys2Proof/Laws/Table.lean ====
section
/-!
SUPPORT. Laws/Table.lean: what reading a table gives after an entry is set or removed, and that rising keys stay rising.
-/

namespace Sys2Proof.Machine

variable {α : Type}

@[simp] theorem tget_tset_self (t : Tab α) (k : Nat) (x : α) : tget (tset t k x) k = some x := by
  induction t with
  | nil => simp [tset, tget]
  | cons h r ih =>
    obtain ⟨j, y⟩ := h
    unfold tset
    split
    · simp [tget]
    · split
      · simp [tget]
      · rename_i h2
        simp [tget, h2, ih]

theorem tget_tset_ne (t : Tab α) {k l : Nat} (x : α) (h : l ≠ k) : tget (tset t k x) l = tget t l := by
  induction t with
  | nil => simp [tset, tget, Ne.symm h]
  | cons hd r ih =>
    obtain ⟨j, y⟩ := hd
    unfold tset
    split
    · simp [tget, Ne.symm h]
    · split
      · rename_i h2
        subst h2
        simp [tget, Ne.symm h]
      · simp only [tget, ih]

theorem tget_tset (t : Tab α) (k l : Nat) (x : α) : tget (tset t k x) l = if l = k then some x else tget t l := by
  by_cases h : l = k
  · subst h; simp
  · simp [h, tget_tset_ne t x h]

@[simp] theorem tgetD_tset_self (t : Tab α) (k : Nat) (x d : α) : tgetD (tset t k x) k d = x := by simp [tgetD]

theorem tgetD_tset_ne (t : Tab α) {k l : Nat} (x d : α) (h : l ≠ k) : tgetD (tset t k x) l d = tgetD t l d := by
  simp [tgetD, tget_tset_ne t x h]

theorem tget_tdel_ne (t : Tab α) {k l : Nat} (h : l ≠ k) : tget (tdel t k) l = tget t l := by
  induction t with
  | nil => rfl
  | cons hd r ih =>
    obtain ⟨j, y⟩ := hd
    unfold tdel
    split
    · rename_i h2
      subst h2
      simp [tget, Ne.symm h]
    · simp only [tget, ih]

/-! ### Rising keys -/

theorem risingFrom_mono {lo hi : Nat} (h : lo ≤ hi) : ∀ {t : Tab α}, risingFrom hi t = true → risingFrom lo t = true
  | [], _ => rfl
  | (j, y) :: r, hr => by
    simp only [risingFrom, Bool.and_eq_true, decide_eq_true_eq] at hr ⊢
    exact ⟨Nat.le_trans h hr.1, hr.2⟩

theorem tget_none_below {lo k : Nat} : ∀ {t : Tab α}, risingFrom lo t = true → k < lo → tget t k = none
  | [], _, _ => rfl
  | (j, y) :: r, hr, hk => by
    simp only [risingFrom, Bool.and_eq_true, decide_eq_true_eq] at hr
    have hj : j ≠ k := by omega
    simp only [tget, hj, if_false]
    exact tget_none_below hr.2 (by omega)

theorem risingFrom_tset {lo k : Nat} (x : α) (h : lo ≤ k) : ∀ {t : Tab α}, risingFrom lo t = true → risingFrom lo (tset t k x) = true
  | [], _ => by simp [tset, risingFrom, h]
  | (j, y) :: r, hr => by
    simp only [risingFrom, Bool.and_eq_true, decide_eq_true_eq] at hr
    unfold tset
    split
    · simp [risingFrom, h, hr.2]; omega
    · split
      · rename_i h2
        subst h2
        simp [risingFrom, hr.1, hr.2]
      · simp only [risingFrom, Bool.and_eq_true, decide_eq_true_eq]
        exact ⟨hr.1, risingFrom_tset x (by omega) hr.2⟩

theorem risingFrom_tdel {k : Nat} : ∀ {lo : Nat} {t : Tab α}, risingFrom lo t = true → risingFrom lo (tdel t k) = true
  | _, [], _ => rfl
  | lo, (j, y) :: r, hr => by
    simp only [risingFrom, Bool.and_eq_true, decide_eq_true_eq] at hr
    unfold tdel
    split
    · exact risingFrom_mono (by omega) hr.2
    · simp only [risingFrom, Bool.and_eq_true, decide_eq_true_eq]
      exact ⟨hr.1, risingFrom_tdel hr.2⟩

theorem tget_tdel_self {k : Nat} : ∀ {lo : Nat} {t : Tab α}, risingFrom lo t = true → tget (tdel t k) k = none
  | _, [], _ => rfl
  | lo, (j, y) :: r, hr => by
    simp only [risingFrom, Bool.and_eq_true, decide_eq_true_eq] at hr
    unfold tdel
    split
    · exact tget_none_below hr.2 (by omega)
    · rename_i h2
      simp only [tget, h2, if_false]
      exact tget_tdel_self hr.2

theorem risingFrom_filter (p : Nat × α → Bool) : ∀ {lo : Nat} {t : Tab α}, risingFrom lo t = true → risingFrom lo (t.filter p) = true
  | _, [], _ => rfl
  | lo, (j, y) :: r, hr => by
    simp only [risingFrom, Bool.and_eq_true, decide_eq_true_eq] at hr
    unfold List.filter
    split
    · simp only [risingFrom, Bool.and_eq_true, decide_eq_true_eq]
      exact ⟨hr.1, risingFrom_filter p hr.2⟩
    · exact risingFrom_mono (by omega) (risingFrom_filter p hr.2)

theorem mem_tset {t : Tab α} {k : Nat} {x : α} {c : Nat × α} (h : c ∈ tset t k x) : c = (k, x) ∨ c ∈ t := by
  induction t with
  | nil => simpa [tset] using h
  | cons hd r ih =>
    obtain ⟨j, y⟩ := hd
    unfold tset at h
    split at h
    · simp only [List.mem_cons] at h ⊢; tauto
    · split at h
      · simp only [List.mem_cons] at h ⊢; tauto
      · simp only [List.mem_cons] at h ⊢
        rcases h with h | h
        · tauto
        · rcases ih h with h | h <;> tauto

theorem mem_tdel {t : Tab α} {k : Nat} {c : Nat × α} (h : c ∈ tdel t k) : c ∈ t := by
  induction t with
  | nil => simp [tdel] at h
  | cons hd r ih =>
    obtain ⟨j, y⟩ := hd
    unfold tdel at h
    split at h
    · exact List.mem_cons_of_mem _ h
    · simp only [List.mem_cons] at h ⊢
      rcases h with h | h
      · exact Or.inl h
      · exact Or.inr (ih h)

end Sys2Proof.Machine
end

