-- ==== Sys2Proof/Laws/Activation.lean ====
section
/-!
SUPPORT. Laws/Activation.lean: reading the current activation and its registers after they are set, and what setting them
leaves alone on every core.
-/

namespace Sys2Proof.Machine

/-! ### Tables set twice -/

theorem tset_tset {α : Type} (t : Tab α) (k : Nat) (x y : α) : tset (tset t k x) k y = tset t k y := by
  induction t with
  | nil => simp [tset]
  | cons hd r ih =>
    obtain ⟨j, z⟩ := hd
    by_cases h1 : k < j
    · simp [tset, h1]
    · by_cases h2 : j = k
      · simp [tset, h2]
      · simp [tset, h1, h2, ih]

theorem find_replaceFirst {α : Type} (p : α → Bool) (f : α → α) (hf : ∀ x, p x = true → p (f x) = true) (l : List α) :
    (replaceFirst p f l).find? p = (l.find? p).map f := by
  induction l with
  | nil => rfl
  | cons x r ih =>
    by_cases h : p x = true
    · simp [replaceFirst, h, hf x h]
    · simp [replaceFirst, h, ih]

theorem replaceFirst_replaceFirst {α : Type} (p : α → Bool) (f g : α → α) (hf : ∀ x, p x = true → p (f x) = true) (l : List α) :
    replaceFirst p g (replaceFirst p f l) = replaceFirst p (g ∘ f) l := by
  induction l with
  | nil => rfl
  | cons x r ih =>
    by_cases h : p x = true
    · simp [replaceFirst, h, hf x h]
    · simp [replaceFirst, h, ih]

/-! ### Cores -/

@[simp] theorem coreOf_setCore_self (s : State) (c : Nat) (x : Core) : coreOf (setCore s c x) c = x := by simp [coreOf, setCore]

theorem coreOf_setCore_ne (s : State) {c d : Nat} (x : Core) (h : d ≠ c) : coreOf (setCore s c x) d = coreOf s d := by
  simp [coreOf, setCore, tgetD_tset_ne _ _ _ h]

@[simp] theorem coreOf_modCore_self (s : State) (c : Nat) (f : Core → Core) : coreOf (modCore s c f) c = f (coreOf s c) := by
  simp [modCore]

theorem coreOf_modCore_ne (s : State) {c d : Nat} (f : Core → Core) (h : d ≠ c) : coreOf (modCore s c f) d = coreOf s d :=
  coreOf_setCore_ne s _ h

theorem modCore_modCore (s : State) (c : Nat) (f g : Core → Core) : modCore (modCore s c f) c g = modCore s c (fun k => g (f k)) := by
  unfold modCore
  rw [coreOf_setCore_self]
  unfold setCore
  simp only [tset_tset]

/-- What a core keeps when its activation is set. -/
theorem coreOf_setActAt (s : State) (c : Cur) (a : Option Act) (d : Nat) :
    (coreOf (setActAt s c a) d).ctxs = (coreOf s d).ctxs ∧ (coreOf (setActAt s c a) d).phrase = (coreOf s d).phrase ∧
    (coreOf (setActAt s c a) d).waiting = (coreOf s d).waiting ∧ (coreOf (setActAt s c a) d).watch = (coreOf s d).watch ∧
    (coreOf (setActAt s c a) d).tvec = (coreOf s d).tvec ∧ (coreOf (setActAt s c a) d).saveb = (coreOf s d).saveb ∧
    (coreOf (setActAt s c a) d).shadow = (coreOf s d).shadow ∧ (coreOf (setActAt s c a) d).streaming = (coreOf s d).streaming := by
  unfold setActAt
  by_cases h : d = c.core
  · subst h
    cases c.away <;> simp
  · cases c.away <;> simp [coreOf_modCore_ne _ _ h]

theorem coreOf_setActAt_ne (s : State) (c : Cur) (a : Option Act) {d : Nat} (h : d ≠ c.core) : coreOf (setActAt s c a) d = coreOf s d := by
  unfold setActAt
  cases c.away <;> simp [coreOf_modCore_ne _ _ h]

/-! ### The activation at a place -/

theorem actAt_congr {s t : State} (h : t.cores = s.cores) (c : Cur) : actAt t c = actAt s c := by simp [actAt, coreOf, h]

theorem actAt_setActAt_self (s : State) (c : Cur) (a : Act) (h : (actAt s c).isSome = true) : actAt (setActAt s c (some a)) c = some a := by
  obtain ⟨core, away⟩ := c
  cases away with
  | none =>
    simp only [actAt, setActAt, coreOf_modCore_self] at h ⊢
    cases hx : (coreOf s core).active with
    | none => simp [hx] at h
    | some f => simp
  | some x =>
    simp only [actAt, setActAt, coreOf_modCore_self] at h ⊢
    rw [find_replaceFirst _ _ (fun f hf => by simpa using hf)]
    cases hx : (coreOf s core).away.find? (fun f => f.ctx == x) with
    | none => simp [hx] at h
    | some f => simp

theorem setActAt_setActAt (s : State) (c : Cur) (a b : Option Act) : setActAt (setActAt s c a) c b = setActAt s c b := by
  obtain ⟨core, away⟩ := c
  cases away with
  | none =>
    simp only [setActAt, modCore_modCore]
    congr 1
    funext k
    cases k.active <;> rfl
  | some x =>
    simp only [setActAt, modCore_modCore]
    congr 1
    funext k
    rw [replaceFirst_replaceFirst _ _ _ (fun f hf => by simpa using hf)]
    rfl

theorem ctxAt_setActAt (s : State) (c d : Cur) (a : Option Act) : ctxAt (setActAt s c a) d = ctxAt s d := by
  obtain ⟨core, away⟩ := d
  cases away with
  | some x => rfl
  | none =>
    by_cases h : core = c.core
    · subst h
      cases hc : c.away with
      | some y => simp [ctxAt, setActAt, hc]
      | none =>
        simp only [ctxAt, setActAt, hc, coreOf_modCore_self]
        cases (coreOf s c.core).active <;> rfl
    · simp only [ctxAt, coreOf_setActAt_ne s c a h]

/-! ### The current activation -/

@[simp] theorem act_setAct {s : State} (h : (actAt s s.cur).isSome = true) (a : Act) : act (setAct s a) = a := by
  simp [act, setAct, actAt_setActAt_self s s.cur a h]

theorem isSome_setAct {s : State} (h : (actAt s s.cur).isSome = true) (a : Act) : (actAt (setAct s a) (setAct s a).cur).isSome = true := by
  simp [setAct, actAt_setActAt_self s s.cur a h]

@[simp] theorem setAct_setAct (s : State) (a b : Act) : setAct (setAct s a) b = setAct s b := by
  simp [setAct, setActAt_setActAt]

theorem modAct_setAct {s : State} (h : (actAt s s.cur).isSome = true) (a : Act) (f : Act → Act) : modAct (setAct s a) f = setAct s (f a) := by
  simp [modAct, h]

theorem actAt_eq_act {s : State} (h : (actAt s s.cur).isSome = true) : actAt s s.cur = some (act s) := by
  obtain ⟨a, ha⟩ := Option.isSome_iff_exists.1 h
  simp [act, ha]

@[simp] theorem ctxId_setAct (s : State) (a : Act) : ctxId (setAct s a) = ctxId s := by
  simp only [ctxId, setAct, setActAt_cur, ctxAt_setActAt]

@[simp] theorem home_setAct (s : State) (a : Act) : home (setAct s a) = home s := by simp [home]

@[simp] theorem ctxOf_setAct (s : State) (a : Act) (c x : Nat) : ctxOf (setAct s a) c x = ctxOf s c x := by
  simp only [ctxOf, setAct, (coreOf_setActAt s s.cur (some a) c).1]

@[simp] theorem ctxNow_setAct (s : State) (a : Act) : ctxNow (setAct s a) = ctxNow s := by simp [ctxNow]

@[simp] theorem regs_setAct (s : State) (a : Act) : regs (setAct s a) = regs s := by simp [regs]

@[simp] theorem entry_setAct (s : State) (a : Act) : entry (setAct s a) = entry s := by simp [entry]

@[simp] theorem partNow_setAct (s : State) (a : Act) : partNow (setAct s a) = partNow s := by simp [partNow]

/-- Setting a live activation leaves which phrase its core is in. -/
theorem phraseNow_setAct {s : State} (h : (actAt s s.cur).isSome = true) (a : Act) : phraseNow (setAct s a) = phraseNow s := by
  simp only [phraseNow, setAct_cur, home_setAct]
  cases hc : s.cur.away with
  | some _ => rfl
  | none =>
    have hp : (coreOf (setAct s a) (home s)).phrase = (coreOf s (home s)).phrase := (coreOf_setActAt s s.cur (some a) (home s)).2.1
    have hi : ∀ p, inPhrase (setAct s a) p (home s) = inPhrase s p (home s) := by
      intro p
      simp only [inPhrase, home, setAct, setActAt, hc, coreOf_modCore_self]
      simp only [actAt, hc] at h
      cases hx : (coreOf s s.cur.core).active with
      | none => simp
      | some f =>
        rw [hx] at h
        simp [h]
    simp only [hp, hi]

theorem tvec_setAct (s : State) (a : Act) (c : Nat) : (coreOf (setAct s a) c).tvec = (coreOf s c).tvec :=
  (coreOf_setActAt s s.cur (some a) c).2.2.2.2.1

theorem runCore_setAct {s : State} (h : (actAt s s.cur).isSome = true) (a : Act) : runCore (setAct s a) = a.runsOn.getD s.cur.core := by
  simp [runCore, h]

/-- Setting the activation changes no byte. -/
theorem readByte_setAct (s : State) (a : Act) (loc : Nat) : readByte (setAct s a) loc = readByte s loc := by simp [readByte]

/-! ### Registers of an activation -/

@[simp] theorem Act.getS_zero (a : Act) : a.getS 0 = 0 := rfl
@[simp] theorem Act.setS_zero (a : Act) (w : Word) : a.setS 0 w = a := rfl
@[simp] theorem Act.getP_zero (a : Act) : a.getP 0 = 0xFFFF#16 := rfl
@[simp] theorem Act.setP_zero (a : Act) (w : BitVec 16) : a.setP 0 w = a := rfl

theorem Act.getS_setS_self (a : Act) {i : SReg} (h : i ≠ 0) (w : Word) : (a.setS i w).getS i = w := by
  unfold Act.getS Act.setS
  rw [if_neg h, if_neg h]
  exact Vector.getElem_set_self _

theorem Act.getS_setS_ne (a : Act) {i j : SReg} (h : j ≠ i) (w : Word) : (a.setS i w).getS j = a.getS j := by
  unfold Act.setS
  by_cases hi : i = 0
  · simp [hi]
  · have hn : i.toNat ≠ j.toNat := fun e => h (BitVec.eq_of_toNat_eq e.symm)
    simp only [hi, if_false, Act.getS]
    split
    · rfl
    · exact Vector.getElem_set_ne i.isLt j.isLt hn

theorem Act.getV_setV_self (a : Act) (i : VRegN) (x : VReg) : (a.setV i x).getV i = x := by simp [Act.getV, Act.setV]

theorem Act.getV_setV_ne (a : Act) {i j : VRegN} (h : j ≠ i) (x : VReg) : (a.setV i x).getV j = a.getV j := by
  have hn : i.toNat ≠ j.toNat := fun e => h (BitVec.eq_of_toNat_eq e.symm)
  exact Vector.getElem_set_ne i.isLt j.isLt hn

theorem Act.getP_setP_self (a : Act) {i : PReg} (h : i ≠ 0) (x : BitVec 16) : (a.setP i x).getP i = x := by
  unfold Act.getP Act.setP
  rw [if_neg h, if_neg h]
  exact Vector.getElem_set_self _

theorem Act.getP_setP_ne (a : Act) {i j : PReg} (h : j ≠ i) (x : BitVec 16) : (a.setP i x).getP j = a.getP j := by
  unfold Act.setP
  by_cases hi : i = 0
  · simp [hi]
  · have hn : i.toNat ≠ j.toNat := fun e => h (BitVec.eq_of_toNat_eq e.symm)
    simp only [hi, if_false, Act.getP]
    split
    · rfl
    · exact Vector.getElem_set_ne i.isLt j.isLt hn

theorem Act.getE_setE_self (a : Act) (i : EReg) (w : Word) : (a.setE i w).getE i = w := by simp [Act.getE, Act.setE]

theorem Act.getE_setE_ne (a : Act) {i j : EReg} (h : j ≠ i) (w : Word) : (a.setE i w).getE j = a.getE j := by
  have hn : i.toNat ≠ j.toNat := fun e => h (BitVec.eq_of_toNat_eq e.symm)
  exact Vector.getElem_set_ne i.isLt j.isLt hn

/-- What writing a scalar register leaves alone in the activation. -/
theorem Act.setS_rest (a : Act) (i : SReg) (w : Word) :
    (a.setS i w).pc = a.pc ∧ (a.setS i w).v = a.v ∧ (a.setS i w).p = a.p ∧ (a.setS i w).e = a.e ∧ (a.setS i w).cr = a.cr ∧
    (a.setS i w).priv = a.priv ∧ (a.setS i w).qin = a.qin ∧ (a.setS i w).qout = a.qout ∧ (a.setS i w).wait = a.wait ∧
    (a.setS i w).runsOn = a.runsOn := by
  unfold Act.setS
  split <;> simp

end Sys2Proof.Machine
end

