-- ==== Sys2Proof/Laws/Memory.lean ====
section
/-!
SUPPORT. Laws/Memory.lean: a byte read after a write, every other byte left alone, and the canonical form kept by every
operation over memory.
-/

namespace Sys2Proof.Machine

/-! ### The byte list -/

theorem Memory.wf_iff {m : List Host.Cell} : Memory.wf m = true ↔ risingFrom 0 m = true ∧ ∀ c ∈ m, c.2 ≠ unlistedByte := by
  simp [Memory.wf]

theorem Memory.wf_memSet {m : List Host.Cell} (h : Memory.wf m = true) (a : Nat) (b : Byte) : Memory.wf (memSet m a b) = true := by
  obtain ⟨hr, hu⟩ := Memory.wf_iff.1 h
  unfold memSet
  split
  · exact Memory.wf_iff.2 ⟨risingFrom_tdel hr, fun c hc => hu c (mem_tdel hc)⟩
  · rename_i hb
    refine Memory.wf_iff.2 ⟨risingFrom_tset b (Nat.zero_le a) hr, fun c hc => ?_⟩
    rcases mem_tset hc with rfl | hc
    · exact hb
    · exact hu c hc

theorem memGet_memSet_self {m : List Host.Cell} (h : Memory.wf m = true) (a : Nat) (b : Byte) : memGet (memSet m a b) a = b := by
  unfold memSet
  split
  · rename_i hb
    simp [memGet, tgetD, tget_tdel_self (Memory.wf_iff.1 h).1, hb]
  · simp [memGet]

theorem memGet_memSet_ne (m : List Host.Cell) {a l : Nat} (b : Byte) (h : l ≠ a) : memGet (memSet m a b) l = memGet m l := by
  unfold memSet
  split
  · simp [memGet, tgetD, tget_tdel_ne m h]
  · simp [memGet, tgetD_tset_ne m b _ h]

/-! ### Undefined intervals -/

theorem undefAt_undefCut_self (us : List Undef) (loc : Nat) : undefAt (undefCut us loc) loc = none := by
  induction us with
  | nil => rfl
  | cons u r ih =>
    simp only [undefAt, undefCut, List.flatMap_cons, List.find?_append] at ih ⊢
    rw [ih]
    split
    · split <;> split <;> simp [List.find?]
    · rename_i h
      simp [h]

/-- What `undefCut` makes of one interval covers every other location as the interval did. -/
theorem undefAt_undefCut_one (u : Undef) {loc l : Nat} (h : l ≠ loc) :
    (undefAt (undefCut [u] loc) l).map (·.epoch) = (undefAt [u] l).map (·.epoch) := by
  by_cases hu : u.lo ≤ loc ∧ loc < u.hi
  · by_cases h4 : u.lo < loc <;> by_cases h5 : loc + 1 < u.hi <;> by_cases h6 : u.lo ≤ l <;> by_cases h7 : l < u.hi <;>
      by_cases h8 : l < loc <;> by_cases h9 : loc + 1 ≤ l <;>
      simp [undefAt, undefCut, List.find?, hu.1, hu.2, h4, h5, h6, h7, h8, h9] <;> omega
  · simp [undefCut, hu]

theorem undefAt_cons (u : Undef) (r : List Undef) (l : Nat) : undefAt (u :: r) l = (undefAt [u] l).or (undefAt r l) := by
  simp only [undefAt]
  rw [← List.find?_append]
  rfl

theorem undefAt_undefCut_ne (us : List Undef) {loc l : Nat} (h : l ≠ loc) :
    (undefAt (undefCut us loc) l).map (·.epoch) = (undefAt us l).map (·.epoch) := by
  induction us with
  | nil => rfl
  | cons u r ih =>
    have hc : undefCut (u :: r) loc = undefCut [u] loc ++ undefCut r loc := by simp [undefCut]
    have ha : undefAt (undefCut [u] loc ++ undefCut r loc) l = (undefAt (undefCut [u] loc) l).or (undefAt (undefCut r loc) l) := by
      simp only [undefAt, List.find?_append]
    rw [hc, ha, undefAt_cons u r l, Option.map_or, Option.map_or, undefAt_undefCut_one u h, ih]

/-! ### Bytes of the state -/

theorem readByte_of_epoch (s : State) (loc : Nat) :
    readByte s loc = match (undefAt s.undef loc).map (·.epoch) with
      | some e => Config.freeByte e loc
      | none => memGet s.mem loc := by
  unfold readByte
  cases undefAt s.undef loc <;> rfl

theorem readByte_congr {s t : State} (hm : t.mem = s.mem) (hu : t.undef = s.undef) (loc : Nat) : readByte t loc = readByte s loc := by
  simp [readByte, hm, hu]

theorem readByte_writeByte_self {s : State} (h : Memory.wf s.mem = true) (ctx loc : Nat) (b : Byte) :
    readByte (writeByte s ctx loc b) loc = b := by
  simp [readByte, writeByte, undefAt_undefCut_self, memGet_memSet_self h]

theorem readByte_writeByte_ne (s : State) (ctx : Nat) {loc l : Nat} (b : Byte) (h : l ≠ loc) :
    readByte (writeByte s ctx loc b) l = readByte s l := by
  rw [readByte_of_epoch, readByte_of_epoch]
  simp only [writeByte, undefAt_undefCut_ne s.undef h, memGet_memSet_ne s.mem b h]

theorem wf_writeByte {s : State} (h : Memory.wf s.mem = true) (ctx loc : Nat) (b : Byte) :
    Memory.wf (writeByte s ctx loc b).mem = true := Memory.wf_memSet h loc b

theorem wf_writeBytes {s : State} (h : Memory.wf s.mem = true) (ctx loc : Nat) (bs : List Byte) :
    Memory.wf (writeBytes s ctx loc bs).mem = true := by
  induction bs generalizing s loc with
  | nil => exact h
  | cons b r ih => exact ih (wf_writeByte h ctx loc b) (loc + 1)

theorem wf_writeWord {s : State} (h : Memory.wf s.mem = true) (ctx loc : Nat) (w : Word) :
    Memory.wf (writeWord s ctx loc w).mem = true := wf_writeBytes h ctx loc _

theorem wf_makeUndef {s : State} (h : Memory.wf s.mem = true) (lo hi : Nat) : Memory.wf (makeUndef s lo hi).mem = true := by
  unfold makeUndef
  split
  · obtain ⟨hr, hu⟩ := Memory.wf_iff.1 h
    exact Memory.wf_iff.2 ⟨risingFrom_filter _ hr, fun c hc => hu c (List.mem_filter.1 hc).1⟩
  · exact h

theorem wf_reset : Memory.wf State.reset.mem = true := rfl

/-- A byte outside what is written reads as before. -/
theorem readByte_writeBytes_out (s : State) (ctx : Nat) {loc l : Nat} (bs : List Byte) (h : l < loc ∨ loc + bs.length ≤ l) :
    readByte (writeBytes s ctx loc bs) l = readByte s l := by
  induction bs generalizing s loc with
  | nil => rfl
  | cons b r ih =>
    simp only [List.length_cons] at h
    rw [writeBytes, ih, readByte_writeByte_ne _ _ _ (by omega)]
    omega

/-- Byte `i` of what is written reads back. -/
theorem readByte_writeBytes_in {s : State} (hw : Memory.wf s.mem = true) (ctx loc : Nat) (bs : List Byte) (i : Nat) (h : i < bs.length) :
    readByte (writeBytes s ctx loc bs) (loc + i) = bs[i] := by
  induction bs generalizing s loc i with
  | nil => simp at h
  | cons b r ih =>
    cases i with
    | zero =>
      rw [writeBytes, readByte_writeBytes_out _ _ _ (by omega)]
      exact readByte_writeByte_self hw ctx loc b
    | succ i =>
      have := ih (wf_writeByte hw ctx loc b) (loc + 1) i (by simpa using h)
      simpa [writeBytes, Nat.add_assoc, Nat.add_comm 1 i] using this

/-- What is written over an interval reads back as a whole. -/
theorem readBytes_writeBytes {s : State} (hw : Memory.wf s.mem = true) (ctx loc : Nat) (bs : List Byte) :
    readBytes (writeBytes s ctx loc bs) loc bs.length = bs := by
  apply List.ext_getElem
  · simp [readBytes]
  · intro i h1 h2
    simp only [readBytes, List.getElem_map, List.getElem_range]
    exact readByte_writeBytes_in hw ctx loc bs i h2

end Sys2Proof.Machine
end

