-- ==== Sys2Proof/Laws/Issue.lean ====
section
/-!
SUPPORT. Laws/Issue.lean: what `issue`, `gated` and the deliveries of a trap come to for an activation that issues alone.
-/

namespace Sys2Proof.Machine

theorem Solo.isSome {s : State} (h : Solo s) : (actAt s s.cur).isSome = true := h.1

theorem Solo.setAct {s : State} (h : Solo s) (a : Act) : Solo (setAct s a) := ⟨isSome_setAct h.1 a, (phraseNow_setAct h.1 a).trans h.2⟩

/-- An instruction of an activation alone: decode's fates, the body, and the end of the instruction. -/
theorem issue_solo {s : State} (h : Solo s) (g : Gate) (body : State → Res) : issue g body s = .next (finish g (gated g body s)) := by
  obtain ⟨a, ha⟩ := Option.isSome_iff_exists.1 h.1
  simp [issue, ha, h.2]

/-- `issue` answers a next state wherever an activation is current. -/
theorem issue_next {s : State} (h : (actAt s s.cur).isSome = true) (g : Gate) (body : State → Res) : ∃ t, issue g body s = .next t := by
  obtain ⟨a, ha⟩ := Option.isSome_iff_exists.1 h
  simp only [issue, ha]
  cases phraseNow s with
  | none => exact ⟨_, rfl⟩
  | some p => exact ⟨_, rfl⟩

@[simp] theorem gated_base (i : Instr) (body : State → Res) (s : State) : gated (baseGate i) body s = body s := by
  simp [gated, baseGate, lacksExt]

@[simp] theorem gated_short (body : State → Res) (s : State) : gated shortGate body s = body s := by
  simp [gated, shortGate, lacksExt]

@[simp] theorem baseGate_len (i : Instr) : (baseGate i).len = 4 := rfl

@[simp] theorem shortGate_len : shortGate.len = 2 := rfl

/-- A base encoding of four bytes. -/
theorem issue_base {s : State} (h : Solo s) (i : Instr) (body : State → Res) :
    issue (baseGate i) body s = .next (finish (baseGate i) (body s)) := by rw [issue_solo h, gated_base]

/-- A short form of two bytes. -/
theorem issue_short {s : State} (h : Solo s) (body : State → Res) : issue shortGate body s = .next (finish shortGate (body s)) := by
  rw [issue_solo h, gated_short]

@[simp] theorem finish_ok (g : Gate) (s : State) : finish g (.ok s) = after g.len s := rfl

@[simp] theorem finish_jump (g : Gate) (s : State) (t : Word) : finish g (.jump s t) = jumped s t := rfl

/-- Decode passes a gate whose unit, features, extension and privilege the activation has (R280). -/
theorem gated_pass {g : Gate} {s : State} (body : State → Res) (h1 : (isApp (runCore s) && g.engine) = false)
    (h2 : g.feats.any (fun b => !featureFor s (ctxId s) b) = false) (h3 : lacksExt s g = false)
    (h4 : g.priv = none ∨ (act s).priv = true) : gated g body s = body s := by
  unfold gated
  rw [h1, h2, h3]
  rcases h4 with h4 | h4
  · simp [h4]
  · cases hp : g.priv with
    | none => simp
    | some t => simp [h4]

/-- A privileged encoding in user mode raises PRIV (R280, R307). -/
theorem gated_priv {g : Gate} {s : State} (body : State → Res) (h1 : (isApp (runCore s) && g.engine) = false)
    (h2 : g.feats.any (fun b => !featureFor s (ctxId s) b) = false) (h3 : lacksExt s g = false) {t : Word} (h4 : g.priv = some t)
    (h5 : (act s).priv = false) : gated g body s = .trap s .priv t := by
  unfold gated
  rw [h1, h2, h3]
  simp [h4, h5]

/-- What completes on a state whose activation is set to `a`. -/
theorem after_setAct {s : State} (h : Solo s) (n : Nat) (a : Act) :
    after n (setAct s a) = setAct s { a with pc := a.pc + BitVec.ofNat 64 n, wait := none } := modAct_setAct h.1 a _

theorem after_wS {s : State} (h : Solo s) (n : Nat) (i : SReg) (w : Word) :
    after n (wS s i w) = setAct s { (act s).setS i w with pc := (act s).pc + BitVec.ofNat 64 n, wait := none } := by
  rw [wS, after_setAct h, ((act s).setS_rest i w).1]

/-- A trap in privileged mode enters the vector (R307). -/
theorem takeTrap_priv {s : State} (h : (act s).priv = true) (ph : Bool) {c : Cause} (hc : c ≠ .uncorrectable) (v : Word) :
    takeTrap s ph c v = .done (privTrap s false ph c v) := by simp [takeTrap, hc, h]

/-- A trap in user mode is a user upcall (R116). -/
theorem takeTrap_user {s : State} (h : (act s).priv = false) (ph : Bool) {c : Cause} (hc : c ≠ .uncorrectable) (v : Word) :
    takeTrap s ph c v = userUpcall s ph c v := by simp [takeTrap, hc, h]

/-- What `exec` answers is the meaning; an issue answers a fault only for a place without an activation. -/
theorem issue_fault {s : State} {g : Gate} {body : State → Res} {f : Fault} (h : issue g body s = .fault f) : actAt s s.cur = none := by
  unfold issue at h
  cases ha : actAt s s.cur with
  | none => rfl
  | some a =>
    rw [ha] at h
    cases hp : phraseNow s <;> simp [hp] at h

/-- An issue never refuses. -/
theorem issue_not_refused {s : State} {g : Gate} {body : State → Res} {r : Refusal} : issue g body s ≠ .refused r := by
  unfold issue
  cases ha : actAt s s.cur with
  | none => simp
  | some a => cases hp : phraseNow s <;> simp

end Sys2Proof.Machine
end

