-- ==== Sys2Proof/Laws/Numbers.lean ====
section
/-!
SUPPORT. Laws/Numbers.lean: the model's number operations as the real numbers say: decoding, the one rounding, exact sums and products,
quotients and roots, and the small formats (R187-R203).
-/

namespace Sys2Proof.Laws

open Sys2Proof Sys2Proof.Machine

/-! ### Rounding to a multiple (R198) -/

/-- A positive rational times a power of two, as a quotient of naturals. -/
theorem scaled_eq {a b : Nat} (e : Int) (hb : 0 < b) :
    (((if 0 ≤ e then a * 2 ^ e.toNat else a : Nat) : ℝ) / (if 0 ≤ e then b else b * 2 ^ (-e).toNat : Nat)) = (a : ℝ) / b * 2 ^ e := by
  have hb' : (b : ℝ) ≠ 0 := by positivity
  by_cases h : 0 ≤ e
  · obtain ⟨k, rfl⟩ := Int.eq_ofNat_of_zero_le h
    simp; ring
  · obtain ⟨k, hk⟩ := Int.eq_ofNat_of_zero_le (show 0 ≤ -e by omega)
    obtain rfl : e = -k := by omega
    have : k ≠ 0 := by rintro rfl; simp at h
    simp [this]
    field_simp

/-- `roundAt` gives the nearest multiple, ties to even, and tells whether it is exact (R198). -/
theorem roundAt_spec {a b : Nat} (e q : Int) (hb : 0 < b) :
    let r := roundAt a b e q
    let x : ℝ := (a : ℝ) / b * 2 ^ (e - q)
    |(r.1 : ℝ) - x| ≤ 1 / 2 ∧ (|(r.1 : ℝ) - x| = 1 / 2 → r.1 % 2 = 0) ∧ (r.2 = false ↔ (r.1 : ℝ) = x) := by
  intro r x
  have hx := scaled_eq (a := a) (e - q) hb
  set n := (if 0 ≤ e - q then a * 2 ^ (e - q).toNat else a : Nat) with hn
  set m := (if 0 ≤ e - q then b else b * 2 ^ (-(e - q)).toNat : Nat) with hm
  have hm0 : 0 < m := by rw [hm]; split <;> positivity
  have hmr : (0 : ℝ) < m := by exact_mod_cast hm0
  have hx' : x = (n : ℝ) / m := hx.symm
  have hr : r = (if 2 * (n % m) > m || (2 * (n % m) = m && n / m % 2 = 1) then n / m + 1 else n / m, n % m != 0) := rfl
  have hdiv : (n : ℝ) = m * (n / m : Nat) + (n % m : Nat) := by exact_mod_cast (Nat.div_add_mod n m).symm
  have hlt : n % m < m := Nat.mod_lt _ hm0
  have hlt' : ((n % m : Nat) : ℝ) < m := by exact_mod_cast hlt
  have hxx : x = (n / m : Nat) + ((n % m : Nat) : ℝ) / m := by rw [hx', hdiv]; field_simp
  generalize n / m = f at *
  generalize hg : n % m = g at *
  have hfrac : x = f + (g : ℝ) / m := hxx
  by_cases hc : (2 * g > m || (2 * g = m && f % 2 = 1)) = true
  · simp only [hc, if_true] at hr
    rw [hr, hfrac]
    have h1 : m ≤ 2 * g := by simp at hc; omega
    have h1' : (m : ℝ) ≤ 2 * g := by exact_mod_cast h1
    have hd : (1 : ℝ) / 2 ≤ g / m := by rw [div_le_div_iff₀ (by norm_num) hmr]; linarith
    have hd' : (g : ℝ) / m < 1 := by rw [div_lt_one hmr]; exact hlt'
    have e1 : |((f + 1 : Nat) : ℝ) - (f + (g : ℝ) / m)| = 1 - g / m := by
      rw [abs_of_nonneg] <;> push_cast <;> linarith
    simp only [e1]
    refine ⟨by linarith, fun h => ?_, ?_⟩
    · have : (g : ℝ) / m = 1 / 2 := by linarith
      rw [div_eq_div_iff hmr.ne' (by norm_num)] at this
      have : 2 * g = m := by exact_mod_cast (show (2 * g : ℝ) = m by linarith)
      simp at hc; omega
    · have : g ≠ 0 := by omega
      simp [this]; intro h; linarith
  · simp only [hc] at hr
    simp only [Bool.false_eq_true, if_false] at hr
    rw [hr, hfrac]
    have h1 : 2 * g ≤ m := by simp at hc; omega
    have h1' : 2 * (g : ℝ) ≤ m := by exact_mod_cast h1
    have hd : (g : ℝ) / m ≤ 1 / 2 := by rw [div_le_div_iff₀ hmr (by norm_num)]; linarith
    have hd0 : (0 : ℝ) ≤ g / m := by positivity
    have e1 : |((f : Nat) : ℝ) - (f + (g : ℝ) / m)| = g / m := by
      rw [abs_of_nonpos] <;> linarith
    simp only [e1]
    refine ⟨hd, fun h => ?_, ?_⟩
    · rw [div_eq_div_iff hmr.ne' (by norm_num)] at h
      have : 2 * g = m := by exact_mod_cast (show (2 * g : ℝ) = m by linarith)
      simp at hc; omega
    · simp [hmr.ne']

/-- `below` compares an exact value with a power of two. -/
theorem below_iff {a b : Nat} (e k : Int) (hb : 0 < b) : below a b e k = true ↔ (a : ℝ) / b * 2 ^ e < 2 ^ k := by
  have hx := scaled_eq (a := a) (e - k) hb
  have hbr : (0 : ℝ) < b := by exact_mod_cast hb
  have h1 : (a : ℝ) / b * 2 ^ e < 2 ^ k ↔ (a : ℝ) / b * 2 ^ (e - k) < 1 := by
    rw [zpow_sub₀ (by norm_num), ← mul_div_assoc, div_lt_one (by positivity)]
  rw [h1, ← hx]
  unfold below
  by_cases h : 0 ≤ e - k
  · simp only [h, if_true, decide_eq_true_eq]
    rw [div_lt_one (by positivity)]
    exact Nat.cast_lt.symm
  · simp only [h, if_false, decide_eq_true_eq]
    rw [div_lt_one (by positivity)]
    exact Nat.cast_lt.symm

/-- `floorLog` is the exponent of the power of two at or below a value. -/
theorem floorLog_spec {a b : Nat} (ha : 0 < a) (hb : 0 < b) :
    (2 : ℝ) ^ floorLog a b ≤ (a : ℝ) / b ∧ (a : ℝ) / b < 2 ^ (floorLog a b + 1) := by
  have hbr : (0 : ℝ) < b := by exact_mod_cast hb
  have la : (2 : ℝ) ^ (Nat.log2 a : Int) ≤ a := by
    rw [zpow_natCast]; exact_mod_cast Nat.log2_self_le ha.ne'
  have ua : (a : ℝ) < 2 ^ ((Nat.log2 a : Int) + 1) := by
    have := @Nat.lt_log2_self a
    rw [show ((Nat.log2 a : Int) + 1) = ((Nat.log2 a + 1 : Nat) : Int) by push_cast; rfl, zpow_natCast]; exact_mod_cast this
  have lb : (2 : ℝ) ^ (Nat.log2 b : Int) ≤ b := by
    rw [zpow_natCast]; exact_mod_cast Nat.log2_self_le hb.ne'
  have ub : (b : ℝ) < 2 ^ ((Nat.log2 b : Int) + 1) := by
    have := @Nat.lt_log2_self b
    rw [show ((Nat.log2 b : Int) + 1) = ((Nat.log2 b + 1 : Nat) : Int) by push_cast; rfl, zpow_natCast]; exact_mod_cast this
  have hk := below_iff (a := a) (b := b) 0 ((Nat.log2 a : Int) - (Nat.log2 b : Int)) hb
  simp only [zpow_zero, mul_one] at hk
  unfold floorLog
  generalize (Nat.log2 a : Int) = p at *
  generalize (Nat.log2 b : Int) = q at *
  have up : (a : ℝ) / b < 2 ^ (p - q + 1) := by
    rw [div_lt_iff₀ hbr]
    calc (a : ℝ) < 2 ^ (p + 1) := ua
      _ = 2 ^ (p - q + 1) * 2 ^ q := by rw [← zpow_add₀ (by norm_num)]; congr 1; ring
      _ ≤ _ := by gcongr
  have lo : (2 : ℝ) ^ (p - q - 1) ≤ (a : ℝ) / b := by
    rw [le_div_iff₀ hbr]
    calc (2 : ℝ) ^ (p - q - 1) * b ≤ 2 ^ (p - q - 1) * 2 ^ (q + 1) := by gcongr
      _ = 2 ^ p := by rw [← zpow_add₀ (by norm_num)]; congr 1; ring
      _ ≤ a := la
  by_cases h : below a b 0 (p - q) = true
  · simp only [h, if_true]
    exact ⟨lo, by simpa using hk.1 h⟩
  · simp only [h]
    exact ⟨by rw [hk] at h; simpa using h, up⟩

/-! ### Codes and their magnitudes (R187, R191, R193) -/

/-- A power of two with a natural subtracted from its exponent. -/
theorem two_zpow_sub (x : Int) (n : Nat) : (2 : ℝ) ^ (x - (n : Int)) = 2 ^ x / 2 ^ n := by
  rw [zpow_sub₀ (by norm_num), zpow_natCast]

/-- The value of a code that is named by its binade and its significand. -/
theorem magnitude_code (f : Fmt) (k s : Nat) (h : s < 2 ^ (f.fbits + 1)) (hk : k = 0 ∨ 2 ^ f.fbits ≤ s) :
    f.magnitude (k * 2 ^ f.fbits + s) = s * 2 ^ (f.qmin + k) := by
  have hp : 0 < 2 ^ f.fbits := by positivity
  have hpr : (2 : ℝ) ^ f.fbits ≠ 0 := by positivity
  unfold Fmt.magnitude Fmt.qmin
  rcases lt_or_ge s (2 ^ f.fbits) with hs | hs
  · obtain rfl : k = 0 := by omega
    have e0 : (0 * 2 ^ f.fbits + s) / 2 ^ f.fbits = 0 := by rw [zero_mul, zero_add]; exact Nat.div_eq_of_lt hs
    have m0 : (0 * 2 ^ f.fbits + s) % 2 ^ f.fbits = s := by rw [zero_mul, zero_add]; exact Nat.mod_eq_of_lt hs
    simp only [e0, m0, if_true]
    rw [show (1 - f.bias - (f.fbits : Int) + ((0 : Nat) : Int)) = (1 - f.bias) - (f.fbits : Int) by push_cast; ring, two_zpow_sub]
    ring
  · obtain ⟨m, rfl⟩ := Nat.exists_eq_add_of_le hs
    have hm : m < 2 ^ f.fbits := by rw [pow_succ] at h; omega
    have e0 : (k * 2 ^ f.fbits + (2 ^ f.fbits + m)) / 2 ^ f.fbits = k + 1 := by
      rw [show k * 2 ^ f.fbits + (2 ^ f.fbits + m) = m + (k + 1) * 2 ^ f.fbits by ring, Nat.add_mul_div_right _ _ hp, Nat.div_eq_of_lt hm]; ring
    have m0 : (k * 2 ^ f.fbits + (2 ^ f.fbits + m)) % 2 ^ f.fbits = m := by
      rw [show k * 2 ^ f.fbits + (2 ^ f.fbits + m) = m + (k + 1) * 2 ^ f.fbits by ring, Nat.add_mul_mod_self_right, Nat.mod_eq_of_lt hm]
    simp only [e0, m0, if_neg (Nat.succ_ne_zero k)]
    rw [show (1 - f.bias - (f.fbits : Int) + (k : Int)) = (((k + 1 : Nat) : Int) - f.bias) - (f.fbits : Int) by push_cast; ring,
      two_zpow_sub]
    generalize (2 : ℝ) ^ (((k + 1 : Nat) : Int) - f.bias) = z
    push_cast
    field_simp

/-- The same, where the significand may have reached the next binade. -/
theorem magnitude_code_le (f : Fmt) (k s : Nat) (h : s ≤ 2 ^ (f.fbits + 1)) (hk : k = 0 ∨ 2 ^ f.fbits ≤ s) :
    f.magnitude (k * 2 ^ f.fbits + s) = s * 2 ^ (f.qmin + k) := by
  rcases lt_or_eq_of_le h with h | rfl
  · exact magnitude_code f k s h hk
  · have := magnitude_code f (k + 1) (2 ^ f.fbits) (Nat.pow_lt_pow_right (by norm_num) (by omega)) (.inr le_rfl)
    rw [show k * 2 ^ f.fbits + 2 ^ (f.fbits + 1) = (k + 1) * 2 ^ f.fbits + 2 ^ f.fbits by ring, this,
      show f.qmin + ((k + 1 : Nat) : Int) = (f.qmin + k) + 1 by push_cast; ring, zpow_add₀ (by norm_num)]
    push_cast; ring

/-- Every code is a binade and a significand. -/
theorem code_split (f : Fmt) (c : Nat) : ∃ k s, c = k * 2 ^ f.fbits + s ∧ s < 2 ^ (f.fbits + 1) ∧ (k = 0 ∨ 2 ^ f.fbits ≤ s) := by
  have hp : 0 < 2 ^ f.fbits := by positivity
  have hd := Nat.div_add_mod c (2 ^ f.fbits)
  have hm := Nat.mod_lt c hp
  generalize c / 2 ^ f.fbits = q at *
  generalize c % 2 ^ f.fbits = m at *
  rcases q with _ | k
  · exact ⟨0, m, by rw [← hd]; ring, by rw [pow_succ]; omega, .inl rfl⟩
  · exact ⟨k, 2 ^ f.fbits + m, by rw [← hd]; ring, by rw [pow_succ]; omega, .inr (by omega)⟩

/-- The code after a code lies one step of its binade above it. -/
theorem magnitude_succ (f : Fmt) (k s : Nat) (h : s < 2 ^ (f.fbits + 1)) (hk : k = 0 ∨ 2 ^ f.fbits ≤ s) :
    f.magnitude (k * 2 ^ f.fbits + s + 1) = (s + 1) * 2 ^ (f.qmin + k) := by
  rw [add_assoc, magnitude_code_le f k (s + 1) (by omega) (by omega)]; push_cast; ring

/-- Codes rise with their values. -/
theorem magnitude_strictMono (f : Fmt) : StrictMono f.magnitude := by
  refine strictMono_nat_of_lt_succ fun c => ?_
  obtain ⟨k, s, rfl, h, hk⟩ := code_split f c
  rw [magnitude_succ f k s h hk, magnitude_code f k s h hk]
  have : (0 : ℝ) < 2 ^ (f.qmin + k) := by positivity
  nlinarith

/-- A code is nearest to x if x lies between the middles towards its neighbours, and on one only if it is even. -/
theorem nearest_of_mid {val : Nat → ℝ} (hv : StrictMono val) {n c : Nat} {x : ℝ} (hc : c < n)
    (hi : c + 1 < n → x ≤ (val c + val (c + 1)) / 2 ∧ (x = (val c + val (c + 1)) / 2 → c % 2 = 0))
    (lo : ∀ b, c = b + 1 → (val b + val c) / 2 ≤ x ∧ (x = (val b + val c) / 2 → c % 2 = 0)) : Nearest val n x c := by
  refine ⟨hc, fun d hd => ?_⟩
  rcases lt_trichotomy d c with h | rfl | h
  · obtain ⟨b, rfl⟩ : ∃ b, c = b + 1 := ⟨c - 1, by omega⟩
    obtain ⟨l1, l2⟩ := lo b rfl
    have hb : val b < val (b + 1) := hv (by omega)
    have hd' : val d ≤ val b := hv.monotone (by omega)
    have hdx : |val d - x| = x - val d := by rw [abs_of_nonpos] <;> linarith
    rw [hdx]
    refine ⟨by rw [abs_le]; constructor <;> linarith, fun _ he => ?_⟩
    rcases abs_cases (val (b + 1) - x) with ⟨h1, _⟩ | ⟨h1, _⟩
    · rw [h1] at he; exact l2 (by linarith)
    · rw [h1] at he; have : val d < val (b + 1) := by linarith
      linarith
  · exact ⟨le_rfl, fun h => absurd rfl h⟩
  · obtain ⟨u1, u2⟩ := hi (by omega)
    have hb : val c < val (c + 1) := hv (by omega)
    have hd' : val (c + 1) ≤ val d := hv.monotone (by omega)
    have hdx : |val d - x| = val d - x := abs_of_nonneg (by linarith)
    rw [hdx]
    refine ⟨by rw [abs_le]; constructor <;> linarith, fun _ he => ?_⟩
    rcases abs_cases (val c - x) with ⟨h1, _⟩ | ⟨h1, _⟩
    · rw [h1] at he; linarith
    · rw [h1] at he; exact u2 (by linarith)

/-- `below` at the smallest normal. -/
theorem below_normal {a b : Nat} (f : Fmt) (e : Int) (hb : 0 < b) :
    below a b e (1 - f.bias) = true ↔ (a : ℝ) / b * 2 ^ e < 2 ^ (1 - f.bias) := below_iff e _ hb

/-- The unlimited rounding gives the nearest code of however many, and its flags (R198-R200). -/
theorem nearest_spec (f : Fmt) (hf : 0 < f.fbits) {a b : Nat} (e : Int) (ha : 0 < a) (hb : 0 < b) (n : Nat)
    (hn : (f.nearest a b e).1 < n) :
    RoundsTo f.magnitude n (2 ^ (1 - f.bias)) ((a : ℝ) / b * 2 ^ e) (f.nearest a b e) := by
  have har : (0 : ℝ) < a := by exact_mod_cast ha
  have hbr : (0 : ℝ) < b := by exact_mod_cast hb
  obtain ⟨l1, l2⟩ := floorLog_spec ha hb
  set q : Int := max (floorLog a b + e - f.fbits) f.qmin with hq
  obtain ⟨k, hk⟩ := Int.eq_ofNat_of_zero_le (show 0 ≤ q - f.qmin by omega)
  obtain ⟨r1, r2, r3⟩ := roundAt_spec (a := a) e q hb
  set sig := (roundAt a b e q).1 with hsig
  set inex := (roundAt a b e q).2 with hinex
  set x : ℝ := (a : ℝ) / b * 2 ^ e with hx
  have hr : f.nearest a b e = (k * 2 ^ f.fbits + sig, if inex then (if below a b e (1 - f.bias) then 3 else 1) else 0) := by
    unfold Fmt.nearest
    rw [← hq]
    simp only [← hsig, ← hinex, hk, fInexact, fUnderflow]
    rfl
  have p2 : (0 : ℝ) < 2 ^ q := by positivity
  have hy : (a : ℝ) / b * 2 ^ (e - q) = x / 2 ^ q := by rw [hx, zpow_sub₀ (by norm_num)]; ring
  rw [hy] at r1 r2 r3
  set y := x / 2 ^ q with hyd
  have hxy : x = y * 2 ^ q := by rw [hyd]; field_simp
  have hqk : q = f.qmin + k := by have : ((Int.ofNat k) : Int) = k := rfl
                                  omega
  -- bounds of y
  have yhi : y < 2 ^ (f.fbits + 1) := by
    rw [hyd, div_lt_iff₀ p2, hx]
    calc (a : ℝ) / b * 2 ^ e < 2 ^ (floorLog a b + 1) * 2 ^ e := by gcongr
      _ = 2 ^ (floorLog a b + e - f.fbits) * 2 ^ ((f.fbits + 1 : Nat) : Int) := by
        rw [← zpow_add₀ (by norm_num), ← zpow_add₀ (by norm_num)]; congr 1; push_cast; ring
      _ ≤ 2 ^ q * 2 ^ ((f.fbits + 1 : Nat) : Int) := by
        gcongr
        · norm_num
        · omega
      _ = _ := by rw [zpow_natCast]; ring
  have ylo : k ≠ 0 → (2 : ℝ) ^ f.fbits ≤ y := by
    intro hk0
    have hqe : q = floorLog a b + e - f.fbits := by omega
    rw [hyd, le_div_iff₀ p2, hx, hqe, two_zpow_sub]
    have : (2 : ℝ) ^ (floorLog a b + e) ≤ (a : ℝ) / b * 2 ^ e := by
      rw [zpow_add₀ (by norm_num)]; gcongr
    calc _ = (2 : ℝ) ^ (floorLog a b + e) := by field_simp
      _ ≤ _ := this
  have y0 : 0 < y := by rw [hyd]; positivity
  obtain ⟨s1, s2⟩ := abs_le.1 r1
  have shi : sig ≤ 2 ^ (f.fbits + 1) := by
    have : (sig : ℝ) < 2 ^ (f.fbits + 1) + 1 := by linarith
    have : sig < 2 ^ (f.fbits + 1) + 1 := by exact_mod_cast this
    omega
  have slo : k = 0 ∨ 2 ^ f.fbits ≤ sig := by
    by_cases h : k = 0
    · exact .inl h
    · have := ylo h
      have : (2 : ℝ) ^ f.fbits < sig + 1 := by linarith
      have : 2 ^ f.fbits < sig + 1 := by exact_mod_cast this
      omega
  have hmag : f.magnitude (k * 2 ^ f.fbits + sig) = sig * 2 ^ q := by rw [magnitude_code_le f k sig shi slo, hqk]
  have heven : (k * 2 ^ f.fbits + sig) % 2 = sig % 2 := by
    obtain ⟨j, hj⟩ := Nat.exists_eq_succ_of_ne_zero hf.ne'
    rw [hj, pow_succ, ← mul_assoc]; omega
  have hex : (inex = false ↔ f.magnitude (k * 2 ^ f.fbits + sig) = x) := by
    rw [r3, hmag, hxy]; constructor
    · intro h; rw [h]
    · intro h; exact mul_right_cancel₀ p2.ne' h
  have half : |(sig : ℝ) - y| = 1 / 2 → (k * 2 ^ f.fbits + sig) % 2 = 0 := fun h => by rw [heven]; exact r2 h
  rw [hr] at hn ⊢
  refine ⟨nearest_of_mid (magnitude_strictMono f) hn (fun _ => ?_) (fun c hc => ?_), ?_, ?_, ?_⟩
  · show x ≤ (f.magnitude (k * 2 ^ f.fbits + sig) + _) / 2 ∧ (x = (f.magnitude (k * 2 ^ f.fbits + sig) + _) / 2 → _)
    rcases lt_or_eq_of_le shi with h | h
    · rw [magnitude_succ f k sig h slo, hmag, ← hqk, hxy]
      refine ⟨by nlinarith, fun he => half ?_⟩
      have : y = sig + 1 / 2 := by
        apply mul_right_cancel₀ p2.ne'; rw [he]; ring
      rw [this, abs_of_nonpos] <;> linarith
    · have hlt : (y : ℝ) < sig := by rw [h]; push_cast; exact yhi
      have hm := magnitude_strictMono f (show k * 2 ^ f.fbits + sig < k * 2 ^ f.fbits + sig + 1 by omega)
      rw [hmag] at hm ⊢
      have : x < sig * 2 ^ q := by rw [hxy]; gcongr
      exact ⟨by linarith, fun he => by linarith⟩
  · show (_ + f.magnitude (k * 2 ^ f.fbits + sig)) / 2 ≤ x ∧ (x = (_ + f.magnitude (k * 2 ^ f.fbits + sig)) / 2 → _)
    have hc' : k * 2 ^ f.fbits + sig = c + 1 := hc
    have hm := magnitude_strictMono f (show c < k * 2 ^ f.fbits + sig by omega)
    by_cases h : k ≠ 0 ∧ sig = 2 ^ f.fbits
    · have := ylo h.1
      have : sig * 2 ^ q ≤ x := by rw [hxy, h.2]; push_cast; gcongr
      rw [hmag] at hm ⊢
      exact ⟨by linarith, fun he => by linarith⟩
    · have h0 : sig ≠ 0 := by
        rintro h0
        rcases slo with h1 | h1
        · subst h1; omega
        · have : 0 < 2 ^ f.fbits := by positivity
          omega
      obtain ⟨t, ht⟩ := Nat.exists_eq_succ_of_ne_zero h0
      have hcc : c = k * 2 ^ f.fbits + t := by omega
      have hmt : f.magnitude c = t * 2 ^ q := by
        rw [hcc, magnitude_code_le f k t (by omega) (by omega), hqk]
      rw [hmt, hmag, hxy]
      have ht' : (sig : ℝ) = t + 1 := by rw [ht]; push_cast; ring
      refine ⟨by nlinarith, fun he => half ?_⟩
      have : y = sig - 1 / 2 := by
        apply mul_right_cancel₀ p2.ne'; rw [he, ht']; ring
      rw [this, abs_of_nonneg] <;> linarith
  · intro h
    rw [← hex] at h; simp [h]
  · intro h hlt
    have hi : inex = true := by rcases hh : inex with _ | _; exact absurd (hex.1 hh) h; rfl
    simp [hi, (below_normal f e hb).2 hlt]
  · intro h hle
    have hi : inex = true := by rcases hh : inex with _ | _; exact absurd (hex.1 hh) h; rfl
    have hb' : below a b e (1 - f.bias) = false := by
      rw [Bool.eq_false_iff]; intro hc; rw [below_normal f e hb] at hc; linarith
    simp [hi, hb']

/-- The unlimited rounding passes an odd code exactly where the value is at least the middle above it. -/
theorem nearest_past (f : Fmt) (hf : 0 < f.fbits) {a b : Nat} (e : Int) (ha : 0 < a) (hb : 0 < b) (c : Nat) (hc : c % 2 = 1) :
    c < (f.nearest a b e).1 ↔ (f.magnitude c + f.magnitude (c + 1)) / 2 ≤ (a : ℝ) / b * 2 ^ e := by
  have hm := magnitude_strictMono f
  obtain ⟨⟨-, h⟩, -⟩ := nearest_spec f hf e ha hb ((f.nearest a b e).1 + c + 2) (by omega)
  set r := (f.nearest a b e).1
  set x := (a : ℝ) / b * 2 ^ e
  constructor
  · intro hlt
    have h1 := (h c (by omega)).1
    have h2 : f.magnitude (c + 1) ≤ f.magnitude r := hm.monotone (by omega)
    have h3 : f.magnitude c < f.magnitude (c + 1) := hm (by omega)
    by_contra hx
    push Not at hx
    rcases abs_cases (f.magnitude r - x) with ⟨e1, _⟩ | ⟨e1, _⟩ <;> rcases abs_cases (f.magnitude c - x) with ⟨e2, _⟩ | ⟨e2, _⟩ <;>
      rw [e1, e2] at h1 <;> linarith
  · intro hx
    by_contra hlt
    obtain ⟨h1, h4⟩ := h (c + 1) (by omega)
    have h2 : f.magnitude r ≤ f.magnitude c := hm.monotone (by omega)
    have h3 : f.magnitude c < f.magnitude (c + 1) := hm (by omega)
    have h5 := h4 (by omega)
    have key : f.magnitude r = f.magnitude c ∧ |f.magnitude (c + 1) - x| = |f.magnitude r - x| := by
      rcases abs_cases (f.magnitude r - x) with ⟨e1, _⟩ | ⟨e1, _⟩ <;> rcases abs_cases (f.magnitude (c + 1) - x) with ⟨e2, _⟩ | ⟨e2, _⟩ <;>
        rw [e1, e2] at h1 ⊢ <;> constructor <;> linarith
    have : r = c := hm.injective key.1
    have := h5 key.2
    omega

/-- The bias, and the code of infinity, by the number of binades. -/
theorem bias_eq (f : Fmt) (he : 2 ≤ f.ebits) : ∃ k : Nat, 2 ^ f.ebits = k + 3 ∧ f.qmin + k = f.bias - f.fbits ∧ f.bias = (k + 1 : Int) / 2 ∧
    f.infCode = k * 2 ^ f.fbits + 2 ^ (f.fbits + 1) := by
  obtain ⟨j, hj⟩ := Nat.exists_eq_add_of_le he
  have hp : 2 ^ f.ebits = 2 * 2 ^ (j + 1) := by rw [hj]; ring
  have hb : f.bias = 2 ^ (j + 1) - 1 := by unfold Fmt.bias; rw [hj, show 2 + j - 1 = j + 1 by omega]
  have h1 : 2 ≤ 2 ^ (j + 1) := by rw [pow_succ]; have : 0 < 2 ^ j := by positivity
                                  omega
  have hc : ((2 ^ (j + 1) : Nat) : Int) = (2 : Int) ^ (j + 1) := by push_cast; rfl
  refine ⟨2 * 2 ^ (j + 1) - 3, by omega, ?_, ?_, ?_⟩
  · unfold Fmt.qmin; rw [hb, ← hc]; omega
  · rw [hb, ← hc]; omega
  · unfold Fmt.infCode
    rw [hp, pow_succ 2 f.fbits]
    obtain ⟨i, hi⟩ := Nat.exists_eq_add_of_le (show 3 ≤ 2 * 2 ^ (j + 1) by rw [pow_succ] at h1 ⊢; omega)
    rw [hi, show 3 + i - 1 = i + 2 by omega, show 3 + i - 3 = i by omega]; ring

/-- The middle between the largest finite code and infinity's (R189). -/
theorem top_eq (f : Fmt) (he : 2 ≤ f.ebits) (hf : 0 < f.fbits) :
    ∃ c, f.infCode = c + 1 ∧ c % 2 = 1 ∧ (f.magnitude c + f.magnitude (c + 1)) / 2 = (2 - 1 / 2 ^ (f.fbits + 1)) * 2 ^ f.bias := by
  obtain ⟨k, -, hq, -, hi⟩ := bias_eq f he
  have hp : 2 ^ (f.fbits + 1) = 2 * 2 ^ f.fbits := by ring
  have hp0 : 2 ≤ 2 ^ f.fbits := by
    obtain ⟨i, hi⟩ := Nat.exists_eq_succ_of_ne_zero hf.ne'
    rw [hi, pow_succ]; have : 0 < 2 ^ i := by positivity
    omega
  have ev : 2 ^ f.fbits % 2 = 0 := by
    obtain ⟨i, hi⟩ := Nat.exists_eq_succ_of_ne_zero hf.ne'
    rw [hi, pow_succ]; omega
  have ek : k * 2 ^ f.fbits % 2 = 0 := by rw [Nat.mul_mod, ev]; simp
  refine ⟨k * 2 ^ f.fbits + (2 ^ (f.fbits + 1) - 1), by omega, by omega, ?_⟩
  rw [magnitude_succ f k _ (by omega) (.inr (by omega)), magnitude_code f k _ (by omega) (.inr (by omega)), hq, two_zpow_sub,
    Nat.cast_sub (by omega)]
  push_cast
  field_simp
  ring

/-- The one rounding to an IEEE format (R188, R189, R198-R200). -/
theorem round_rounded (f : Fmt) (he : 2 ≤ f.ebits) (hf : 0 < f.fbits) (n : Bool) (a b : Nat) (e : Int) (hb : 0 < b) :
    f.Rounded (Xv.fin n a b e).real n (f.round (.fin n a b e)) := by
  have hbr : (0 : ℝ) < b := by exact_mod_cast hb
  have habs : |(Xv.fin n a b e).real| = (a : ℝ) / b * 2 ^ e := by
    unfold Xv.real; rw [abs_mul, abs_mul, abs_of_pos (show (0 : ℝ) < 2 ^ e by positivity), abs_of_nonneg (show (0 : ℝ) ≤ a / b by positivity)]
    cases n <;> simp
  obtain ⟨c, hc, hodd, htop⟩ := top_eq f he hf
  unfold Fmt.Rounded
  rw [habs]
  simp only
  rw [← htop]
  by_cases ha : a = 0
  · subst ha
    have h0 : (((0 : Nat) : ℝ) / b * 2 ^ e) = 0 := by simp
    have m0 : f.magnitude 0 = 0 := by simp [Fmt.magnitude]
    have hpos : 0 < f.magnitude (c + 1) := by rw [← m0]; exact magnitude_strictMono f (by omega)
    have hpos' : 0 ≤ f.magnitude c := by rw [← m0]; exact (magnitude_strictMono f).monotone (by omega)
    rw [h0]
    refine ⟨fun h => by linarith, fun _ => ⟨0, by simp [Fmt.round, Fmt.signBit], ?_⟩⟩
    refine ⟨nearest_of_mid (magnitude_strictMono f) (by omega) (fun _ => ?_) (fun _ h => by omega), ?_, ?_, ?_⟩
    · have : 0 < f.magnitude (0 + 1) := by rw [← m0]; exact magnitude_strictMono f (by omega)
      exact ⟨by linarith, fun _ => rfl⟩
    · intro _; simp [Fmt.round]
    · intro h; exact absurd m0 h
    · intro h; exact absurd m0 h
  · have hr : f.round (.fin n a b e) = if f.infCode ≤ (f.nearest a b e).1 then (f.infCode + (if n then f.signBit else 0), fOverflow + fInexact)
        else ((f.nearest a b e).1 + (if n then f.signBit else 0), (f.nearest a b e).2) := by
      simp [Fmt.round, ha]
    rw [hr]
    have hp := nearest_past f hf e (Nat.pos_of_ne_zero ha) hb c hodd
    rw [← hp]
    constructor
    · intro h
      rw [if_pos (by omega)]; rfl
    · intro h
      have h' : (f.nearest a b e).1 ≤ c := by
        by_contra hh; exact absurd (hp.1 (by omega)) (not_le.2 h)
      rw [if_neg (by omega)]
      exact ⟨_, rfl, nearest_spec f hf e (Nat.pos_of_ne_zero ha) hb _ (by omega)⟩

/-! ### Exact operations (R189, R202, R203) -/

/-- The sign changed. -/
theorem real_neg (x : Xv) : x.neg.real = -x.real := by
  cases x with
  | fin n a b e => cases n <;> simp [Xv.neg, Xv.real]
  | _ => simp [Xv.neg, Xv.real]

/-- A value times a power of two. -/
theorem real_scale (n : Bool) (a b : Nat) (e k : Int) : ((Xv.fin n a b e).scale k).real = (Xv.fin n a b e).real * 2 ^ k := by
  simp only [Xv.scale, Xv.real]; rw [zpow_add₀ (by norm_num)]; ring

/-- The product is exact. -/
theorem real_mul (m : Bool) (a b : Nat) (e : Int) (n : Bool) (c d : Nat) (g : Int) :
    ((Xv.fin m a b e).mul (.fin n c d g)).real = (Xv.fin m a b e).real * (Xv.fin n c d g).real := by
  simp only [Xv.mul, Xv.real]
  rw [zpow_add₀ (by norm_num)]
  push_cast
  cases m <;> cases n <;> simp <;> ring

/-- The sum of two finite values is exact. -/
theorem real_addFin (m : Bool) {a b : Nat} (e : Int) (n : Bool) {c d : Nat} (g : Int) (hb : 0 < b) (hd : 0 < d) :
    (Xv.addFin m a b e n c d g).real = (Xv.fin m a b e).real + (Xv.fin n c d g).real := by
  have hbr : (b : ℝ) ≠ 0 := by positivity
  have hdr : (d : ℝ) ≠ 0 := by positivity
  unfold Xv.addFin
  simp only
  set lo := min e g with hlo
  obtain ⟨i, hi⟩ := Int.eq_ofNat_of_zero_le (show 0 ≤ e - lo by omega)
  obtain ⟨j, hj⟩ := Int.eq_ofNat_of_zero_le (show 0 ≤ g - lo by omega)
  have he : e = lo + i := by have : Int.ofNat i = i := rfl
                             omega
  have hg : g = lo + j := by have : Int.ofNat j = j := rfl
                             omega
  rw [hi, hj]
  simp only [Int.toNat_natCast]
  set x : Int := (if m then -1 else 1) * ((a * d * 2 ^ i : Nat) : Int) with hx
  set y : Int := (if n then -1 else 1) * ((c * b * 2 ^ j : Nat) : Int) with hy
  have hs : (Xv.fin (if x + y = 0 then m && n else decide (x + y < 0)) (x + y).natAbs (b * d) lo).real =
      ((x + y : Int) : ℝ) / (b * d) * 2 ^ lo := by
    simp only [Xv.real]
    by_cases h0 : x + y = 0
    · simp [h0]
    · simp only [h0, if_false]
      have : (((x + y).natAbs : Nat) : ℝ) = |((x + y : Int) : ℝ)| := by rw [Nat.cast_natAbs]; push_cast; rfl
      rw [this]
      rcases lt_or_ge (x + y) 0 with h | h
      · have h' : ((x + y : Int) : ℝ) < 0 := by exact_mod_cast h
        simp only [h, decide_true, if_true]; rw [abs_of_neg h']; push_cast; ring
      · have h' : (0 : ℝ) ≤ ((x + y : Int) : ℝ) := by exact_mod_cast h
        simp only [not_lt.2 h, decide_false]; rw [abs_of_nonneg h']; push_cast; simp
  rw [hs]
  simp only [Xv.real]
  rw [he, hg, zpow_add₀ (by norm_num), zpow_add₀ (by norm_num), zpow_natCast, zpow_natCast, hx, hy]
  cases m <;> cases n <;> push_cast <;> simp <;> field_simp

/-- A negative finite value is at most zero. -/
theorem real_nonpos (a b : Nat) (e : Int) : (Xv.fin true a b e).real ≤ 0 := by
  have : (0 : ℝ) ≤ (a : ℝ) / b * 2 ^ e := by positivity
  simp only [Xv.real, if_true]; linarith

/-- A finite value is zero only by its numerator. -/
theorem real_eq_zero {n : Bool} {a b : Nat} {e : Int} (hb : 0 < b) : (Xv.fin n a b e).real = 0 ↔ a = 0 := by
  have : (b : ℝ) ≠ 0 := by positivity
  have h2 : (2 : ℝ) ^ e ≠ 0 := by positivity
  cases n <;> simp [Xv.real, this, h2]

/-- A finite value that is not zero has its sign. -/
theorem real_sign {n : Bool} {a b : Nat} {e : Int} (hb : 0 < b) (ha : a ≠ 0) :
    (n = true → (Xv.fin n a b e).real < 0) ∧ (n = false → 0 < (Xv.fin n a b e).real) := by
  have hb' : (0 : ℝ) < b := by positivity
  have ha' : (0 : ℝ) < a := by positivity
  have : (0 : ℝ) < (a : ℝ) / b * 2 ^ e := by positivity
  constructor <;> rintro rfl <;> simp only [Xv.real] <;> simp <;> linarith

/-- A sum's denominator, and the sign of a zero sum (R189). -/
theorem addFin_shape (m : Bool) (a b : Nat) (e : Int) (n : Bool) (c d : Nat) (g : Int) :
    ∃ s p l, Xv.addFin m a b e n c d g = .fin s p (b * d) l ∧ (p = 0 → s = (m && n)) :=
  ⟨_, _, _, rfl, fun h => if_pos (Int.natAbs_eq_zero.1 h)⟩

/-- The fold of an exact sum of finite terms: its value, and the sign of a zero. -/
theorem foldl_addFin (r : List Xv) : ∀ (m : Bool) (a b : Nat) (e : Int), 0 < b → (∀ t ∈ r, ∃ n c d g, t = Xv.fin n c d g ∧ 0 < d) →
    ∃ n c d g, r.foldl (fun (acc x : Xv) => match acc, x with
        | .fin m a b e, .fin n c d f => Xv.addFin m a b e n c d f
        | y, _ => y) (Xv.fin m a b e) = Xv.fin n c d g ∧ 0 < d ∧ (Xv.fin n c d g).real = (Xv.fin m a b e).real + (r.map Xv.real).sum ∧
      (c = 0 → (n = true ↔ m = true ∧ ∀ t ∈ r, ∃ c d g, t = Xv.fin true c d g)) := by
  induction r with
  | nil => intro m a b e hb _; exact ⟨m, a, b, e, rfl, hb, by simp, by simp⟩
  | cons t r ih =>
    intro m a b e hb h
    obtain ⟨n, c, d, g, rfl, hd⟩ := h t (by simp)
    have hre := real_addFin m e n g hb hd (a := a) (c := c)
    obtain ⟨s, p, l, hsum, hs⟩ := addFin_shape m a b e n c d g
    have hbd : 0 < b * d := by positivity
    obtain ⟨n', c', d', g', h1, h2, h3, h4⟩ := ih s p (b * d) l hbd (fun t ht => h t (by simp [ht]))
    rw [← hsum, hre] at h3
    refine ⟨n', c', d', g', ?_, h2, by rw [h3]; simp; ring, fun h0 => ?_⟩
    · rw [← h1, ← hsum]; rfl
    · rw [h4 h0]
      have below0 : (∀ t ∈ r, ∃ c d g, t = Xv.fin true c d g) → (r.map Xv.real).sum ≤ 0 := fun hall => by
        refine List.sum_le_card_nsmul _ (0 : ℝ) (fun x hx => ?_) |>.trans (by simp)
        obtain ⟨t, ht, rfl⟩ := List.mem_map.1 hx
        obtain ⟨c, d, g, rfl⟩ := hall t ht
        exact real_nonpos c d g
      have h5 : (Xv.fin n' c' d' g').real = 0 := (real_eq_zero h2).2 h0
      have zero : (Xv.fin s p (b * d) l).real ≤ 0 → (∀ t ∈ r, ∃ c d g, t = Xv.fin true c d g) →
          (Xv.fin m a b e).real + (Xv.fin n c d g).real + (r.map Xv.real).sum = 0 → s = (m && n) := fun h6 hall h7 => by
        have := below0 hall
        rw [← hsum, hre] at h6
        exact hs ((real_eq_zero hbd (n := s) (e := l)).1 (by rw [← hsum, hre]; linarith))
      have total := h5 ▸ h3
      constructor
      · rintro ⟨rfl, hall⟩
        have := zero (real_nonpos _ _ _) hall total.symm
        rw [eq_comm, Bool.and_eq_true] at this
        exact ⟨this.1, fun t ht => (List.mem_cons.1 ht).elim (fun hh => ⟨c, d, g, by rw [hh, this.2]⟩) (hall t)⟩
      · rintro ⟨rfl, hall⟩
        obtain ⟨c1, d1, g1, hn⟩ := hall _ (by simp : Xv.fin n c d g ∈ Xv.fin n c d g :: r)
        injection hn with hn
        subst hn
        have hall' : ∀ t ∈ r, ∃ c d g, t = Xv.fin true c d g := fun t ht => hall t (by simp [ht])
        refine ⟨zero ?_ hall' total.symm, hall'⟩
        rw [← hsum, hre]
        linarith [real_nonpos a b e, real_nonpos c d g]

/-- The sum of finite terms is exact, and a zero sum is −0 only where every term is negative (R189, R202). -/
theorem xsum_finite (ts : List Xv) (hne : ts ≠ []) (h : ∀ t ∈ ts, ∃ n a b e, t = Xv.fin n a b e ∧ 0 < b) :
    ∃ n a b e, xsum ts = (.fin n a b e, 0) ∧ 0 < b ∧ (Xv.fin n a b e).real = (ts.map Xv.real).sum ∧
      (a = 0 → (n = true ↔ ∀ t ∈ ts, ∃ c d g, t = .fin true c d g)) := by
  have no (y : Xv) (hy : ∀ n a b e, y ≠ .fin n a b e) : ts.contains y = false := by
    rw [Bool.eq_false_iff, Ne, List.contains_iff_mem]
    intro hm; obtain ⟨n, a, b, e, he, -⟩ := h y hm; exact hy _ _ _ _ he
  unfold xsum
  rw [no .nan nofun, no .bad nofun, no (.inf false) nofun, no (.inf true) nofun]
  cases ts with
  | nil => exact absurd rfl hne
  | cons t r =>
    obtain ⟨m, a, b, e, rfl, hb⟩ := h t (by simp)
    obtain ⟨n, c, d, g, h1, h2, h3, h4⟩ := foldl_addFin r m a b e hb (fun t ht => h t (by simp [ht]))
    refine ⟨n, c, d, g, ?_, h2, ?_, ?_⟩
    · simp only [Bool.false_eq_true, if_false, Bool.or_self, Bool.and_self]
      exact congrArg (·, 0) h1
    · rw [h3]; simp
    · intro h0; rw [h4 h0]
      constructor
      · rintro ⟨rfl, hr⟩ t ht
        rcases List.mem_cons.1 ht with rfl | ht
        · exact ⟨_, _, _, rfl⟩
        · exact hr t ht
      · intro hr
        obtain ⟨_, _, _, hm⟩ := hr _ (by simp : Xv.fin m a b e ∈ _)
        injection hm with hm
        exact ⟨hm, fun t ht => hr t (by simp [ht])⟩

/-- The specials of a sum (R203). -/
theorem xsum_special (ts : List Xv) :
    (.nan ∈ ts → xsum ts = (.nan, 0)) ∧
    (.nan ∉ ts → (.bad ∈ ts ∨ (.inf false ∈ ts ∧ .inf true ∈ ts)) → xsum ts = (.nan, 16)) ∧
    (∀ n, .nan ∉ ts → .bad ∉ ts → .inf n ∈ ts → .inf (!n) ∉ ts → xsum ts = (.inf n, 0)) := by
  have c (y : Xv) : ts.contains y = decide (y ∈ ts) := by simp
  refine ⟨fun h => ?_, fun h1 h2 => ?_, fun n h1 h2 h3 h4 => ?_⟩ <;> unfold xsum <;> simp only [c]
  · simp [h]
  · rcases h2 with h | ⟨h, g⟩
    · simp [h1, h, fInvalid]
    · simp [h1, h, g, fInvalid]
  · cases n <;> simp_all

/-- Comparing two finite values compares their reals. -/
theorem xcmp_real {m : Bool} {a b : Nat} {e : Int} {n : Bool} {c d : Nat} {g : Int} (hb : 0 < b) (hd : 0 < d) :
    let x : Xv := .fin m a b e
    let y : Xv := .fin n c d g
    (xcmp x y = .lt ↔ x.real < y.real) ∧ (xcmp x y = .eq ↔ x.real = y.real) ∧ (xcmp x y = .gt ↔ y.real < x.real) := by
  intro x y
  obtain ⟨s, p, q, r, h1, h2, h3, -⟩ := xsum_finite [x, y.neg] (by simp)
    (by intro t ht; rcases List.mem_cons.1 ht with rfl | ht
        · exact ⟨_, _, _, _, rfl, hb⟩
        · rw [List.mem_singleton] at ht; subst ht; exact ⟨_, _, _, _, rfl, hd⟩)
  have h4 : (Xv.fin s p q r).real = x.real - y.real := by rw [h3]; simp [real_neg]; ring
  have hx : xcmp x y = if p = 0 then .eq else if s then .lt else .gt := by
    show (match (xsum [x, y.neg]).1 with
      | .fin n a _ _ => if a = 0 then Ordering.eq else if n then .lt else .gt
      | _ => .eq) = _
    rw [h1]
  rw [hx]
  by_cases hp : p = 0
  · have : x.real - y.real = 0 := by rw [← h4, real_eq_zero h2]; exact hp
    simp [hp]; exact ⟨by linarith, by linarith, by linarith⟩
  · obtain ⟨t1, t2⟩ := real_sign (n := s) (e := r) h2 hp
    rw [h4] at t1 t2
    cases s
    · have := t2 rfl
      simp [hp]; exact ⟨by linarith, by intro h; linarith, by linarith⟩
    · have := t1 rfl
      simp [hp]; exact ⟨by linarith, by intro h; linarith, by linarith⟩

/-- Maximum and minimum of two finite values. -/
theorem pickNum_real {m : Bool} {a b : Nat} {e : Int} {n : Bool} {c d : Nat} {g : Int} (hb : 0 < b) (hd : 0 < d) :
    let x : Xv := .fin m a b e
    let y : Xv := .fin n c d g
    (x.real < y.real → pickNum true x y = y ∧ pickNum false x y = x) ∧
    (y.real < x.real → pickNum true x y = x ∧ pickNum false x y = y) ∧
    (x.real = y.real → m = true → n = false → pickNum true x y = y ∧ pickNum false x y = x) ∧
    (x.real = y.real → m = false → n = true → pickNum true x y = x ∧ pickNum false x y = y) := by
  intro x y
  obtain ⟨l1, e1, g1⟩ := xcmp_real (m := m) (a := a) (b := b) (e := e) (n := n) (c := c) (d := d) (g := g) hb hd
  obtain ⟨l2, e2, g2⟩ := xcmp_real (m := n) (a := c) (b := d) (e := g) (n := m) (c := a) (d := b) (g := e) hd hb
  refine ⟨fun h => ?_, fun h => ?_, fun h hm hn => ?_, fun h hm hn => ?_⟩
  · have p := l1.2 h; have q := g2.2 h
    simp only [pickNum, x, y, p, q]; simp
  · have p := g1.2 h; have q := l2.2 h
    simp only [pickNum, x, y, p, q]; simp
  · have p := e1.2 h; have q := e2.2 h.symm
    subst hm hn
    simp only [pickNum, x, y, p, q]; simp
  · have p := e1.2 h; have q := e2.2 h.symm
    subst hm hn
    simp only [pickNum, x, y, p, q]; simp

/-- `roundInt` gives the nearest integer, ties to even (R198). -/
theorem roundInt_spec (m : Bool) {a b : Nat} (e : Int) (hb : 0 < b) :
    let r := roundInt m a b e
    let x := (Xv.fin m a b e).real
    |(r.1 : ℝ) - x| ≤ 1 / 2 ∧ (|(r.1 : ℝ) - x| = 1 / 2 → r.1 % 2 = 0) ∧ (r.2 = false ↔ (r.1 : ℝ) = x) := by
  intro r x
  obtain ⟨h1, h2, h3⟩ := roundAt_spec (a := a) e 0 hb
  have hr : r = (if m then -((roundAt a b e 0).1 : Int) else (roundAt a b e 0).1, (roundAt a b e 0).2) := rfl
  rw [sub_zero] at h1 h2 h3
  have hx : x = (if m then -1 else 1) * ((a : ℝ) / b * 2 ^ e) := by simp only [x, Xv.real]; ring
  rw [hr, hx]
  generalize (roundAt a b e 0).1 = n at *
  generalize (a : ℝ) / b * 2 ^ e = y at *
  cases m
  · simp only [Bool.false_eq_true, if_false, one_mul, Int.cast_natCast]
    exact ⟨h1, fun h => by have := h2 h; omega, h3⟩
  · simp only [if_true, Int.cast_neg, Int.cast_natCast]
    have : -(n : ℝ) - -1 * y = -((n : ℝ) - y) := by ring
    rw [this, abs_neg]
    refine ⟨h1, fun h => by have := h2 h; omega, ?_⟩
    rw [h3]; constructor <;> intro h <;> linarith

/-- A quotient is rounded once (R188). -/
theorem div_rounded (f : Fmt) (he : 2 ≤ f.ebits) (hf : 0 < f.fbits) (m : Bool) (a b : Nat) (e : Int) (n : Bool) (c d : Nat) (g : Int)
    (hb : 0 < b) (hd : 0 < d) (hc : c ≠ 0) :
    f.Rounded ((Xv.fin m a b e).real / (Xv.fin n c d g).real) (m != n) (f.div (.fin m a b e) (.fin n c d g)) := by
  have hr : f.div (.fin m a b e) (.fin n c d g) = f.round (.fin (m != n) (a * d) (b * c) (e - g)) := by simp [Fmt.div, hc]
  have hx : (Xv.fin m a b e).real / (Xv.fin n c d g).real = (Xv.fin (m != n) (a * d) (b * c) (e - g)).real := by
    simp only [Xv.real]
    rw [zpow_sub₀ (by norm_num)]
    push_cast
    have : (c : ℝ) ≠ 0 := by positivity
    cases m <;> cases n <;> simp <;> field_simp
  rw [hr, hx]
  exact round_rounded f he hf _ _ _ _ (by have := Nat.pos_of_ne_zero hc; positivity)

/-- The bits found so far keep the root between its bounds. -/
theorem isqrtFrom_spec (n : Nat) : ∀ b r, r * r ≤ n → n < (r + 2 ^ b) * (r + 2 ^ b) →
    isqrtFrom n b r * isqrtFrom n b r ≤ n ∧ n < (isqrtFrom n b r + 1) * (isqrtFrom n b r + 1) := by
  intro b
  induction b with
  | zero => intro r h1 h2; simpa [isqrtFrom] using ⟨h1, h2⟩
  | succ b ih =>
    intro r h1 h2
    rw [isqrtFrom]
    split
    · rename_i h
      exact ih _ h (by rw [pow_succ] at h2; have : r + 2 ^ b + 2 ^ b = r + 2 ^ b * 2 := by ring
                       rwa [this])
    · rename_i h
      exact ih _ h1 (by omega)

/-- `isqrt` is the integer square root. -/
theorem isqrt_spec (n : Nat) : isqrt n * isqrt n ≤ n ∧ n < (isqrt n + 1) * (isqrt n + 1) := by
  refine isqrtFrom_spec n _ 0 (by simp) ?_
  have h := @Nat.lt_log2_self n
  rw [zero_add, ← pow_add]
  exact lt_of_lt_of_le h (Nat.pow_le_pow_right (by norm_num) (by omega))

/-- Rounding does not tell a value strictly between two multiples of 2^u from the middle between them, where every code of its size and
every middle between two is such a multiple. -/
theorem rounded_congr (f : Fmt) (he : 2 ≤ f.ebits) (hf : 0 < f.fbits) {r : Nat} (hr : 2 ^ (f.fbits + 3) ≤ r) (u : Int) {x : ℝ}
    (h1 : (r : ℝ) * 2 ^ u < x) (h2 : x < (r + 1) * 2 ^ u) :
    f.Rounded x false (f.round (.fin false (2 * r + 1) 1 (u - 1))) := by
  have hu : (0 : ℝ) < 2 ^ u := by positivity
  have hrr : (2 : ℝ) ^ (f.fbits + 3) ≤ r := by exact_mod_cast hr
  have hx0 : 0 < x := lt_of_le_of_lt (by positivity) h1
  have hy : (Xv.fin false (2 * r + 1) 1 (u - 1)).real = (r + 1 / 2) * 2 ^ u := by
    simp only [Xv.real]; rw [zpow_sub₀ (by norm_num)]; push_cast; simp; ring
  have key := round_rounded f he hf false (2 * r + 1) 1 (u - 1) (by norm_num)
  rw [hy] at key
  set y : ℝ := (r + 1 / 2) * 2 ^ u with hyd
  have hy1 : (r : ℝ) * 2 ^ u < y := by rw [hyd]; nlinarith
  have hy2 : y < (r + 1) * 2 ^ u := by rw [hyd]; nlinarith
  have hy0 : 0 < y := lt_of_le_of_lt (by positivity) hy1
  -- every multiple z of 2^u is on the same side of both
  have side (z : ℝ) (hz : ∃ j : Int, z = j * 2 ^ u) : (z ≤ x ↔ z ≤ y) ∧ (x ≤ z ↔ y ≤ z) ∧ z ≠ x ∧ z ≠ y ∧ (z < x ↔ z < y) := by
    obtain ⟨j, rfl⟩ := hz
    rcases le_or_gt j (r : Int) with h | h
    · have : (j : ℝ) ≤ r := by exact_mod_cast h
      have : (j : ℝ) * 2 ^ u ≤ r * 2 ^ u := by gcongr
      exact ⟨⟨fun _ => by linarith, fun _ => by linarith⟩, ⟨fun _ => by linarith, fun _ => by linarith⟩, by linarith, by linarith,
        ⟨fun _ => by linarith, fun _ => by linarith⟩⟩
    · have : (r : ℝ) + 1 ≤ j := by exact_mod_cast h
      have : ((r : ℝ) + 1) * 2 ^ u ≤ j * 2 ^ u := by gcongr
      exact ⟨⟨fun _ => by linarith, fun _ => by linarith⟩, ⟨fun _ => by linarith, fun _ => by linarith⟩, by linarith, by linarith,
        ⟨fun _ => by linarith, fun _ => by linarith⟩⟩
  have mult (k : Int) (hk : u ≤ k) (j : Int) : ∃ i : Int, (j : ℝ) * 2 ^ k = i * 2 ^ u := by
    obtain ⟨l, hl⟩ := Int.eq_ofNat_of_zero_le (show 0 ≤ k - u by omega)
    refine ⟨j * 2 ^ l, ?_⟩
    have : k = u + l := by have : Int.ofNat l = l := rfl
                           omega
    rw [this, zpow_add₀ (by norm_num), zpow_natCast]; push_cast; ring
  have small (k : Int) (h : k ≤ u + 1) : (2 : ℝ) ^ (f.fbits + 1) * 2 ^ k < r * 2 ^ u := by
    have : (2 : ℝ) ^ k ≤ 2 ^ (u + 1) := zpow_le_zpow_right₀ (by norm_num) h
    have e1 : (2 : ℝ) ^ (u + 1) = 2 * 2 ^ u := by rw [zpow_add₀ (by norm_num)]; ring
    have e2 : (2 : ℝ) ^ (f.fbits + 3) = 4 * 2 ^ (f.fbits + 1) := by ring
    have : (0 : ℝ) < 2 ^ (f.fbits + 1) := by positivity
    calc (2 : ℝ) ^ (f.fbits + 1) * 2 ^ k ≤ 2 ^ (f.fbits + 1) * (2 * 2 ^ u) := by gcongr; linarith
      _ < 2 ^ (f.fbits + 3) * 2 ^ u := by rw [e2]; nlinarith
      _ ≤ r * 2 ^ u := by gcongr
  obtain ⟨c0, hc0, -, htop⟩ := top_eq f he hf
  unfold Fmt.Rounded at key ⊢
  rw [abs_of_pos hx0]
  rw [abs_of_pos hy0] at key
  simp only [← htop, Bool.false_eq_true, if_false, add_zero, exists_eq_left'] at key ⊢
  set top := (f.magnitude c0 + f.magnitude (c0 + 1)) / 2 with htd
  have sideTop : top ≤ x ↔ top ≤ y := by
    rcases le_or_gt u (f.bias - f.fbits - 1) with h | h
    · refine (side top ?_).1
      obtain ⟨i, hi⟩ := mult _ h (2 ^ (f.fbits + 2) - 1)
      refine ⟨i, ?_⟩
      rw [← hi, htop, show f.bias - (f.fbits : Int) - 1 = f.bias - ((f.fbits + 1 : Nat) : Int) by push_cast; ring, two_zpow_sub]
      push_cast
      field_simp
      ring
    · have hlt : top < r * 2 ^ u := by
        rw [htop]
        have := small (f.bias - f.fbits) (by omega)
        rw [two_zpow_sub] at this
        refine lt_of_le_of_lt ?_ this
        have p : (0 : ℝ) < 2 ^ f.bias := by positivity
        have : (2 : ℝ) ^ (f.fbits + 1) * (2 ^ f.bias / 2 ^ f.fbits) = 2 * 2 ^ f.bias := by rw [pow_succ]; field_simp
        rw [this]
        have : (0 : ℝ) < 1 / 2 ^ (f.fbits + 1) := by positivity
        nlinarith
      exact ⟨fun _ => by linarith, fun _ => by linarith⟩
  have sideN : x < 2 ^ (1 - f.bias) ↔ y < 2 ^ (1 - f.bias) := by
    rcases le_or_gt u (1 - f.bias) with h | h
    · obtain ⟨i, hi⟩ := mult _ h 1
      obtain ⟨-, s2, s3, s4, -⟩ := side (2 ^ (1 - f.bias)) ⟨i, by rw [← hi]; simp⟩
      exact ⟨fun h => lt_of_le_of_ne (s2.1 h.le) (Ne.symm s4), fun h => lt_of_le_of_ne (s2.2 h.le) (Ne.symm s3)⟩
    · have : (2 : ℝ) ^ (1 - f.bias) ≤ 2 ^ u := zpow_le_zpow_right₀ (by norm_num) h.le
      have h1r : (1 : ℝ) ≤ r := le_trans (one_le_pow₀ (by norm_num)) hrr
      have : (2 : ℝ) ^ u ≤ r * 2 ^ u := by nlinarith
      exact ⟨fun _ => by linarith, fun _ => by linarith⟩
  refine ⟨fun h => key.1 (sideTop.1 h), fun h => ?_⟩
  have hyt : y < top := by by_contra hh; exact absurd (sideTop.2 (not_lt.1 hh)) (not_le.2 h)
  obtain ⟨⟨hc, hN⟩, f1, f2, f3⟩ := key.2 hyt
  set c := (f.round (.fin false (2 * r + 1) 1 (u - 1))).1 with hcd
  obtain ⟨k, s, hcs, hs, hk⟩ := code_split f c
  have hm1 : f.magnitude c = s * 2 ^ (f.qmin + k) := by rw [hcs]; exact magnitude_code f k s hs hk
  have hm2 : f.magnitude (c + 1) = (s + 1) * 2 ^ (f.qmin + k) := by rw [hcs]; exact magnitude_succ f k s hs hk
  have mono := magnitude_strictMono f
  have hu2 : u + 2 ≤ f.qmin + k := by
    by_contra hh
    have h3 := small (f.qmin + k) (by omega)
    have h4 : (s : ℝ) + 1 ≤ 2 ^ (f.fbits + 1) := by exact_mod_cast hs
    have h5 : f.magnitude (c + 1) < y := by
      rw [hm2]
      calc ((s : ℝ) + 1) * 2 ^ (f.qmin + k) ≤ 2 ^ (f.fbits + 1) * 2 ^ (f.qmin + k) := by gcongr
        _ < y := by linarith
    have h6 := mono (show c < c + 1 by omega)
    rcases Nat.lt_or_ge (c + 1) f.infCode with h7 | h7
    · have := (hN (c + 1) h7).1
      rw [abs_of_nonpos (by linarith), abs_of_nonpos (by linarith)] at this
      linarith
    · have : c = c0 := by omega
      rw [this] at h5 h6
      linarith
  have mids (w : Int) (j : Int) (hw : u + 1 ≤ w) : ∃ i : Int, ((j : ℝ) * 2 ^ w + (j + 1) * 2 ^ w) / 2 = i * 2 ^ u := by
    obtain ⟨i, hi⟩ := mult (w - 1) (by omega) (2 * j + 1)
    refine ⟨i, ?_⟩
    rw [← hi, zpow_sub₀ (by norm_num)]; push_cast; ring
  obtain ⟨i, hi⟩ := mult (f.qmin + k) (by omega) s
  obtain ⟨-, -, nx, ny, -⟩ := side (f.magnitude c) ⟨i, by rw [hm1, ← hi]; push_cast; rfl⟩
  refine ⟨nearest_of_mid mono hc (fun h7 => ?_) (fun b hb => ?_), fun h => absurd h nx, fun _ h => f2 ny (sideN.1 h), fun _ h => f3 ny ?_⟩
  · obtain ⟨i, hi⟩ := mids (f.qmin + k) s (by omega)
    have hmid : (f.magnitude c + f.magnitude (c + 1)) / 2 = i * 2 ^ u := by rw [hm1, hm2, ← hi]; push_cast; rfl
    obtain ⟨-, s2, s3, s4, -⟩ := side _ ⟨i, hmid⟩
    have h6 := mono (show c < c + 1 by omega)
    refine ⟨s2.2 ?_, fun h => absurd h.symm s3⟩
    have := (hN (c + 1) h7).1
    rcases abs_cases (f.magnitude c - y) with ⟨e1, _⟩ | ⟨e1, _⟩ <;> rcases abs_cases (f.magnitude (c + 1) - y) with ⟨e2, _⟩ | ⟨e2, _⟩ <;>
      rw [e1, e2] at this <;> linarith
  · have hb : c = b + 1 := hb
    obtain ⟨k', s', hbs, hs', hk'⟩ := code_split f b
    have g1 : f.magnitude b = s' * 2 ^ (f.qmin + k') := by rw [hbs]; exact magnitude_code f k' s' hs' hk'
    have g2 : f.magnitude c = (s' + 1) * 2 ^ (f.qmin + k') := by rw [hb, hbs]; exact magnitude_succ f k' s' hs' hk'
    have hkk : k ≤ k' + 1 := by
      rcases hk with h | h
      · omega
      · have p := pow_succ 2 f.fbits
        have : (k + 1) * 2 ^ f.fbits ≤ (k' + 2) * 2 ^ f.fbits := by
          have e1 : (k + 1) * 2 ^ f.fbits = k * 2 ^ f.fbits + 2 ^ f.fbits := by ring
          have e2 : (k' + 2) * 2 ^ f.fbits = k' * 2 ^ f.fbits + 2 ^ f.fbits * 2 := by ring
          omega
        have := Nat.le_of_mul_le_mul_right this (by positivity)
        omega
    obtain ⟨i, hi⟩ := mids (f.qmin + k') s' (by omega)
    have hmid : (f.magnitude b + f.magnitude c) / 2 = i * 2 ^ u := by rw [g1, g2, ← hi]; push_cast; rfl
    obtain ⟨s1, -, s3, s4, -⟩ := side _ ⟨i, hmid⟩
    have h6 := mono (show b < c by omega)
    refine ⟨s1.2 ?_, fun h => absurd h.symm s3⟩
    have := (hN b (by omega)).1
    rcases abs_cases (f.magnitude c - y) with ⟨e1, _⟩ | ⟨e1, _⟩ <;> rcases abs_cases (f.magnitude b - y) with ⟨e2, _⟩ | ⟨e2, _⟩ <;>
      rw [e1, e2] at this <;> linarith
  · by_contra hh; exact absurd (sideN.2 (not_le.1 hh)) (not_lt.2 h)

/-- A square root is rounded once (R188). -/
theorem sqrt_rounded (f : Fmt) (he : 2 ≤ f.ebits) (hf : 0 < f.fbits) (hm : f.fbits ≤ 60) (a : Nat) (e : Int) :
    f.Rounded (Real.sqrt (Xv.fin false a 1 e).real) false (f.sqrt (.fin false a 1 e)) := by
  by_cases ha : a = 0
  · subst ha
    have h := round_rounded f he hf false 0 1 e (by norm_num)
    have h0 : (Xv.fin false 0 1 e).real = 0 := by simp [Xv.real]
    rw [h0, Real.sqrt_zero]
    rw [h0] at h
    simpa [Fmt.sqrt] using h
  · have hr : f.sqrt (.fin false a 1 e) = f.round (sqrtVal a e) := by simp [Fmt.sqrt, ha]
    rw [hr]
    unfold sqrtVal
    simp only
    set k : Nat := 130 + (if (e - 130) % 2 = 0 then 0 else 1) with hk
    obtain ⟨u, hu⟩ : ∃ u : Int, e - k = 2 * u := ⟨(e - k) / 2, by rw [hk]; split <;> push_cast <;> omega⟩
    have hu' : (e - k) / 2 = u := by omega
    rw [hu']
    have k130 : 130 ≤ k := by omega
    obtain ⟨q1, q2⟩ := isqrt_spec (a * 2 ^ k)
    set r := isqrt (a * 2 ^ k)
    have hv : (Xv.fin false a 1 e).real = ((a * 2 ^ k : Nat) : ℝ) * (2 ^ u) ^ 2 := by
      have : e = u + u + (k : Int) := by omega
      simp only [Xv.real]
      rw [this, zpow_add₀ (by norm_num), zpow_add₀ (by norm_num), zpow_natCast]; push_cast; simp; ring
    have p : (0 : ℝ) < 2 ^ u := by positivity
    have hsq : Real.sqrt (Xv.fin false a 1 e).real = Real.sqrt ((a * 2 ^ k : Nat) : ℝ) * 2 ^ u := by
      rw [hv, Real.sqrt_mul (by positivity), Real.sqrt_sq p.le]
    rw [hsq]
    split
    · rename_i hrr
      have : Real.sqrt ((a * 2 ^ k : Nat) : ℝ) = r := by rw [← hrr]; push_cast; exact Real.sqrt_mul_self (by positivity)
      rw [this]
      have h := round_rounded f he hf false (2 * r) 1 (u - 1) (by norm_num)
      have hx : (Xv.fin false (2 * r) 1 (u - 1)).real = r * 2 ^ u := by
        simp only [Xv.real]; rw [zpow_sub₀ (by norm_num)]; push_cast; simp; ring
      rw [hx] at h
      exact h
    · rename_i hrr
      have h1 : (r : ℝ) < Real.sqrt ((a * 2 ^ k : Nat) : ℝ) := by
        apply Real.lt_sqrt_of_sq_lt
        have : r * r < a * 2 ^ k := lt_of_le_of_ne q1 hrr
        rw [sq]; exact_mod_cast this
      have h2 : Real.sqrt ((a * 2 ^ k : Nat) : ℝ) < r + 1 := by
        rw [Real.sqrt_lt' (by positivity), sq]; exact_mod_cast q2
      refine rounded_congr f he hf ?_ u (by gcongr) (by gcongr)
      have : 2 ^ 63 < r + 1 := by
        by_contra hh
        have h3 : (r + 1) * (r + 1) ≤ 2 ^ 63 * 2 ^ 63 := Nat.mul_le_mul (by omega) (by omega)
        have h4 : 2 ^ 130 ≤ a * 2 ^ k := by
          calc 2 ^ 130 ≤ 2 ^ k := Nat.pow_le_pow_right (by norm_num) k130
            _ ≤ a * 2 ^ k := Nat.le_mul_of_pos_left _ (Nat.pos_of_ne_zero ha)
        have h5 : 2 ^ 63 * 2 ^ 63 < 2 ^ 130 := by norm_num
        omega
      have : 2 ^ (f.fbits + 3) ≤ 2 ^ 63 := Nat.pow_le_pow_right (by norm_num) (by omega)
      omega

/-- The fields of a code with its sign bit. -/
theorem code_fields (f : Fmt) (c : Nat) (hc : c < 2 * f.signBit) :
    (c / f.signBit % 2 == 1) = decide (f.signBit ≤ c) ∧ c / 2 ^ f.fbits % 2 ^ f.ebits = c % f.signBit / 2 ^ f.fbits ∧
      c % 2 ^ f.fbits = c % f.signBit % 2 ^ f.fbits ∧ c % f.signBit / 2 ^ f.fbits < 2 ^ f.ebits := by
  have hp : 0 < f.signBit := by unfold Fmt.signBit; positivity
  have hs : f.signBit = 2 ^ f.fbits * 2 ^ f.ebits := by unfold Fmt.signBit; rw [add_comm, pow_add]
  have q : c / f.signBit < 2 := Nat.div_lt_of_lt_mul (by omega)
  refine ⟨?_, ?_, ?_, ?_⟩
  · by_cases h : f.signBit ≤ c
    · have : 1 ≤ c / f.signBit := (Nat.one_le_div_iff hp).2 h
      simp [h, show c / f.signBit = 1 by omega]
    · simp [h, Nat.div_eq_of_lt (not_le.1 h)]
  · rw [hs, Nat.mod_mul_right_div_self]
  · rw [Nat.mod_mod_of_dvd]; exact ⟨_, hs⟩
  · rw [Nat.div_lt_iff_lt_mul (by positivity), mul_comm, ← hs]; exact Nat.mod_lt _ hp

/-- The value of a finite code, whatever its format. -/
theorem finite_real (f : Fmt) (c : Nat) (hc : c < 2 * f.signBit) :
    (∃ a e, f.finite c = .fin (decide (f.signBit ≤ c)) a 1 e) ∧ |(f.finite c).real| = f.magnitude (c % f.signBit) := by
  obtain ⟨h1, h2, h3, -⟩ := code_fields f c hc
  have hd := Nat.div_add_mod (c % f.signBit) (2 ^ f.fbits)
  have hm := Nat.mod_lt (c % f.signBit) (show 0 < 2 ^ f.fbits by positivity)
  have habs (n : Bool) (a : Nat) (e : Int) : |(Xv.fin n a 1 e).real| = (a : ℝ) * 2 ^ e := by
    have : (0 : ℝ) ≤ (a : ℝ) * 2 ^ e := by positivity
    cases n <;> simp [Xv.real, abs_mul]
  unfold Fmt.finite
  simp only [h1, h2, h3]
  generalize c % f.signBit = d at *
  generalize hE : d / 2 ^ f.fbits = E at *
  generalize d % 2 ^ f.fbits = m at *
  have p := pow_succ 2 f.fbits
  by_cases h0 : E = 0
  · subst h0
    refine ⟨⟨_, _, if_pos rfl⟩, ?_⟩
    rw [if_pos rfl, habs, ← hd]
    have := magnitude_code f 0 m (by omega) (.inl rfl)
    rw [zero_mul, zero_add] at this
    simpa using this.symm
  · refine ⟨⟨_, _, if_neg h0⟩, ?_⟩
    obtain ⟨k, rfl⟩ := Nat.exists_eq_succ_of_ne_zero h0
    rw [if_neg h0, habs, ← hd]
    have := magnitude_code f k (2 ^ f.fbits + m) (by omega) (.inr (by omega))
    rw [show 2 ^ f.fbits * k.succ + m = k * 2 ^ f.fbits + (2 ^ f.fbits + m) by rw [Nat.succ_eq_add_one]; ring, this]
    simp

/-- The value of a code: finite, infinite or NaN (R187). -/
theorem decode_real (f : Fmt) (hf : 0 < f.fbits) (c : Nat) (hc : c < 2 * f.signBit) :
    let n := decide (f.signBit ≤ c)
    (c % f.signBit < f.infCode → (∃ a e, f.decode c = .fin n a 1 e) ∧ |(f.decode c).real| = f.magnitude (c % f.signBit)) ∧
      (c % f.signBit = f.infCode → f.decode c = .inf n) ∧ (f.infCode < c % f.signBit → f.decode c = .nan ∧
        (f.signalling c = true ↔ c % f.signBit < f.infCode + 2 ^ (f.fbits - 1))) := by
  intro n
  have hfin := finite_real f c hc
  obtain ⟨h1, h2, h3, h4⟩ := code_fields f c hc
  have hd := Nat.div_add_mod (c % f.signBit) (2 ^ f.fbits)
  have hm := Nat.mod_lt (c % f.signBit) (show 0 < 2 ^ f.fbits by positivity)
  have hq : c / 2 ^ (f.fbits - 1) % 2 = c % 2 ^ f.fbits / 2 ^ (f.fbits - 1) := by
    rw [← Nat.mod_mul_right_div_self, ← pow_succ, Nat.sub_add_cancel hf]
  have p : 2 ^ f.fbits = 2 ^ (f.fbits - 1) * 2 := by rw [← pow_succ, Nat.sub_add_cancel hf]
  have hdec : f.decode c = if c % f.signBit / 2 ^ f.fbits = 2 ^ f.ebits - 1 then
      if c % f.signBit % 2 ^ f.fbits = 0 then .inf n else .nan else f.finite c := by
    unfold Fmt.decode; rw [h2, h3, h1]
  have hsig : f.signalling c = (c % f.signBit / 2 ^ f.fbits == 2 ^ f.ebits - 1 && c % f.signBit % 2 ^ f.fbits != 0 &&
      c % f.signBit % 2 ^ f.fbits / 2 ^ (f.fbits - 1) == 0) := by
    unfold Fmt.signalling; rw [h2, hq, h3]
  rw [hdec, hsig]
  have hi : f.infCode = 2 ^ f.fbits * (2 ^ f.ebits - 1) := by unfold Fmt.infCode; ring
  generalize c % f.signBit = d at *
  generalize d % 2 ^ f.fbits = m at *
  generalize d / 2 ^ f.fbits = E at *
  have hle : E ≤ 2 ^ f.ebits - 1 := by omega
  have hlt : E < 2 ^ f.ebits - 1 → d < f.infCode := fun h => by
    have : 2 ^ f.fbits * (E + 1) ≤ 2 ^ f.fbits * (2 ^ f.ebits - 1) := Nat.mul_le_mul_left _ h
    rw [mul_add] at this; omega
  have heq : E = 2 ^ f.ebits - 1 → d = f.infCode + m := fun h => by rw [hi, ← h, hd]
  refine ⟨fun h => ?_, fun h => ?_, fun h => ?_⟩
  · have : E ≠ 2 ^ f.ebits - 1 := fun hh => by have := heq hh; omega
    rw [if_neg this]; exact hfin
  · have : E = 2 ^ f.ebits - 1 := by by_contra hh; have := hlt (by omega); omega
    rw [if_pos this, if_pos (by have := heq this; omega)]
  · have h5 : E = 2 ^ f.ebits - 1 := by by_contra hh; have := hlt (by omega); omega
    have h6 := heq h5
    rw [if_pos h5, if_neg (by omega)]
    refine ⟨rfl, ?_⟩
    have h7 : m ≠ 0 := by omega
    simp only [h5, beq_self_eq_true, Bool.true_and, Bool.and_eq_true, bne_iff_ne, ne_eq, h7, not_false_eq_true, true_and, beq_iff_eq]
    rw [Nat.div_eq_zero_iff]
    have : 2 ^ (f.fbits - 1) ≠ 0 := by positivity
    omega

/-- `exceeds` compares an exact value with an integer. -/
theorem exceeds_iff {a b : Nat} (e : Int) (k : Nat) (hb : 0 < b) : exceeds a b e k = true ↔ (k : ℝ) < (a : ℝ) / b * 2 ^ e := by
  have hx := scaled_eq (a := a) e hb
  have hbr : (0 : ℝ) < b := by exact_mod_cast hb
  rw [← hx]
  unfold exceeds
  by_cases h : 0 ≤ e
  · simp only [h, if_true, decide_eq_true_eq]
    rw [lt_div_iff₀ (by positivity)]; exact_mod_cast Iff.rfl
  · simp only [h, if_false, decide_eq_true_eq]
    rw [lt_div_iff₀ (by positivity), mul_assoc]; exact_mod_cast Iff.rfl

/-- A value that a code reaches rounds to no code beyond it. -/
theorem nearest_le (f : Fmt) (hf : 0 < f.fbits) {a b : Nat} (e : Int) (ha : 0 < a) (hb : 0 < b) (c : Nat)
    (h : (a : ℝ) / b * 2 ^ e ≤ f.magnitude c) : (f.nearest a b e).1 ≤ c := by
  by_contra hh
  obtain ⟨⟨-, hN⟩, -⟩ := nearest_spec f hf e ha hb _ (Nat.lt_succ_self _)
  have h1 := (hN c (by omega)).1
  have h2 := magnitude_strictMono f (not_le.1 hh)
  rw [abs_of_nonneg (by linarith), abs_of_nonneg (by linarith)] at h1
  linarith

/-- The magnitude of a finite value. -/
theorem abs_real (n : Bool) (a b : Nat) (e : Int) : |(Xv.fin n a b e).real| = (a : ℝ) / b * 2 ^ e := by
  unfold Xv.real
  rw [abs_mul, abs_mul, abs_of_pos (show (0 : ℝ) < 2 ^ e by positivity), abs_of_nonneg (show (0 : ℝ) ≤ (a : ℝ) / b by positivity)]
  cases n <;> simp

/-- The one rounding to a format that saturates (R192, R194). -/
theorem saturated (f : Fmt) (hf : 0 < f.fbits) (last sign most : Nat) (hmost : f.magnitude last = most) (n : Bool) (a b : Nat) (e : Int)
    (hb : 0 < b) : Saturated f.magnitude (last + 1) last sign most (2 ^ (1 - f.bias)) (Xv.fin n a b e).real
      (if a = 0 then (sign, 0) else if exceeds a b e most then (last + sign, 5) else ((f.nearest a b e).1 + sign, (f.nearest a b e).2)) := by
  unfold Saturated
  rw [abs_real]
  have m0 : f.magnitude 0 = 0 := by simp [Fmt.magnitude]
  by_cases ha : a = 0
  · subst ha
    simp only [Nat.cast_zero, zero_div, zero_mul, if_true]
    refine ⟨fun h => absurd h (by push Not; positivity), fun _ => ⟨0, by simp, ?_⟩⟩
    refine ⟨nearest_of_mid (magnitude_strictMono f) (by omega) (fun _ => ?_) (fun _ h => by omega), fun _ => rfl, fun h => absurd m0 h,
      fun h => absurd m0 h⟩
    have : 0 < f.magnitude (0 + 1) := by rw [← m0]; exact magnitude_strictMono f (by omega)
    exact ⟨by linarith, fun _ => rfl⟩
  · rw [if_neg ha]
    have he := exceeds_iff (a := a) e most hb
    constructor
    · intro h; rw [if_pos (he.2 h)]
    · intro h
      rw [if_neg (by rw [he]; exact not_lt.2 h)]
      refine ⟨_, rfl, nearest_spec f hf e (Nat.pos_of_ne_zero ha) hb _ ?_⟩
      exact Nat.lt_succ_of_le (nearest_le f hf e (Nat.pos_of_ne_zero ha) hb last (by rw [hmost]; exact h))

/-- E4M3 (R192). -/
theorem e4m3_saturated (n : Bool) (a b : Nat) (e : Int) (hb : 0 < b) :
    Saturated e4m3.magnitude 127 126 (if n then 128 else 0) 448 (1 / 64) (Xv.fin n a b e).real (e4m3Encode (.fin n a b e)) := by
  have h := saturated e4m3 (by decide) 126 (if n then 128 else 0) 448 (by norm_num [Fmt.magnitude, e4m3, Fmt.bias]) n a b e hb
  have h2 : (2 : ℝ) ^ (1 - e4m3.bias) = 1 / 64 := by norm_num [e4m3, Fmt.bias]
  rw [h2] at h
  exact_mod_cast h

/-- E2M1 (R194). -/
theorem e2m1_saturated (n : Bool) (a b : Nat) (e : Int) (hb : 0 < b) :
    Saturated e2m1.magnitude 8 7 (if n then 8 else 0) 6 1 (Xv.fin n a b e).real (e2m1Encode (.fin n a b e)) := by
  have h := saturated e2m1 (by decide) 7 (if n then 8 else 0) 6 (by norm_num [Fmt.magnitude, e2m1, Fmt.bias]) n a b e hb
  have h2 : (2 : ℝ) ^ (1 - e2m1.bias) = 1 := by norm_num [e2m1, Fmt.bias]
  rw [h2] at h
  exact_mod_cast h

/-- The values of E2M1 (R193). -/
theorem e2m1_real (c : Nat) (hc : c < 16) : (∃ a e, e2m1Value c = .fin (decide (8 ≤ c)) a 1 e) ∧
    |(e2m1Value c).real| = (([0, 1, 2, 3, 4, 6, 8, 12] : List Nat).getD (c % 8) 0 : ℝ) / 2 := by
  obtain ⟨h1, h2⟩ := finite_real e2m1 c (by show c < 2 * 2 ^ (2 + 1); omega)
  refine ⟨h1, ?_⟩
  show |(e2m1.finite c).real| = _
  rw [h2]
  have : c % e2m1.signBit = c % 8 := rfl
  rw [this]
  have h8 : c % 8 < 8 := by omega
  interval_cases c % 8 <;> norm_num [Fmt.magnitude, e2m1, Fmt.bias]

/-- The values of E4M3 (R191). -/
theorem e4m3_real (c : Nat) (hc : c < 256) : (c % 128 = 127 → e4m3Value c = .nan) ∧
    (c % 128 < 127 → (∃ a e, e4m3Value c = .fin (decide (128 ≤ c)) a 1 e) ∧ |(e4m3Value c).real| = e4m3.magnitude (c % 128)) := by
  refine ⟨fun h => if_pos h, fun h => ?_⟩
  rw [show e4m3Value c = e4m3.finite c from if_neg (by omega)]
  exact finite_real e4m3 c (by show c < 2 * 2 ^ (4 + 3); omega)

/-- X128 of a finite value (R209). -/
theorem toX128_fin (m : Bool) (a b : Nat) (e l : Int) : toX128 (.fin m a b e) l =
    if 2 ^ 127 ≤ (roundInt m a b (e - l)).1 then (2 ^ 127 - 1, 32) else if (roundInt m a b (e - l)).1 < -2 ^ 127 then (2 ^ 127, 32)
      else (((roundInt m a b (e - l)).1 % 2 ^ 128).toNat, if (roundInt m a b (e - l)).2 then 1 else 0) := by
  unfold toX128
  simp only [fXsat, fInexact]
  congr 1

/-! ### T8 (R195, R197) -/

/-- What the search for the nearest payload keeps: the result is one of those ahead, nearest among them, and nearer than all behind. -/
theorem t8Nearest_spec {n b : Nat} {e : Int} (hb : 0 < b) (x : ℝ) (hx : x = (n : ℝ) / b * 2 ^ (e + 16)) :
    ∀ (l : List Nat) (prev : Nat), (prev :: l).Pairwise (fun p q => t8Mag p < t8Mag q) → (prev :: l).IsChain (fun p q => p % 2 ≠ q % 2) →
      (t8Mag prev : ℝ) < x → (∃ p ∈ l, x ≤ t8Mag p) →
      let r := t8Nearest n b e prev l
      r ∈ prev :: l ∧ |(t8Mag r : ℝ) - x| ≤ x - t8Mag prev ∧
        ∀ q ∈ prev :: l, |(t8Mag r : ℝ) - x| ≤ |(t8Mag q : ℝ) - x| ∧ (q ≠ r → |(t8Mag q : ℝ) - x| = |(t8Mag r : ℝ) - x| → r % 2 = 0) := by
  intro l
  induction l with
  | nil => intro prev _ _ _ h; simp at h
  | cons p l ih =>
    intro prev hs hc hlt hle r
    have sc := scaled_eq (a := n) (e + 16) hb
    set N := (if 0 ≤ e + 16 then n * 2 ^ (e + 16).toNat else n : Nat) with hN
    set D := (if 0 ≤ e + 16 then b else b * 2 ^ (-(e + 16)).toNat : Nat) with hD
    have hD0 : 0 < D := by rw [hD]; split <;> positivity
    have hDr : (0 : ℝ) < D := by exact_mod_cast hD0
    have hxx : x = (N : ℝ) / D := by rw [hx, ← sc]
    have hr : r = if t8Mag p * D < N then t8Nearest n b e p l
        else if 2 * N < (t8Mag prev + t8Mag p) * D || (2 * N = (t8Mag prev + t8Mag p) * D && prev % 2 = 0) then prev else p := rfl
    have hpp : t8Mag prev < t8Mag p := (List.pairwise_cons.1 hs).1 p (by simp)
    have hppr : (t8Mag prev : ℝ) < t8Mag p := by exact_mod_cast hpp
    have hs' := (List.pairwise_cons.1 hs).2
    have hpar : prev % 2 ≠ p % 2 := (List.isChain_cons_cons.1 hc).1
    have hc' := (List.isChain_cons_cons.1 hc).2
    have near : |(t8Mag prev : ℝ) - x| = x - t8Mag prev := by rw [abs_of_neg] <;> linarith
    by_cases hcmp : t8Mag p * D < N
    · rw [if_pos hcmp] at hr
      have hpx : (t8Mag p : ℝ) < x := by rw [hxx, lt_div_iff₀ hDr]; exact_mod_cast hcmp
      have hex : ∃ q ∈ l, x ≤ t8Mag q := by
        obtain ⟨q, hq, hqx⟩ := hle
        rcases List.mem_cons.1 hq with rfl | hq
        · linarith
        · exact ⟨q, hq, hqx⟩
      obtain ⟨i1, i2, i3⟩ := ih p hs' hc' hpx hex
      rw [← hr] at i1 i2 i3
      refine ⟨List.mem_cons_of_mem _ i1, by linarith, fun q hq => ?_⟩
      rcases List.mem_cons.1 hq with rfl | hq
      · rw [near]; exact ⟨by linarith, fun _ h => by linarith⟩
      · exact i3 q hq
    · rw [if_neg hcmp] at hr
      have hpx : x ≤ t8Mag p := by
        rw [hxx, div_le_iff₀ hDr]
        have : N ≤ t8Mag p * D := not_lt.1 hcmp
        exact_mod_cast this
      have np : |(t8Mag p : ℝ) - x| = t8Mag p - x := abs_of_nonneg (by linarith)
      have far (q : Nat) (hq : q ∈ l) : |(t8Mag q : ℝ) - x| = t8Mag q - x ∧ (t8Mag p : ℝ) < t8Mag q := by
        have : t8Mag p < t8Mag q := (List.pairwise_cons.1 hs').1 q hq
        have : (t8Mag p : ℝ) < t8Mag q := by exact_mod_cast this
        exact ⟨abs_of_nonneg (by linarith), this⟩
      have mid : 2 * N < (t8Mag prev + t8Mag p) * D ↔ x < ((t8Mag prev : ℝ) + t8Mag p) / 2 := by
        rw [hxx, div_lt_div_iff₀ hDr (by norm_num), mul_comm (N : ℝ)]; exact_mod_cast Iff.rfl
      have mide : 2 * N = (t8Mag prev + t8Mag p) * D ↔ x = ((t8Mag prev : ℝ) + t8Mag p) / 2 := by
        rw [hxx, div_eq_div_iff hDr.ne' (by norm_num), mul_comm (N : ℝ)]; exact_mod_cast Iff.rfl
      by_cases hm : (2 * N < (t8Mag prev + t8Mag p) * D || (2 * N = (t8Mag prev + t8Mag p) * D && prev % 2 = 0)) = true
      · rw [if_pos hm] at hr
        simp only [Bool.or_eq_true, decide_eq_true_eq, Bool.and_eq_true, mid, mide] at hm
        rw [hr]
        refine ⟨by simp, near.le, fun q hq => ?_⟩
        rcases List.mem_cons.1 hq with rfl | hq
        · exact ⟨le_rfl, fun h => absurd rfl h⟩
        · rcases List.mem_cons.1 hq with rfl | hq
          · rw [near, np]
            rcases hm with h | ⟨h, h'⟩
            · exact ⟨by linarith, fun _ _ => by linarith⟩
            · exact ⟨by linarith, fun _ _ => h'⟩
          · obtain ⟨f1, f2⟩ := far q hq
            rw [near, f1]
            have : x ≤ ((t8Mag prev : ℝ) + t8Mag p) / 2 := by rcases hm with h | ⟨h, -⟩ <;> linarith
            exact ⟨by linarith, fun _ _ => by linarith⟩
      · rw [if_neg hm] at hr
        simp only [Bool.or_eq_true, decide_eq_true_eq, Bool.and_eq_true, mid, mide, not_or, not_and, not_lt] at hm
        rw [hr]
        refine ⟨by simp, by rw [np]; linarith [hm.1], fun q hq => ?_⟩
        rcases List.mem_cons.1 hq with rfl | hq
        · rw [near, np]
          refine ⟨by linarith [hm.1], fun _ h => ?_⟩
          have := hm.2 (by linarith)
          omega
        · rcases List.mem_cons.1 hq with rfl | hq
          · exact ⟨le_rfl, fun h => absurd rfl h⟩
          · obtain ⟨f1, f2⟩ := far q hq
            rw [np, f1]
            exact ⟨by linarith, fun _ _ => by linarith⟩

/-- The payloads of T8 in ascending magnitude. -/
theorem t8Order_sorted : t8Order.Pairwise (fun p q => t8Mag p < t8Mag q) := by decide +kernel

/-- Neighbouring payloads differ in parity. -/
theorem t8Order_parity : t8Order.IsChain (fun p q => p % 2 ≠ q % 2) := by decide +kernel

/-- Every payload is among them. -/
theorem t8Order_all : ∀ d < 128, d ∈ 0 :: t8Order.tail := by decide +kernel

/-- They are payloads. -/
theorem t8Order_range : ∀ d ∈ 0 :: t8Order.tail, d < 128 := by decide +kernel

/-- `t8Exact` compares a payload with an exact value. -/
theorem t8Exact_iff {a b : Nat} (e : Int) (p : Nat) (hb : 0 < b) :
    t8Exact a b e p = true ↔ (t8Mag p : ℝ) = (a : ℝ) / b * 2 ^ (e + 16) := by
  have hx := scaled_eq (a := a) (e + 16) hb
  have hbr : (0 : ℝ) < b := by exact_mod_cast hb
  rw [← hx]
  unfold t8Exact
  by_cases h : 0 ≤ e + 16
  · simp only [h, if_true, beq_iff_eq]
    rw [eq_div_iff (by positivity)]; exact_mod_cast Iff.rfl
  · simp only [h, if_false, beq_iff_eq]
    rw [eq_div_iff (by positivity), mul_assoc]; exact_mod_cast Iff.rfl

/-- The one rounding to T8 (R197). -/
theorem t8_rounded (n : Bool) (a b : Nat) (e : Int) (hb : 0 < b) :
    let x := (Xv.fin n a b e).real
    (6144 < |x| → t8Encode (.fin n a b e) = (if n then 135 else 7, 5)) ∧
    (|x| ≤ 6144 → ∃ p, RoundsTo (fun p => (t8Mag p : ℝ) / 65536) 128 (1 / 65536) |x| (p, (t8Encode (.fin n a b e)).2) ∧
      (t8Encode (.fin n a b e)).1 = if p = 0 then 0 else if n then p + 128 else p) := by
  intro x
  have hbr : (0 : ℝ) < b := by exact_mod_cast hb
  have hx : |x| = (a : ℝ) / b * 2 ^ e := abs_real n a b e
  rw [hx]
  set y := (a : ℝ) / b * 2 ^ e with hy
  have hex := exceeds_iff (a := a) e 6144 hb
  rw [← hy] at hex
  by_cases ha : a = 0
  · subst ha
    have y0 : y = 0 := by simp [hy]
    have e0 : t8Encode (.fin n 0 b e) = (0, 0) := rfl
    rw [y0, e0]
    refine ⟨fun h => by norm_num at h, fun _ => ⟨0, ⟨⟨by norm_num, fun d _ => ?_⟩, fun _ => rfl, fun h => absurd (by simp [t8Mag]) h,
      fun h => absurd (by simp [t8Mag]) h⟩, rfl⟩⟩
    have : (0 : ℝ) ≤ (t8Mag d : ℝ) / 65536 := by positivity
    simp only [t8Mag, sub_zero]
    exact ⟨by simp, fun _ _ => by simp⟩
  · have har : (0 : ℝ) < a := by exact_mod_cast Nat.pos_of_ne_zero ha
    have hy0 : 0 < y := by rw [hy]; positivity
    set p := t8Nearest a b e 0 t8Order.tail
    have henc : t8Encode (.fin n a b e) = if exceeds a b e 6144 then (7 + (if n then 128 else 0), 5) else
        (if p = 0 then 0 else p + (if n then 128 else 0), if t8Exact a b e p then 0 else if below a b e (-16) then 3 else 1) := by
      have hp : t8Nearest a b e 0 t8Order = p := by
        show t8Nearest a b e 0 (0 :: t8Order.tail) = p
        have hx0 : (0 : Nat) < (if 0 ≤ e + 16 then a * 2 ^ (e + 16).toNat else a) := by
          have := Nat.pos_of_ne_zero ha
          split <;> positivity
        conv_lhs => unfold t8Nearest
        have m0 : t8Mag 0 = 0 := rfl
        simp only [m0, zero_mul, hx0, if_true]; rfl
      unfold t8Encode
      simp only [ha, if_false, hp]; rfl
    rw [henc]
    refine ⟨fun h => by rw [if_pos (hex.2 (by exact_mod_cast h))]; cases n <;> rfl, fun h => ?_⟩
    rw [if_neg (by rw [hex]; push Not; exact_mod_cast h)]
    have hX : y * 65536 = (a : ℝ) / b * 2 ^ (e + 16) := by rw [hy, zpow_add₀ (by norm_num)]; norm_num; ring
    obtain ⟨h1, -, h3⟩ := t8Nearest_spec hb (y * 65536) hX t8Order.tail 0 t8Order_sorted t8Order_parity
      (by simp only [t8Mag, if_true]; push_cast; positivity) ⟨7, by decide, by
        have : t8Mag 7 = 6144 * 65536 := by decide
        rw [this]; push_cast; linarith⟩
    have hexact := t8Exact_iff (a := a) e p hb
    rw [← hX] at hexact
    have hbelow := below_iff (a := a) e (-16) hb
    rw [← hy] at hbelow
    have sc (d : Nat) : |(t8Mag d : ℝ) / 65536 - y| = |(t8Mag d : ℝ) - y * 65536| / 65536 := by
      rw [show (t8Mag d : ℝ) / 65536 - y = ((t8Mag d : ℝ) - y * 65536) / 65536 by ring, abs_div]; norm_num
    have n16 : (2 : ℝ) ^ (-16 : Int) = 1 / 65536 := by norm_num
    rw [n16] at hbelow
    refine ⟨p, ⟨⟨t8Order_range p h1, fun d hd => ?_⟩, fun hv => ?_, fun hv hn => ?_, fun hv hn => ?_⟩, ?_⟩
    · obtain ⟨q1, q2⟩ := h3 d (t8Order_all d hd)
      simp only [sc]
      exact ⟨by gcongr, fun hne heq => q2 hne (by linarith)⟩
    · have : t8Exact a b e p = true := hexact.2 (by simp only at hv; rw [← hv]; ring)
      simp [this]
    · have : t8Exact a b e p = false := by
        rw [Bool.eq_false_iff]; intro hh; rw [hexact] at hh; exact hv (by simp only; rw [hh]; ring)
      simp [this, hbelow.2 hn]
    · have : t8Exact a b e p = false := by
        rw [Bool.eq_false_iff]; intro hh; rw [hexact] at hh; exact hv (by simp only; rw [hh]; ring)
      have hb' : below a b e (-16) = false := by rw [Bool.eq_false_iff]; intro hh; rw [hbelow] at hh; linarith
      simp [this, hb']
    · cases n <;> simp

/-- The value of a T8 byte (R195). -/
theorem t8Value_real (c : Nat) (hc : c < 256) :
    t8Value c = if c = 128 then .nan else .fin (decide (128 < c)) (t8Mag (c % 128)) 1 (-16) := by
  unfold t8Value
  rw [Nat.mod_eq_of_lt hc]
  split
  · rfl
  · rename_i h
    have : (c / 128 % 2 == 1) = decide (128 < c) := by
      by_cases h2 : 128 < c
      · simp [h2]; omega
      · simp [h2]; omega
    rw [this]

end Sys2Proof.Laws
end

