-- ==== Sys2Proof/Tests/Slice0.lean ====
section
/-!
SUPPORT. Tests/Slice0.lean: well-formedness smoke, words decoded bit by bit, small single steps, and for every statement states
and operands that meet its hypotheses.
-/

namespace Sys2Proof.Tests

set_option Elab.async false

open Sys2Proof Sys2Proof.Machine

/-! ### States -/

/-- A privileged activation of context 0 on full core 6, every page mapped to itself, a NOP at its pc; home ports answer
at once. -/
def one : State := { placeBytes State.reset [0x63, 0, 0, 0] with cur := ⟨6, none⟩, heldPorts := false }

/-- Scalar registers set. -/
def withS (s : State) (l : List (SReg × Word)) : State := l.foldl (fun s x => wS s x.1 x.2) s

/-- The activation blocked. -/
def waiting (s : State) (w : Wait) : State := modAct s (fun a => { a with wait := some w })

/-- A blocked instruction of kind k, first issued at cycle 0, with operand o. -/
def wait0 (k : Nat) (o : Word) : Wait := ⟨k, 0, o, 0, false, false, false, none, [], [], [], [], none, []⟩

/-- A user activation of context 1, with the entry of context 0. -/
def user : State :=
  let s := modCtx one 6 1 (fun x => { x with entry := { (ctxOf one 6 0).entry with hlo := 0x10000#64, hhi := 0x20000#64 } })
  modCore s 6 (fun k => { k with active := some ⟨1, some { Act.zero with pc := 0x10000#64 }⟩ })

/-- The activation of `one` on another core. -/
def onCore (c : Nat) : State :=
  let s := modCore one c (fun k => { k with active := some ⟨0, some { Act.zero with pc := 0x10000#64, priv := true }⟩ })
  let s := modCtx s c 0 (fun x => { x with entry := (ctxOf one 6 0).entry })
  { s with cur := ⟨c, none⟩ }

/-- A first issue has sent nothing. -/
theorem unsent_of_first {s : State} (h : FirstIssue s) : Unsent s := by
  intro w hw; rw [show (act s).wait = none from h] at hw; cases hw

/-- An address of window w. -/
def win (w off : Nat) : Word := BitVec.ofNat 64 (windowBase + w * 2 ^ 24 + off)

/-! ### Words written out from the encoding chapter: [31:28] minor C B A major 11 (R272-R278) -/

theorem words_alu :
    decode32 0b0000_00000_11000_01010_10001_000000_11 = some (.add false 17 10 24) ∧
    decode32 0b0001_00001_11000_01010_10001_000000_11 = some (.sub true 17 10 24) ∧
    decode32 0b0000_00010_11000_01010_10001_000000_11 = some (.and false 17 10 24) ∧
    decode32 0b0001_00011_11000_01010_10001_000000_11 = some (.or true 17 10 24) ∧
    decode32 0b0000_00100_11000_01010_10001_000000_11 = some (.xor false 17 10 24) ∧
    decode32 0b0001_00101_11000_01010_10001_000000_11 = some (.andn true 17 10 24) ∧
    decode32 0b0000_00110_11000_01010_10001_000000_11 = some (.shl false 17 10 24) ∧
    decode32 0b0001_00111_11000_01010_10001_000000_11 = some (.shr true 17 10 24) ∧
    decode32 0b0000_01000_11000_01010_10001_000000_11 = some (.sar false 17 10 24) ∧
    decode32 0b0001_01001_11000_01010_10001_000000_11 = some (.rotl true 17 10 24) ∧
    decode32 0b0000_01010_11000_01010_10001_000000_11 = some (.mul false 17 10 24) ∧
    decode32 0b0001_01011_11000_01010_10001_000000_11 = some (.mulh true 17 10 24) ∧
    decode32 0b0000_01100_11000_01010_10001_000000_11 = some (.mulhu false 17 10 24) ∧
    decode32 0b0001_01101_11000_01010_10001_000000_11 = some (.div true 17 10 24) ∧
    decode32 0b0000_01110_11000_01010_10001_000000_11 = some (.divu false 17 10 24) ∧
    decode32 0b0001_01111_11000_01010_10001_000000_11 = some (.rem true 17 10 24) ∧
    decode32 0b0000_10000_11000_01010_10001_000000_11 = some (.remu false 17 10 24) ∧
    decode32 0b0001_10001_11000_01010_10001_000000_11 = some (.min true 17 10 24) ∧
    decode32 0b0000_10010_11000_01010_10001_000000_11 = some (.max false 17 10 24) ∧
    decode32 0b0001_10011_11000_01010_10001_000000_11 = some (.minu true 17 10 24) ∧
    decode32 0b0000_10100_11000_01010_10001_000000_11 = some (.maxu false 17 10 24) ∧
    decode32 0b0001_10101_11000_01010_10001_000000_11 = some (.slt true 17 10 24) ∧
    decode32 0b0000_10110_11000_01010_10001_000000_11 = some (.sltu false 17 10 24) ∧
    decode32 0b0001_10111_11000_01010_10001_000000_11 = some (.seq true 17 10 24) := by decide

theorem words_alu_one_source :
    decode32 0b0001_11000_00000_01010_10001_000000_11 = some (.clz true 17 10) ∧
    decode32 0b0000_11001_00000_01010_10001_000000_11 = some (.ctz false 17 10) ∧
    decode32 0b0001_11010_00000_01010_10001_000000_11 = some (.popc true 17 10) ∧
    decode32 0b0000_11011_00000_01010_10001_000000_11 = some (.brev false 17 10) ∧
    decode32 0b0000_11100_00000_01010_10001_000000_11 = some (.sextb 17 10) ∧
    decode32 0b0000_11101_00000_01010_10001_000000_11 = some (.sexth 17 10) ∧
    decode32 0b0000_11110_00000_01010_10001_000000_11 = some (.sextw 17 10) ∧
    decode32 0b0000_11111_00000_01010_10001_000000_11 = some (.zextw 17 10) := by decide

theorem words_immediates :
    decode32 0b1010_10001_10101_01010_10001_000001_11 = some (.addi 17 10 0x2a35) ∧
    decode32 0b1010_10001_10101_01010_10001_000010_11 = some (.andi 17 10 0x2a35) ∧
    decode32 0b1010_10001_10101_01010_10001_000011_11 = some (.ori 17 10 0x2a35) ∧
    decode32 0b1010_10001_10101_01010_10001_000100_11 = some (.xori 17 10 0x2a35) ∧
    decode32 0b1010_10001_10101_01010_10001_000110_11 = some (.slti 17 10 0x2a35) ∧
    decode32 0b0001_00000_01001_01010_10001_000101_11 = some (.shli 17 10 41) ∧
    decode32 0b0001_00001_01001_01010_10001_000101_11 = some (.shri 17 10 41) ∧
    decode32 0b0001_00010_01001_01010_10001_000101_11 = some (.sari 17 10 41) ∧
    decode32 0b0001_00011_01001_01010_10001_000101_11 = some (.rotli 17 10 41) ∧
    decode32 0b1011_01000_11110_01001_10001_000111_11 = some (.lui 17 0x5a3c9) ∧
    decode32 0b1011_01000_11110_01001_10001_001000_11 = some (.auipc 17 0x5a3c9) := by decide

theorem words_extension_registers :
    decode32 0b0000_00000_00000_01010_00101_001001_11 = some (.oxset 5 10) ∧
    decode32 0b0000_00001_00000_00011_10001_001001_11 = some (.oxget 17 3) ∧
    decode32 0b0000_00010_00000_00000_00101_001001_11 = some (.oxclr 5) ∧
    decode32 0b0000_00011_00010_01010_00101_001001_11 = some (.oxldm 5 10 2) ∧
    decode32 0b0000_00100_00010_01010_00101_001001_11 = some (.oxstm 5 10 2) := by decide

theorem words_loads_and_stores :
    decode32 0b1001_10101_00000_01010_10001_001010_11 = some (.ldb 17 10 0x135) ∧
    decode32 0b1001_10101_00001_01010_10001_001010_11 = some (.ldbu 17 10 0x135) ∧
    decode32 0b1001_10101_00010_01010_10001_001010_11 = some (.ldh 17 10 0x135) ∧
    decode32 0b1001_10101_00011_01010_10001_001010_11 = some (.ldhu 17 10 0x135) ∧
    decode32 0b1001_10101_00100_01010_10001_001010_11 = some (.ldw 17 10 0x135) ∧
    decode32 0b1001_10101_00101_01010_10001_001010_11 = some (.ldwu 17 10 0x135) ∧
    decode32 0b1001_10101_00110_01010_10001_001010_11 = some (.ldd 17 10 0x135) ∧
    decode32 0b1001_10101_00000_01010_10001_001011_11 = some (.stb 17 10 0x135) ∧
    decode32 0b1001_10101_00001_01010_10001_001011_11 = some (.sth 17 10 0x135) ∧
    decode32 0b1001_10101_00010_01010_10001_001011_11 = some (.stw 17 10 0x135) ∧
    decode32 0b1001_10101_00011_01010_10001_001011_11 = some (.std 17 10 0x135) := by decide

theorem words_ordering :
    decode32 0b1100_00000_00000_01010_10001_001100_11 = some (.lda true .system 17 10) ∧
    decode32 0b0010_00001_00000_01010_10001_001100_11 = some (.stl false .die 17 10) ∧
    decode32 0b1001_00010_00000_01010_10001_001100_11 = some (.stlf true .clause 17 10) ∧
    decode32 0b0011_00011_00000_00000_00000_001100_11 = some (.fence .package) ∧
    decode32 0b0000_00100_00000_00000_00000_001100_11 = some (.fencea) := by decide

theorem words_atomics :
    decode32 0b0000_00000_11000_01010_10001_001101_11 = some (.aadd false .core 17 10 24) ∧
    decode32 0b1001_00001_11000_01010_10001_001101_11 = some (.aand true .clause 17 10 24) ∧
    decode32 0b0010_00010_11000_01010_10001_001101_11 = some (.aor false .die 17 10 24) ∧
    decode32 0b1011_00011_11000_01010_10001_001101_11 = some (.axor true .package 17 10 24) ∧
    decode32 0b0100_00100_11000_01010_10001_001101_11 = some (.amin false .system 17 10 24) ∧
    decode32 0b1000_00101_11000_01010_10001_001101_11 = some (.amax true .core 17 10 24) ∧
    decode32 0b0001_00110_11000_01010_10001_001101_11 = some (.aminu false .clause 17 10 24) ∧
    decode32 0b1010_00111_11000_01010_10001_001101_11 = some (.amaxu true .die 17 10 24) ∧
    decode32 0b0011_01000_11000_01010_10001_001101_11 = some (.aswp false .package 17 10 24) ∧
    decode32 0b1100_01001_11000_01010_10001_001101_11 = some (.acas true .system 17 10 24) ∧
    decode32 0b0000_01010_11000_01010_10001_001101_11 = some (.adcas false .core 17 10 24) ∧
    decode32 0b1001_01011_11000_01010_10001_001101_11 = some (.amove true .clause 17 10 24) := by decide

theorem words_control_and_system :
    decode32 0b1010_10001_10101_01010_10001_001110_11 = some (.beq 17 10 0x2a35) ∧
    decode32 0b1010_10001_10101_01010_10001_001111_11 = some (.bne 17 10 0x2a35) ∧
    decode32 0b1010_10001_10101_01010_10001_010000_11 = some (.blt 17 10 0x2a35) ∧
    decode32 0b1010_10001_10101_01010_10001_010001_11 = some (.bge 17 10 0x2a35) ∧
    decode32 0b1010_10001_10101_01010_10001_010010_11 = some (.bltu 17 10 0x2a35) ∧
    decode32 0b1010_10001_10101_01010_10001_010011_11 = some (.bgeu 17 10 0x2a35) ∧
    decode32 0b1011_01000_11110_01001_10001_010100_11 = some (.jal 17 0x5a3c9) ∧
    decode32 0b1010_10001_10101_01010_10001_010101_11 = some (.jalr 17 10 0x2a35) ∧
    decode32 0b0000_01001_00011_00000_10001_010110_11 = some (.crd 17 0x123) ∧
    decode32 0b0000_01001_00011_00000_10001_010111_11 = some (.cwr 17 0x123) ∧
    decode32 0b0000_00000_00000_00000_00000_011000_11 = some (.nop) ∧
    decode32 0b0000_00001_11000_01010_00000_011000_11 = some (.trap 344) ∧
    decode32 0b0000_00010_00000_00000_00000_011000_11 = some (.eret) ∧
    decode32 0b0000_00011_00000_00000_00000_011000_11 = some (.halt) ∧
    decode32 0b0000_00100_00000_00000_10001_011000_11 = some (.cyc 17) ∧
    decode32 0b0000_00101_00000_01010_00000_011000_11 = some (.sleep 10) ∧
    decode32 0b0000_00110_00000_00000_00000_011000_11 = some (.wfe) ∧
    decode32 0b0000_00111_00011_00000_10001_011000_11 = some (.fuse 17 3) ∧
    decode32 0b0000_01000_00000_01010_00000_011000_11 = some (.split 10) ∧
    decode32 0b0000_01001_00000_00000_00000_011000_11 = some (.migr) ∧
    decode32 0b0000_01010_11000_01010_00000_011000_11 = some (.bkpt 344) ∧
    decode32 0b0000_01011_00000_00000_00000_011000_11 = some (.yield) := by decide

theorem words_queues_and_messages :
    decode32 0b0000_00000_00011_00000_10001_011010_11 = some (.qpop 17 3) ∧
    decode32 0b0000_00001_00010_00000_10001_011010_11 = some (.qpush 2 17) ∧
    decode32 0b0000_00010_00011_00000_10001_011010_11 = some (.qpeek 17 3) ∧
    decode32 0b0000_00011_00010_00000_10001_011010_11 = some (.qlen 17 2) ∧
    decode32 0b0000_00100_00001_01010_00000_011010_11 = some (.qdrop 1 10) ∧
    decode32 0b0100_00000_00000_01010_00000_011011_11 = some (.send .system 10) ∧
    decode32 0b0001_00001_00000_01010_10001_011011_11 = some (.sendw .clause 17 10) ∧
    decode32 0b0010_00010_00000_00000_00000_011011_11 = some (.reply .die) ∧
    decode32 0b0000_00011_00000_00000_00000_011011_11 = some (.endh) ∧
    decode32 0b0000_00100_00000_01010_10001_011011_11 = some (.launch 17 10) ∧
    decode32 0b0000_00101_00000_00000_00000_011011_11 = some (.trig) ∧
    decode32 0b0000_00110_00101_00000_10001_011011_11 = some (.wid 17 5) ∧
    decode32 0b0000_00111_00000_00000_10001_011011_11 = some (.srcid 17) := by decide

theorem words_events_and_phasers :
    decode32 0b0000_00000_00000_01010_10001_011100_11 = some (.evwait 17 10) ∧
    decode32 0b0000_00001_00000_01010_00000_011100_11 = some (.evset 10) ∧
    decode32 0b0000_00010_00000_01010_00000_011100_11 = some (.evclr 10) ∧
    decode32 0b0000_00011_00000_01010_10001_011100_11 = some (.evtest 17 10) ∧
    decode32 0b0000_00100_00000_00000_10001_011100_11 = some (.phnew 17) ∧
    decode32 0b0000_00101_00010_01010_00000_011100_11 = some (.phreg 10 2) ∧
    decode32 0b0000_00110_00000_01010_00000_011100_11 = some (.phdrop 10) ∧
    decode32 0b0000_00111_00000_01010_00000_011100_11 = some (.phsig 10) ∧
    decode32 0b0000_01000_00000_01010_10001_011100_11 = some (.phwait 17 10) ∧
    decode32 0b0000_01001_00000_01010_10001_011100_11 = some (.phsw 17 10) ∧
    decode32 0b0000_01010_00000_01010_10001_011100_11 = some (.phread 17 10) ∧
    decode32 0b0000_01011_00000_01010_00000_011100_11 = some (.phreset 10) ∧
    decode32 0b0000_01100_00000_01010_00000_011100_11 = some (.mon 10) ∧
    decode32 0b0000_01101_00000_01010_10001_011100_11 = some (.mwait 17 10) := by decide

theorem words_copies_and_collectives :
    decode32 0b0000_00000_00000_01010_00000_011101_11 = some (.cpwait 10) ∧
    decode32 0b0000_00001_00000_01010_10001_011101_11 = some (.cpstat 17 10) ∧
    decode32 0b0000_00010_00000_01010_00000_011101_11 = some (.cpcancel 10) ∧
    decode32 0b0000_00011_01111_00000_10001_011101_11 = some (.cpsort 17 15) ∧
    decode32 0b0010_00100_00000_01010_01101_011101_11 = some (.gbind 2 13 10) ∧
    decode32 0b0000_00101_00000_00000_01101_011101_11 = some (.gunbind 13) ∧
    decode32 0b0000_00110_00000_01010_00000_011101_11 = some (.collgo 10) ∧
    decode32 0b0000_00111_00000_01010_10001_011101_11 = some (.collwait 17 10) := by decide

theorem words_fibres_and_invalidation :
    decode32 0b0000_00000_00000_01010_00000_011110_11 = some (.fresume 10) ∧
    decode32 0b0000_00001_00000_01010_10001_011110_11 = some (.fstat 17 10) ∧
    decode32 0b0011_00010_11000_01010_00000_011110_11 = some (.tlbinv .package 10 24) ∧
    decode32 0b0001_00011_00000_01010_00000_011110_11 = some (.tlbinva .clause 10) ∧
    decode32 0b0000_00100_00000_01010_00000_011110_11 = some (.xpref 10) ∧
    decode32 0b0000_00101_00000_01010_00000_011110_11 = some (.fdrop 10) := by decide

theorem words_vector_integer :
    decode32 0b0000_00000_11000_01010_10001_100000_11 = some (.vadd 0 17 10 24) ∧
    decode32 0b0010_00001_11000_01010_10001_100000_11 = some (.vsub 1 17 10 24) ∧
    decode32 0b0100_00010_11000_01010_10001_100000_11 = some (.vmul 2 17 10 24) ∧
    decode32 0b0110_00011_11000_01010_10001_100000_11 = some (.vmulh 3 17 10 24) ∧
    decode32 0b1000_00100_11000_01010_10001_100000_11 = some (.vand 4 17 10 24) ∧
    decode32 0b1010_00101_11000_01010_10001_100000_11 = some (.vor 5 17 10 24) ∧
    decode32 0b1100_00110_11000_01010_10001_100000_11 = some (.vxor 6 17 10 24) ∧
    decode32 0b1110_00111_11000_01010_10001_100000_11 = some (.vshl 7 17 10 24) ∧
    decode32 0b0000_01000_11000_01010_10001_100000_11 = some (.vshr 0 17 10 24) ∧
    decode32 0b0010_01001_11000_01010_10001_100000_11 = some (.vsar 1 17 10 24) ∧
    decode32 0b0100_01010_11000_01010_10001_100000_11 = some (.vmin 2 17 10 24) ∧
    decode32 0b0110_01011_11000_01010_10001_100000_11 = some (.vmax 3 17 10 24) ∧
    decode32 0b1000_01100_11000_01010_10001_100000_11 = some (.vminu 4 17 10 24) ∧
    decode32 0b1010_01101_11000_01010_10001_100000_11 = some (.vmaxu 5 17 10 24) ∧
    decode32 0b1100_01110_11000_01010_00101_100000_11 = some (.vceq 6 5 10 24) ∧
    decode32 0b1110_01111_11000_01010_00101_100000_11 = some (.vclt 7 5 10 24) ∧
    decode32 0b0000_10000_11000_01010_00101_100000_11 = some (.vcltu 0 5 10 24) ∧
    decode32 0b0010_10001_11000_01010_10001_100000_11 = some (.vadds 1 17 10 24) ∧
    decode32 0b0100_10010_11000_01010_10001_100000_11 = some (.vmuls 2 17 10 24) ∧
    decode32 0b0110_10011_00000_00000_10001_100000_11 = some (.viota 3 17) := by decide

theorem words_vector_floating :
    decode32 0b1110_00000_11000_01010_10001_100001_11 = some (.vfadd false 7 17 10 24) ∧
    decode32 0b1101_00001_11000_01010_10001_100001_11 = some (.vfsub true 6 17 10 24) ∧
    decode32 0b1010_00010_11000_01010_10001_100001_11 = some (.vfmul false 5 17 10 24) ∧
    decode32 0b1001_00011_11000_01010_10001_100001_11 = some (.vfma true 4 17 10 24) ∧
    decode32 0b0110_00100_11000_01010_10001_100001_11 = some (.vfms false 3 17 10 24) ∧
    decode32 0b0101_00101_11000_01010_10001_100001_11 = some (.vfnma true 2 17 10 24) ∧
    decode32 0b0010_00110_11000_01010_10001_100001_11 = some (.vfdiv false 1 17 10 24) ∧
    decode32 0b0001_00111_00000_01010_10001_100001_11 = some (.vfsqrt true 0 17 10) ∧
    decode32 0b1110_01000_11000_01010_10001_100001_11 = some (.vfmin false 7 17 10 24) ∧
    decode32 0b1101_01001_11000_01010_10001_100001_11 = some (.vfmax true 6 17 10 24) ∧
    decode32 0b1010_01010_00000_01010_10001_100001_11 = some (.vfabs false 5 17 10) ∧
    decode32 0b1001_01011_00000_01010_10001_100001_11 = some (.vfneg true 4 17 10) ∧
    decode32 0b0110_01100_11000_01010_00101_100001_11 = some (.vfceq false 3 5 10 24) ∧
    decode32 0b0101_01101_11000_01010_00101_100001_11 = some (.vfclt true 2 5 10 24) ∧
    decode32 0b0010_01110_11000_01010_00101_100001_11 = some (.vfcle false 1 5 10 24) ∧
    decode32 0b0001_01111_11000_01010_10001_100001_11 = some (.vfadds true 0 17 10 24) ∧
    decode32 0b1110_10000_11000_01010_10001_100001_11 = some (.vfmuls false 7 17 10 24) := by decide

theorem words_vector_moves :
    decode32 0b0110_00000_00000_01010_10001_100010_11 = some (.vmov 3 17 10) ∧
    decode32 0b1000_00001_00000_01010_10001_100010_11 = some (.vsplat 4 17 10) ∧
    decode32 0b0000_00010_01111_01010_10001_100010_11 = some (.vmovs 17 10 15) ∧
    decode32 0b0000_00011_01001_01010_10001_100010_11 = some (.vins 17 10 9) ∧
    decode32 0b1010_00100_11000_01010_10001_100010_11 = some (.vperm 5 17 10 24) ∧
    decode32 0b1100_00101_11000_01010_10001_100010_11 = some (.vslideup 6 17 10 24) ∧
    decode32 0b1110_00110_11000_01010_10001_100010_11 = some (.vslidedn 7 17 10 24) ∧
    decode32 0b0010_00111_11000_01010_10001_100010_11 = some (.vsel 1 17 10 24) ∧
    decode32 0b0100_01000_00000_01010_10001_100010_11 = some (.vcompress 2 17 10) ∧
    decode32 0b0110_01001_00000_01010_10001_100010_11 = some (.vexpand 3 17 10) ∧
    decode32 0b1000_01010_00000_01010_10001_100010_11 = some (.vredadd 4 17 10) ∧
    decode32 0b1011_01011_00000_01010_10001_100010_11 = some (.vfredsum true 5 17 10) ∧
    decode32 0b1100_01100_00000_01010_10001_100010_11 = some (.vfredmax 6 17 10) ∧
    decode32 0b1111_01101_11000_01010_10001_100010_11 = some (.vfdot true 7 17 10 24) ∧
    decode32 0b0000_01110_00001_01010_10001_100010_11 = some (.vprune 17 10 true) := by decide

theorem words_vector_memory :
    decode32 0b0010_00000_11000_01010_10001_100011_11 = some (.vld 1 17 10 24) ∧
    decode32 0b0100_00001_11000_01010_10001_100011_11 = some (.vst 2 17 10 24) ∧
    decode32 0b0110_00010_11000_01010_10001_100011_11 = some (.vldk 3 17 10 24) ∧
    decode32 0b1000_00011_11000_01010_10001_100011_11 = some (.vstk 4 17 10 24) ∧
    decode32 0b1010_00100_11000_01010_10001_100011_11 = some (.vgath 5 17 10 24) ∧
    decode32 0b1100_00101_11000_01010_10001_100011_11 = some (.vscat 6 17 10 24) ∧
    decode32 0b1110_00110_00000_01010_10001_100011_11 = some (.vstb 7 17 10) ∧
    decode32 0b0100_00000_00000_01010_10001_100011_11 = some (.vld 2 17 10 0) := by decide

theorem words_vector_conversions :
    decode32 0b0011_00000_00000_01010_10001_100100_11 = some (.vcvtwf true 1 17 10) ∧
    decode32 0b0100_00001_00000_01010_10001_100100_11 = some (.vcvtfw false 2 17 10) ∧
    decode32 0b0110_00010_00000_01010_10001_100100_11 = some (.vcvtfd 3 17 10) ∧
    decode32 0b1000_00011_00000_01010_10001_100100_11 = some (.vcvtdf 4 17 10) ∧
    decode32 0b1011_00100_00000_01010_10001_100100_11 = some (.vxacc true 5 17 10) ∧
    decode32 0b1100_00101_00000_01010_10001_100100_11 = some (.vxrnd false 6 17 10) := by decide

theorem words_predicates :
    decode32 0b0000_00000_00110_00011_00101_100101_11 = some (.pand 5 3 6) ∧
    decode32 0b0000_00001_00110_00011_00101_100101_11 = some (.por 5 3 6) ∧
    decode32 0b0000_00010_00110_00011_00101_100101_11 = some (.pxor 5 3 6) ∧
    decode32 0b0000_00011_00000_00011_00101_100101_11 = some (.pnot 5 3) ∧
    decode32 0b0000_00100_00000_01010_00101_100101_11 = some (.pset 5 10) ∧
    decode32 0b0000_00101_00000_00011_00101_100101_11 = some (.pmov 5 3) ∧
    decode32 0b0000_00110_00000_00011_10001_100101_11 = some (.pget 17 3) ∧
    decode32 0b0000_00111_00000_00011_10001_100101_11 = some (.pcnt 17 3) ∧
    decode32 0b0000_01000_00000_00011_10001_100101_11 = some (.pfirst 17 3) := by decide

theorem words_matrix :
    decode32 0b0001_00000_00100_00000_10001_101000_11 = some (.mlease true 17 4) ∧
    decode32 0b0000_00001_00000_00000_00000_101000_11 = some (.mrelease) ∧
    decode32 0b0000_00010_00000_01010_00000_101000_11 = some (.mldb 10) ∧
    decode32 0b0000_00011_00000_01010_00000_101000_11 = some (.mbmeta 10) ∧
    decode32 0b1011_00100_00000_01010_00010_101000_11 = some (.mma 11 2 10) ∧
    decode32 0b0000_00101_00000_01010_00011_101000_11 = some (.mmacode 3 10) ∧
    decode32 0b0000_00110_00000_00000_00001_101000_11 = some (.mzero 1) ∧
    decode32 0b0000_00111_00000_01010_00010_101000_11 = some (.mdrain 2 10) ∧
    decode32 0b0000_01000_00000_00000_10001_101000_11 = some (.mstat 17) := by decide

theorem words_lexicon :
    decode32 0b0000_00000_11000_01010_10001_101001_11 = some (.lxcfg 17 10 24) ∧
    decode32 0b0000_00001_11000_01010_10001_101001_11 = some (.lxput 17 10 24) ∧
    decode32 0b0000_00010_11000_01010_10001_101001_11 = some (.lxget 17 10 24) ∧
    decode32 0b0000_00011_00000_01010_10001_101001_11 = some (.lxver 17 10) ∧
    decode32 0b0000_00100_11000_01010_10001_101001_11 = some (.lxenc 17 10 24) ∧
    decode32 0b0010_00101_11000_01010_10001_101001_11 = some (.lxsend .die 17 10 24) ∧
    decode32 0b0000_00110_11000_01010_10001_101001_11 = some (.lxdec 17 10 24) ∧
    decode32 0b0001_00111_00000_01010_10001_101001_11 = some (.lxmiss true 17 10) ∧
    decode32 0b0000_01000_00000_01010_00000_101001_11 = some (.lxretry 10) ∧
    decode32 0b0000_01001_11000_01010_10001_101001_11 = some (.glset 17 10 24) ∧
    decode32 0b0000_01010_11000_01010_00000_101001_11 = some (.glinv 10 24) ∧
    decode32 0b0000_01011_00000_01010_10001_101001_11 = some (.glstat 17 10) := by decide

theorem words_parser :
    decode32 0b0000_00000_00000_00000_00011_101010_11 = some (.ecdecl 3) ∧
    decode32 0b0000_00001_00000_00000_00010_101010_11 = some (.ecsweep 2) ∧
    decode32 0b0000_00010_11000_01010_00001_101010_11 = some (.ecwake 1 10 24) ∧
    decode32 0b0000_00011_00011_00000_10001_101010_11 = some (.ecstat 17 3) ∧
    decode32 0b0000_00100_00000_00000_00010_101010_11 = some (.ecstop 2) ∧
    decode32 0b0000_00101_00001_01010_10001_101010_11 = some (.ecread 17 10 1) := by decide

theorem words_signature :
    decode32 0b0000_00000_00000_01010_10001_101100_11 = some (.sgcfg 17 10) ∧
    decode32 0b0000_00001_00000_01010_00011_101100_11 = some (.sgzero 3 10) ∧
    decode32 0b0000_00010_00000_01010_00010_101100_11 = some (.sgstep 2 10) ∧
    decode32 0b0000_00011_00011_00010_00001_101100_11 = some (.sgjoin 1 2 3) ∧
    decode32 0b0000_00100_00000_00010_00001_101100_11 = some (.sglog 1 2) ∧
    decode32 0b0000_00101_00000_01010_00011_101100_11 = some (.sgld 3 10) ∧
    decode32 0b0000_00110_00000_01010_00010_101100_11 = some (.sgst 2 10) ∧
    decode32 0b0000_00111_11000_01010_00001_101100_11 = some (.sgtag 1 10 24) := by decide

theorem words_short :
    decodeHalves 0b01010_10001_0001_00 0 = .ok (.cMov 17 10, 2) ∧
    decodeHalves 0b01010_10001_0010_00 0 = .ok (.cAdd 17 10, 2) ∧
    decodeHalves 0b01010_10001_0011_00 0 = .ok (.cSub 17 10, 2) ∧
    decodeHalves 0b01010_10001_0100_00 0 = .ok (.cAnd 17 10, 2) ∧
    decodeHalves 0b01010_10001_0101_00 0 = .ok (.cOr 17 10, 2) ∧
    decodeHalves 0b01010_10001_0110_00 0 = .ok (.cXor 17 10, 2) ∧
    decodeHalves 0b01010_10001_0111_00 0 = .ok (.cAddi 17 10, 2) ∧
    decodeHalves 0b01010_10001_1000_00 0 = .ok (.cLi 17 10, 2) ∧
    decodeHalves 0b01010_10001_1001_00 0 = .ok (.cShli 17 10, 2) ∧
    decodeHalves 0b01010_10001_1010_00 0 = .ok (.cShri 17 10, 2) ∧
    decodeHalves 0b01010_10001_1011_00 0 = .ok (.cSari 17 10, 2) ∧
    decodeHalves 0b00000_00000_1100_00 0 = .ok (.cNop, 2) ∧
    decodeHalves 0b00000_00000_1101_00 0 = .ok (.cEndh, 2) ∧
    decodeHalves 0b00011_10001_1110_00 0 = .ok (.cQpop 17 3, 2) ∧
    decodeHalves 0b01010_00010_1111_00 0 = .ok (.cQpush 2 10, 2) ∧
    decodeHalves 0b01010_10001_0000_10 0 = .ok (.cLdd 17 10, 2) ∧
    decodeHalves 0b01010_10001_0001_10 0 = .ok (.cStd 17 10, 2) ∧
    decodeHalves 0b01010_10001_0010_10 0 = .ok (.cLdw 17 10, 2) ∧
    decodeHalves 0b01010_10001_0011_10 0 = .ok (.cStw 17 10, 2) ∧
    decodeHalves 0b01010_10001_0100_10 0 = .ok (.cLddr 17 10, 2) ∧
    decodeHalves 0b01010_10001_0101_10 0 = .ok (.cStdr 17 10, 2) ∧
    decodeHalves 0b01010_10001_0110_10 0 = .ok (.cBeqz 17 10, 2) ∧
    decodeHalves 0b01010_10001_0111_10 0 = .ok (.cBnez 17 10, 2) ∧
    decodeHalves 0b01010_10001_1000_10 0 = .ok (.cJ 554, 2) ∧
    decodeHalves 0b00000_10001_1001_10 0 = .ok (.cJr 17, 2) ∧
    decodeHalves 0b00000_10001_1010_10 0 = .ok (.cJalr 17, 2) ∧
    decodeHalves 0b01010_10001_1011_10 0 = .ok (.cVmov 17 10, 2) := by
  refine ⟨?_, ?_, ?_, ?_, ?_, ?_, ?_, ?_, ?_, ?_, ?_, ?_, ?_, ?_, ?_, ?_, ?_, ?_, ?_, ?_, ?_, ?_, ?_, ?_, ?_, ?_, ?_⟩ <;> rfl

/-! ### Hypotheses met: scalar registers, memory and control -/

theorem meets_solo : Solo one ∧ FirstIssue one ∧ MemoryCanonical one ∧ one.heldPorts = false ∧ released one = true ∧ storeSent one = false := by
  simp only [Solo, FirstIssue, MemoryCanonical]; decide +kernel

theorem meets_unsent : Unsent one := unsent_of_first rfl

theorem meets_Alu_division : (∃ s, Solo s ∧ rS s 6 = 0x180000000#64 ∧ rS s 7 = 0xFFFFFFFFFFFFFFFF#64) ∧
    ∃ s, Solo s ∧ rS s 6 = 0x8000000000000000#64 ∧ rS s 7 = 0xFFFFFFFFFFFFFFFF#64 := by
  refine ⟨⟨withS one [(6, 0x180000000#64), (7, 0xFFFFFFFFFFFFFFFF#64)], ?_⟩,
    ⟨withS one [(6, 0x8000000000000000#64), (7, 0xFFFFFFFFFFFFFFFF#64)], ?_⟩⟩ <;> (simp only [Solo]; decide +kernel)

theorem meets_Alu_words : (0xE0000017 : Nat) % 256 = 0x17 ∧ 2 ^ 29 ≤ (0x20000017 : Nat) ∧ (0x20000017 : Nat) % 256 = 0x17 := by decide

/-- OXLDM and OXSTM of all eight registers, ending at the scratchpad's last byte. -/
theorem meets_oxldm : let s := withS one [(1, win 0 (131072 - 64))]
    Solo s ∧ FirstIssue s ∧ MemoryCanonical s ∧ (0 : EReg).toNat + (7 : BitVec 3).toNat ≤ 7 ∧ InWindow0 s (rS s 1) 8 ∧
      windowOff (rS s 1) + 8 * ((7 : BitVec 3).toNat + 1) ≤ scratchSize (partNow s) ∧ Quiet s (window0Loc s (rS s 1)) 64 := by
  simp only [Solo, FirstIssue, MemoryCanonical, InWindow0, Quiet]; decide +kernel

/-- Scalar accesses of each width at the last place of the scratchpad, by the largest and the smallest immediate. -/
theorem meets_window0 : let s := withS one [(1, win 0 (131072 - 256)), (2, win 0 2048)]
    Solo s ∧ MemoryCanonical s ∧ InWindow0 s (rS s 1 + BitVec.ofInt 64 (1 * (0x0FF#9).toInt)) 1 ∧
      InWindow0 s (rS s 2 + BitVec.ofInt 64 (2 * (0x100#9).toInt)) 2 ∧ InWindow0 s (rS s 2 + BitVec.ofInt 64 (4 * (0x100#9).toInt)) 4 ∧
      InWindow0 s (rS s 2 + BitVec.ofInt 64 (8 * (0x100#9).toInt)) 8 ∧ storeSent s = false ∧ s.mailboxes = [] ∧
      Quiet s (window0Loc s (rS s 1 + BitVec.ofInt 64 (1 * (0x0FF#9).toInt))) 1 ∧
      (∀ n ∈ ([2, 4, 8] : List Nat), Quiet s (window0Loc s (rS s 2 + BitVec.ofInt 64 (n * (0x100#9).toInt))) n) := by
  simp only [Solo, MemoryCanonical, InWindow0, Quiet]; decide +kernel

/-- The one leaf of the placed table, for low addresses. -/
def leaf0 : TlbEntry := ⟨0, 1, 0, 0x1BF#64, BitVec.allOnes 64, 0x20000⟩

/-- Aligned accesses of each width at the last place of HBM. -/
theorem meets_mapped : ∀ k ∈ [AccKind.load, .store], ∀ n ∈ [1, 2, 4, 8],
    Mapped one k (BitVec.ofNat 64 (Config.hbmBytes - n)) n (Config.hbmBytes - n) [leaf0] := by
  simp only [Mapped]; decide +kernel

theorem meets_line_at_hand : LineAtHand (touched one .load [leaf0]) 0x40000 ∧
    ¬LineAtHand (touched { one with heldPorts := true } .load [leaf0]) 0x40000 ∧
    Mapped { one with heldPorts := true } .load 0x40000#64 8 0x40000 [leaf0] := by
  simp only [LineAtHand, Mapped]; decide +kernel

theorem meets_misaligned : alignOk (1 : Word) 2 = false ∧ alignOk (3 : Word) 4 = false ∧ alignOk (4 : Word) 8 = false ∧
    alignOk (win 1 2) 4 = false ∧ alignOk (win 6 7) 8 = false := by decide +kernel

theorem meets_misaligned_ranges : rangeOf (win 1 0) = .window 1 ∧ rangeOf (win 6 0xFFFFFC) = .window 6 ∧
    rangeOf (0x7CFFFFFFFFFFFF#64) = .paged ∧ rangeOf (win 0 0) = .window 0 ∧ rangeOf (0x7E000000000000#64) = .aperture := by
  decide +kernel

/-- A context whose allotment has an accumulator area, for window 6. -/
def wide : State := modRegs one (fun r => { r with part := 0x80601#64 })

theorem meets_format_windows : Solo wide ∧ (∀ w ∈ [1, 2, 3, 4, 5], rangeOf (win w 4) = .window w ∧ (win w 4).toNat % 4 = 0 ∧
      fmtInside wide w 1 = true ∧ QuietElem wide 4 w 1) ∧ featureFor wide (ctxId wide) 7 = true ∧ QuietElem wide 8 6 (65532 / 4) ∧ rangeOf (win 6 65532) = .window 6 ∧ fmtInside wide 6 (65532 / 4) = true := by
  simp only [Solo, QuietElem, Quiet]; decide +kernel

theorem meets_release : let s := withS one [(1, win 0 131064)]
    Solo s ∧ FirstIssue s ∧ s.heldPorts = false ∧ released s = true ∧ InWindow0 s (rS s 1) 8 ∧ InWindow0 s (rS s 1 + 4) 4 ∧
      Quiet s (window0Loc s (rS s 1)) 8 ∧ storeSent s = false := by
  simp only [Solo, FirstIssue, InWindow0, Quiet]; decide +kernel

/-- The bytes that a load asked for have come. -/
theorem meets_answered : let s := waiting one { wait0 0 0 with bytes := List.replicate 8 5 }
    Solo s ∧ Answered s (List.replicate 8 5) ∧ Mapped s .load 0x40000#64 8 0x40000 [leaf0] := by
  refine ⟨by simp only [Solo]; decide +kernel, ⟨_, rfl, rfl, rfl, rfl, rfl⟩, by simp only [Mapped]; decide +kernel⟩

/-- A store of the activation that no home has performed. -/
def pending : State := { one with reqs := [(0, ⟨⟨6, 0, 0⟩, 0, .store, [(0x4000, 1, [0])], [], false, false⟩)] }

theorem meets_unreleased : Solo pending ∧ FirstIssue pending ∧ released pending = false ∧ InWindow0 pending (win 0 0) 8 ∧
    rangeOf (0x40000#64) = .paged ∧ (0x40000#64).toNat % 8 = 0 := by
  simp only [Solo, FirstIssue, InWindow0]; decide +kernel

/-- A core map with one entry, core 6 itself. -/
def mapped6 : State :=
  let s := writeWord one 0 0x30000 0x80000006#64
  modCtx s 6 0 (fun x => { x with entry := { x.entry with cmapb := 0x30000#64, cmapn := 1#64 } })

theorem meets_stlf_aperture : ∃ dst o, Solo mapped6 ∧ (0x7E000000000008#64).toNat % 8 = 0 ∧
    rangeOf (0x7E000000000008#64) = .aperture ∧ classify mapped6 true (0x7E000000000008#64) 8 = .ok (.far dst o) ∧
    performedBut mapped6 (agentNow mapped6) (sendEntry mapped6 (runCore mapped6) dst (ctxId mapped6)) = true := by
  refine ⟨⟨false, 6⟩, 8, ?_⟩; simp only [Solo]; decide +kernel

/-- A store to core 6's own scratchpad through the aperture, still on its way. -/
def behindOwn : State := withS (remoteStore mapped6 6 ⟨false, 6⟩ 0 0 64 [1] [] (agentNow mapped6)) [(1, win 0 64)]

theorem meets_own_pending : Solo behindOwn ∧ FirstIssue behindOwn ∧ InWindow0 behindOwn (rS behindOwn 1) 8 ∧
    poisonedIn behindOwn (window0Loc behindOwn (rS behindOwn 1)) 8 = none ∧
    ownPending behindOwn (agentNow behindOwn) (window0Loc behindOwn (rS behindOwn 1)) 8 = true := by
  simp only [Solo, FirstIssue, InWindow0]; decide +kernel

/-- A remote store on its way. -/
theorem meets_unacked : ∃ s, Solo s ∧ FirstIssue s ∧ unackedAny s (agentNow s) = true := by
  refine ⟨(remoteStore one 6 ⟨false, 0⟩ 0 2 0 [0] [] (agentNow one)), ?_⟩; simp only [Solo, FirstIssue]; decide +kernel

theorem meets_adcas : let s := wE (withS one [(1, 0x40000#64)]) 0 0x40008#64
    Solo s ∧ rangeOf (rS s 1) = .paged ∧ rangeOf (rE s 0) = .paged ∧ rS s 1 ≠ rE s 0 ∧ (rS s 1).toNat % 8 = 0 ∧
      (rE s 0).toNat % 8 = 0 ∧ released (touched s .atomic [leaf0, leaf0]) = true ∧
      translateAll s (who s) .atomic [((rS s 1).toNat, 8), ((rE s 0).toNat, 8)] =
        .ok [[(0x40000, none, 8)], [(0x40008, none, 8)]] [leaf0, leaf0] := by
  simp only [Solo]; decide +kernel

theorem meets_amove : let s := withS one [(1, 0x40000#64), (2, 0x40004#64)]
    Solo s ∧ rangeOf (rS s 1) = .paged ∧ rangeOf (rS s 2) = .paged ∧ rS s 1 ≠ rS s 2 ∧
      translateAll s (who s) .atomic [((rS s 1).toNat, 4), ((rS s 2).toNat, 4)] =
        .ok [[(0x40000, none, 4)], [(0x40004, none, 4)]] [leaf0, leaf0] := by
  simp only [Solo]; decide +kernel

theorem meets_acas : ∃ s, Solo s ∧ FirstIssue s ∧ released s = true ∧ InWindow0 s (rS s 1) 8 ∧ Quiet s (window0Loc s (rS s 1)) 8 ∧
    readNat s (window0Loc s (rS s 1)) 8 = (rE s 0).toNat % 2 ^ 64 ∧ readNat s (window0Loc s (rS s 1)) 8 ≠ (rE s 1).toNat % 2 ^ 64 := by
  refine ⟨wE (withS one [(1, win 0 0)]) 1 5, ?_⟩; simp only [Solo, FirstIssue, InWindow0, Quiet]; decide +kernel

theorem meets_jalr : (rS (withS one [(1, 0x10001#64)]) 1 + BitVec.ofInt 64 (0x3FFF#14).toInt).toNat % 2 = 0 ∧
    (rS (withS one [(1, 0x10001#64)]) 1 + BitVec.ofInt 64 (0x2000#14).toInt).toNat % 2 = 1 := by decide +kernel

theorem meets_sleep : Solo one ∧ rS one 1 = 0 ∧ rS (withS one [(1, 1)]) 1 ≠ 0 ∧ FirstIssue (withS one [(1, 1)]) ∧
    Solo (waiting one (wait0 6 0)) ∧ (wait0 6 0).operand.toNat ≤ one.cyc - (wait0 6 0).start ∧
    one.cyc - (wait0 6 1).start < (wait0 6 1).operand.toNat := by simp only [Solo, FirstIssue]; decide +kernel

theorem meets_halt : (act one).priv = true ∧ Solo (waiting one { wait0 8 0 with woke := true }) ∧
    (act (waiting one (wait0 8 0))).wait = some (wait0 8 0) ∧ (act user).priv = false ∧ Solo user := by
  simp only [Solo]; decide +kernel

theorem meets_wfe : watchWoken one = false ∧ watchWoken (modCore one 6 (fun k => { k with watch := [⟨0, 0, true⟩] })) = true ∧
    (65536 : Nat) ≤ ({ one with cyc := 65536 } : State).cyc - (wait0 9 0).start ∧
    (let s := waiting { one with cyc := 65535 } (wait0 9 0)
     Solo s ∧ (act s).wait = some (wait0 9 0) ∧ (wait0 9 0).kind = 9 ∧ watchWoken s = false ∧ (wait0 9 0).woke = false ∧
       (wait0 9 0).out = false ∧ s.cyc - (wait0 9 0).start < 65536) ∧ (wait0 8 0).kind = 8 ∧ (wait0 8 0).out = false ∧
    Solo one ∧ FirstIssue one := by simp only [Solo, FirstIssue]; decide +kernel

theorem meets_migr : migrates one = false ∧ ∃ s, Solo s ∧ migrates s = true := by
  refine ⟨by decide +kernel, modCtx (onCore 0) 0 0 (fun x => { x with entry := { x.entry with migok := 1#64 } }), ?_⟩
  simp only [Solo]; decide +kernel

/-- A message of context 1 waits, context 1 live. -/
def queued : State :=
  let m : Msg := ⟨0, 1, [0x10000#64], 1, 3, false, 0, 0, 0, none, .message, 0, 0, none⟩
  let s := modCore one 6 (fun k => { k with waiting := [m] })
  modCtx s 6 1 (fun x => { x with entry := { (ctxOf one 6 0).entry with hlo := 0x10000#64, hhi := 0x20000#64 } })

theorem meets_yield : (∀ m ∈ (coreOf one (runCore one)).waiting, m.ctx ≠ ctxId one →
      prioOf one (runCore one) m.ctx < prioOf one (home one) (ctxId one)) ∧
    ∃ m ∈ (coreOf queued (runCore queued)).waiting, m.ctx ≠ ctxId queued ∧ startable queued (runCore queued) m.ctx = true ∧
      prioOf queued (home queued) (ctxId queued) ≤ prioOf queued (runCore queued) m.ctx := by decide +kernel

/-- Core 7 waits in a FUSE #2. -/
def fusing : State :=
  let s := modCore one 7 (fun k => { k with
    active := some ⟨0, some { Act.zero with pc := 0x10000#64, wait := some (wait0 0 0) }⟩, fuse := some ⟨2, 0, 0⟩ })
  s

theorem meets_fuse : Solo fusing ∧ fusing.cur.away = none ∧ isApp (home fusing) = false ∧ (coreOf fusing (home fusing)).fuse = none ∧
    (coreOf fusing (home fusing)).phrase = none ∧ (coreOf fusing 7).quiesced = false ∧
    (coreOf fusing 7).fuse = some ⟨2, 0, 0⟩ ∧ actAt fusing ⟨7, none⟩ = some { Act.zero with pc := 0x10000#64, wait := some (wait0 0 0) } ∧
    (∀ j < 8, j ≠ 6 → j ≠ 7 → (coreOf fusing j).fuse = none) ∧
    (∀ j < 8, j ≠ 6 → j ≠ 7 → (coreOf fusing j).quiesced = false) := by simp only [Solo]; decide +kernel

theorem meets_fuse_app : Solo (onCore 8192) ∧ isApp (home (onCore 8192)) = true := by simp only [Solo]; decide +kernel

/-- Cores 6 and 7 form a phrase. -/
def paired : State :=
  let p : Phrase := ⟨[6, 7], [], none, 0⟩
  modCore (modCore fusing 7 (fun k => { k with fuse := none, phrase := some p })) 6 (fun k => { k with phrase := some p })

theorem meets_phrase : paired.cur = ⟨6, none⟩ ∧ (coreOf paired 6).active.map (fun f => (f.ctx, f.act.isSome)) = some (0, true) ∧
    (coreOf paired 7).active.map (fun f => (f.ctx, f.act.isSome)) = some (0, true) ∧
    (coreOf paired 6).phrase = some ⟨[6, 7], [], none, 0⟩ ∧ (coreOf paired 7).phrase = some ⟨[6, 7], [], none, 0⟩ ∧
    (act paired).getS 1 = (act paired).getS 2 := by decide +kernel

/-! ### Hypotheses met: control registers, traps, queues, messages, launches, events, phasers, monitors, copies -/

/-- The FACC registers as given. -/
def faccs (f g : Option Word) : State := { one with module := { one.module with facc0 := f, facc1 := g } }

/-- CR writes: FACC1 alone written, and both; a trace feature on and off. -/
theorem meets_cr_writes : Solo (faccs none (some 0)) ∧ (act (faccs none (some 0))).priv = true ∧ (faccs none (some 0)).undef = [] ∧
    Solo (faccs (some 0) (some 0)) ∧ featureFor one (ctxId one) 8 = true ∧
    featureFor (faccs (some 0) (some 0)) (ctxId (faccs (some 0) (some 0))) 8 = false := by simp only [Solo]; decide +kernel

theorem meets_cr_facc (f g : Option Word) : (faccs f g).module.facc0 = f ∧ (faccs f g).module.facc1 = g := ⟨rfl, rfl⟩

theorem meets_cr_traps : Solo user ∧ (act user).priv = false ∧ (0x100 : Nat) ≤ (0x1FF : BitVec 9).toNat ∧
    (0x0FF : BitVec 9).toNat < 0x100 := by simp only [Solo]; decide +kernel

theorem meets_trap_entry : Solo one ∧ (act one).priv = true ∧ Solo user ∧ (act user).priv = false ∧ (regs user).freel = 0 ∧
    (regs (modRegs user (fun r => { r with freel := 0x40FF8#64 }))).freel.toNat % 4096 ≠ 0 ∧
    upcallOk user (home user) (ctxId user) = false ∧
    (entry user).ctxgen.toNat = (ctxWord user (ctxId user) 0).toNat / 2 ^ 48 ∧ Cause.misalign ≠ .uncorrectable := by simp only [Solo]; decide +kernel

theorem meets_eret : (act one).cr.tpc.toNat % 2 = 0 ∧
    (act (setAct one { act one with cr := { (act one).cr with tpc := 0x7FFFFF#64 } })).cr.tpc.toNat % 2 = 1 := by decide +kernel

/-- A user activation with a record at 0x50000 and an upcall handler at the last even address of its range. -/
def fibred : State := modRegs user (fun r => { r with freel := 0x50000#64, upcall := 0x1FFFE#64 })

theorem meets_upcall : Solo fibred ∧ fibred.cur.away = none ∧ (act fibred).priv = false ∧ isApp (home fibred) = false ∧
    ctxId fibred ≠ 0 ∧ (regs fibred).freel ≠ 0 ∧ (regs fibred).freel.toNat % 4096 = 0 ∧
    upcallOk fibred (home fibred) (ctxId fibred) = true ∧ fibred.heldPorts = false ∧ 0x50000 + 4096 ≤ 2 ^ 48 ∧
    (act fibred).qin.length ≤ 63 ∧ (act fibred).qout.length ≤ 64 ∧
    (∃ ms, resolve fibred (who fibred) .store (regs fibred).freel 4096 = .ok [[(0x50000, none, 4096)]] ms ∧
      ownPending (touched fibred .store ms) (agentNow fibred) 0x50000 4096 = false) ∧
    ∃ ls, resolve fibred (who fibred) .load (regs fibred).freel 4096 = .ok [[(0x50000, none, 4096)]] ls := by
  refine ⟨by simp only [Solo]; decide +kernel, by decide +kernel, by decide +kernel, by decide +kernel, by decide +kernel,
    by decide +kernel, by decide +kernel, by decide +kernel, by decide +kernel, by decide +kernel, by decide +kernel, by decide +kernel,
    ⟨[leaf0], by decide +kernel, by decide +kernel⟩, [leaf0], by decide +kernel⟩

theorem meets_upcall_frame : MemoryCanonical fibred := by simp only [MemoryCanonical]; decide +kernel

/-- A number in each reserved and each read-only range, at both of its ends. -/
theorem meets_cr_ranges : (∀ r ∈ [(0x00C, 0x00F), (0x025, 0x027), (0x02C, 0x02F), (0x032, 0x037), (0x03E, 0x03F), (0x053, 0x0FF), (0x107, 0x107),
      (0x10E, 0x10F), (0x113, 0x1FF), (0x000, 0x00B), (0x010, 0x011), (0x017, 0x017), (0x01F, 0x01F), (0x030, 0x030), (0x038, 0x03A),
      (0x03D, 0x03D), (0x040, 0x051), (0x104, 0x106), (0x108, 0x10D)],
      ∀ n ∈ [r.1, r.2], r.1 ≤ (BitVec.ofNat 9 n).toNat ∧ (BitVec.ofNat 9 n).toNat ≤ r.2) ∧ Solo user ∧ (act user).priv = false ∧ Solo one ∧
    (act one).priv = true := by simp only [Solo]; decide +kernel

theorem meets_queues : let s := modAct one (fun a => { a with qin := [7], qout := List.replicate 63 0 })
    let t := modAct one (fun a => { a with qout := List.replicate 64 0 })
    Solo s ∧ (act s).qin = 7 :: [] ∧ (act one).qin = [] ∧ (ctxNow (modCtx one 6 0 (fun x => { x with q3 := [9] }))).q3 = 9 :: [] ∧
      (ctxNow one).q3 = [] ∧ (act s).qout.length < 64 ∧ 64 ≤ (act t).qout.length ∧
      q2Held (modCtx one 7 0 (fun x => { x with q3 := List.replicate 15 0 })) < 16 ∧
      (rS (withS s [(1, 1)]) 1).toNat ≤ (act (withS s [(1, 1)])).qin.length ∧ (act one).qin.length < (rS (withS one [(1, 1)]) 1).toNat := by
  simp only [Solo]; decide +kernel

/-- Words wait in qout of `mapped6`, whose own logical address is 0. -/
def talking : State := modAct mapped6 (fun a => { a with qout := [0x10000, 5] })

theorem meets_send : Solo talking ∧ FirstIssue talking ∧ (act talking).qout ≠ [] ∧ (act one).qout = [] ∧
    cmapEntry talking (entry talking) 0 = some ⟨false, 6⟩ ∧ sendReady talking ⟨false, 6⟩ (act talking).qout.length = true ∧
    (act talking).cr.msgsrc.getLsbD 21 = false ∧ cmapEntry talking (entry talking) 1 = none ∧
    (rS (withS talking [(1, 0x800001#64)]) 1).toNat % 2 ^ 21 = 1 := by simp only [Solo, FirstIssue]; decide +kernel

/-- An earlier store is unperformed, so that no message may go; a reply to no one, and to a core that no entry names. -/
def hushed : State := { talking with reqs := pending.reqs }
theorem meets_send_waits : Solo hushed ∧ FirstIssue hushed ∧ (act hushed).qout ≠ [] ∧
    cmapEntry hushed (entry hushed) 0 = some ⟨false, 6⟩ ∧ sendReady hushed ⟨false, 6⟩ (act hushed).qout.length = false ∧
    (act hushed).cr.msgsrc.getLsbD 21 = false ∧ (act hushed).cr.msgsrc.toNat % 2 ^ 21 = 0 ∧ (rS hushed 1).toNat % 2 ^ 21 = 0 := by
  simp only [Solo, FirstIssue]; decide +kernel

def repliesTo (w : Word) : State := modAct talking (fun a => { a with cr := { a.cr with msgsrc := w } })
theorem meets_reply_nowhere : Solo (repliesTo 1#64) ∧ Solo (repliesTo 0x200000#64) ∧ (act (repliesTo 1#64)).qout ≠ [] ∧
    (act (repliesTo 0x200000#64)).qout ≠ [] ∧
    (act (repliesTo 0x200000#64)).cr.msgsrc.getLsbD 21 = true ∧ (act (repliesTo 1#64)).cr.msgsrc.getLsbD 21 = false ∧
    cmapEntry (repliesTo 1#64) (entry (repliesTo 1#64)) ((act (repliesTo 1#64)).cr.msgsrc.toNat % 2 ^ 21) = none := by
  simp only [Solo]; decide +kernel

theorem meets_sendw_reply : ∃ w, (act (waiting one w)).wait = some w ∧ w.stage = 1 ∧ w.reply = some 0 := by
  refine ⟨{ wait0 0 0 with stage := 1, reply := some 0 }, ?_⟩; decide +kernel

/-- An activation of a launch that has not triggered. -/
def launched : State := modAct one (fun a => { a with work := some ⟨0, 0, 0⟩ })

theorem meets_trig : (act one).work = none ∧ released one = true ∧ released launched = true ∧ (act launched).work.isSome = true ∧
    (act (modAct launched (fun a => { a with triggered := true }))).triggered = true := by decide +kernel

theorem meets_launch : let s := withS one [(1, win 0 (131072 - 128)), (2, 0x1040#64)]
    Solo s ∧ FirstIssue s ∧ InWindow0 s (rS s 1) 128 ∧ released s = true ∧ isApp (home s) = false ∧ (rS s 2).toNat % 128 ≠ 0 ∧
      (5 : BitVec 3).toNat < 6 ∧ Quiet s (window0Loc s (rS s 1)) 128 := by simp only [Solo, FirstIssue, InWindow0, Quiet]; decide +kernel

/-- Context 0 has an entry in a context table at 1 MiB whose map makes core 6 its logical core 0. -/
def homed : State :=
  let s := { mapped6 with module := { mapped6.module with ctxtab := 0x100000#64 } }
  let s := writeWord s 0 0x100000 1
  writeWord (writeWord s 0 0x100018 0x30000#64) 0 0x100020 1

/-- Event bits 191 and 192 in lane form. -/
def bit191 : VReg := Vector.ofFn (fun i => if i.val = 5 then 0x80000000#32 else 0)
def bit192 : VReg := Vector.ofFn (fun i => if i.val = 6 then 1#32 else 0)

theorem meets_events : Solo homed ∧ FirstIssue homed ∧ (homeDie homed (ctxId homed)).isSome = true ∧ eventMask (rV homed 1) = 0 ∧
    eventMask (rV (wV homed 1 bit192) 1) ≠ 0 ∧
    (let t := { homed with evec := [(0, BitVec.ofNat 256 (2 ^ 192))] }
     vectorNow t &&& eventMask (rV (wV t 1 bit192) 1) = eventMask (rV (wV t 1 bit192) 1)) ∧
    vectorNow homed &&& eventMask (rV (wV homed 1 bit191) 1) ≠ eventMask (rV (wV homed 1 bit191) 1) ∧
    (191 : Nat) < 192 ∧ (eventMask (rV (wV homed 1 bit191) 1)).getLsbD 191 = true ∧ (vectorNow homed).getLsbD 191 = false ∧
    191 ∉ armedBits homed (ctxId homed) ∧
    (∀ j < 191, (eventMask (rV (wV homed 1 bit191) 1)).getLsbD j = false) ∧
    (∀ i < 192, (eventMask (rV (wV homed 1 bit192) 1)).getLsbD i = false) ∧ released homed = true ∧ homed.launches = [] := by
  simp only [Solo, FirstIssue]; decide +kernel

/-- Phaser 0 of die 0, of context 0, with one member or none. -/
def phased (m : List PhMember) : State := withS (setPhaser one 0 0 ⟨1, false, 0, 4, m⟩) [(1, 1)]
def member (p : Option (BitVec 32)) : PhMember := ⟨0, 6, .sigWait, true, none, false, p, false⟩

theorem meets_phnew : Solo one ∧ isApp (home one) = false ∧ tget (dieOf one (home one / 1024)).phasers 0 = none ∧
    tget (dieOf (phased []) 0).phasers 1 = none ∧
    (∃ p, tget (dieOf (phased []) 0).phasers 0 = some p ∧ p.free = false) := by
  refine ⟨by simp only [Solo]; decide +kernel, by decide +kernel, by decide +kernel, by decide +kernel, ⟨1, false, 0, 4, []⟩, ?_⟩
  decide +kernel

theorem meets_phasers : Solo (phased []) ∧ phaserOf (phased []) (rS (phased []) 1) = some (0, 0, ⟨1, false, 0, 4, []⟩) ∧
    phaserOf one (rS (withS one [(1, 0x10001#64)]) 1) = none := by simp only [Solo]; decide +kernel

theorem meets_phaser_member : phaserOf (phased [member none]) 1 = some (0, 0, ⟨1, false, 0, 4, [member none]⟩) ∧
    phaserOf (phased [member (some 3)]) 1 = some (0, 0, ⟨1, false, 0, 4, [member (some 3)]⟩) ∧
    phaserOf (phased [member (some 4)]) 1 = some (0, 0, ⟨1, false, 0, 4, [member (some 4)]⟩) ∧
    (member none).core = home (phased [member none]) ∧ (member none).ctx = ctxId (phased [member none]) ∧
    released (phased [member none]) = true := ⟨rfl, rfl, rfl, rfl, rfl, rfl⟩

theorem meets_phaser_phase : (member none).psig ≠ some 4 ∧ (member (some 4)).psig = some 4 ∧ (member (some 3)).next = none ∧
    (member none).live = true ∧ (member none).mode = .sigWait ∧ (member none).dropping = false := by decide +kernel

theorem meets_mon : let s := modCore (withS one [(1, win 0 131071), (2, win 1 0)]) 6 (fun k => { k with
      watch := List.replicate 15 ⟨9, 0, false⟩ })
    Solo s ∧ InWindow0 s (rS s 1) 1 ∧ (coreOf s (home s)).watch.length < 16 ∧
      (∀ w ∈ (coreOf s (home s)).watch, w.ctx = ctxId s → w.line ≠ window0Loc s (rS s 1) / 64) ∧ rangeOf (rS s 2) = .window 1 := by
  simp only [Solo, InWindow0]; decide +kernel

/-- An eviction has ended the wait before its first issue. -/
theorem meets_mwait_lost : let s := modCtx one 6 0 (fun x => { x with watchLost := true })
    Solo s ∧ FirstIssue s ∧ (ctxNow s).watchLost = true ∧ ∀ x ∈ (coreOf s (home s)).watch, x.ctx = ctxId s → x.woken = false := by
  simp only [Solo, FirstIssue]; decide +kernel

theorem meets_mwait : (∃ w ∈ (coreOf (modCore one 6 (fun k => { k with watch := [⟨0, 0, true⟩] })) 6).watch, w.ctx = 0 ∧ w.woken = true) ∧
    (let s := waiting one { wait0 5 1 with out := true }
     (∀ x ∈ (coreOf s (home s)).watch, x.ctx = ctxId s → x.woken = false) ∧ (act s).wait = some { wait0 5 1 with out := true }) ∧
    (let s := { waiting one (wait0 5 1) with cyc := 1 }
     (ctxNow s).watchLost = false ∧ (act s).wait = some (wait0 5 1) ∧ (wait0 5 1).kind = 5 ∧ (wait0 5 1).out = false ∧
       (∀ x ∈ (coreOf s (home s)).watch, x.ctx = ctxId s → x.woken = false) ∧ (wait0 5 1).operand ≠ 0 ∧ (wait0 5 1).operand.toNat ≤ s.cyc - (wait0 5 1).start) := by
  decide +kernel

/-- A shadow set for a copy of one word. -/
def copying : State := modRegs one (fun r => { r with cpsrc := 0x50000#64, cpdst := 0x60000#64, cplen := 7#64 })
def shadowOf (s : State) : List Word :=
  [(regs s).cpsrc, (regs s).cpdst, (regs s).cplen, (regs s).cpstr, (regs s).cpflags, (regs s).cphnd, (regs s).cpswz]

theorem meets_copy : Solo copying ∧ isApp (runCore copying) = false ∧ released copying = true ∧ copyRefusal (shadowOf copying) = 0 ∧
    (clauseOf copying (clauseOfCore (home copying))).copies.length < 64 ∧ sortRefusal (shadowOf copying) 1 = 0 ∧
    sortRefusal (shadowOf copying) 16 = 0 ∧
    copyRefusal (shadowOf (modRegs copying (fun r => { r with cplen := BitVec.ofNat 64 (2 ^ 56) }))) = 1 := by
  simp only [Solo]; decide +kernel

/-- A transfer of the context in flight, with promise 1. -/
def inFlight (h : Option Held) : State :=
  withS (modClause one 0 (fun k => { k with copies := [⟨5, 6, 0, shadowOf copying, none, 1, 0, h, false, false⟩] })) [(1, 5), (2, 6)]

theorem meets_cpwait : Solo (inFlight none) ∧ (namedCopy (inFlight none) (rS (inFlight none) 1)).isSome = true ∧
    namedCopy (inFlight none) (rS (inFlight none) 2) = none ∧ FirstIssue (inFlight none) ∧ (inFlight none).cyc < 1 ∧
    (namedCopy { inFlight (some ⟨.notmapped, 0⟩) with cyc := 1 } 5).isSome = true ∧
    (clauseOf (inFlight none) 0).cancelled.contains (6, 6 * 4096 + 0) = false ∧
    (clauseOf (modClause one 0 (fun k => { k with cancelled := [(6, 6 * 4096)] })) 0).cancelled.contains (6, 6 * 4096 + 0) = true := by
  simp only [Solo, FirstIssue]; decide +kernel

theorem meets_gbind : let s := wE (withS one [(1, 0x7CFFFFFFFFFFFC#64)]) 1 0xFFFFFFFF#64
    Solo s ∧ (rS s 1).toNat % 4 = 0 ∧ (rE s 1).toNat < 2 ^ 32 := by simp only [Solo]; decide +kernel

/-! ### Hypotheses met: collectives, fibres, invalidation, vectors, matrix -/

/-- A collective descriptor of one rank at offset 0, mailbox at 0x40. -/
def collOne : State :=
  let s := writeWord (writeWord one 0 (window0Loc one (win 0 8)) 0x100000#64) 0 (window0Loc one (win 0 16)) (win 0 0x40)
  withS s [(1, win 0 0), (2, win 0 0x40), (3, win 0 (131072 - 64))]

theorem meets_collgo : let ds := (List.range 8).map (fun i => BitVec.ofNat 64 (readNat collOne (window0Loc collOne (rS collOne 1) + 8 * i) 8))
    Solo collOne ∧ isApp (runCore collOne) = false ∧ FirstIssue collOne ∧ InWindow0 collOne (rS collOne 1) 64 ∧
      featureFor collOne (ctxId collOne) 9 = true ∧ collIllegal ds = false ∧ released collOne = true ∧ (clauseOf collOne 0).colls.length < 4 ∧
      Quiet collOne (window0Loc collOne (rS collOne 1)) 64 := by
  simp only [Solo, FirstIssue, InWindow0, Quiet]; decide +kernel

theorem meets_collgo_illegal :
    let ds := (List.range 8).map (fun i => BitVec.ofNat 64 (readNat collOne (window0Loc collOne (rS collOne 3) + 8 * i) 8))
    InWindow0 collOne (rS collOne 3) 64 ∧ Quiet collOne (window0Loc collOne (rS collOne 3)) 64 ∧ collIllegal ds = true := by
  simp only [InWindow0, Quiet]; decide +kernel

/-- Feature bit n accepted by no one: both FACC registers written, with every other bit. -/
def without (n : Nat) (s : State) : State :=
  { s with module := { s.module with facc0 := some (BitVec.ofNat 64 (2 ^ 64 - 1 - 2 ^ n)), facc1 := some 0 } }

theorem meets_features : Solo (without 9 one) ∧ (∀ n ∈ [0, 1, 2, 3, 5, 9], featureFor (without n one) 0 n = false) ∧
    featureFor (without 9 one) 0 3 = true ∧ ctxId (without 9 one) = 0 := by simp only [Solo]; decide +kernel

/-- The collective runs. -/
def collRuns : State :=
  let ds := (List.range 8).map (fun i => BitVec.ofNat 64 (readNat collOne (window0Loc collOne (rS collOne 1) + 8 * i) 8))
  modClause collOne 0 (fun k => { k with colls := [⟨1, 6, 0, ds, 0, [0, 0, 0, 0], [], [], [], false, 0, none, none, false, none, none, []⟩] })

theorem meets_collwait : Solo collRuns ∧ FirstIssue collRuns ∧ InWindow0 collOne (rS collOne 2) 8 ∧ Quiet collOne (window0Loc collOne (rS collOne 2)) 8 ∧ (rS collRuns 2).toNat % 8 = 0 ∧
    (∀ c ∈ (clauseOf collOne 0).colls, c.core = home collOne → c.ctx = ctxId collOne → c.mbox ≠ rS collOne 2) ∧
    (∃ c ∈ (clauseOf collRuns 0).colls, c.core = home collRuns ∧ c.ctx = ctxId collRuns ∧ c.mbox = rS collRuns 2) := by
  simp only [Solo, FirstIssue, InWindow0, Quiet]; decide +kernel

/-- A record at the last page of the scratchpad, of logical core 0; another that is not taken at offset 0. -/
def record : State := withS (writeWord mapped6 0 (window0Loc mapped6 (win 0 0)) 8#64)
  [(1, win 0 (131072 - 4096)), (2, win 0 0), (3, 0x3F00000000000001#64)]

theorem meets_fresume : let loc := window0Loc record (rS record 1)
    Solo record ∧ record.cur.away = none ∧ FirstIssue record ∧ MemoryCanonical record ∧ (act record).work = none ∧
      (coreOf record (home record)).donation = none ∧ InWindow0 record (rS record 1) 4096 ∧ readWord record loc = 0 ∧
      cmapEntry record (entry record) ((readWord record (loc + 96)).toNat % 2 ^ 21) = some ⟨false, 6⟩ ∧
      takerOf record ⟨false, 6⟩ = some (home record) ∧ Quiet record loc 4096 ∧ Quiet record loc 48 ∧
      released record = true := by simp only [Solo, FirstIssue, InWindow0, MemoryCanonical, Quiet]; decide +kernel

theorem meets_fresume_illegal : InWindow0 record (rS record 2) 4096 ∧ readWord record (window0Loc record (rS record 2)) ≠ 0 ∧
    (rS record 3).toNat % 2 = 1 ∧ heldJob record (rS record 3) = none ∧ Quiet record (window0Loc record (rS record 2)) 8 := by
  simp only [InWindow0, Quiet]; decide +kernel

/-- The context's fault queue lies in the scratchpad, with room for one record. -/
def faulty : State :=
  let s := { record with module := { record.module with ctxtab := 0x100000#64 } }
  writeWord (writeWord s 0 (0x100000 + 72) (win 0 0)) 0 (0x100000 + 80) 1

theorem meets_fdrop : let u := storeAt faulty (ctxId faulty) (window0Loc faulty (rS faulty 1)) (leBytes 8 (regs faulty).freel.toNat)
    let y := ctxWord u (ctxId faulty) 9 + BitVec.ofNat 64 (64 * tgetD faulty.faultCount (ctxId faulty) 0)
    faulty.fibres = [] ∧ tgetD faulty.faultCount (ctxId faulty) 0 < (ctxWord u (ctxId faulty) 10).toNat ∧ InWindow0 faulty y 64 ∧
      windowOff y + 64 ≤ windowOff (rS faulty 1) ∧ poisonedIn faulty (window0Loc faulty y) 64 = none ∧
      ownPending faulty (unitAgent (home faulty) (ctxId faulty) 9) (window0Loc faulty y) 64 = false := by simp only [InWindow0]; decide +kernel

/-- A copy of core 6 held by a fault, named by its engine tag. -/
def heldCopy : State :=
  withS (modClause mapped6 0 (fun k => { k with copies := [⟨5, 6, 0, shadowOf copying, none, 1, 0, some ⟨.notmapped, 0⟩, false, false⟩] }))
    [(1, 0x0100050000000001#64)]

theorem meets_restart : ∃ c j, (rS heldCopy 1).toNat % 2 = 1 ∧ heldJob heldCopy (rS heldCopy 1) = some (.copy 0 5, c) ∧
    copyOf heldCopy 0 5 = some j ∧ released heldCopy = true ∧ Solo heldCopy := by
  refine ⟨.notmapped, ⟨5, 6, 0, shadowOf copying, none, 1, 0, some ⟨.notmapped, 0⟩, false, false⟩, ?_⟩
  simp only [Solo]; decide +kernel

theorem meets_tlbinv : (act one).priv = true ∧ FirstIssue one ∧ (act user).priv = false ∧
    (let w : Wait := { wait0 0 0 with stage := 1, reply := some 0, tags := [3] }
     (act (waiting one w)).wait = some w ∧ w.stage = 1 ∧ w.reply = some 0) ∧ rangeOf (rS (withS one [(1, gatherBase)]) 1) ≠ .paged ∧
    coreInScope .core (home one) 6 = true := by simp only [FirstIssue]; decide +kernel

theorem meets_xpref : (∃ f v, translateAll one (who one) .prefetch [(2 ^ 42, 1)] = .fault f v) ∧
    (∃ loc n ls, rangeOf (0x40#64) = .paged ∧ translateAll one (who one) .prefetch [(0x40, 1)] = .ok [[(loc, none, n)]] ls) ∧
    (∃ v h, translateAll (writeWord one 0 0x20000 0x3BF#64) (who one) .prefetch [(0x40, 1)] = .wait v h) ∧ LineAtHand one 0x40 ∧
    ¬LineAtHand { one with heldPorts := true } 0x40 := by
  refine ⟨⟨.notmapped, 0x40000000000#64, by decide +kernel⟩, ⟨0x40, 1, [leaf0], by decide +kernel⟩,
    ⟨0x40, .migrating 0x20000, by decide +kernel⟩, ?_⟩
  simp only [LineAtHand]; decide +kernel

theorem meets_double : Solo one ∧ DoubleReady one true ∧ DoubleReady (onCore 0) false ∧ featureFor one (ctxId one) 5 = true := by
  simp only [Solo, DoubleReady]; decide +kernel

/-- Lanes 0 and 15 enabled, at the scratchpad's ends. -/
def lanes : State := wP (wV (withS one [(1, win 0 0), (2, 8733#64), (3, win 0 (131072 - 64))]) 1
  (Vector.ofFn (fun i => if i.val = 15 then 131068#32 else 0))) 1 0x8001#16

theorem meets_vector_memory : Solo lanes ∧ storeSent lanes = false ∧
    (∀ j < 16, (rP lanes 1).getLsbD j = true → InWindow0 lanes (rS lanes 3 + BitVec.ofNat 64 (4 * j)) 4) ∧
    (∀ j < 16, (rP lanes 1).getLsbD j = true → InWindow0 lanes (rS lanes 1 + BitVec.ofNat 64 (lane (rV lanes 1) j).toNat) 4) ∧
    (∀ j < 8, (rP lanes 1).getLsbD (2 * j) = true → InWindow0 lanes (rS lanes 3 + BitVec.ofNat 64 (8 * j)) 8) ∧
    alignOk (rS lanes 1 + BitVec.ofNat 64 15 * rS lanes 2) 4 = false ∧
    (∀ i < 16, (rP lanes 1).getLsbD i = true → alignOk (rS lanes 1 + BitVec.ofNat 64 i * rS lanes 2) 4 = false → i = 15) := by
  simp only [Solo, InWindow0]; decide +kernel

/-- A pair at 4 modulo 8; window 6, 8-byte accesses at its last entries. -/
theorem meets_vector_pairs : (let s := withS lanes [(3, win 0 4)]
      Solo s ∧ storeSent s = false ∧ (rP s 1).getLsbD 0 = true ∧ laneAligned (rS s 3) 8 = false ∧ rangeOf (rS s 3) ≠ .window 6 ∧
        (2 : SReg) ≠ 0 ∧ (∀ i < 8, (rP s 1).getLsbD (2 * i) = true → i = 0)) ∧
    (∀ j < 8, fmtInside wide 6 (windowOff (win 6 (65536 - 32)) / 4 + j) = true ∧ QuietElem wide 8 6 (windowOff (win 6 (65536 - 32)) / 4 + j)) ∧
    rangeOf (win 6 (65536 - 32)) = .window 6 ∧ (win 6 (65536 - 32)).toNat % 4 = 0 ∧ windowOff (win 6 (65536 - 32)) + 64 ≤ 2 ^ 24 := by
  simp only [Solo, QuietElem, Quiet]; decide +kernel

/-- A code that is finite, and one that is not, in each width; a block of a NaN, of zeros, and of a largest lane. -/
theorem meets_window_codes : f32.decode 0x3FC00000 = .fin false 0xC00000 1 (-23) ∧ f32.decode 0x7FC00000 = .nan ∧ f64.decode 0x7FF0000000000000 = .inf false ∧
    (∃ n a b e, f64.decode 1 = .fin n a b e) ∧ f32.decode 0x80000000 = .fin true 0 1 (-149) := by
  refine ⟨by decide +kernel, by decide +kernel, by decide +kernel, ⟨_, _, _, _, rfl⟩, by decide +kernel⟩

theorem meets_vector_quiet :
    (∀ j < 16, (rP lanes 1).getLsbD j = true → Quiet lanes (window0Loc lanes (rS lanes 3 + BitVec.ofNat 64 (4 * j))) 4 ∧
      Quiet lanes (window0Loc lanes (rS lanes 1 + BitVec.ofNat 64 (lane (rV lanes 1) j).toNat)) 4) ∧
    (∀ j < 8, (rP lanes 1).getLsbD (2 * j) = true → Quiet lanes (window0Loc lanes (rS lanes 3 + BitVec.ofNat 64 (8 * j))) 8) := by
  simp only [Quiet]; decide +kernel

theorem meets_vector_windows : (∀ w ∈ [1, 2, 3, 4, 5], ∀ j ∈ List.range 16, fmtInside wide w (windowOff (win w 64) / 4 + j) = true ∧
      QuietElem wide 4 w (windowOff (win w 64) / 4 + j)) ∧
    (∀ j ∈ List.range 16, fmtInside wide 6 (windowOff (win 6 0) / 4 + j) = true ∧ QuietElem wide 4 6 (windowOff (win 6 0) / 4 + j)) ∧ windowOff (win 2 64) % 64 = 0 ∧
    windowOff (win 6 0) + 64 ≤ 2 ^ 24 ∧ rangeOf (win 2 64) = .window 2 ∧ featureFor wide (ctxId wide) 7 = true := by
  simp only [QuietElem, Quiet]; decide +kernel

/-- A park area of one tile; leases of core 6's context 0 with n tiles and a queue. -/
def parked : State := modRegs one (fun r => { r with part := 0x1080601#64 })
def leased (ps : List TilePlace) (q : List MatCmd) : State :=
  modClause parked 0 (fun k => { k with
    leases := [⟨6, 0, ps, [], Vector.replicate 16 0, q, 0, 0, 0, false, none, none, false, 0⟩], current := some (6, 0) })

theorem meets_mlease : Solo parked ∧ isApp (runCore parked) = false ∧ FirstIssue parked ∧ leaseOf parked (home parked) (ctxId parked) = none ∧
    (1 : BitVec 3).toNat ≤ partPark (partNow parked) ∧ partPark (partNow parked) < (2 : BitVec 3).toNat ∧
    (clauseOf parked 0).leases.length < 16 ∧ (clauseOf parked 0).leaseReqs = [] ∧
    (let t := modClause parked 0 (fun k => { k with
       leases := List.replicate 16 ⟨1, 5, [], [], Vector.replicate 16 0, [], 0, 0, 0, false, none, none, false, 0⟩ })
     leaseOf t (home t) (ctxId t) = none ∧ 16 ≤ (clauseOf t 0).leases.length) := by simp only [Solo, FirstIssue]; decide +kernel

theorem meets_mstat : Solo (leased [.phys 0] []) ∧ (leaseOf (leased [.phys 0] []) 6 0).isSome = true ∧
    drainsOut (leased [.phys 0] []) 6 0 = false ∧ (leaseOf (leased [.phys 0, .parked 0, .unassigned, .phys 3] []) 6 0).isSome = true := by
  simp only [Solo]; decide +kernel

theorem meets_matrix_commands :
    let s := wE (wE (withS (leased [.phys 0] (List.replicate 15 (.mzero 0))) [(1, win 0 (131072 - 128)), (2, win 0 8)]) 0 0) 1 0
    let m := mmaArgs (rS s 1) (rE s 0) (rE s 1) 0
    Solo s ∧ isApp (runCore s) = false ∧ FirstIssue s ∧ released s = true ∧ (0 : BitVec 2).toNat < 1 ∧
      (∃ l, leaseOf s (home s) (ctxId s) = some l ∧ l.queue.length < 16) ∧ mldbBad (rE s 0) = false ∧ m.sparse = 0 ∧
      (rS s 1).toNat % 64 = 0 ∧ rangeOf (rS s 1) = .window 0 ∧ mmaBad (scratchSize (partNow s)) (rE s 0) (rE s 1) m = false ∧
      (rS s 2).toNat % 8 = 0 ∧ mmacodeBad (rE s 0) = false ∧ mdrainBad (rE s 1) = false := by
  refine ⟨by simp only [Solo]; decide +kernel, by decide +kernel, by simp only [FirstIssue]; decide +kernel, by decide +kernel,
    by decide +kernel, ⟨_, rfl, by decide +kernel⟩, by decide +kernel⟩

theorem meets_sparse : let m := mmaArgs (win 0 0) (BitVec.ofNat 64 (2 ^ 47)) 0 0
    m.sparse ≠ 0 ∧ featureFor one (ctxId one) 6 = true ∧ mmaBad 131072 (BitVec.ofNat 64 (2 ^ 47)) 0 m = false := by decide +kernel

theorem meets_matrix_replies : ∀ r ∈ [0, 1, codeReply 1 0 64 1024, codeReply 1 127 (2 ^ 24 - 8) 2047],
    (act (waiting parked { wait0 0 0 with stage := 20, reply := some r })).wait =
      some { wait0 0 0 with stage := 20, reply := some r } := fun _ _ => rfl

theorem meets_no_lease : let s := withS one [(1, win 0 64)]
    Solo s ∧ FirstIssue s ∧ leaseOf s (home s) (ctxId s) = none ∧ isApp (runCore s) = false ∧ (rS s 1).toNat % 64 = 0 ∧
      rangeOf (rS s 1) = .window 0 ∧ (mmaArgs (rS s 1) (rE s 0) (rE s 1) 0).sparse = 0 := by simp only [Solo, FirstIssue]; decide +kernel

/-! ### Hypotheses met: lexicon, parser, signature, short forms -/

/-- A lexicon slot of context 0: atoms of n, of 2^lg elements. -/
def lex (id n lg : Nat) : LexSlot := ⟨0, id, id, 7, n, 2 ^ lg, [], [], [], []⟩
def withLex (s : State) (l : List LexSlot) : State := modClause s 0 (fun k => { k with lexicon := l })

theorem meets_lxcfg : Solo one ∧ isApp (runCore one) = false ∧ featureFor one (ctxId one) 0 = true ∧ (clauseOf one 0).lexicon.length < 8 ∧
    (let y := (rS (withS one [(1, 0x8017F#64)]) 1).toNat
     y / 65536 % 16 = 8 ∧ slotUnits (y % 1024 + 1) (2 ^ 8) ≤ 192) ∧
    (let s := withLex one (List.replicate 8 (lex 3 4 2))
     slotOf s 0 0 0 = none ∧ (clauseOf s 0).lexicon.length = 8 ∧ (slotOf s 0 0 3).isSome = true) ∧
    192 < ([lex 1 1024 8, lex 2 1024 8].map (fun l => slotUnits l.n l.s)).sum + slotUnits 1024 (2 ^ 8) := by simp only [Solo]; decide +kernel

/-- Slot 0 holds four atoms of four elements; its values are at the scratchpad's end. -/
def lexed : State := withS (withLex one [lex 0 4 2]) [(1, win 0 (131072 - 16)), (2, 0x30000#64), (3, 0x40000#64), (4, 1)]

theorem meets_lxput : Solo lexed ∧ InWindow0 lexed (rS lexed 1) 4 ∧ slotOf lexed 0 (ctxId lexed) ((rS lexed 2).toNat % 65536) = some (lex 0 4 2) ∧
    (rS lexed 2).toNat / 65536 % 1024 < 4 ∧ (4 : Nat) ≤ (rS lexed 3).toNat / 65536 % 1024 ∧
    windowOff (rS lexed 1) + 4 * (lex 0 4 2).s ≤ scratchSize (partNow lexed) ∧ released lexed = true ∧
    slotOf lexed 0 (ctxId lexed) ((rS lexed 4).toNat % 65536) = none ∧ Quiet lexed (window0Loc lexed (rS lexed 1)) 16 ∧
    SlotSound lexed 0 (lex 0 4 2) := by simp only [Solo, InWindow0, Quiet, SlotSound]; decide +kernel

/-- The values of `lexed` are 1.0 each, and e0 leaves room for any code, or for none. -/
def coded : State :=
  let s := storeAt lexed 0 (window0Loc lexed (win 0 (131072 - 16))) (List.replicate 4 [0, 0, 0x80, 0x3F]).flatten
  withS (wE s 0 64) [(2, win 0 8)]

theorem meets_lxenc : let l := lex 0 4 2
    let codes := (List.range l.s).map (fun i => readNat coded (window0Loc coded (rS coded 1) + 4 * i) 4)
    let ws := codeWords l (lexRegs coded).fmt codes (encodeLex l (lexRegs coded) codes)
    Solo coded ∧ released coded = true ∧ slotOf coded 0 (ctxId coded) ((rE coded 1).toNat % 65536) = some l ∧
      InWindow0 coded (rS coded 2) 8 ∧ windowOff (rS coded 2) + 8 * ws.length ≤ scratchSize (partNow coded) ∧
      8 * ws.length ≤ (rE coded 0).toNat ∧ (rE (wE coded 0 0) 0).toNat < 8 * ws.length ∧ InWindow0 coded (rS coded 1) 4 ∧
      Quiet coded (window0Loc coded (rS coded 1)) 16 ∧ Quiet coded (window0Loc coded (rS coded 2)) (8 * ws.length) ∧ SlotSound coded 0 l := by
  simp only [Solo, InWindow0, Quiet, SlotSound]; decide +kernel

/-- The map of `mapped6` makes core 6 a target for a code; slot 1 holds atoms of 256 elements; the first value is a NaN. -/
def codeTo : State :=
  let s := withS (withLex mapped6 [lex 0 4 2, lex 1 4 8]) [(1, win 0 0), (2, 0)]
  storeAt s 0 (window0Loc s (win 0 0)) [0, 0, 0xC0, 0x7F]

theorem meets_lxsend : let s := codeTo
    let l := lex 0 4 2
    let codes := (List.range l.s).map (fun i => readNat s (window0Loc s (rS s 1) + 4 * i) 4)
    let ws := codeWords l (lexRegs s).fmt codes (encodeLex l (lexRegs s) codes)
    Solo s ∧ cmapEntry s (entry s) ((rS s 2).toNat % 2 ^ 21) = some ⟨false, 6⟩ ∧ ws.length < 64 ∧ sendReady s ⟨false, 6⟩ (ws.length + 1) = true ∧
      slotOf s 0 (ctxId s) ((rE s 1).toNat % 65536) = some l := by simp only [Solo]; decide +kernel

theorem meets_lxsend_long : let s := wE codeTo 1 1
    let l := lex 1 4 8
    let codes := (List.range l.s).map (fun i => readNat s (window0Loc s (rS s 1) + 4 * i) 4)
    slotOf s 0 (ctxId s) ((rE s 1).toNat % 65536) = some l ∧
      64 ≤ (codeWords l (lexRegs s).fmt codes (encodeLex l (lexRegs s) codes)).length := by decide +kernel

/-- A code word at the scratchpad's end. -/
def codeAt (w : Word) : State :=
  let s := withS lexed [(1, win 0 (131072 - 32)), (2, win 0 0)]
  storeAt s 0 (window0Loc s (rS s 1)) (leBytes 8 w.toNat)

/-- Header words of slot 0, version 7, of 2^2 elements, with c pairs of kind k. -/
def head (k c : Nat) : Word := BitVec.ofNat 64 (2 * 2 ^ 42 + k * 2 ^ 38 + c * 2 ^ 32 + 7 * 2 ^ 16)

theorem meets_lxdec : (∀ p ∈ [(0, 2), (1, 0), (2, 0)],
      let s := codeAt (head p.1 p.2)
      let w := readWord s (window0Loc s (rS s 1))
      Solo s ∧ InWindow0 s (rS s 1) 8 ∧ InWindow0 s (rS s 2) 4 ∧ slotOf s 0 (ctxId s) (codeId w) = some (lex 0 4 2) ∧
        (lex 0 4 2).version = codeVersion w ∧ (lex 0 4 2).s = 2 ^ codeLgs w ∧ codeBad w = false ∧ codeKind w = p.1 ∧
        windowOff (rS s 1) + 8 + 8 * codeEntries w ≤ scratchSize (partNow s) ∧
        windowOff (rS s 2) + 4 * (lex 0 4 2).s ≤ scratchSize (partNow s) ∧ Quiet s (window0Loc s (rS s 1)) (8 + 8 * codeEntries w) ∧
        Quiet s (window0Loc s (rS s 2)) 16 ∧ SlotSound s 0 (lex 0 4 2)) ∧
    (∀ e ∈ [(0 : Nat), 0], e % 1024 < (lex 0 4 2).n) ∧ codeBad (head 3 0) = true ∧ codeVersion (head 3 0) = 7 ∧
    codeVersion 0 ≠ (lex 0 4 2).version ∧ slotOf (codeAt 5) 0 0 (codeId (5 : Word)) = none := by
  simp only [Solo, InWindow0, Quiet, SlotSound]; decide +kernel

/-- A malformed code word for MMACODE, the scratchpad's last. -/
theorem meets_codes_bad : let s := storeAt one 0 (window0Loc one (win 0 (131072 - 8))) (leBytes 8 (2 ^ 46))
    let l : Lease := ⟨6, 0, [], [], Vector.replicate 16 0, [], 0, 0, 0, false, none, none, false, 0⟩
    (131072 - 8) + 8 ≤ scratchSize (partOf s l.core l.ctx) ∧ readsLost s l [(131072 - 8, 8)] [] = none ∧
      codeBad (readWord s (scratchBase l.core (partOf s l.core l.ctx) + (131072 - 8))) = true := by decide +kernel

theorem meets_lxdec_unknown_atom : let s := storeAt (codeAt (head 0 1)) 0 (window0Loc lexed (win 0 (131072 - 24))) [4]
    ((List.range (codeEntries (head 0 1))).map (fun i => readWord s (window0Loc s (rS s 1) + 8 + 8 * i))) = [4] ∧
      (lex 0 4 2).n ≤ (4 : Word).toNat % 1024 := by decide +kernel

/-- Entry 15 of the miss queue holds a code message of context 0, of three words. -/
def missed15 : State :=
  let m : Msg := ⟨0, 0, [0x10000, 0x70000, 9], 1, 3, false, 0, 0, 0, none, .message, 0, 0, none⟩
  let s := modClause one 0 (fun k => { k with missQueue := [(15, ⟨6, m, 0, false, 0⟩)], lexicon := [⟨0, 0, 0, 8, 4, 4, [], [], [], []⟩] })
  withS (wE s 0 (win 0 (131072 - 24))) [(1, 15), (2, 14)]

theorem meets_lxmiss : (∃ e, missNamed missed15 (rS missed15 1) = some (15, e) ∧ (clauseOf missed15 0).missQueue = [(15, e)] ∧
      missOldest missed15 0 e.core e.msg.ctx (msgCodeId e.msg) = some (15, e) ∧ codePasses missed15 e.core e.msg = false ∧
      e.msg.sender = none ∧ windowOff (rE missed15 0) + 8 * e.msg.words.length ≤ scratchSize (partNow missed15) ∧
      Quiet missed15 (window0Loc missed15 (rE missed15 0)) (8 * e.msg.words.length) ∧ ctxState missed15 e.msg.ctx ≠ 1) ∧
    Solo missed15 ∧ missNamed missed15 (rS missed15 2) = none ∧ InWindow0 missed15 (rE missed15 0) 8 ∧
    (rE (wE missed15 0 4) 0).toNat % 8 ≠ 0 := by
  refine ⟨⟨_, rfl, by simp only [Quiet]; decide +kernel⟩, ?_⟩
  simp only [Solo, InWindow0]; decide +kernel

/-- Context 0 is live, and entry 15 does not pass; its context is not, and it is the only one of its key. -/
def missedLive : State := let s := { missed15 with module := { missed15.module with ctxtab := 0x100000#64 } }
  writeWord s 0 0x100000 1
theorem meets_lxretry_waits : ∃ e, missNamed missedLive (rS missedLive 1) = some (15, e) ∧ Solo missedLive ∧ ctxState missedLive e.msg.ctx = 1 ∧
    missOldest missedLive 0 e.core e.msg.ctx (msgCodeId e.msg) = some (15, e) ∧ codePasses missedLive e.core e.msg = false := by
  refine ⟨_, rfl, by simp only [Solo]; decide +kernel⟩

theorem meets_lxretry_gone : ∃ e, missNamed missed15 (rS missed15 1) = some (15, e) ∧ ctxState missed15 e.msg.ctx ≠ 1 ∧
    (∀ p ∈ (clauseOf missed15 0).missQueue, missKey e.core e.msg.ctx (msgCodeId e.msg) p.2 = true → p = (15, e)) ∧
    missed15.module.notices.length < 64 := by
  refine ⟨_, rfl, by decide +kernel⟩

/-- The slot of its version is there: entry 15 passes, and it is the only one of its key. -/
theorem meets_lxretry : ∃ e, let s := modClause missedLive 0 (fun k => { k with lexicon := [lex 0 4 2] })
    missNamed s (rS s 1) = some (15, e) ∧ missOldest s 0 e.core e.msg.ctx (msgCodeId e.msg) = some (15, e) ∧ codePasses s e.core e.msg = true ∧ ctxState s e.msg.ctx = 1 ∧
      (∀ p ∈ (clauseOf s 0).missQueue, missKey e.core e.msg.ctx (msgCodeId e.msg) p.2 = true → p = (15, e)) := by
  refine ⟨_, rfl, by decide +kernel⟩

/-- Gloss table 7, of slot 0; 128 entries of an atom fit at the scratchpad's end. -/
def glossed : State :=
  let s := modClause lexed 0 (fun k => { k with glosses := [(7, ⟨0, 0, 0, 0, 128, 4, [3]⟩)] })
  withS (wE s 0 (BitVec.ofNat 64 (127 * 2 ^ 40))) [(1, win 0 (131072 - 256)), (2, 0x70003#64), (3, 7), (4, 0x70004#64)]

theorem meets_glset : Solo glossed ∧ InWindow0 glossed (rS glossed 1) 2 ∧ Quiet glossed (window0Loc glossed (rS glossed 1)) 256 ∧
    windowOff (rS glossed 1) + 2 * ((rE glossed 0).toNat / 2 ^ 40 % 128 + 1) ≤ scratchSize (partNow glossed) ∧ released glossed = true ∧
    glossStatus glossed (rE glossed 0) ((rS glossed 2).toNat % 1024) 7 = 0 ∧
    slotOf glossed 0 (ctxId glossed) ((rE glossed 0).toNat % 65536) = some (lex 0 4 2) ∧
    glossStatus glossed (rE glossed 0) ((rS glossed 4).toNat % 1024) 7 = 2 ∧
    (∃ g, glossOf glossed 0 ((rS glossed 3).toNat % 8) = some g ∧ g.ctx = ctxId glossed) ∧ glossOf glossed 0 0 = none := by
  refine ⟨by simp only [Solo]; decide +kernel, by simp only [InWindow0]; decide +kernel, by simp only [Quiet]; decide +kernel, by decide +kernel, by decide +kernel,
    by decide +kernel, by decide +kernel, by decide +kernel, ⟨_, rfl, by decide +kernel⟩, by decide +kernel⟩

theorem meets_gloss_sound : SlotSound glossed 0 (lex 0 4 2) ∧ MemoryCanonical glossed := by
  simp only [SlotSound, MemoryCanonical]; decide +kernel

/-- Two values in the accumulator, 128 entries apart. -/
theorem meets_gloss_accumulator : let s := modRegs glossed (fun r => { r with part := 0x80601#64 })
    rangeOf (win 6 0) = .window 6 ∧ (win 6 0).toNat % 4 = 0 ∧ (∀ i < 2, 0 + 128 * i < drainEntries (partNow s) ∧ QuietElem s 4 6 (0 + 128 * i)) := by
  simp only [QuietElem, Quiet]; decide +kernel

/-- The engine's check of a code: no table, a table of another version, a code that passes, and one whose second atom is not valid. -/
theorem meets_code_check : ∃ q, glossOf glossed 0 7 = some q ∧ slotOf glossed 0 (ctxId glossed) q.id = some (lex 0 4 2) ∧ q.ctx = ctxId glossed ∧
    codeId (head 0 2) = q.id ∧ codeVersion (head 0 2) = 7 ∧ codeKind (head 0 2) = 0 ∧ codeKind (head 1 0) ≠ 0 ∧ codeVersion (0 : Word) ≠ 7 ∧
    glossOf glossed 0 0 = none ∧ 3 ∈ q.valid ∧ 2 ∉ q.valid ∧ (∀ j < q.m, (glossEntry glossed 0 q 3 (q.j0 + j)).2 = tgetD (lex 0 4 2).gens 3 0) := by
  refine ⟨_, rfl, by decide +kernel⟩

/-- A row, and a list of successors, of one entry at the scratchpad's start; a descriptor with its areas where given. -/
def elRow : State := storeAt one 0 (window0Loc one (win 0 4)) [1]
def elDesc (e2 e3 : Word) : Desc := ⟨0x100#64, 0, e2, e3, [], 0, 0, false, false, true, false, false, 0, false, false⟩

theorem meets_elements : let base := scratchBase 6 (partOf elRow 6 0)
    let size := scratchSize (partOf elRow 6 0)
    poisonAbout elRow = false ∧ (List.replicate 8 (0 : Nat)).length = 8 ∧ readNat elRow base 4 = 0 ∧ readNat elRow (base + 4) 4 = 1 ∧
      (elDesc 0 0).size + 8 ≤ size ∧ (elDesc 0 0).count = 1 ∧ readNat elRow base 8 = 2 ^ 32 ∧
      size < (elDesc 0xFFFF0#64 0).e2.toNat % 2 ^ 20 + 8 ∧ size < (elDesc 0 0xFFFF000000#64).e3.toNat / 2 ^ 20 % 2 ^ 20 + 8 ∧
      size < (elDesc 0 0xFFFF0#64).e3.toNat % 2 ^ 20 + 2 := by decide +kernel

/-- A declared tensor of 16 descriptors at offset 256, program of one word at 1,024. -/
def tensor (active asleep : Bool) : Desc := ⟨0x00F00100#64, 0x40000000#64, 0, 0, [], 0, 0, false, false, active, asleep, false, 0, false, false⟩
def parsing (active asleep : Bool) : State :=
  modCtx (withS mapped6 [(1, 0), (2, 0x2000F#64), (3, 16)]) 6 0 (fun x => { x with descs := [(1, tensor active asleep)] })

theorem meets_parser : (∀ p ∈ [(false, false), (true, false), (false, true)], Solo (parsing p.1 p.2)) ∧
    featureFor (parsing true false) 0 1 = true ∧ ctxId (parsing true false) = 0 ∧ released (parsing true false) = true ∧
    tget (ctxNow (parsing false true)).descs 1 = some (tensor false true) ∧ tget (ctxNow (parsing true false)).descs 2 = none ∧
    (let s := parsing true false
     (rS s 2).toNat % 65536 < (tensor true false).e0.toNat / 2 ^ 20 % 65536 + 1 ∧
     (tensor true false).e0.toNat / 2 ^ 20 % 65536 + 1 ≤ (rS s 3).toNat % 65536 ∧
     cmapEntry s (entry s) ((rS s 1).toNat % 2 ^ 21) = some ⟨false, 6⟩ ∧ (rS s 2).toNat / 65536 % 4 ≠ 3) ∧
    (tensor true false).ending = false ∧ notesOut (parsing false true) 6 0 = false ∧ (tensor false true).e0.getLsbD 46 = false ∧
    (coreOf (modCore (parsing true false) 6 (fun k => { k with rotation := [(0, 1)] })) 6).rotation.head? = some (0, 1) ∧
    (coreOf (parsing true false) 6).rotation = [] := by
  simp only [Solo]; decide +kernel

/-- The program EL.DONE, at the scratchpad's last word; the tensor ends where it starts. -/
def declaring : State :=
  let s := storeAt one 0 (window0Loc one (win 0 131068)) [0xAF, 0, 0x80, 0]
  wE (wE s 0 (BitVec.ofNat 64 (0x01F00000 + (131072 - 4096)))) 1 (BitVec.ofNat 64 (131068 * 2 ^ 20))

theorem meets_ecdecl : let e0 := rE declaring 0
    let e1 := rE declaring 1
    let n := e0.toNat / 2 ^ 20 % 65536 + 1
    let plen := e1.toNat / 2 ^ 40 % 64
    let prog := e1.toNat / 2 ^ 20 % 2 ^ 20
    Solo declaring ∧ e0.toNat < 2 ^ 47 ∧ e1.toNat < 2 ^ 46 ∧ e0.getLsbD 46 = false ∧ e0.toNat % 256 = 0 ∧ prog % 4 = 0 ∧ e1.toNat % 8 = 0 ∧
      e0.toNat % 2 ^ 20 + 16 * n ≤ scratchSize (partNow declaring) ∧ prog + 4 * (plen + 1) ≤ scratchSize (partNow declaring) ∧
      e1.toNat % 2 ^ 20 + (n + 7) / 8 ≤ scratchSize (partNow declaring) ∧
      (∀ w ∈ (List.range (plen + 1)).map (fun i => readNat declaring (scratchBase (home declaring) (partNow declaring) + prog + 4 * i) 4),
        (decodeEl plen w).isSome = true) ∧ tget (ctxNow declaring).descs 0 = none ∧
      Quiet declaring (scratchBase (home declaring) (partNow declaring) + prog) (4 * (plen + 1)) := by simp only [Solo, Quiet]; decide +kernel

/-- A signature lease of core 6's context 0, of slots 2 and 3, two dimensions and one level; an image of it at the scratchpad's end. -/
def signed (q : List SigCmd) : State :=
  let s := modClause one 0 (fun k => { k with sigLeases := [⟨6, 0, 2, 1, [2, 3], q, 0, 0⟩] })
  let s := withS s [(1, win 0 (131072 - 64))]
  storeAt s 0 (window0Loc s (win 0 (131072 - 56))) [2, 1]

theorem meets_signature : let s := signed []
    Solo s ∧ hasExtS (runCore s) = true ∧ featureFor s (ctxId s) 2 = true ∧ Quiet s (window0Loc s (rS s 1)) (16 + 4 * sigTotal 2 1) ∧ FirstIssue s ∧ released s = true ∧
      sigLeaseOf s (home s) (ctxId s) = some ⟨6, 0, 2, 1, [2, 3], [], 0, 0⟩ ∧ InWindow0 s (rS s 1) 64 ∧
      windowOff (rS s 1) + 16 + 4 * sigTotal 2 1 ≤ scratchSize (partNow s) ∧
      (readWord s (window0Loc s (rS s 1) + 8)).toNat % 32 = 2 ∧ (readWord s (window0Loc s (rS s 1) + 8)).toNat / 256 % 16 = 1 ∧
      sigLeaseOf (signed (List.replicate 15 (.log 0 1))) 6 0 = some ⟨6, 0, 2, 1, [2, 3], List.replicate 15 (.log 0 1), 0, 0⟩ := by
  simp only [Solo, FirstIssue, InWindow0, Quiet]; decide +kernel

theorem meets_sgcfg : sigLeaseOf one (home one) (ctxId one) = none ∧ (clauseOf one 0).sigReqs = [] ∧ sigTotal 16 3 ≤ 8190 ∧
    (let x := (rS (withS one [(1, 0x40310#64)]) 1).toNat
     x % 32 = 16 ∧ x / 256 % 16 = 3 ∧ x / 65536 % 8 = 4) ∧ 4 ≤ (sigFree (clauseOf one 0)).length ∧
    (rS (withS one [(1, 0x40311#64)]) 1).toNat % 32 = 17 ∧
    (let s := signed []
     sigLeaseOf s 6 0 = some ⟨6, 0, 2, 1, [2, 3], [], 0, 0⟩ ∧ (rS (withS s [(1, 0)]) 1).toNat / 65536 % 8 = 0 ∧
       (List.range 4).filter (fun p => (clauseOf s 0).sigLeases.all (fun r => !((!(r.core == 6 && r.ctx == 0)) && r.slots.contains p))) =
         [0, 1, 2, 3]) ∧
    sigLeaseOf (signed [.log 0 1]) 6 0 = some ⟨6, 0, 2, 1, [2, 3], [.log 0 1], 0, 0⟩ ∧
    (clauseOf (modClause one 0 (fun k => { k with sigReqs := [⟨7, 0, 2, 1, 4⟩] })) 0).sigReqs ≠ [] := by decide +kernel

theorem meets_sgjoin_reply : (∀ r ∈ [(0 : Word), 1], (act (waiting one { wait0 0 0 with stage := 21, reply := some r })).wait =
    some { wait0 0 0 with stage := 21, reply := some r }) ∧ (0 : Word).getLsbD 0 = false ∧ (1 : Word).getLsbD 0 = true :=
  ⟨fun _ _ => rfl, by decide +kernel, by decide +kernel⟩

theorem meets_short : let s := withS one [(30, win 0 (131072 - 256)), (1, win 0 (131072 - 8)), (2, 1)]
    Solo s ∧ InWindow0 s (rS s 30 + BitVec.ofNat 64 (8 * (0x1F#5).toNat)) 8 ∧
      InWindow0 s (rS s 30 + BitVec.ofNat 64 (4 * (0x1F#5).toNat)) 4 ∧ InWindow0 s (rS s 1) 8 ∧ alignOk (rS s 2) 8 = false ∧
      (rS s 1).toNat % 2 = 0 ∧ (rS s 2).toNat % 2 = 1 ∧ (act s).work = none ∧ (act s).qout.length < 64 ∧ storeSent s = false ∧
      Quiet s (window0Loc s (rS s 30 + BitVec.ofNat 64 (8 * (0x1F#5).toNat))) 8 ∧
      Quiet s (window0Loc s (rS s 30 + BitVec.ofNat 64 (4 * (0x1F#5).toNat))) 4 ∧ Quiet s (window0Loc s (rS s 1)) 8 := by
  simp only [Solo, InWindow0, Quiet]; decide +kernel

/-! ### Hypotheses met: packets, home ports, port events -/

/-- A packet of context 0 from core 5 to core c. -/
def pkt (c : Nat) (pos : NetPos) (pl : Payload) : Packet := ⟨⟨false, 5⟩, ⟨false, c⟩, 0, 0, 0, 3, pl, false, false, pos, true, none, 0, none, RingTrip.off⟩
/-- A message to an application core. -/
def hostPkt (pl : Payload) : Packet := ⟨⟨false, 5⟩, ⟨true, 31⟩, 0, 0, 0, 3, pl, false, false, .arrived, true, none, 0, none, RingTrip.off⟩
/-- `homed` with packet 0 under way, 1 the next id. -/
def carrying (p : Packet) : State := { homed with net := [(0, p)], ids := 1 }
/-- A message of one word, code or not, of an origin. -/
def letter (code : Bool) (o : Nat) : Payload := .message [0x10000] code o false 0 0 0 none 0
def plain : Payload := letter false 1
/-- A queue of n entries of other keys. -/
def crowded (n : Nat) (s : State) : State :=
  let m : Msg := ⟨0, 1, [0, 0], 1, 3, false, 0, 0, 0, none, .message, 0, 0, none⟩
  modClause s 0 (fun k => { k with missQueue := (List.range n).map (fun i => (i, ⟨7, m, 0, false, 0⟩)) })

theorem meets_mesh : (∀ q ∈ [NetPos.mesh 0 0 false, .mesh 0 16 false, .mesh 0 1 false, .mesh 0 0 true, .mesh 0 17 true],
      tget (carrying (pkt 6 q plain)).net 0 = some (pkt 6 q plain) ∧ behind (carrying (pkt 6 q plain)) 0 (pkt 6 q plain) = false) ∧
    (pkt 6 (.mesh 0 0 false) plain).dst.addr % 1024 / 8 = 0 ∧
    (∀ d ∈ [⟨false, 5⟩, (⟨false, 4⟩ : Node)], (fun p : Packet => (planeOf p) % 8 * 16 + if planeOf p < 8 then 0 else 15)
      { pkt 6 (.mesh 0 0 true) plain with src := d } ≠ 0) ∧
    (fun p : Packet => (planeOf p) % 8 * 16 + if planeOf p < 8 then 0 else 15) { pkt 6 (.mesh 0 0 true) plain with src := ⟨false, 6⟩ } = 0 := by
  decide +kernel

/-- A packet for die 1, at ring stop k. -/
def ringed (k : Nat) (down : Bool) : Packet := { pkt 1030 (.stop k true) plain with dir := down }
/-- n shared slots of stop k taken, and c escape slots, by the flits of another packet. -/
def jammed (k n c : Nat) (p : Packet) : State :=
  { carrying p with net := [(0, p), (1, { p with pos := .stop k true, ring := ⟨0, 0, [⟨k, true, false, n⟩, ⟨k, false, false, c⟩], 0⟩ })], ids := 2 }
/-- A header at stop k with f flits there, others still to come. -/
def headed (k f rest : Nat) (down : Bool) : Packet := { ringed k down with ring := ⟨0, 0, [⟨k, true, false, f⟩], rest⟩ }
/-- The stop gave its output to this packet's input in this cycle. -/
def spent (s : State) (p : Packet) (k : Nat) : State := { s with grants := [(grantKey p k, (s.cyc, false))] }

theorem meets_ring : exitStop (carrying (ringed 0 false)) (ringed 0 false) = some 1 ∧ exitStop (carrying (ringed 1 true)) (ringed 1 true) = some 1 ∧
    behind (carrying (ringed 0 false)) 0 (ringed 0 false) = false ∧
    slotsUsed (jammed 1 15 0 (ringed 0 false)) 1 (planeOf (ringed 0 false)) false none = 15 ∧
    slotsUsed (jammed 1 16 3 (ringed 0 false)) 1 (planeOf (ringed 0 false)) false none = 16 ∧
    slotsUsed (jammed 1 16 3 (ringed 0 false)) 1 (planeOf (ringed 0 false)) false (some false) = 3 ∧
    slotsUsed (jammed 1 16 4 (ringed 0 false)) 1 (planeOf (ringed 0 false)) false (some false) = 4 ∧
    (∀ c ∈ [3, 4], behind (jammed 1 16 c (ringed 0 false)) 0 (ringed 0 false) = false ∧
      granted (jammed 1 16 c (ringed 0 false)) (ringed 0 false) 0 false = true) ∧
    granted (spent (carrying (ringed 0 false)) (ringed 0 false) 0) (ringed 0 false) 0 false = false ∧
    (ringed 0 false).intact = true ∧ headerBad (ringed 0 false) = false ∧
    (headed 1 1 0 true).ring.rest = 0 ∧ (∃ g, (headed 1 1 0 true).ring.segs = [g] ∧ g.flits ≤ 1) ∧
    exitStop (carrying (headed 1 1 0 true)) (headed 1 1 0 true) = some 1 ∧
    (headed 1 1 3 true).ring.rest ≠ 0 ∧ exitStop (carrying (headed 1 1 3 true)) (headed 1 1 3 true) = some 1 ∧
    moduleOf (headed 1 1 0 true).dst = moduleNumber (carrying (headed 1 1 0 true)) ∧
    (∀ p ∈ [{ ringed 0 false with pos := .inject 0 }, { ringed 0 false with pos := .inject 7 }],
      tget (carrying p).net 0 = some p ∧ behind (carrying p) 0 p = false ∧ exitStop (carrying p) p = some 1 ∧
       moduleOf p.dst = moduleNumber (carrying p)) ∧
    (let p := { ringed 0 false with pos := .inject 0 }
     granted (carrying p) { p with dir := false, vc := false } 0 true = true ∧ slotsUsed (carrying p) 1 (planeOf p) false none < 16) ∧
    (let p := { ringed 0 false with pos := .inject 7 }
     granted (carrying p) { p with dir := decide (5 < (1 + 11 - 7) % 11), vc := false } 7 true = true ∧
       slotsUsed (carrying p) 8 (planeOf p) false none < 16) :=
  ⟨by decide +kernel, by decide +kernel, by decide +kernel, by decide +kernel, by decide +kernel, by decide +kernel, by decide +kernel,
    by decide +kernel, by decide +kernel, rfl, by decide +kernel, rfl, ⟨_, rfl, by decide⟩, by decide +kernel⟩

/-- Headers that hardware never generates, a damaged one, and one for a module with no link. -/
theorem meets_ring_faults : (∀ k ∈ [NetPos.inject 2, .stop 2 true], (∀ p ∈ [{ pkt 1030 k plain with reserved := 1 }, { pkt 1030 k plain with scope := 5 },
        { pkt 1030 k plain with intact := false }, pkt 1030 k (.store 0 (List.replicate 1032 0) [] ⟨5, 0, 0⟩)],
      tget (carrying p).net 0 = some p ∧ behind (carrying p) 0 p = false)) ∧
    16 < lenOf (pkt 1030 (.inject 2) (.store 0 (List.replicate 1032 0) [] ⟨5, 0, 0⟩)) ∧
    (let p := pkt 8192 (.inject 2) plain
     moduleOf p.dst ≠ moduleNumber (carrying p) ∧ tgetD (carrying p).module.linkTable (moduleOf p.dst) [] = [] ∧
       p.intact = true ∧ headerBad p = false ∧ behind (carrying p) 0 p = false) := by decide +kernel

theorem meets_link : linksUp { homed with module := { homed.module with modnum := some 0 } } = true ∧ linksUp State.reset = false ∧ partFenced homed.module.fenced (.link 23) = false ∧
    partFenced [Part.link 23] (.link 23) = true ∧ (23 : Nat) < 24 ∧
    (∀ p ∈ [pkt 6 .arrived plain], p.intact = true ∧ headerBad p = false) ∧ headerBad { pkt 6 .arrived plain with scope := 5 } = true := by decide +kernel

theorem meets_messages : (∀ x ∈ [plain, letter true 1], arrivedAt (carrying (pkt 6 .arrived x)) 0 = some (pkt 6 .arrived x, 6)) ∧
    arrivedAt (carrying (hostPkt plain)) 0 = some (hostPkt plain, 8223) ∧ isApp 8223 = true ∧ isApp 6 = false ∧
    (coreOf (carrying (hostPkt plain)) 8223).hostq.length < 256 ∧ ctxState (carrying (pkt 6 .arrived plain)) 0 = 1 ∧
    ctxState (carrying { pkt 6 .arrived plain with ctx := 7 }) 7 ≠ 1 ∧
    arrivedAt (carrying { pkt 6 .arrived plain with ctx := 7 }) 0 = some ({ pkt 6 .arrived plain with ctx := 7 }, 6) ∧
    (∀ n ∈ [32, 0], arrivedAt (crowded n (carrying (pkt 6 .arrived (letter true 1)))) 0 = some (pkt 6 .arrived (letter true 1), 6)) ∧
    (clauseOf (crowded 32 (carrying (pkt 6 .arrived (letter true 1)))) 0).missQueue.length = 32 ∧
    (let m : Msg := ⟨1, 0, [0x10000], 1, 3, false, 0, 0, 0, none, .message, 0, 0, some (⟨false, 5⟩, 0)⟩
     codePasses (carrying (pkt 6 .arrived (letter true 1))) 6 m = false) ∧
    (∀ x ∈ [plain, letter true 1], duplicate (carrying (pkt 6 .arrived x)) 6 (pkt 6 .arrived x) = false) ∧
    duplicate (carrying (hostPkt plain)) 8223 (hostPkt plain) = false ∧
    duplicate (carrying { pkt 6 .arrived plain with ctx := 7 }) 6 { pkt 6 .arrived plain with ctx := 7 } = false ∧
    duplicate (crowded 32 (carrying (pkt 6 .arrived (letter true 1)))) 6 (pkt 6 .arrived (letter true 1)) = false ∧
    (clauseOf (carrying (pkt 6 .arrived (letter true 1))) 0).missQueue = [] ∧
    (let s := modCore (carrying (pkt 6 .arrived plain)) 6 (fun k => { k with lastSeq := [(⟨false, 5⟩, ⟨false, 6⟩, 0)] })
     duplicate s 6 (pkt 6 .arrived plain) = true ∧ arrivedAt s 0 = some (pkt 6 .arrived plain, 6)) := by decide +kernel

/-- Slot 0 of version 7 is there: a code message of that version passes. -/
theorem meets_code_message : let p := pkt 6 .arrived (.message [0x10000, 0x70000] true 1 false 0 0 0 none 0)
    let s := withLex (carrying p) [lex 0 4 2]
    let m : Msg := ⟨s.ids, 0, [0x10000, 0x70000], 1, 3, false, 0, 0, 0, none, .message, 0, s.cyc, some (⟨false, 5⟩, 0)⟩
    arrivedAt s 0 = some (p, 6) ∧ missOldest s 0 6 0 (msgCodeId m) = none ∧ codePasses s 6 m = true := by decide +kernel

/-- Core 6 waits for the acceptance of its message 9. -/
def awaiting (p : Packet) : State := waiting (carrying p) { wait0 0 0 with stage := 1, tags := [9] }

theorem meets_acceptance : arrivedAt (awaiting (pkt 6 .arrived (.accepted 9 2))) 0 = some (pkt 6 .arrived (.accepted 9 2), 6) ∧
    (actAt (awaiting (pkt 6 .arrived (.accepted 9 2))) ⟨6, none⟩).map (fun a => a.wait) = some (some { wait0 0 0 with stage := 1, tags := [9] }) ∧
    ctxAt (awaiting (pkt 6 .arrived (.accepted 9 2))) ⟨6, none⟩ = 0 := ⟨by decide +kernel, rfl, by decide +kernel⟩

theorem meets_resends : takerOf homed ⟨false, 6⟩ = some 6 ∧ (clauseOf homed (6 / 8)).missQueue.length < 32 ∧
    isMessage (pkt 6 (.refused 0) plain) = true ∧ kindOf (pkt 6 (.refused 0) (.store 0 [0] [] ⟨5, 0, 0⟩)) = 1 ∧
    (64 : Nat) ≤ ({ carrying (pkt 6 (.refused 0) plain) with cyc := 64 } : State).cyc - 0 ∧
    ({ carrying (pkt 6 (.refused 0) plain) with cyc := 63 } : State).cyc - 0 < 64 ∧
    behind (carrying (pkt 6 (.refused 0) plain)) 0 (pkt 6 (.refused 0) plain) = false ∧
    behind (carrying (pkt 6 .lost plain)) 0 (pkt 6 .lost plain) = false ∧
    arrivedAt (carrying (pkt 6 .arrived (.ack ⟨6, 0, 0⟩ 0 0))) 0 = some (pkt 6 .arrived (.ack ⟨6, 0, 0⟩ 0 0), 6) := by decide +kernel

/-- Core 6 waits for request 0, which a home port has still to perform, or has performed. -/
def asked (op : ReqOp) (ps : List (Nat × Nat × List Byte)) (done : Bool) : State :=
  waiting { one with reqs := [(0, ⟨⟨6, 0, 0⟩, 0, op, ps, if done then [1] else [], done, false⟩)], ids := 1 } { wait0 0 0 with tags := [0] }

theorem meets_requests : (∀ x ∈ [(ReqOp.load, [(0x40000, 8, [])]), (.store, [(0x40000, 1, [7])]),
      (.atomic .cas true 1 0, [(0x40000, 8, [])]), (.adcas false 0 0 1 2, [(0x40000, 4, []), (0x40004, 4, [])]),
      (.amove true 5, [(0x40000, 8, []), (0x40008, 8, [])])],
      ∃ r, tget (asked x.1 x.2 false).reqs 0 = some r ∧ r.performed = false ∧ reqBehind (asked x.1 x.2 false) 0 r = false ∧
        reqReady (asked x.1 x.2 false) 0 r = true ∧ r.op = x.1 ∧ r.pieces = x.2 ∧
        (r.pieces.findSome? fun y => poisonedIn (asked x.1 x.2 false) y.1 y.2.1) = none) := by
  intro x _
  refine ⟨⟨⟨6, 0, 0⟩, 0, x.1, x.2, [], false, false⟩, rfl, rfl, by decide +revert, by decide +revert, rfl, rfl, by decide +revert⟩

/-- The line of the requests has been lost since they were issued. -/
theorem meets_lost_requests : (∀ x ∈ [(ReqOp.load, [(0x40000, 8, [])]), (.atomic .cas true 1 0, [(0x40000, 8, [])]),
      (.adcas false 0 0 1 2, [(0x40000, 4, []), (0x40004, 4, [])]), (.amove true 5, [(0x40000, 8, []), (0x40008, 8, [])])],
      let s : State := { asked x.1 x.2 false with poison := [0x1000] }
      ∃ r, tget s.reqs 0 = some r ∧ reqReady s 0 r = true ∧ r.op = x.1 ∧ r.pieces = x.2 ∧
        (r.pieces.findSome? fun y => poisonedIn s y.1 y.2.1) = some 0x40000) := by
  intro x _
  refine ⟨⟨⟨6, 0, 0⟩, 0, x.1, x.2, [], false, false⟩, rfl, by decide +revert, rfl, rfl, by decide +revert⟩

theorem meets_lost_reply :
    let w : Wait := { wait0 0 0 with tags := [0], vas := [(0, 0x40000#64)] }
    let s := waiting { one with reqs := [(0, ⟨⟨6, 0, 0⟩, 0, .load, [(0x40000, 8, [])], [], true, true⟩)], ids := 1 } w
    (tget s.reqs 0).map (fun r => (r.performed, r.lost)) = some (true, true) ∧ portsIn s 0 true = true ∧ s.memos = [] ∧
      (waitAt s ⟨6, none⟩).map (fun w => (w.tags, w.reply, w.vas)) = some ([0], none, [(0, 0x40000#64)]) ∧ ctxAt s ⟨6, none⟩ = 0 :=
  ⟨rfl, rfl, rfl, rfl, rfl⟩

/-- A part of request 0 has come to the port of its memory; or nothing of it is on the network. -/
theorem meets_port_answers : let p := pkt 6 .arrived (.port 0 6 0x40000 8)
    let s := { asked .load [(0x40000, 8, [])] false with net := [(4, p)] }
    s.net.filter (fun m => isPortOf 0 false m.2) = [(4, p)] ∧ (∃ r, tget s.reqs 0 = some r ∧ reqReady s 0 r = true) ∧
      (∀ m ∈ (asked .load [] false).net, isPortOf 0 false m.2 = false) :=
  ⟨by decide +kernel, ⟨_, rfl, by decide +kernel⟩, by decide +kernel⟩

theorem meets_atomic_values : atomNew .cas true 0 1 0 = some 1 ∧ atomNew .cas true 5 1 0 = none := by decide +kernel

theorem meets_replies : ∀ k ∈ [8, 64], (tget (asked .load [(0x40000, k, [])] true).reqs 0).map (fun r => (r.performed, r.lost)) = some (true, false) ∧
    portsIn (asked .load [(0x40000, k, [])] true) 0 true = true ∧
    (actAt (asked .load [(0x40000, k, [])] true) ⟨6, none⟩).map (fun a => a.rlb) = some [] ∧
    (waitAt (asked .load [(0x40000, k, [])] true) ⟨6, none⟩).map (fun w => w.tags) = some [0] ∧
    ctxAt (asked .load [(0x40000, k, [])] true) ⟨6, none⟩ = 0 := by
  intro k h; fin_cases h <;> exact ⟨rfl, rfl, rfl, rfl, rfl⟩

/-- The leaf of `one` migrates. -/
def moving : State := writeWord one 0 0x20000 0x3BF#64
def walking (migrates : Bool) (c : Nat) : State :=
  { (if migrates then moving else one) with walks := [(0, ⟨⟨6, 0, 0⟩, 0, 0x40000, 0x20000, 0, 0, 0⟩)], cyc := c }

/-- Eight walkers of clause 0 wait. -/
def walkersBusy : State :=
  { one with walks := (List.range 8).map (fun i => (i, ⟨⟨5, 0, 0⟩, 0, 4096 * i, 0x20000, 0, 0, 0⟩)), ids := 8 }

theorem meets_walks : (∃ ps ls, translateAll one (whoAt one ⟨6, none⟩) .load [(0x40000, 1)] = .ok ps ls) ∧
    (∃ f v, translateAll one (whoAt one ⟨6, none⟩) .load [(2 ^ 42, 1)] = .fault f v) ∧
    (∃ x e, translateAll moving (whoAt moving ⟨6, none⟩) .load [(0x40000, 1)] = .wait x (.migrating e) ∧
      walkState moving (whoAt moving ⟨6, none⟩) x = none) ∧
    (∃ x, translateAll walkersBusy (whoAt walkersBusy ⟨6, none⟩) .load [(0x40000, 1)] = .wait x .walker ∧
      walkState walkersBusy (whoAt walkersBusy ⟨6, none⟩) x = none) ∧
    (∀ m ∈ [true, false], (readWord (walking m 4096) 0x20000).getLsbD 9 = m ∧ poisonedIn (walking m 4096) 0x20000 16 = none) ∧
    0 + 4096 < (walking true 4097).cyc ∧ ¬ 0 + 4096 < (walking true 4096).cyc ∧ (walking true 4095).cyc - 0 < 4096 ∧
    (actAt one ⟨6, none⟩).isSome = true := by
  refine ⟨⟨_, _, rfl⟩, ⟨.notmapped, 0x40000000000#64, by decide +kernel⟩, ⟨0x40000, 0x20000, by decide +kernel⟩,
    ⟨0x40000, by decide +kernel⟩, by decide +kernel⟩

theorem meets_invalidation : let s := waiting { one with invals := [(3, ⟨⟨6, 0, 0⟩, .die, 0, some 0x40000, false, 0⟩)] } { wait0 0 0 with tags := [3] }
    tget s.invals 3 = some ⟨⟨6, 0, 0⟩, .die, 0, some 0x40000, false, 0⟩ ∧ entriesLeft s .die 6 0 (some 0x40000) = false ∧ accessLeft s 6 0 = false ∧
      (waitAt s ⟨6, none⟩).map (fun w => w.tags) = some [3] ∧ ctxAt s ⟨6, none⟩ = 0 := ⟨rfl, by decide +kernel, by decide +kernel, rfl, rfl⟩

/-- The whole of address space 2, at package scope. -/
theorem meets_invalidation_all : let s := { one with invals := [(3, ⟨⟨6, 0, 0⟩, .package, 2, none, false, 0⟩)] }
    tget s.invals 3 = some ⟨⟨6, 0, 0⟩, .package, 2, none, false, 0⟩ ∧ entriesLeft s .package 6 2 none = false ∧ accessLeft s 6 0 = false := ⟨rfl, by decide +kernel, by decide +kernel⟩

/-- An entry of the address space came back: what was issued through it is awaited too. -/
theorem meets_entry_back : let e : TlbEntry := ⟨2, 0x40, 0, 0, 0, 0⟩
    let s := modCore { asked .load [(0x40000, 8, [])] false with invals := [(3, ⟨⟨6, 0, 0⟩, .die, 2, none, false, 0⟩)] } 6 (fun k => { k with tlb := [e] })
    tget s.invals 3 = some ⟨⟨6, 0, 0⟩, .die, 2, none, false, 0⟩ ∧ entriesLeft s .die 6 2 none = true ∧ accessLeft s 6 s.ids = true :=
  ⟨rfl, by decide +kernel, by decide +kernel⟩

/-- A store of the scratchpad's last byte, and a flag of its last word. -/
def farStore : Packet := pkt 6 .arrived (.store 131071 [7] [] ⟨5, 0, 0⟩)
def farFlag (n : Nat) : Packet := pkt 6 .arrived (.flag 131064 [1, 0, 0, 0, 0, 0, 0, 0] [n, 0, 0, 0] ⟨5, 0, 0⟩)
/-- Logging is on. -/
def logging (s : State) : State := modCtx s 6 0 (fun x => { x with regs := { x.regs with trace := 1 } })
/-- The arrival table is full of other sources. -/
def tabled (s : State) : State := modCtx s 6 0 (fun x => { x with arrivals := (List.range 64).map (fun i => (⟨false, 100 + i⟩, [0, 0, 0, 0])) })

theorem meets_remote_stores : (∀ p ∈ [farStore, farFlag 0, farFlag 1], arrivedAt (carrying p) 0 = some (p, 6) ∧ isApp 6 = false ∧
      arrivalsFull (ctxOf (carrying p) 6 0) p.src = false ∧ (ctxOf (carrying p) 6 0).heldFlags = [] ∧ MemoryCanonical (carrying p) ∧
      frameHere (carrying p) 6 0 = true ∧ (ctxOf (carrying p) 6 0).regs.trace.getLsbD 0 = false ∧
      131072 ≤ scratchSize (partOf (carrying p) 6 0)) ∧
    (arrivalCounts (ctxOf (carrying (farFlag 1)) 6 0) ⟨false, 5⟩) = [0, 0, 0, 0] ∧
    (let s := logging (carrying farStore)
     arrivedAt s 0 = some (farStore, 6) ∧ featureFor s 0 8 = true ∧ (ctxOf s 6 0).regs.trace.getLsbD 0 = true ∧
       (ctxOf s 6 0).regs.trace.toNat / 2 ^ 12 % 256 * 4096 + 4096 ≤ scratchSize (partOf s 6 0)) := by
  simp only [MemoryCanonical]; decide +kernel

theorem meets_arrivals_full : arrivalsFull (ctxOf (tabled (carrying farStore)) 6 0) farStore.src = true ∧
    behindFlag (ctxOf (tabled (carrying farStore)) 6 0).heldFlags farStore = false ∧
    arrivedAt (tabled (carrying farStore)) 0 = some (farStore, 6) := by decide +kernel

theorem meets_count_packet : let e : SendEntry := ⟨⟨false, 5⟩, 0, [1, 0, 0, 0], 0, 0⟩
    let s := modCore { carrying farStore with cyc := 4096 } 6 (fun k => { k with sendTab := [e] })
    (coreOf s 6).sendTab[0]? = some e ∧ 4096 ≤ s.cyc - e.used ∧ ({ s with cyc := 4095 } : State).cyc - e.used < 4096 ∧
      arrivedAt s 0 = some (farStore, 6) := by
  decide +kernel

theorem meets_ports : (∀ x ∈ [Payload.loadReq 131064 8 0 ⟨5, 0, 0⟩, .atomic 131064 .add true 1 0 0 ⟨5, 0, 0⟩, .channel 5,
      .drain 0 1 [1]], arrivedAt (carrying (pkt 6 .arrived x)) 0 = some (pkt 6 .arrived x, 6) ∧ tget (carrying (pkt 6 .arrived x)).reqs 0 = none ∧
      frameHere (carrying (pkt 6 .arrived x)) 6 0 = true ∧ MemoryCanonical (carrying (pkt 6 .arrived x)) ∧
      behindFlag (ctxOf (carrying (pkt 6 .arrived x)) 6 0).heldFlags (pkt 6 .arrived x) = false ∧
      poisonedIn (carrying (pkt 6 .arrived x)) (scratchBase 6 (partOf (carrying (pkt 6 .arrived x)) 6 0) + 131064) 8 = none) ∧
    (let p := pkt 6 .arrived (.loadReq 131064 8 0 ⟨5, 0, 0⟩)
     let s := modCtx (carrying p) 6 0 (fun x => { x with heldFlags := [⟨farFlag 1⟩] })
     behindFlag (ctxOf s 6 0).heldFlags p = true ∧ arrivedAt s 0 = some (p, 6) ∧
       (let l := scratchBase 6 (partOf s 6 0) + 131064
        poisonedIn { carrying p with poison := [l / 64] } l 8 = some l ∧ (ownerOf { carrying p with poison := [l / 64] } l ≠ p.ctx ∨ p.ctx = 0) ∧
          arrivedAt { carrying p with poison := [l / 64] } 0 = some (p, 6))) ∧
    (ctxOf (carrying (pkt 6 .arrived (.channel 5))) 6 0).q3.length < 16 ∧
    (let s := modCtx (carrying (pkt 6 .arrived (.channel 5))) 6 0 (fun x => { x with q3 := List.replicate 16 0 })
     16 ≤ (ctxOf s 6 0).q3.length ∧ arrivedAt s 0 = some (pkt 6 .arrived (.channel 5), 6)) ∧
    (let s := modCtx (carrying (pkt 6 .arrived (.drain 0 1 [1]))) 6 0 (fun x => { x with regs := { x.regs with part := 0x80601#64 } })
     0 + [(1 : A48)].length ≤ drainEntries (partOf s 6 0) ∧ arrivedAt s 0 = some (pkt 6 .arrived (.drain 0 1 [1]), 6) ∧ MemoryCanonical s) := by
  simp only [MemoryCanonical]; decide +kernel

/-! ### Hypotheses met: scheduler, timeouts, launches -/

/-- A message of context x for core 6, and how its activation starts. -/
def note (x : Nat) (k : StartKind) : Msg := ⟨0, x, [0x1FFFE#64, 5], 1, 3, false, 0, 0, 0, none, k, 0, 0, none⟩

/-- Core 6 idle in context 0, whose handlers lie in 0x10000 to 0x1FFFF; one message waits. -/
def idle6 (k : StartKind) : State :=
  let s := modCtx homed 6 0 (fun x => { x with
    entry := { x.entry with hlo := 0x10000#64, hhi := 0x20000#64 }, regs := { x.regs with upcall := 0x10000#64, lxmissh := 0x10000#64 } })
  modCore s 6 (fun c => { c with active := some ⟨0, none⟩, waiting := [note 0 k] })

theorem meets_start : ∀ k ∈ [StartKind.message, .engine 0x0100050000000001#64 0x10#64 0x40#64, .versionMiss 31],
    isApp 6 = false ∧ (coreOf (idle6 k) 6).active = some ⟨0, none⟩ ∧ (coreOf (idle6 k) 6).switching = false ∧
      (coreOf (idle6 k) 6).quiesced = false ∧ (coreOf (idle6 k) 6).goal = none ∧ (coreOf (idle6 k) 6).waiting = [note 0 k] ∧
      startable (idle6 k) 6 0 = true ∧
      (ctxOf (idle6 k) 6 0).entry.ctxgen.toNat = (ctxWord (idle6 k) 0 0).toNat / 2 ^ 48 ∧
      handlerOk (ctxOf (idle6 k) 6 0).entry ((note 0 k).words.headD 0) = true ∧
      handlerOk (ctxOf (idle6 k) 6 0).entry (ctxOf (idle6 k) 6 0).regs.upcall = true ∧
      handlerOk (ctxOf (idle6 k) 6 0).entry (ctxOf (idle6 k) 6 0).regs.lxmissh = true ∧
      (coreOf (idle6 k) 6).shadow = none ∧ (coreOf (idle6 k) 6).streaming = none ∧ (coreOf (idle6 k) 6).saveb = 0 ∧ guestHolds (idle6 k) 6 0 = false := by
  intro k h; fin_cases h <;> exact ⟨rfl, rfl, rfl, rfl, rfl, rfl, by decide +kernel, by decide +kernel, by decide +kernel,
    by decide +kernel, by decide +kernel, rfl, rfl, rfl, by decide +kernel⟩

theorem meets_not_suspended (k : StartKind) (x : Nat) : suspended (idle6 k) 6 x = false := by
  have h1 : (coreOf (idle6 k) 6).shadow = none := rfl
  have h2 : (coreOf (idle6 k) 6).streaming = none := rfl
  have h3 : (coreOf (idle6 k) 6).saveb = 0 := rfl
  simp [suspended, h1, h2, h3]

/-- `one` with a waiting message of context 1, which is in the context table with priority p, and perhaps in the shadow slot. -/
def pressed (p : Nat) (shadow : Option Frame) : State :=
  let s := writeWord homed 0 (0x100000 + 4096) (BitVec.ofNat 64 (p * 4096 + 1))
  let s := modCtx s 6 1 (fun x => { x with entry := { x.entry with prio := p } })
  modCore s 6 (fun c => { c with waiting := [note 1 .message], shadow := shadow })

theorem meets_preemption : (∀ x ∈ [none, some (⟨1, none⟩ : Frame)], ∀ p ∈ [0, 7],
      (coreOf (pressed p x) 6).switching = false ∧ (coreOf (pressed p x) 6).quiesced = false ∧
      (coreOf (pressed p x) 6).waiting = [note 1 .message] ∧ startable (pressed p x) 6 1 = true ∧
      prioOf (pressed p x) 6 0 = 0 ∧ (coreOf (pressed p x) 6).streamOut = false ∧ readyGuests (pressed p x) 6 = []) := by
  intro x h p g; fin_cases h <;> fin_cases g <;> exact ⟨rfl, rfl, rfl, by decide +kernel, by decide +kernel, rfl, by decide +kernel⟩

/-- A trap that waits for the page of its fibre record, and one that does not. -/
theorem meets_trap_pending : trapPending (some { Act.zero with wait := some { wait0 0 0 with trap := some (.notmapped, 0, 0) } }) = true ∧
    trapPending (some Act.zero) = false := by decide +kernel

theorem meets_preemption_ranks : (ctxEntryLoc homed 1 = 0x100000 + 4096 → prioOf (pressed 7 none) 6 1 = 7) ∧
    prioOf (pressed 7 (some ⟨1, none⟩)) 6 1 = 7 ∧ prioOf (pressed 0 (some ⟨1, none⟩)) 6 1 = 0 ∧
    (coreOf (pressed 7 none) 6).active.map (fun f => f.act.isSome) = some true ∧ (coreOf (pressed 7 none) 6).phrase = none := by
  decide +kernel

/-- The exchange of the active activation with a context whose activation waits. -/
def exchanging : State := modCore (waiting one (wait0 9 0)) 6 (fun k => { k with switching := true, shadow := some ⟨1, some Act.zero⟩ })

theorem meets_switch : (coreOf exchanging 6).switching = true ∧ (coreOf exchanging 6).shadow = some ⟨1, some Act.zero⟩ ∧
    ((coreOf exchanging 6).active.map (fun f => f.act.isSome)) = some true := ⟨rfl, rfl, rfl⟩

/-- A save area at 0x80000; the frame of context 1 being loaded, live or not, or with a CR.PART that breaks a limit. -/
def streamed (part live : Word) : State :=
  let s := modCore one 6 (fun k => { k with saveb := 0x80000#64, streamIn := some 1 })
  writeWord (writeWord s 0 (0x81000 + 0x980) part) 0 (0x81000 + 0x958) live

theorem meets_stream_in : (coreOf (streamed 0x80001#64 1#64) 6).switching = false ∧
    (let s := modCore (streamed 0x80001#64 1#64) 6 (fun k => { k with switching := true })
     (coreOf s 6).switching = true ∧ (coreOf s 6).streamIn = some 1) ∧ frameLoc (streamed 0x80001#64 1#64) 6 1 = 0x81000 ∧ (coreOf (streamed 0x80001#64 1#64) 6).streamIn = some 1 ∧
    partOk (readWord (streamed 0x80001#64 1#64) (0x81000 + 0x980)) = true ∧ partOk (readWord (streamed 0#64 1#64) (0x81000 + 0x980)) = false ∧
    (readWord (streamed 0x80001#64 1#64) (0x81000 + 0x958)).getLsbD 0 = true ∧
    (readWord (streamed 0x80001#64 0#64) (0x81000 + 0x958)).getLsbD 0 = false ∧ MemoryCanonical (streamed 0x80001#64 1#64) ∧
    poisonedIn (streamed 0x80001#64 1#64) 0x81000 4096 = none ∧ (coreOf (streamed 0x80001#64 1#64) 6).away = [] ∧
    (let s := { streamed 0x80001#64 1#64 with poison := [0x81000 / 64 + 3] }
     poisonedIn s 0x81000 4096 ≠ none ∧ (coreOf s 6).streamIn = some 1 ∧ (coreOf s 6).switching = false) ∧
    (let s := modCtx (modCore (streamed 0x80001#64 1#64) 6 fun k => { k with away := [⟨1, some Act.zero⟩] }) 6 1
       fun x => { x with regs := { x.regs with part := 0x80001#64 } }
     (coreOf s 6).away.map (fun f => f.ctx) = [1] ∧ partOk (ctxOf s 6 1).regs.part = true ∧ poisonedIn s 0x81000 4096 = none ∧
       (coreOf s 6).streamIn = some 1 ∧ (coreOf s 6).switching = false) := by
  simp only [MemoryCanonical]; decide +kernel

/-- An activation of context 1 being stored. -/
def storing : State := modCore one 6 (fun k => { k with saveb := 0x80000#64, streamOut := true, streaming := some ⟨1, some Act.zero⟩ })

theorem meets_stream_out : (coreOf storing 6).streamOut = true ∧ (coreOf storing 6).streaming = some ⟨1, some Act.zero⟩ ∧
    (coreOf storing 6).goal = none ∧ MemoryCanonical storing ∧ Act.zero.qin.length ≤ 63 ∧ Act.zero.qout.length ≤ 64 :=
  ⟨rfl, rfl, rfl, by simp only [MemoryCanonical]; decide +kernel, by decide, by decide⟩

theorem meets_fuse_timeout : let s := modCtx { fusing with cyc := 8 } 7 0 (fun x => { x with entry := { x.entry with evtmo := 8#64 } })
    (coreOf s 7).fuse = some ⟨2, 0, 0⟩ ∧ (ctxOf s 7 0).entry.evtmo ≠ 0 ∧ (ctxOf s 7 0).entry.evtmo.toNat ≤ s.cyc - 0 ∧
      waitAt s ⟨7, none⟩ = some (wait0 0 0) := by decide +kernel

theorem meets_migration : let s := modCore (onCore 0) 0 (fun k => { k with migrating := [0] })
    0 ∈ (coreOf s 0).migrating ∧ performed s ⟨0, 0, 0⟩ = true ∧ unackedAny s ⟨0, 0, 0⟩ = false ∧ migrateTarget s 0 = some 6 ∧
      (actAt s ⟨0, none⟩).map (fun a => a.serial) = some 0 := by decide +kernel

theorem meets_donation : let s := modCore { one with cyc := 5 } 6 (fun k => { k with donation := some ⟨1, 0, 1, 0⟩ })
    (coreOf s 6).donation = some ⟨1, 0, 1, 0⟩ ∧ (ctxOf s 6 1).entry.donate.toNat ≤ s.cyc - 0 ∧
      (coreOf s 6).active.map (fun f => f.ctx) = some 0 := by decide +kernel

/-- An instruction at the pc, its activation waiting with a code since cycle 0. -/
def held (bs : List Byte) (k : Nat) (o : Word) (c : Nat) (f : State → State) : State :=
  { waiting (f { placeBytes State.reset bs with cur := ⟨6, none⟩ }) (wait0 k o) with cyc := c }

/-- What the fetch at the pc gives meets a test and decodes to an instruction; its activation still waits. -/
noncomputable def fetched (s : State) (i : Instr) (test : State → Bool) : Bool :=
  match fetchBytes s (act s).pc with
  | .ok (t, bs) => decide (leNat bs % 4 = 3 ∧ decode32 (leNat bs) = some i ∧ (actAt t t.cur).isSome = true ∧ phraseNow t = none ∧
      t.cur = ⟨6, none⟩ ∧ t.cyc = s.cyc ∧ (act t).wait = waitAt s ⟨6, none⟩ ∧ watchWoken t = false ∧ (ctxNow t).watchLost = false) && test t
  | .error _ => false

theorem meets_sleep_expire : fetched (held [0x63, 0x20, 0x80, 0x02] 6 3 3 id) (.sleep 1) (fun _ => true) = true ∧
    waitAt (held [0x63, 0x20, 0x80, 0x02] 6 3 3 id) ⟨6, none⟩ = some (wait0 6 3) := by decide +kernel

theorem meets_wfe_timeout : fetched (held [0x63, 0, 0, 0x03] 9 0 65536 id) (.wfe) (fun _ => true) = true ∧
    waitAt (held [0x63, 0, 0, 0x03] 9 0 65536 id) ⟨6, none⟩ = some (wait0 9 0) := by decide +kernel

theorem meets_mwait_timeout : fetched (held [0x73, 0x41, 0x80, 0x06] 5 1 1 id) (.mwait 1 2) (fun _ => true) = true ∧
    waitAt (held [0x73, 0x41, 0x80, 0x06] 5 1 1 id) ⟨6, none⟩ = some (wait0 5 1) := by decide +kernel

/-- Context 0 has an entry in the context table, an EVTMO of 2, and v2 names event bit 192. -/
def listening (s : State) : State :=
  let s := { s with module := { s.module with ctxtab := 0x100000#64 } }
  let s := writeWord (writeWord (writeWord (writeWord s 0 0x30000 0x80000006#64) 0 0x100000 1) 0 0x100018 0x30000#64) 0 0x100020 1
  wV (modCtx s 6 0 (fun x => { x with entry := { x.entry with evtmo := 2#64 } })) 2 bit192

theorem meets_evwait_timeout : let s := held [0x73, 0x41, 0, 0] 3 0 2 listening
    fetched s (.evwait 1 2) (fun t => decide ((homeDie t (ctxId t)).isSome = true ∧ 2 ^ 192 ≤ (eventMask (rV t 2)).toNat ∧
      vectorNow t &&& eventMask (rV t 2) ≠ eventMask (rV t 2) ∧ (entry t).evtmo = 2)) = true ∧
      waitAt s ⟨6, none⟩ = some (wait0 3 0) ∧ (ctxOf s 6 (ctxAt s ⟨6, none⟩)).entry.evtmo = 2 := by decide +kernel

/-- A descriptor of a launch of one activation for clause group 0 of context 0, waiting on event bit 0, setting bit 1. -/
def descriptor (w1 : Word) (mask : Word) : List Word := [0x10000, w1, 0, mask, 1, 0, 0, 0, 2, 0, 0, 0, 5, 6, 7, 8]
def requested (w1 mask : Word) (x : Nat) : LaunchReq := ⟨⟨6, 0, 0⟩, x, 0x10000#64, 0x20000#64, descriptor w1 mask⟩
/-- Context 0 may use clause group 0. -/
def permitted (s : State) : State := writeWord s 0 0x100010 1
def asking (r : LaunchReq) : State := modDie (waiting (permitted homed) (wait0 0 0)) 0 (fun d => { d with requests := [r] })

theorem meets_launch_request : (dieOf (asking (requested 0 1 0)) 0).requests = [requested 0 1 0] ∧
    launchStatus (asking (requested 0 1 0)) 0 (requested 0 1 0) = 0 ∧ launchStatus (asking (requested 0 0 0)) 0 (requested 0 0 0) = 1 ∧
    launchStatus (asking (requested 0 1 7)) 0 (requested 0 1 7) = 5 ∧ ctxState (asking (requested 0 1 7)) 7 ≠ 1 ∧
    ctxState (asking (requested 0 1 0)) 0 = 1 ∧ (homeDie (asking (requested 0 1 0)) 0).isSome = true ∧
    (0x40000000000#64).toNat / 2 ^ 42 ≠ 0 ∧ waitAt (asking (requested 0 0 0)) ⟨6, none⟩ = some (wait0 0 0) ∧
    ctxAt (asking (requested 0 0 0)) ⟨6, none⟩ = 0 := by decide +kernel

/-- The launch in a stage, its event bit set or not. -/
def going (x : LaunchStage) (w1 : Word) (set : Bool) : State :=
  { modAct homed (fun a => { a with work := some ⟨0, 0, 0⟩ }) with
    launches := [⟨0, 0, ⟨6, 0, 0⟩, 0, descriptor w1 1, [(0, [6])], x, [0, 2], [], []⟩], evec := if set then [(0, 1)] else [] }

theorem meets_launch_stages : (∀ x ∈ [LaunchStage.journaling, .confirming, .generating 0],
      ((going x 0 true).launches.map (fun l => (l.stage, l.die))) = [(x, 0)] ∧ liveDie (going x 0 true) 0 = 0) ∧
    localHome (going .journaling 0 true) 0 = some 0 ∧ journalStacks (going .journaling 0 true) = [0, 2] ∧
    journalStacks { going .journaling 0 true with module := { homed.module with fenced := (List.range 16).map Part.stack } } = [] ∧
    (waitAt (waiting (going .journaling 0 true) (wait0 0 0)) ⟨6, none⟩).map (fun w => w.kind) = some 0 ∧
    ctxAt (waiting (going .journaling 0 true) (wait0 0 0)) ⟨6, none⟩ = 0 ∧ fieldOff 0 6 ≤ 64 ∧
    (∀ l ∈ (going .journaling 0 true).launches, tgetD (going .journaling 0 true).evec l.ctx 0 &&& l.waitMask = l.waitMask ∧
      tgetD (going .journaling 0 false).evec l.ctx 0 &&& l.waitMask ≠ l.waitMask ∧ l.consume = false ∧ (0 : Nat) < launchTotal l.words ∧
      dealt l 0 = 6 ∧ l.triggered.length + 1 = launchTotal l.words) ∧
    (∃ w1 : Word, ∀ l ∈ (going .journaling w1 true).launches, l.consume = true) ∧
    (coreOf (going (.generating 0) 0 true) 6).successor = none ∧
    canBuffer (going (.generating 0) 0 true) (nodeOf (going (.generating 0) 0 true) 6) 0 5 = true ∧
    Solo (going (.generating 0) 0 true) ∧ released (going (.generating 0) 0 true) = true ∧
    (act (going (.generating 0) 0 true)).work = some ⟨0, 0, 0⟩ ∧ (act (going (.generating 0) 0 true)).triggered = false := by
  refine ⟨by decide +kernel, by decide +kernel, by decide +kernel, by decide +kernel, by decide +kernel, by decide +kernel,
    by decide +kernel, by decide +kernel, ⟨0x4000000000#64, by decide +kernel⟩, by decide +kernel, by decide +kernel,
    by simp only [Solo]; decide +kernel, by decide +kernel⟩

theorem meets_mirrors : homed.launches = [] ∧ ({ homed with mirrorQ := [(0, 3, 5)] } : State).mirrorQ = [(0, 3, 5)] ∧
    homeDie homed 0 = some 0 ∧ localDie homed 0 = some 0 ∧
    (let s : State := { homed with evHome := [(0, 1)] }
     homeDie s 0 = some 0 ∧ tget s.evHome 0 = some 1 ∧ localDie s 1 = some 1) := by decide +kernel

/-! ### Hypotheses met: engine events -/

/-- A lease of one tile, tile 2, with a queue. -/
def hired (q : List MatCmd) : Lease := ⟨6, 0, [.phys 2], [1], Vector.replicate 16 0, q, 0, 0, 0, false, none, none, false, 0⟩
def engaged (l : List Lease) : State := modClause parked 0 (fun k => { k with leases := l, current := some (6, 0) })

theorem meets_lease_grant :
    (let s := modClause parked 0 (fun k => { k with leaseReqs := [⟨6, 0, 4⟩] })
     (clauseOf s 0).leaseReqs = [⟨6, 0, 4⟩] ∧ (clauseOf s 0).leases = [] ∧ (clauseOf s 0).current = none ∧ clauseOfCore 6 = 0) ∧
    (let s := modClause parked 0 (fun k => { k with leaseReqs := [⟨6, 0, 4⟩], leases := List.replicate 16 (hired []) })
     16 ≤ (clauseOf s 0).leases.length) := by decide +kernel

theorem meets_lease_turn :
    (let m : Lease := { hired [.mzero 0] with core := 7 }
     (∀ l ∈ [hired [], hired [.mzero 0], { hired [.mzero 0] with turn := 5 }],
      (clauseOf (engaged [l, m]) 0).leases = [l, m] ∧ (clauseOf (engaged [l, m]) 0).current = some (l.core, l.ctx) ∧
        (clauseOf (engaged [l, m]) 0).moves = 0 ∧ clauseOfCore m.core = 0 ∧ l.taken = false) ∧ leaseReady m = true) ∧
    leaseReady (hired []) = false ∧ leaseReady (hired [.mzero 0]) = true ∧ (ctxOf parked 6 0).entry.lease.toNat ≤ 5 ∧
    (0 : Nat) < (ctxOf parked 6 0).entry.lease.toNat := by decide +kernel

theorem meets_lease_forfeit : let l : Lease := { hired [] with forfeit := some 0 }
    (clauseOf (engaged [l]) 0).leases = [l] ∧ l.forfeit = some 0 ∧ l.held = none ∧ l.places = [.phys 2] ∧ l.passes = [1] ∧
      (ctxOf (engaged [l]) 6 0).parkMap = [] ∧ MemoryCanonical (engaged [l]) := by simp only [MemoryCanonical]; decide +kernel

/-- The commands of a current lease: each at the head of its queue. -/
theorem meets_matrix_run : ∀ c ∈ [MatCmd.mzero 0, .mbmeta (Vector.replicate 16 0), .mldb (win 0 (131072 - 128)) 0, .mma 0 (win 0 0) 0 0 0,
      .mdrain 0 6 0 0 0], let s := engaged [hired [c]]
    (clauseOf s 0).leases = [hired [c]] ∧ (hired [c]).queue = c :: [] ∧ (clauseOf s 0).current = some (6, 0) ∧ (clauseOf s 0).moves = 0 ∧
      (hired [c]).held = none ∧ (hired [c]).out = false ∧ (hired [c]).taken = false ∧ (hired [c]).places.getD 0 .unassigned = .phys 2 ∧
      (hired [c]).progress = 0 ∧ (hired [c]).forfeit ≠ some 0 ∧ s.module.withheld = false ∧ MemoryCanonical s := by simp only [MemoryCanonical]; decide +kernel

theorem meets_withheld : ∀ c ∈ [MatCmd.mma 0 (win 0 0) 0 0 0, .mmacode 0 (win 0 0) 0], let s := engaged [hired [c]]
    let w := { s with module := { s.module with withheld := true } }
    w.module.withheld = true ∧ (clauseOf w 0).leases = [hired [c]] ∧ (clauseOf w 0).current = some (6, 0) ∧ (clauseOf w 0).moves = 0 := by
  decide +kernel

theorem meets_mldb_quiet : let s := engaged [hired [.mldb (win 0 (131072 - 128)) 0]]
    s.memos = [] ∧ poisonAbout s = false ∧ ∀ x ∈ [0, 64], ownPending s (matrixWho s 6 0).agent
      (scratchBase 6 (ctxOf s 6 0).regs.part + windowOff (win 0 (131072 - 128)) + x) 64 = false := by decide +kernel

theorem meets_mldb_mma : rangeOf (win 0 (131072 - 128)) = .window 0 ∧ (win 0 (131072 - 128)).toNat % 64 = 0 ∧
    windowOff (win 0 (131072 - 128)) + 128 ≤ scratchSize (ctxOf parked 6 0).regs.part ∧
    (mmaArgs (win 0 0) 0 0 0).sparse = 0 ∧ (mmaArgs (win 0 0) 0 0 0).scaled = false ∧ (mmaArgs (win 0 0) 0 0 0).p = 1 ∧
    (ctxOf parked 6 0).regs.mswz.getLsbD 8 = false ∧ risingFrom 0 ([] : Tab A48) = true ∧
    ({ parked with module := { parked.module with withheld := true } } : State).module.withheld = true := by decide +kernel

/-- A drain of one column to logical core 0, core 6 itself, with and without a drain area. -/
def draining (part : Word) : State :=
  modClause (modRegs mapped6 (fun r => { r with part := part })) 0 (fun k => { k with
    leases := [{ hired [.mdrain 0 0 0 0 0] with taken := true }], current := some (6, 0) })

theorem meets_drain (p : Word) : (clauseOf (draining p) 0).current = some (6, 0) ∧
    (clauseOf (draining p) 0).leases = [{ hired [.mdrain 0 0 0 0 0] with taken := true }] ∧ (hired []).places.getD 0 .unassigned = .phys 2 :=
  ⟨rfl, rfl, rfl⟩

theorem meets_drain_target : cmapEntry (draining 0x80001#64) (ctxOf (draining 0x80001#64) 6 0).entry ((0 : Word).toNat % 2 ^ 21) = some ⟨false, 6⟩ ∧
    localOf (draining 0x80001#64) ⟨false, 6⟩ = some 6 := by decide +kernel

theorem meets_drain_sizes : drainEntries (partOf (draining 0x80001#64) 6 0) < 128 * (0 + 1) ∧
    128 * (0 + 1) ≤ drainEntries (partOf (draining 0x80601#64) 6 0) := by decide +kernel

/-- A copy of 64 bytes to the scratchpad's last line, of which so many are done. -/
def job (n : Nat) (flags hnd : Word) (cancel : Bool) : CopyJob :=
  ⟨5, 6, 0, [win 0 0, win 0 (131072 - 64), 63, 0, flags, hnd, 0], none, 2, n, none, cancel, false⟩
def copier (j : CopyJob) : State := modClause one 0 (fun k => { k with copies := [j] })

theorem meets_copy_piece : let j := job 0 0 0 false
    (clauseOf (copier j) 0).copies = [j] ∧ j.sort = none ∧ j.held = none ∧ j.progress < copyTotal j ∧ Memory.wf (copier j).mem = true ∧
      (copier j).memos = [] ∧ poisonAbout (copier j) = false ∧
      swizzle ((j.regs.getD 6 0).getLsbD 8) ((j.regs.getD 6 0).toNat % 32) (copyPiece j).2.1 = (copyPiece j).2.1 := by decide +kernel

/-- The piece's two places. -/
theorem meets_copy_places : copyPiece (job 0 0 0 false) = (win 0 0, win 0 131008, 63) ∧
    (rangeOf (win 0 0) = .window 0 ∧ windowOff (win 0 0) + 63 ≤ scratchSize (ctxOf one 6 0).regs.part) ∧
    (rangeOf (win 0 131008) = .window 0 ∧ windowOff (win 0 131008) + 63 ≤ scratchSize (ctxOf one 6 0).regs.part) ∧
    (ctxOf (copier (job 0 0 0 false)) 6 0).regs.part = (ctxOf one 6 0).regs.part ∧
    ownPending (copier (job 0 0 0 false)) (copyWho (copier (job 0 0 0 false)) 6 0 5).agent (scratchBase 6 (ctxOf one 6 0).regs.part) 63 = false ∧
    ownPending (copier (job 0 0 0 false)) (copyWho (copier (job 0 0 0 false)) 6 0 5).agent (scratchBase 6 (ctxOf one 6 0).regs.part + 131008) 63 = false :=
  ⟨by decide +kernel, by decide +kernel, by decide +kernel, by decide +kernel, by decide +kernel, by decide +kernel⟩

theorem meets_copy_ends : ∀ j ∈ [job 64 0 0 false, job 64 1 0x10000 false, job 64 2 (win 0 (131072 - 8)) false, job 3 0 0 true],
    jobQuiet (copier j) (copyWho (copier j) 6 0 5).agent = true ∧ (j.regs.getD 4 0).getLsbD 2 = false ∧
      (j.cancel = false → copyTotal j ≤ j.progress) := by decide +kernel

theorem meets_copy_mailbox : let j := job 64 2 (win 0 (131072 - 8)) false
    j.mailed = false ∧ (copier j).memos = [] ∧ poisonAbout (copier j) = false ∧ Memory.wf (copier j).mem = true ∧
      ownPending (copier j) (copyWho (copier j) 6 0 5).agent (scratchBase 6 (ctxOf one 6 0).regs.part + 131064) 8 = false ∧
      rangeOf (win 0 (131072 - 8)) = .window 0 ∧ windowOff (win 0 (131072 - 8)) + 8 ≤ scratchSize (ctxOf one 6 0).regs.part := by decide +kernel

theorem meets_copy_promise : let s := waiting (copier (job 0 0 0 false)) (wait0 4 5)
    waitAt s ⟨6, none⟩ = some (wait0 4 5) ∧ ctxAt s ⟨6, none⟩ = 0 ∧ (wait0 4 5).operand.toNat = (job 0 0 0 false).id ∧
      s.cyc < (job 0 0 0 false).promise ∧ (job 0 0 0 false).promise ≤ ({ s with cyc := 2 } : State).cyc := by decide +kernel

/-- A collective program whose next step word lies at the scratchpad's start: rank 0 of 1, on core 6 itself. -/
def program (step : Nat) : Coll :=
  ⟨1, 6, 0, [win 0 0, 0x100000#64, win 0 0x40, 0, win 0 0x140, win 0 0x80, win 0 0xC0, win 0 0x100], step, [0, 0, 0, 0], [], [], [], false, 0, none, none, false, none, none, []⟩
def running (w : Word) (step : Nat) : State :=
  let s := storeAt mapped6 0 (window0Loc mapped6 (win 0 (8 * step))) (leBytes 8 w.toNat)
  modClause s 0 (fun k => { k with colls := [program step] })

/-- LOOP #0 of 2 at step 1; SEND, COPY of one element; END. -/
theorem meets_collective_steps : ∀ x ∈ [(0x6000080000000000#64, 1), (0x1000000000000001#64, 0), (0x4000000000000001#64, 0), (0, 0)],
    (clauseOf (running x.1 x.2) 0).colls = [program x.2] ∧
    (program x.2).held = none ∧ (program x.2).ending = none ∧ (program x.2).status % 2 = 0 ∧ stepIllegal (program x.2) x.2 x.1 = false := by
  decide +kernel

/-- An engine access answers, and what it answers meets a test. -/
def answers {α : Type} (g : Eng α) (f : State → α → Bool) : Bool := match g with | .ok t y => f t y | _ => false

lemma of_answers {α : Type} {g : Eng α} {f : State → α → Bool} (h : answers g f = true) : ∃ t y, g = .ok t y ∧ f t y = true := by
  cases g <;> simp_all [answers]

theorem meets_collective_word : ∀ x ∈ [(0x6000080000000000#64, 1), (0x1000000000000001#64, 0), (0x4000000000000001#64, 0), (0, 0)],
    answers (engLoad (running x.1 x.2) ((program x.2).engine (running x.1 x.2)) ((program x.2).words.getD 0 0 + BitVec.ofNat 64 (8 * x.2)) 8)
      (fun u y => decide (y = leBytes 8 x.1.toNat ∧ (clauseOf u 0).colls = [program x.2])) = true := by decide +kernel

theorem meets_collective_moves : let s := running 0x1000000000000001#64 0
    answers (stepLoad s (program 0) 0x1000000000000001#64 0) (fun _ bs => bs == [0, 0, 0, 0]) = true ∧
    answers (stepStore s 0 (program 0) 0x1000000000000001#64 0 [0, 0, 0, 0]) (fun _ _ => true) = true ∧
    answers (rankNode s (program 0) 0) (fun _ d => d == ⟨false, 6⟩) = true := by decide +kernel

theorem meets_collective_end : jobQuiet (running 0 0) (program 0).agent = true ∧ rangeOf (program 0).mbox = .window 0 ∧
    windowOff (program 0).mbox + 8 ≤ scratchSize (ctxOf (running 0 0) 6 0).regs.part ∧ ((program 0).words.getD 3 0).getLsbD 8 = false ∧
    (program 0).mailed = false ∧ poisonAbout (running 0 0) = false ∧
    ownPending (running 0 0) (program 0).agent (scratchBase 6 (ctxOf (running 0 0) 6 0).regs.part + windowOff (program 0).mbox) 8 = false ∧
    MemoryCanonical (running 0 0) := by simp only [MemoryCanonical]; decide +kernel

/-- A program of core 6 ends by an abort notice. -/
def aborted : State :=
  let s := modClause (carrying (pkt 6 .arrived (.abort 0 false))) 0 (fun k => { k with colls := [program 0] })
  let t := takePkt s 0
  modClause (dropSteps (forget (endWalks t ((program 0).engine s)) 6 0 (jobUnit 2 (program 0).handle)) (program 0)) 0
    (fun k => { k with colls := [{ program 0 with ending := some 1 }] })

theorem meets_collective_abort : (program 0).undo = [] ∧
    answers (otherRanks aborted { program 0 with ending := some 1 } (List.range (program 0).n)) (fun u _ =>
      decide ((clauseOf u 0).colls = [{ program 0 with ending := some 1 }] ∧ jobQuiet u (program 0).agent = true ∧
        memoOf u ((program 0).engine u) true (program 0).mbox.toNat 8 = none ∧
        ownPending u (program 0).agent (scratchBase 6 (ctxOf u 6 0).regs.part + windowOff (program 0).mbox) 8 = false ∧
        poisonAbout u = false ∧ Memory.wf u.mem = true ∧ windowOff (program 0).mbox + 8 ≤ scratchSize (ctxOf u 6 0).regs.part)) = true := by
  decide +kernel

/-- The step in progress has stored two bytes over others. -/
theorem meets_collective_undo : let c : Coll := { program 0 with undo := [(win 0 0x140, [1, 2])] }
    let s := modClause (carrying (pkt 6 .arrived (.abort 0 false))) 0 (fun k => { k with colls := [c] })
    let v := dropSteps (forget (endWalks (takePkt s 0) (c.engine s)) 6 0 (jobUnit 2 c.handle)) c
    let loc := scratchBase 6 (ctxOf v 6 0).regs.part + 0x140
    arrivedAt s 0 = some (pkt 6 .arrived (.abort 0 false), 6) ∧ (clauseOf s 0).colls = [c] ∧ c.cid = 0 ∧ c.ending = none ∧
      rangeOf (win 0 0x140) = .window 0 ∧ windowOff (win 0 0x140) + 2 ≤ scratchSize (ctxOf v 6 0).regs.part ∧ v.memos = [] ∧
      ownPending v c.agent loc 2 = false ∧ poisonAbout v = false ∧ MemoryCanonical v := by simp only [MemoryCanonical]; decide +kernel

theorem meets_collective_full (bs : List Byte) (h : bs.length = 65536) :
    let c : Coll := { program 0 with inbox := [(1, 0, bs)] }
    let w : Coll := { c with awaits := some (0, 4) }
    c.awaits = none ∧ (65536 : Nat) < (c.inbox.map (fun x => x.2.2.length)).sum + [(0 : Byte)].length ∧
      w.awaits = some (0, 4) ∧ ((w.inbox.filter (fun x => x.1 = 0)).map (fun x => x.2.2.length)).sum < 4 := by
  refine ⟨rfl, ?_, rfl, ?_⟩ <;> simp [h]

theorem meets_collective_arrivals : ∀ x ∈ [Payload.step 0 0 0 [1, 2, 3, 4], .abort 0 false],
    let s := modClause (carrying (pkt 6 .arrived x)) 0 (fun k => { k with colls := [program 0] })
    arrivedAt s 0 = some (pkt 6 .arrived x, 6) ∧ (clauseOf s 0).colls = [program 0] ∧ (program 0).cid = 0 ∧
      ((program 0).inbox.map (fun y => y.2.2.length)).sum + 4 ≤ 65536 := by decide +kernel

/-! ### Hypotheses met: parser and signature events, the module, stepping, decoding, translation -/

/-- A descriptor of one element whose skip bit lies beside its record; it sweeps with flags of e0's high bits. -/
def sweeping (hi : Word) (stop : Bool) (skip : Byte) (w : Word) : State :=
  let d : Desc := ⟨hi + 0x100#64, 0x200#64, 0, 0, [], 0, 0, false, false, true, false, stop, 0, false, false⟩
  let s := modCtx homed 6 0 (fun x => { x with descs := [(1, d)] })
  let s := storeAt (storeAt s 0 (window0Loc s (win 0 0x200)) [skip]) 0 (window0Loc s (win 0 0x108)) (leBytes 8 w.toNat)
  modCore s 6 (fun k => { k with rotation := [(0, 1)] })
def sweepDesc (hi : Word) (stop : Bool) : Desc := ⟨hi + 0x100#64, 0x200#64, 0, 0, [], 0, 0, false, false, true, false, stop, 0, false, false⟩

theorem meets_sweeps (hi : Word) (stop : Bool) : (coreOf (sweeping hi stop 0 0) 6).rotation = [(0, 1)] ∧
    (coreOf (sweeping hi stop 0 0) 6).quiesced = false ∧ tget (ctxOf (sweeping hi stop 0 0) 6 0).descs 1 = some (sweepDesc hi stop) :=
  ⟨rfl, rfl, rfl⟩

theorem meets_sweep_stops : partFenced (sweeping 0 true 0 0).module.fenced (.core 6) = false ∧
    (sweepDesc 0x400000000000#64 true).e0.getLsbD 46 = true ∧ (sweepDesc 0 true).e0.getLsbD 46 = false ∧
    (homeDie (sweeping 0x400000000000#64 true 0 0) 0).isSome = true ∧ (sweeping 0x400000000000#64 true 0 0).launches = [] := by decide +kernel

theorem meets_sweep_ends : nextBeat (sweeping 0 false 1 0xF00#64) 6 0 (sweepDesc 0 false) = none ∧
    nextBeat (sweeping 0x2000000000#64 false 1 0) 6 0 (sweepDesc 0x2000000000#64 false) = none ∧
    (sweepDesc 0x2000000000#64 false).e0.getLsbD 37 = true ∧ (sweepDesc 0 false).count = 1 := by decide +kernel

theorem meets_sweep_elements : (elemWord (sweeping 0 false 1 0xF00#64) 6 0 (sweepDesc 0 false) 0).toNat / 2 ^ 8 % 16 = 15 ∧
    (elemWord (sweeping 0 false 1 0x400#64) 6 0 (sweepDesc 0 false) 0).toNat / 2 ^ 8 % 16 ≠ 15 ∧
    evtDue (sweeping 0 false 1 0x400#64) 6 0 (sweepDesc 0 false) (vectorAt (sweeping 0 false 1 0x400#64) 0 (unitOf 6)) = false := by
  decide +kernel

/-- The vector of context 0 lies at its home, or it has none. -/
theorem meets_sweep_settled : let s := { sweeping 0 false 1 0x300#64 with evHome := [(0, 0)], evec := [(0, 1)] }
    tget s.evHome 0 = homeDie s 0 ∧ evtDue s 6 0 (sweepDesc 0 false) (vectorAt s 0 (unitOf 6)) = true ∧
    evtDue { s with evec := [] } 6 0 (sweepDesc 0 false) (vectorAt { s with evec := [] } 0 (unitOf 6)) = false ∧
    evtLane s 6 0 (sweepDesc 0 false) = true ∧ unitOf 6 = some 0 ∧ nextBeat s 6 0 (sweepDesc 0 false) = none := by decide +kernel

/-- Nothing ends at core 6, and what it has noted is or is not under way. -/
theorem meets_sweep_quiet (hi : Word) (stop : Bool) : sweepEnds (sweeping hi stop 0 0) 6 = sweeping hi stop 0 0 := rfl

theorem meets_sweep_notes : notesOut (sweeping 0 true 0 0) 6 0 = false ∧
    notesOut { sweeping 0 true 0 0 with net := [(0, { pkt 5 .arrived (.change 1 0 0) with src := ⟨false, 6⟩ })] } 6 0 = true := by decide +kernel

/-- A sweep that ran, one that missed a change, and one whose event bit is set, repeat. -/
theorem meets_sweep_repeats : (∀ x ∈ [(true, false), (false, true)],
      let d := { sweepDesc 0 false with ran := x.1, missed := x.2 }
      let s := modCtx (sweeping 0 false 1 0x400#64) 6 0 (fun k => { k with descs := [(1, d)] })
      (d.ran = true ∨ d.missed = true) ∧ tget (ctxOf s 6 0).descs 1 = some d ∧ nextBeat s 6 0 d = none ∧
        ¬ (d.ran = false ∧ d.e0.getLsbD 37 = true) ∧ (elemWord s 6 0 d 0).toNat / 2 ^ 8 % 16 ≠ 15) ∧
    (let s := { sweeping 0 false 1 0x300#64 with evec := [(0, 1)] }
     evtDue s 6 0 (sweepDesc 0 false) (vectorAt s 0 (unitOf 6)) = true ∧ nextBeat s 6 0 (sweepDesc 0 false) = none) := by decide +kernel

/-- A descriptor of 17 elements with a program; its successor tables lie at 0x500 and 0x600. -/
def beatDesc (prog : List ElInstr) : Desc :=
  ⟨0x1000100#64, 0x400#64, 0, 0x6000050000000#64, prog, 0, 0, false, false, true, false, false, 0, false, false⟩
/-- Element 0 runs; of the others element 2 errs, or none; element 0 has one successor. -/
def beating (prog : List ElInstr) (entry : Nat) (bad : Bool) : State :=
  let s := modCore (modCtx homed 6 0 (fun x => { x with descs := [(1, beatDesc prog)] })) 6 (fun k => { k with rotation := [(0, 1)] })
  let put : State → Nat → List Byte → State := fun s off bs => storeAt s 0 (window0Loc s (win 0 off)) bs
  let s := put s 0x110 ((List.range 15).flatMap (fun i => leBytes 8 0 ++ leBytes 8 (if bad && i == 1 then 0x500 else 0xF00)))
  put (put s 0x500 (leBytes 4 0 ++ leBytes 4 1)) 0x600 (leBytes 8 entry)
/-- What element k of beat 0 does. -/
def beatOut (prog : List ElInstr) (entry : Nat) (bad : Bool) (k : Nat) : LaneOut :=
  let s := beating prog entry bad
  laneOf s 6 0 1 (beatDesc prog) 0 (((List.range 16).map (· + 16 * 0)).map (fun i => readNat s (recordLoc s 6 0 (beatDesc prog) i) 8))
    (vectorAt s 0 (unitOf 6)) k

theorem meets_beats : (∀ x ∈ [([ElInstr.stv 1, .done], 0, ([] : List Note), some 0),
      ([.notify 1, .done], 16 + 65536, [.change 1 [⟨16, 1, none⟩]], none),
      ([.notify 0, .done], 3 + 2 ^ 18, [.change 0 [⟨3, 0, some ⟨false, 6⟩⟩]], none),
      ([.send 1, .done], 3 + 2 ^ 18, [.value 0 [⟨3, 0, some ⟨false, 6⟩⟩]], none)],
      nextBeat (beating x.1 x.2.1 false) 6 0 (beatDesc x.1) = some 0 ∧ poisonAbout (beating x.1 x.2.1 false) = false ∧
      beatOut x.1 x.2.1 false 0 = .run ⟨List.replicate 8 0, 15, 0, false, x.2.2.2, x.2.2.1⟩ ∧
      (∀ k ∈ (List.range 16).map (· + 16 * 0), k ≠ 0 → beatOut x.1 x.2.1 false k = .rest) ∧
      frameHere (beating x.1 x.2.1 false) 6 0 = true ∧ Memory.wf (beating x.1 x.2.1 false).mem = true) ∧
    (beatDesc []).count = 17 ∧ 0 + 1 < ((beatDesc []).count + 15) / 16 ∧ (16 : Nat) < (beatDesc []).count := by decide +kernel

theorem meets_beat_errs : nextBeat (beating [.done] 0 true) 6 0 (beatDesc [.done]) = some 0 ∧ beatOut [.done] 0 true 2 = .bad ∧
    (∀ k ∈ (List.range 16).map (· + 16 * 0), k < 2 → beatOut [.done] 0 true k ≠ .bad) := by decide +kernel

theorem meets_no_start : choose homed 6 = none := by decide +kernel

/-- An outside change of element i, or a value, that has arrived for the descriptor. -/
def changed (t i op : Nat) (w : Word) : State := { sweeping 0 false 1 w with net := [(0, pkt 6 .arrived (.change t i op))], ids := 1 }

theorem meets_changes : (∀ x ∈ [(1, 0, 0, 0x10000#64), (1, 0, 1, 0), (1, 0, 2, 0x400#64), (1, 0, 0, 0), (1, 1, 0, 0), (2, 0, 0, 0)],
      arrivedAt (changed x.1 x.2.1 x.2.2.1 x.2.2.2) 0 = some (pkt 6 .arrived (.change x.1 x.2.1 x.2.2.1), 6)) ∧
    tget (ctxOf (changed 1 0 0 0) 6 0).descs 1 = some (sweepDesc 0 false) ∧ tget (ctxOf (changed 2 0 0 0) 6 0).descs 2 = none ∧
    (sweepDesc 0 false).count = 1 ∧ (sweepDesc 0 false).asleep = false ∧ MemoryCanonical (changed 1 0 0 0x10000#64) ∧
    frameHere (changed 1 0 0 0) 6 0 = true ∧ partOk (partOf (changed 1 0 0 0) 6 0) = true ∧
    holdsSlot (coreOf (changed 1 0 0 0) 6) 0 = true ∧ partOk 0 = false ∧ noteHeld (changed 1 0 0 0) 0 (pkt 6 .arrived (.change 1 0 0)) = false ∧
    noteHeld { sweeping 0 false 1 0 with net := [(0, pkt 6 .arrived (.value 1 0 5))], ids := 1 } 0 (pkt 6 .arrived (.value 1 0 5)) = false ∧
    recordLoc (changed 1 0 0 0) 6 0 (sweepDesc 0 false) 0 + 16 ≤ scratchBase 6 (partOf (changed 1 0 0 0) 6 0) + 0x200 ∧
    (elemWord (changed 1 0 0 0x10000#64) 6 0 (sweepDesc 0 false) 0).toNat / 2 ^ 16 % 2 ^ 16 ≠ 0 ∧
    (elemWord (changed 1 0 2 0x400#64) 6 0 (sweepDesc 0 false) 0).toNat / 2 ^ 8 % 16 = 4 ∧
    (elemWord (changed 1 0 0 0) 6 0 (sweepDesc 0 false) 0).toNat / 2 ^ 16 % 2 ^ 16 = 0 ∧
    arrivedAt { sweeping 0 false 1 0 with net := [(0, pkt 6 .arrived (.value 1 0 5))], ids := 1 } 0 =
      some (pkt 6 .arrived (.value 1 0 5), 6) := by simp only [MemoryCanonical]; decide +kernel

theorem meets_version_miss : ∀ x ∈ [true, false], let e : MissEntry := ⟨6, note 0 .message, 0, x, 0⟩
    (clauseOf (modClause one 0 (fun k => { k with missQueue := [(9, e)] })) (6 / 8)).missQueue = [(9, e)] ∧ e.core = 6 ∧ e.started = x := by
  decide +kernel

theorem meets_signature_events : (∀ k ∈ [4, 5], let s := modClause one 0 (fun c => { c with sigReqs := [⟨6, 0, 2, 1, k⟩] })
      (clauseOf s (6 / 8)).sigReqs = [⟨6, 0, 2, 1, k⟩] ∧ (sigFree (clauseOf s (6 / 8))).length = 4) ∧
    (∀ c ∈ [SigCmd.zero 1 5, .tag 1 5 6, .step 0 (Vector.replicate 16 0), .join 0 1 1, .log 0 1],
      let s := modClause (waiting (signed [c]) { wait0 0 0 with stage := 21 }) 0 (fun k => { k with sigCurrent := some (6, 0) })
      (clauseOf s (6 / 8)).sigLeases = [⟨6, 0, 2, 1, [2, 3], [c], 0, 0⟩] ∧ (clauseOf s (6 / 8)).sigCurrent = some (6, 0) ∧
        (waitAt s ⟨6, none⟩).map (fun w => w.stage) = some 21 ∧ ctxAt s ⟨6, none⟩ = 0) := by decide +kernel

theorem meets_join_tags : let slots := (clauseOf (modClause one 0 (fun k => { k with sigSlots := [(2, ⟨0, 5, []⟩)] })) 0).sigSlots
    (tgetD slots 2 ⟨0, 0, []⟩).endTag ≠ (tgetD slots 3 ⟨0, 0, []⟩).startTag ∧
      (tgetD slots 3 ⟨0, 0, []⟩).endTag = (tgetD slots 2 ⟨0, 0, []⟩).startTag := by decide +kernel

/-- The module powered, some stages complete. -/
def staged (n : Nat) : State := { State.reset with module := { State.reset.module with powered := true, stage := n } }

theorem meets_startup : (∀ n ∈ [0, 3, 4, 6], (staged n).module.stage = n ∧ (staged n).module.powered = true ∧ (staged n).module.halt = false ∧
      Part.stack 15 ∉ (staged n).module.fenced ∧ (staged n).module.fenced = [] ∧ MemoryCanonical (staged n)) ∧
    State.reset.module.facc0 = none ∧ State.reset.module.facc1 = none ∧ State.reset.module.modnum = none ∧
    (let m : Module := { State.reset.module with facc0 := some 0, facc1 := some 0, modnum := some 63 }
     m.facc0.isSome = true ∧ m.facc1.isSome = true ∧ m.modnum.isSome = true) ∧ ctxState homed 0 = 1 := by
  simp only [MemoryCanonical]; decide +kernel

theorem meets_no_context (x : Nat) : ctxState State.reset x ≠ 1 := by
  have p (l) : poisonedIn State.reset l 8 = none := if_neg (by decide)
  have b (l) : readByte State.reset l = 0 := rfl
  have h (l) : readNat State.reset l 8 = 0 := by simp [readNat, readBytes, b, List.range, List.range.loop, leNat]
  simp only [ctxState, ctxWord, tableWord, tableNat, p, h]; decide

theorem meets_part_failure : (∀ p ∈ [(Part.stack 15, 3), (.link 23, 4)], p.1 ∉ homed.module.fenced) ∧ homed.launches = [] ∧ homed.dies = [] ∧
    Part.stack 15 ∈ [Part.stack 15] := by decide +kernel

theorem meets_scrub : (1 : Nat) ∉ (onCore 8192).poison ∧ ownerOf (onCore 8192) (64 * 1) = 0 ∧
    (actAt (onCore 8192) ⟨8192, none⟩).isSome = true ∧ ownerOf (storeAt one 5 64 [1]) (64 * 1) ≠ 0 := by decide +kernel

/-- A notice waits; MSI-X vector 65,535 of port 7 goes to application core 31. -/
def noticing : State := { homed with module := { homed.module with notices := [[1, 2, 3, 4, 5]], msix := [(65536 * 7 + 65535, 31)] } }

theorem meets_notices : hostLoad noticing 8192 < 256 ∧ noticing.module.notices = [1, 2, 3, 4, 5] :: [] ∧
    tget noticing.module.msix (65536 * 7 + 65535) = some 31 ∧ partFenced noticing.module.fenced (.rootPort 7) = false ∧
    hostLoad noticing (8192 + 31 % 32) < 256 ∧ ctxState { noticing with module := { noticing.module with ctxtab := 0x200000#64 } } 0 ≠ 1 := by
  decide +kernel

/-- The notice handler lies outside the bounds of context 0, whose fault queue has room for one record, at 0x70000. -/
def misnoted : State :=
  let s := modCore noticing 8192 (fun k => { k with active := some ⟨0, some { Act.zero with pc := 0x10000#64, priv := true }⟩ })
  writeWord (writeWord (writeWord s 0 0x100008 0x20000#64) 0 0x100048 0x70000#64) 0 0x100050 1

theorem meets_misnoted : ctxState misnoted 0 = 1 ∧ handlerOk (tableEntry misnoted 0) misnoted.module.noticeh = false ∧ hostLoad misnoted 8192 < 256 ∧
    tgetD misnoted.faultCount 0 0 < (ctxWord misnoted 0 10).toNat ∧
    (match writeMem { misnoted with module := { misnoted.module with notices := [], noticesLost := 0 } } (recordWho misnoted 8192 0)
        (ctxWord misnoted 0 9 + BitVec.ofNat 64 (64 * tgetD misnoted.faultCount 0 0)) (List.replicate 64 0) with
      | .ok u _ => (actAt u ⟨8192, none⟩).isSome
      | _ => false) = true := by decide +kernel

/-- A function of a card: its table entry, of context 1 and the root of `one`, is present or not. -/
def cardReq (w : Bool) : PortReq := ⟨7, 65535, w, BitVec.ofNat 64 (Config.hbmBytes - 4), [1, 2, 3, 4], 4⟩
def carded (present : Bool) (leaf : Word) : State :=
  let s := { one with module := { one.module with pftab := 0x100000#64 } }
  let s := writeWord s 0 (functionLoc s (cardReq false)) (if present then 0x8000000000000001#64 else 0)
  let s := writeWord s 0 (functionLoc s (cardReq false) + 8) 0x20000#64
  writeWord s 0 0x20000 leaf

theorem meets_port_requests : partFenced (carded true 0xBF#64).module.fenced (.rootPort (cardReq true).port) = false ∧
    (readWord (carded false 0xBF#64) (functionLoc (carded false 0xBF#64) (cardReq true))).getLsbD 63 = false ∧
    (readWord (carded true 0xBF#64) (functionLoc (carded true 0xBF#64) (cardReq true))).getLsbD 63 = true ∧
    poisonedIn (carded true 0xBF#64) (functionLoc (carded true 0xBF#64) (cardReq true)) 16 = none ∧ (carded true 0xBF#64).heldPorts = false := by decide +kernel

/-- The state in which a request's function entry is in force, and the agent. -/
def cardState (s : State) (w : Bool) : State := (functionEntry (newId s) (cardReq w)).1
def cardWho (s : State) (w : Bool) : Who := portWho (cardState s w) s.ids (cardReq w) (functionEntry (newId s) (cardReq w)).2

theorem meets_port_accesses : let s := carded true 0xBF#64
    let a := (cardReq false).va.toNat
    let l : TlbEntry := ⟨0, 1, 0, 0xBF#64, BitVec.allOnes 64, 0x20000⟩
    (translateAll (cardState s false) (cardWho s false) .load [(a, 4)] = .ok [[(Config.hbmBytes - 4, none, 4)]] [l] ∧
      ownPending (commitLeaves (cardState s false) (cardWho s false) .load [l]) (cardWho s false).agent (Config.hbmBytes - 4) 4 = false) ∧
    (translateAll (cardState s true) (cardWho s true) .store [(a, 4)] = .ok [[(Config.hbmBytes - 4, none, 4)]] [l] ∧
      ownPending (commitLeaves (cardState s true) (cardWho s true) .store [l]) (cardWho s true).agent (Config.hbmBytes - 4) 4 = false ∧ s.memos = []) ∧
    (∃ v, translateAll (cardState (carded true 0xBB#64) false) (cardWho (carded true 0xBB#64) false) .load [(a, 4)] = .fault .read v) ∧
    (∃ va e, translateAll (cardState (carded true 0x3BF#64) false) (cardWho (carded true 0x3BF#64) false) .load [(a, 4)] = .wait va e) ∧
    tget (carded true 0xBF#64).module.portFns (65536 * (cardReq true).port + (cardReq true).requester) = none ∧
    (let t := { s with module := { s.module with portFns := [(65536 * 7 + 65535, (0, 0))] } }
     tget t.module.portFns (65536 * (cardReq true).port + (cardReq true).requester) = some (0, 0)) ∧ rangeOf (cardReq true).va = .paged := by
  refine ⟨by decide +kernel, by decide +kernel, ⟨BitVec.ofNat 64 (Config.hbmBytes - 4), by decide +kernel⟩,
    ⟨Config.hbmBytes - 4, .migrating 0x20000, by decide +kernel⟩, by decide +kernel, by decide +kernel, by decide +kernel⟩

/-- Core 5 is idle and quiet; core 6 waits for a store. -/
theorem meets_removal : isApp 5 = false ∧ (coreOf homed 5).successor = none ∧ removalReady (quiesce homed 5) 5 4 = true ∧
      removalReady (quiesce pending 6) 6 5 = false ∧
      (coreOf pending 6).successor = none ∧ homed.net = [] ∧ 5 / 8 = 4 / 8 ∧ (coreOf homed 5).phrase = none := by decide +kernel

/-- Fates: an application core; features off; lean cores that migrate and that do not; user mode. -/
theorem meets_fates : Solo (onCore 8192) ∧ isApp (runCore (onCore 8192)) = true ∧
    (∀ n ∈ [0, 1, 2, 3, 5, 9], Solo (without n one) ∧ featureFor (without n one) 0 n = false) ∧ isApp (runCore (onCore 0)) = false ∧
    runCore (onCore 0) % 8 < 6 ∧ featureFor (onCore 0) 0 3 = true ∧ featureFor (onCore 0) 0 5 = true ∧ canMigrate (onCore 0) = false ∧
    canMigrate (modCtx (onCore 0) 0 0 (fun x => { x with entry := { x.entry with migok := 1#64 } })) = true ∧
    Solo (modCtx (onCore 0) 0 0 (fun x => { x with entry := { x.entry with migok := 1#64 } })) ∧ (act user).priv = false ∧ Solo user := by
  simp only [Solo]; decide +kernel

/-- The state that a step of core 6's activation fetches in. -/
def stepping (s : State) : State := clearBoot { s with agenda := [], cur := ⟨6, none⟩ }
/-- What a fetch comes to: 0 bytes, with the instruction's bytes; 1 a fault; 2 a wait. -/
noncomputable def fetchKind (s : State) : Nat × List Byte :=
  match fetchBytes s (act s).pc with
  | .ok (_, bs) => (0, bs)
  | .error (.fault _ _ _) => (1, [])
  | .error (.wait _) => (2, [])
  | .error _ => (3, [])

/-- `one` with an empty fetch buffer. -/
def unfetched : State := setAct one { act one with fetch := [] }

theorem meets_step : (∀ s ∈ [one, moving], s.module.halt = false ∧ mayIssue { s with agenda := [] } ⟨6, none⟩ = true) ∧
    mayIssue { one with agenda := [] } ⟨5, none⟩ = false ∧ fetchKind (stepping one) = (0, [0x63, 0, 0, 0]) ∧
    fetchKind (stepping { placeBytes State.reset [2, 0] with cur := ⟨6, none⟩ }) = (0, [2, 0]) ∧ fetchKind (stepping moving) = (2, []) ∧
    fetchKind (stepping (setAct one { act one with pc := 0x40000000000#64 })) = (1, []) ∧
    (act (stepping unfetched)).fetch = [] ∧ (stepping unfetched).heldPorts = false ∧ mayIssue { unfetched with agenda := [] } ⟨6, none⟩ = true ∧
    (readByte (stepping unfetched) 0x10000).getLsbD 0 = true := by decide +kernel

theorem meets_step_words : decodeBytes [0x63, 0, 0, 0] = .ok (.nop, 4) ∧ decodeBytes [2, 0] = .error (.reservedHalfword 2) := ⟨rfl, rfl⟩

/-- A part to fence; an activation whose trap waits. -/
theorem meets_step_first : one.module.suspects = [] ∧ ({ one.module with suspects := [.link 3] } : Module).suspects = .link 3 :: [] ∧
    pendingTrap (stepping one) = none ∧
    (let s := waiting one { wait0 0 0 with trap := some (.misalign, 1, false) }
     pendingTrap (stepping s) = some (.misalign, 1, false) ∧ mayIssue { s with agenda := [] } ⟨6, none⟩ = true) := by decide +kernel

theorem meets_step_spans : (let f := pushLine (stepping unfetched) ⟨0x10000 / 64, readBytes (stepping unfetched) (0x10000 / 64 * 64) 64, (stepping unfetched).cyc⟩
     fetchSpan f 0x10000#64 4 = .ok [[(0x10000, none, 4)]] [leaf0] ∧ 0x10000 % 64 + 4 ≤ 64) ∧
    fetchSpan (stepping unfetched) 0x10000#64 2 = .ok [[(0x10000, none, 2)]] [leaf0] ∧
    fetchSpan (stepping unfetched) 0x10000#64 4 = .ok [[(0x10000, none, 4)]] [leaf0] ∧ (act (stepping unfetched)).pc = 0x10000#64 := by decide +kernel

/-- A walk of address 0x2003_0000 over three levels: nodes at 0x20000 and 0x40000, a leaf at level 3, each word as given. -/
def walked (w1 w2 w3 m3 : Word) : State :=
  let s := writeWord (writeWord one 0 0x20000 w1) 0 0x40010 w2
  let s := writeWord (writeWord s 0 0x60030 w3) 0 0x60038 m3
  s

theorem meets_walk_table : let s := walked 0x40001#64 0x60001#64 0x901BF#64 1
    let v : Nat := 0x20030004
    v < 2 ^ 55 ∧ poisonAbout s = false ∧ (tlbOf s (who s).tlb).find? (tlbCovers (who s).asid v) = none ∧ walkerFree s (who s) v = true ∧
      walkerFree walkersBusy (who walkersBusy) v = false ∧ (who s).root + 16 * (v / 2 ^ 42 % 8192) = 0x20000 ∧
      readWord s 0x20000 = 0x40001#64 ∧ readWord s (0x40000 + 16 * (v / 2 ^ 29 % 8192)) = 0x60001#64 ∧
      readWord s (0x60000 + 16 * (v / 2 ^ 16 % 8192)) = 0x901BF#64 ∧ inHbm 0x40000 = true ∧ inHbm 0x90000 = true ∧ MemoryCanonical s := by
  simp only [MemoryCanonical]; decide +kernel

/-- The words of each case: entry not valid, migrating, not resident, remote; a node; leaves of each permission. -/
theorem meets_walk_words : (0x40001#64).getLsbD 0 = true ∧ (0x40001#64).getLsbD 9 = false ∧ 0x40001#64 &&& 0xFFFF_0000_0000_E000#64 = 0 ∧
    (0x40001#64).getLsbD 1 = false ∧ (0x40001#64).getLsbD 12 = false ∧ (0x40001#64).getLsbD 16 = false ∧ (0x40001#64).extractLsb' 10 2 = 0 ∧
    (0#64).getLsbD 0 = false ∧ (0x201#64).getLsbD 9 = true ∧ (0x1001#64).getLsbD 12 = true ∧ (0x801#64).extractLsb' 10 2 = 2 ∧
    (0x901BF#64).getLsbD 1 = true ∧ 0x901BF#64 &&& 0xFFFF_0000_0000_E000#64 = 0 ∧ (0x901BF#64).getLsbD 6 = false ∧
    (0x901FF#64).getLsbD 6 = true ∧ (who user).priv = false ∧ (0x9019F#64).getLsbD 5 = false := by decide +kernel

theorem meets_walk_groups : (who one).group = some 0 ∧ (portWho one 0 (cardReq true) (0, 0)).group = none ∧ (1 : Word).getLsbD 0 = true ∧ (0 : Word).getLsbD 0 = false ∧
    (who user).group = some 0 := ⟨rfl, rfl, rfl, rfl, rfl⟩

theorem meets_encode : (Instr.oxldm 1 2 6).WellFormed ∧ (encode (.oxldm 1 2 6)).isSome = true ∧ (Instr.cJ 0x3FF).WellFormed ∧
    (encode (.cJ 0x3FF)).isSome = true := by decide +kernel

theorem meets_halted : State.reset.module.halt = false ∧ ({ State.reset.module with halt := true } : Module).halt = true := by decide

theorem meets_kept : MemoryCanonical one ∧ (∃ t, step { State.reset with agenda := [.pass 5] } = .next t) ∧
    MemoryCanonical { State.reset with agenda := [.pass 5] } := by
  refine ⟨by simp only [MemoryCanonical]; decide +kernel, ⟨_, rfl⟩, by simp only [MemoryCanonical]; decide +kernel⟩

/-! ### Well-formedness: an ill-formed term for each check -/

theorem wellFormed_refuses : ∀ i ∈ [Instr.oxldm 5 1 3, .oxstm 7 1 1, .fuse 1 0, .qpop 1 1, .qpush 0 1, .qpeek 1 2, .qdrop 2 1, .wid 1 6,
      .phreg 1 3, .gbind 3 0 1, .mlease false 1 0, .mlease true 1 5, .cMov 0 1, .cAdd 0 1, .cSub 0 1, .cAnd 0 1, .cOr 0 1, .cXor 0 1,
      .cAddi 0 1, .cLi 0 1, .cShli 0 1, .cShri 0 1, .cSari 0 1, .cQpop 0 0, .cQpop 1 1, .cQpush 3 1, .cLdd 0 1, .cLdw 0 1, .cLddr 0 1,
      .cJr 0, .cJalr 0, .linkGroupResend 24, .moduleLinkReceive 24 true (hostPkt plain), .msixVector 8 0,
      .portRequest ⟨8, 0, false, 0, [], 1⟩, .portRequest ⟨0, 65536, false, 0, [], 1⟩, .launchRequest 8, .launchJournaled 8,
      .consumeConfirmation 8 0, .activationMessageGenerate 8 0, .eventMirrorUpdate 0 8, .versionMissStart 8224, .activationStart 8224,
      .preemption 8224, .messageAging 8224 0, .switchComplete 8224, .streamInComplete 8224, .streamOutComplete 8224, .fuseTimeout 8224,
      .migrationComplete 8224 0, .donationLimit 8224, .engineUpcallStart 8224, .pageWalk 8224 0 .load, .readLineExpire 8224 0,
      .countPacketSend 8224 0, .mleaseGrant 1024, .leaseTurn 1024, .tileMoveComplete 1024, .leaseForfeit 1024, .matrixCommandRun 1024,
      .drainSizeReply 1024, .copyTransferComplete 1024 0, .copyPromiseExpire 1024 0, .copyCancelStop 1024 0, .collectiveStepRun 1024 0,
      .sweepBeat 8224, .signatureLeaseGrant 1024, .signatureCommandRun 1024, .evwaitTimeout 8224, .mwaitTimeout 8224, .wfeTimeout 8224,
      .sleepExpire 8224, .coreRemoval 8192 0, .coreRemoval 0 8192], i.wellFormed = false := by decide

theorem wellFormed_accepts : ∀ i ∈ [Instr.oxldm 5 1 2, .fuse 1 3, .qpop 1 3, .wid 1 5, .phreg 1 2, .gbind 2 15 1, .mlease true 1 4, .cStd 0 1,
    .msixVector 7 0, .coreRemoval 8191 0, .sweepBeat 8223], i.wellFormed = true := by decide

/-- Reserved fields, scopes, queue numbers, T bits and minors are refused: words from the encoding chapter's tables. -/
theorem words_refused : ∀ w ∈ [
    0b0000_00000_00000_00000_00001_011001_11, 0b0000_01100_00000_00000_00000_011000_11, 0b0010_00000_11000_01010_10001_000000_11,
    0b1000_00000_00000_01010_10001_000000_11, 0b0101_00011_00000_00000_00000_001100_11, 0b0000_00000_00001_00000_10001_011010_11,
    0b0000_00011_00011_01010_00101_001001_11, 0b0000_00000_00000_01010_01000_001001_11, 0b0001_00000_11000_01010_10001_100000_11,
    0b0001_00000_00000_01010_10001_100010_11, 0b0001_00010_00000_01010_10001_100100_11, 0b0000_00000_00101_00000_10001_101000_11,
    0b0000_00111_00000_00000_10001_011000_11, 0b0100_00000_00000_00000_00001_010110_11, 0b0011_00100_00000_01010_01101_011101_11],
    decode32 w = none := by decide

/-! ### Small single steps, with results worked out from the manual's text -/

/-- The state an instruction leaves. -/
def run (i : Instr) (s : State) : State :=
  match exec i s with
  | .next t => t
  | _ => s

/-- R284: a `.w` sum wraps and is sign-extended; the wide one is not. -/
theorem test_add : let s := withS one [(1, 0x7FFFFFFF#64), (2, 1)]
    rS (run (.add true 3 1 2) s) 3 = 0xFFFFFFFF80000000#64 ∧ rS (run (.add false 3 1 2) s) 3 = 0x80000000#64 := by decide +kernel

/-- R284: MIN.w gives the lesser of the low halves; SAR.w fills with bit 31 of the low half. -/
theorem test_word_forms : let s := withS one [(1, 0x1_8000_0000#64), (2, 4)]
    rS (run (.min true 3 1 2) s) 3 = 0xFFFFFFFF80000000#64 ∧ rS (run (.sar true 3 1 2) s) 3 = 0xFFFFFFFFF8000000#64 := by decide +kernel

/-- R284: MULHU and MULH of all ones. -/
theorem test_mulh : let s := withS one [(1, BitVec.allOnes 64)]
    rS (run (.mulhu false 3 1 1) s) 3 = 0xFFFFFFFFFFFFFFFE#64 ∧ rS (run (.mulh false 3 1 1) s) 3 = 0 := by decide +kernel

/-- R288: LUI shifts by 13 and extends bit 18; AUIPC adds to its own address. -/
theorem test_lui : rS (run (.lui 3 0x40000) one) 3 = 0xFFFFFFFF80000000#64 ∧ rS (run (.auipc 3 1) one) 3 = 0x12000#64 := by decide +kernel

/-- R93: a destination of s0 is discarded. -/
theorem test_s0 : rS (run (.addi 0 0 5) one) 0 = 0 ∧ (act (run (.addi 0 0 5) one)).pc = 0x10004#64 := by decide +kernel

/-- R292, R293: a byte load sign-extends; its destination may be its base. -/
theorem test_ldb : let s := withS (storeAt one 0 (window0Loc one (win 0 5)) [0x80]) [(1, win 0 6)]
    rS (run (.ldb 1 1 0x1FF) s) 1 = 0xFFFFFFFFFFFFFF80#64 := by decide +kernel

/-- R149: little-endian, last word of the scratchpad. -/
theorem test_std : let s := withS one [(1, win 0 131064), (2, 0x0102030405060708#64)]
    readBytes (run (.std 2 1 0) s) (window0Loc s (win 0 131064)) 8 = [8, 7, 6, 5, 4, 3, 2, 1] := by decide +kernel

/-- R292: a load past the scratchpad's end raises WINDOW with the address; the privileged context's activation traps to CR.TVEC. -/
theorem test_window : let t := run (.ldd 2 1 0) (withS one [(1, win 0 131072)])
    (act t).cr.tcause = BitVec.ofNat 64 Cause.window.code ∧ (act t).cr.tval = win 0 131072 ∧ (act t).cr.tpc = 0x10000#64 := by decide +kernel

/-- R303: a branch backwards by the largest distance. -/
theorem test_branch : (act (run (.beq 0 0 0x2000) one)).pc = 0xC000#64 ∧ (act (run (.bne 0 0 0x2000) one)).pc = 0x10004#64 := by decide +kernel

/-- R304: JALR links even where its destination is its base. -/
theorem test_jalr : let t := run (.jalr 1 1 2) (withS one [(1, 0x20000#64)])
    (act t).pc = 0x20002#64 ∧ rS t 1 = 0x10004#64 := by decide +kernel

/-- R299: AMIN is signed, in the 32-bit form too. -/
theorem test_amin : let s := withS (storeAt one 0 (window0Loc one (win 0 0)) [1, 0, 0, 0]) [(1, win 0 0), (2, 0xFFFFFFFF#64)]
    readNat (run (.amin false .core 3 1 2) s) (window0Loc s (win 0 0)) 4 = 0xFFFFFFFF ∧ rS (run (.amin false .core 3 1 2) s) 3 = 1 := by
  decide +kernel

/-- R115: TRAP's entry keeps its own address and the mode, and its immediate in CR.TVAL. -/
theorem test_trap : let t := run (.trap 0x3FF) one
    (act t).cr.tval = 0x3FF#64 ∧ (act t).cr.tpc = 0x10000#64 ∧ (act t).priv = true := by decide +kernel

/-- R320, R322: only the enabled lanes of a shift change, and its amount is taken modulo 32. -/
theorem test_vshl : let s := wP (wV (wV one 1 (Vector.replicate 16 1#32)) 2 (Vector.replicate 16 33#32)) 1 0x0002#16
    lane (rV (run (.vshl 1 3 1 2) s) 3) 1 = 2 ∧ lane (rV (run (.vshl 1 3 1 2) s) 3) 0 = 0 := by decide +kernel

/-- R323: 1.0 + 2.0 in binary32. -/
theorem test_vfadd : let s := wV (wV one 1 (Vector.replicate 16 0x3F800000#32)) 2 (Vector.replicate 16 0x40000000#32)
    lane (rV (run (.vfadd false 0 3 1 2) s) 3) 15 = 0x40400000#32 := by decide +kernel

/-- R323: 1.0 + 2.0 in binary64, lane 7 in lanes 14 and 15. -/
theorem test_vfadd_wide : let v : Nat → VReg := fun h => Vector.ofFn (fun i => if i.val % 2 = 0 then 0 else BitVec.ofNat 32 h)
    let s := wV (wV one 1 (v 0x3FF00000)) 2 (v 0x40000000)
    lane (rV (run (.vfadd true 0 3 1 2) s) 3) 15 = 0x40080000#32 := by decide +kernel

/-- R93: POR into p0 is discarded. -/
theorem test_por : rP (run (.por 0 1 1) one) 0 = 0xFFFF#16 := by decide +kernel

end Sys2Proof.Tests
end

section
/-!
SUPPORT. What the shared operations of the module's events leave alone: waits and wakes, messages, notices, packets, clauses.
-/

namespace Sys2Proof.Machine

/-! ### Clauses and contexts of a core -/

section Places
variable (s : State)

@[simp] theorem clauseOf_modClause_self (c : Nat) (f : Clause → Clause) : clauseOf (modClause s c f) c = f (clauseOf s c) := by
  simp [clauseOf, modClause]

@[simp] theorem coreOf_newId (c : Nat) : coreOf (newId s) c = coreOf s c := rfl
@[simp] theorem clauseOf_newId (c : Nat) : clauseOf (newId s) c = clauseOf s c := rfl
@[simp] theorem coreOf_modClause (c d : Nat) (f : Clause → Clause) : coreOf (modClause s c f) d = coreOf s d := rfl
@[simp] theorem ctxOf_modClause (c d x : Nat) (f : Clause → Clause) : ctxOf (modClause s c f) d x = ctxOf s d x := rfl
@[simp] theorem clauseOf_modCtx (c x d : Nat) (f : CtxCore → CtxCore) : clauseOf (modCtx s c x f) d = clauseOf s d := rfl

@[simp] theorem ctxOf_modCtx_self (c x : Nat) (f : CtxCore → CtxCore) : ctxOf (modCtx s c x f) c x = f (ctxOf s c x) := by
  simp [ctxOf, modCtx]

end Places

/-! ### Waits and wakes -/

section Waits
variable (k : Core) (f : Nat → Act → Wait → Wait)

@[simp] theorem mapWaits_waiting : (mapWaits k f).waiting = k.waiting := rfl
@[simp] theorem mapWaits_hostq : (mapWaits k f).hostq = k.hostq := rfl
@[simp] theorem mapWaits_msgIrq : (mapWaits k f).msgIrq = k.msgIrq := rfl
@[simp] theorem mapWaits_unacked : (mapWaits k f).unacked = k.unacked := rfl

/-- The activation in the active slot keeps everything but its wait. -/
theorem mapWaits_active : (mapWaits k f).active =
    k.active.map (fun x => { x with act := x.act.map (fun a => { a with wait := a.wait.map (f x.ctx a) }) }) := rfl

variable (s : State) (c d ctx prio : Nat)

@[simp] theorem arrivalWakes_net : (arrivalWakes s c ctx prio).net = s.net := rfl
@[simp] theorem arrivalWakes_mem : (arrivalWakes s c ctx prio).mem = s.mem := rfl
@[simp] theorem arrivalWakes_ids : (arrivalWakes s c ctx prio).ids = s.ids := rfl
@[simp] theorem clauseOf_arrivalWakes : clauseOf (arrivalWakes s c ctx prio) d = clauseOf s d := rfl

@[simp] theorem arrivalWakes_waiting : (coreOf (arrivalWakes s c ctx prio) c).waiting = (coreOf s c).waiting := by simp [arrivalWakes]
@[simp] theorem arrivalWakes_hostq : (coreOf (arrivalWakes s c ctx prio) c).hostq = (coreOf s c).hostq := by simp [arrivalWakes]
@[simp] theorem arrivalWakes_msgIrq : (coreOf (arrivalWakes s c ctx prio) c).msgIrq = (coreOf s c).msgIrq := by simp [arrivalWakes]

variable (ag : AgentId) (g : Wait → Wait)

@[simp] theorem answer_unacked : (coreOf (answer s ag g) c).unacked = (coreOf s c).unacked := by
  by_cases h : c = ag.core
  · subst h; simp [answer]
  · simp [answer, coreOf_modCore_ne _ _ h]

/-- An answer reaches the blocked activation of its agent's context in the active slot. -/
theorem actAt_answer {a : Act} {w : Wait} (ha : actAt s ⟨ag.core, none⟩ = some a) (hx : ctxAt s ⟨ag.core, none⟩ = ag.ctx) (hw : a.wait = some w) :
    actAt (answer s ag g) ⟨ag.core, none⟩ = some { a with wait := some (g w) } := by
  simp only [actAt, ctxAt] at ha hx
  cases hf : (coreOf s ag.core).active with
  | none => simp [hf] at ha
  | some f =>
    simp only [hf] at ha hx
    simp [actAt, answer, mapWaits_active, hf, ha, hx, hw]

end Waits

/-! ### Messages at a core -/

section Messages
variable (s : State) (c d n : Nat) (m : Msg)

@[simp] theorem enqueueMsg_net : (enqueueMsg s c m).net = s.net := rfl
@[simp] theorem enqueueMsg_mem : (enqueueMsg s c m).mem = s.mem := rfl
@[simp] theorem enqueueMsg_ids : (enqueueMsg s c m).ids = s.ids + 1 := rfl
@[simp] theorem clauseOf_enqueueMsg : clauseOf (enqueueMsg s c m) d = clauseOf s d := rfl

@[simp] theorem enqueueMsg_waiting : (coreOf (enqueueMsg s c m) c).waiting = (coreOf s c).waiting ++ [{ m with id := s.ids }] := by
  simp [enqueueMsg]

@[simp] theorem hostEnqueue_module : (hostEnqueue s c m).module = s.module := rfl

@[simp] theorem hostEnqueue_hostq : (coreOf (hostEnqueue s c m) c).hostq = (coreOf s c).hostq ++ [{ m with id := s.ids }] := by
  simp [hostEnqueue]

@[simp] theorem hostEnqueue_msgIrq : (coreOf (hostEnqueue s c m) c).msgIrq = true := by simp [hostEnqueue]

@[simp] theorem coreOf_takePkt : coreOf (takePkt s n) c = coreOf s c := rfl

end Messages

/-! ### What the state of a context rests on -/

theorem poisonedIn_congr {s t : State} (hp : t.poison = s.poison) (hf : t.module.fenced = s.module.fenced) (loc n : Nat) :
    poisonedIn t loc n = poisonedIn s loc n := by
  have h : poisoned t = poisoned s := by funext x; simp [poisoned, hp, hf]
  simp [poisonedIn, poisonAbout, hp, hf, h]

theorem tableWord_congr {s t : State} (hm : t.mem = s.mem) (hu : t.undef = s.undef) (hp : t.poison = s.poison)
    (hf : t.module.fenced = s.module.fenced) (loc : Nat) : tableWord t loc = tableWord s loc := by
  simp [tableWord, tableNat, poisonedIn_congr hp hf, readNat, readBytes, readByte_congr hm hu]

end Sys2Proof.Machine
end

section
/-!
SUPPORT. The events of the networks and of the message interfaces, by name: what `exec` makes of each.
-/

namespace Sys2Proof.Machine

variable (s : State) (n : Nat)

@[simp] theorem exec_meshPacketArrival : exec (.meshPacketArrival n) s = .next (meshPacketArrival s n) := rfl
@[simp] theorem exec_ringPacketArrival : exec (.ringPacketArrival n) s = .next (ringPacketArrival s n) := rfl
@[simp] theorem exec_moduleLinkReceive (link : Nat) (ok : Bool) (q : Packet) :
    exec (.moduleLinkReceive link ok q) s = .next (moduleLinkReceive s link ok q) := rfl
@[simp] theorem exec_linkGroupResend (link : Nat) : exec (.linkGroupResend link) s = .next s := rfl
@[simp] theorem exec_messageArrival : exec (.messageArrival n) s = .next (messageArrival s n) := rfl
@[simp] theorem exec_missQueueResend : exec (.missQueueResend n) s = .next (missQueueResend s n) := rfl
@[simp] theorem exec_messageCopyResend : exec (.messageCopyResend n) s = .next (messageCopyResend s n) := rfl
@[simp] theorem exec_remoteNackResend : exec (.remoteNackResend n) s = .next (remoteNackResend s n) := rfl
@[simp] theorem exec_storeAcknowledgement : exec (.storeAcknowledgement n) s = .next (storeAcknowledgement s n) := rfl

end Sys2Proof.Machine
end

section
/-!
SUPPORT. Hops over the mesh, the ring and the links (R14-R27): one lemma per outcome of a packet's cycle.
-/

namespace Sys2Proof.Machine

/-! ### The mesh (R23, R24) -/

section Mesh
variable {s : State} {n die cl : Nat} {p : Packet} {out : Bool}

/-- The router a mesh leg leads to: the edge port of the packet's plane, or the clause of its destination. -/
def meshTarget (p : Packet) (out : Bool) : Nat := if out then portRouter (planeOf p) else clauseInDie p.dst

theorem behind_via (hm : p.pos = .mesh die cl out) (v : Option Nat) : behind s n { p with via := v } = behind s n p := by
  simp only [behind, hm]

variable (hp : tget s.net n = some p) (hb : behind s n p = false) (hm : p.pos = .mesh die cl out)
include hp hb hm

theorem meshPacketArrival_target (h : cl = meshTarget p out) :
    meshPacketArrival s n = movePkt s n { p with via := some cl } (if out then .inject (Config.dieStop die) else .arrived) := by
  have hb' := (behind_via hm (some cl)).trans hb
  simp only [hm] at hb'
  simp only [meshTarget] at h
  simp only [meshPacketArrival, hp, hm, hb', ← h]
  cases out <;> simp

theorem meshPacketArrival_on (h : cl ≠ meshTarget p out) :
    meshPacketArrival s n = movePkt s n { p with via := some cl } (.mesh die (meshNext p.path cl (meshTarget p out)) out) := by
  have hb' := (behind_via hm (some cl)).trans hb
  simp only [hm] at hb'
  simp only [meshTarget] at h
  simp [meshPacketArrival, hp, hm, hb', h, meshTarget]

end Mesh

/-- One step along a row or column of 16 stays on it. -/
theorem toward_lt {a b : Nat} (ha : a < 16) (hb : b < 16) : (if a < b then a + 1 else if b < a then a - 1 else a) < 16 := by
  split_ifs <;> omega

/-- The router in a row and a column. -/
theorem router_row {r c : Nat} (hc : c < 16) : (r * 16 + c) / 16 = r := by omega

theorem router_col {r c : Nat} (hc : c < 16) : (r * 16 + c) % 16 = c := by omega

/-- A move along the column, as `meshNext` makes it. -/
theorem meshNext_row (cl to_ : Nat) :
    let k := cl / 16 * 16 + if cl % 16 < to_ % 16 then cl % 16 + 1 else if to_ % 16 < cl % 16 then cl % 16 - 1 else cl % 16
    k / 16 = cl / 16 ∧ (cl % 16 < to_ % 16 → k % 16 = cl % 16 + 1) ∧ (to_ % 16 < cl % 16 → k % 16 + 1 = cl % 16) := by
  have hc := toward_lt (Nat.mod_lt cl (by decide : 16 > 0)) (Nat.mod_lt to_ (by decide : 16 > 0))
  refine ⟨router_row hc, fun h => ?_, fun h => ?_⟩ <;> rw [router_col hc]
  · rw [if_pos h]
  · rw [if_neg (by omega), if_pos h]; omega

theorem meshNext_col (cl to_ : Nat) :
    let k := (if cl / 16 < to_ / 16 then cl / 16 + 1 else if to_ / 16 < cl / 16 then cl / 16 - 1 else cl / 16) * 16 + cl % 16
    k % 16 = cl % 16 ∧ (cl / 16 < to_ / 16 → k / 16 = cl / 16 + 1) ∧ (to_ / 16 < cl / 16 → k / 16 + 1 = cl / 16) := by
  have hc := Nat.mod_lt cl (by decide : 16 > 0)
  refine ⟨router_col hc, fun h => ?_, fun h => ?_⟩ <;> rw [router_row hc]
  · rw [if_pos h]
  · rw [if_neg (by omega), if_pos h]; omega

/-- One hop of a path: along the row first on an even path, along the column first on an odd one (R24). -/
theorem meshNext_leg (path cl to_ : Nat) :
    let k := meshNext path cl to_
    let first := if path % 2 = 0 then cl % 16 ≠ to_ % 16 else cl / 16 = to_ / 16
    (first → k / 16 = cl / 16 ∧ (cl % 16 < to_ % 16 → k % 16 = cl % 16 + 1) ∧ (to_ % 16 < cl % 16 → k % 16 + 1 = cl % 16)) ∧
    (¬ first → k % 16 = cl % 16 ∧ (cl / 16 < to_ / 16 → k / 16 = cl / 16 + 1) ∧ (to_ / 16 < cl / 16 → k / 16 + 1 = cl / 16)) := by
  have hrow := meshNext_row cl to_
  have hcol := meshNext_col cl to_
  unfold meshNext
  by_cases hpath : path % 2 = 0
  · by_cases h : cl % 16 = to_ % 16
    · simpa [hpath, h] using hcol
    · simpa [hpath, h] using hrow
  · by_cases h : cl / 16 = to_ / 16
    · simpa [hpath, h] using hrow
    · simpa [hpath, h] using hcol

/-! ### Slots and grants of a ring stop (R20, R21) -/

section Slots
variable {s : State} {p : Packet} {k : Nat}

theorem headerSlot_shared (h : slotsUsed s (ringNext k p.dir) (planeOf p) p.dir none < 16) : headerSlot s p k = some true := by
  simp [headerSlot, slotFree, h]

theorem headerSlot_escape (h : 16 ≤ slotsUsed s (ringNext k p.dir) (planeOf p) p.dir none)
    (h' : slotsUsed s (ringNext k p.dir) (planeOf p) p.dir (some (nextVc p k)) < 4) : headerSlot s p k = some false := by
  simp [headerSlot, slotFree, Nat.not_lt.2 h, h']

theorem headerSlot_none (h : 16 ≤ slotsUsed s (ringNext k p.dir) (planeOf p) p.dir none)
    (h' : 4 ≤ slotsUsed s (ringNext k p.dir) (planeOf p) p.dir (some (nextVc p k))) : headerSlot s p k = none := by
  simp [headerSlot, slotFree, Nat.not_lt.2 h, Nat.not_lt.2 h']

end Slots

/-- What is trimmed off a packet's flits is behind its first stop with a flit. -/
theorem trimSegs_head {g : RingSeg} (hg : g.flits ≠ 0) (l : List RingSeg) (rest : Nat) : (trimSegs (g :: l) rest).head? = some g := by
  unfold trimSegs
  split
  · rfl
  · have h : (l.reverse ++ [g]).dropWhile (fun g => g.flits == 0) ≠ [] := by
      intro e
      simpa [hg] using List.dropWhile_eq_nil_iff.1 e g (by simp)
    rw [List.reverse_cons, List.head?_reverse, List.dropWhile_append]
    split <;> simp [hg]

theorem trimSegs_single {g : RingSeg} (rest : Nat) (h : rest ≠ 0 ∨ g.flits ≠ 0) : trimSegs [g] rest = [g] := by
  unfold trimSegs
  rcases h with h | h <;> simp [h]

theorem trimSegs_empty {g : RingSeg} (h : g.flits = 0) : trimSegs [g] 0 = [] := by simp [trimSegs, h]

/-! ### A hop of the header (R19-R22) -/

section Hop
variable {s : State} {n k : Nat} {p : Packet}

/-- The header takes the hop that its stop grants, its payload flits behind it. -/
theorem ringHop_through {b : Bool} (hg : granted s p k false = true) (hs : headerSlot s p k = some b) :
    ∃ r : RingTrip, ringHop s n p k false = { s with
        net := tset s.net n { p with vc := nextVc p k, pos := .stop (ringNext k p.dir) b, ring := r }
        grants := tset s.grants (grantKey p k) (s.cyc, false) } ∧
      r.segs.head? = some ⟨ringNext k p.dir, b, nextVc p k, 1⟩ ∧ r.entry = p.ring.entry ∧ r.stamp = p.ring.stamp := by
  unfold ringHop
  rw [if_pos hg, hs]
  refine ⟨_, rfl, ?_, rfl, rfl⟩
  exact trimSegs_head Nat.one_ne_zero _ _

/-- A header that is granted no hop, or finds no slot, stays; what is behind it may follow. -/
theorem ringHop_stays (h : granted s p k false = false ∨ headerSlot s p k = none) :
    ∃ r : RingTrip, ringHop s n p k false = { s with net := tset s.net n { p with ring := r } } := by
  unfold ringHop
  rw [show (if granted s p k false then headerSlot s p k else none) = none by rcases h with h | h <;> simp [h]]
  exact ⟨_, rfl⟩

/-- A header enters the ring from its injection input. -/
theorem ringHop_enters {b : Bool} (hg : granted s p k true = true) (hs : headerSlot s p k = some b) :
    ringHop s n p k true = { s with
        ids := s.ids + 1
        net := tset s.net n { p with vc := nextVc p k, pos := .stop (ringNext k p.dir) b,
                                     ring := ⟨k, s.ids, [⟨ringNext k p.dir, b, nextVc p k, 1⟩], lenOf p⟩ }
        grants := tset s.grants (grantKey p k) (s.cyc, true) } := by
  unfold ringHop
  rw [if_pos hg, hs]
  simp [newId, trimSegs_single]

end Hop

/-! ### A flit leaves the ring (R23, R26) -/

section Drain
variable {s : State} {n k : Nat} {p : Packet} {g : RingSeg}

/-- The last flit leaves. -/
theorem ringDrain_last (hs : p.ring.segs = [g]) (hf : g.flits ≤ 1) (hr : p.ring.rest = 0) : ringDrain s n p k = ringExit s n p k := by
  have h0 : g.flits - 1 = 0 := by omega
  simp [ringDrain, hs, hr, followOn, followFrom, trimSegs_empty, h0]

/-- The flits that are still to come keep the packet on the ring. -/
theorem ringDrain_more (hs : p.ring.segs = [g]) (hr : p.ring.rest ≠ 0) :
    ∃ r : RingTrip, ringDrain s n p k = { s with net := tset s.net n { p with ring := r } } := by
  unfold ringDrain
  simp only [hs, followOn, followFrom]
  split
  · rw [trimSegs_single _ (Or.inr (Nat.succ_ne_zero _))]
    exact ⟨_, rfl⟩
  · rw [trimSegs_single _ (Or.inl hr)]
    exact ⟨_, rfl⟩

/-- A packet for this module leaves to the host die or a memory port, or into the mesh of its die. -/
theorem ringExit_here (h : moduleOf p.dst = moduleNumber s) :
    ringExit s n p k = if p.dst.host = true ∨ toMemory p.payload = true then movePkt s n { p with ring := RingTrip.off } .arrived
      else movePkt s n { p with ring := RingTrip.off, via := none } (.mesh (p.dst.addr % 8192 / 1024) (portRouter (planeOf p)) false) := by
  simp only [ringExit, h, if_true, Bool.or_eq_true]
  rfl

end Drain

/-! ### A packet's cycle on the ring -/

section Inject
variable {s : State} {n k : Nat} {p q : Packet} (hi : p.intact = true) (hh : headerBad p = false) (hq : injected s p k = q)
include hi hh hq

theorem ringInject_hop {x : Nat} (hx : exitStop s q = some x) (hne : x ≠ k) : ringInject s n p k = ringHop s n q k true := by
  simp [ringInject, hi, hh, hq, hx, hne]

theorem ringInject_noExit (hx : exitStop s q = none) : ringInject s n p k = ringFault s n q k 2 := by
  simp [ringInject, hi, hh, hq, hx]

end Inject

section Ring
variable {s : State} {n k : Nat} {p : Packet} {shared : Bool}
variable (hp : tget s.net n = some p) (hb : behind s n p = false)
include hp hb

theorem ringPacketArrival_inject (hk : p.pos = .inject k) : ringPacketArrival s n = ringInject s n p k := by
  simp [ringPacketArrival, hp, hb, hk]

theorem ringPacketArrival_damaged (hk : p.pos = .inject k ∨ ∃ shared, p.pos = .stop k shared) (hi : p.intact = false) :
    ringPacketArrival s n = ringFault s n p k 1 := by
  rcases hk with hk | ⟨_, hk⟩ <;> simp [ringPacketArrival, hp, hb, hk, hi, ringInject]

theorem ringPacketArrival_headerBad (hk : p.pos = .inject k ∨ ∃ shared, p.pos = .stop k shared) (hi : p.intact = true)
    (hh : headerBad p = true) : ringPacketArrival s n = ringFault s n p k 0 := by
  rcases hk with hk | ⟨_, hk⟩ <;> simp [ringPacketArrival, hp, hb, hk, hi, hh, ringInject]

variable (hi : p.intact = true) (hh : headerBad p = false)
include hi hh

theorem ringPacketArrival_stop {x : Nat} (hk : p.pos = .stop k shared) (hx : exitStop s p = some x) :
    ringPacketArrival s n = if x = k then ringDrain s n p k else ringHop s n p k false := by
  simp [ringPacketArrival, hp, hb, hk, hi, hh, hx]

/-- A packet for this module at an injection input: its direction is the shorter way. -/
theorem ringPacketArrival_entering {x : Nat} (hk : p.pos = .inject k) (hm : moduleOf p.dst = moduleNumber s) (hx : exitStop s p = some x)
    (hne : x ≠ k) : ringPacketArrival s n = ringHop s n { p with dir := ringDir k x, vc := false } k true := by
  have hin : injected s p k = { p with dir := ringDir k x, vc := false } := by simp [injected, withLink, hm, hx]
  rw [ringPacketArrival_inject hp hb hk]
  exact ringInject_hop hi hh hin hx hne

/-- A packet for a module to which no link leads is discarded. -/
theorem ringPacketArrival_noLink (hk : p.pos = .inject k) (hm : moduleOf p.dst ≠ moduleNumber s)
    (hl : tgetD s.module.linkTable (moduleOf p.dst) [] = []) : ringPacketArrival s n = ringFault s n { p with link := none } k 2 := by
  have hlink : linkFor s p = none := by simp [linkFor, hl, bestBy]
  have hex : exitStop s { p with link := none } = none := if_neg hm
  have hin : injected s p k = { p with link := none } := by simp [injected, withLink, hm, hlink, hex]
  rw [ringPacketArrival_inject hp hb hk]
  exact ringInject_noExit hi hh hin hex

end Ring

/-- A discarded packet is reported and its sender suspected, unless it only had no link. -/
theorem ringFault_suspects {s : State} {n : Nat} {p : Packet} {k code : Nat} (h : code ≠ 2) :
    ringFault s n p k code =
      let u := notice (if isMessage p then { s with net := tset s.net n { p with pos := .lost, ring := RingTrip.off } } else takePkt s n)
        5 [BitVec.ofNat 64 k, headerWord p, BitVec.ofNat 64 code, 0]
      { u with module := { u.module with suspects := u.module.suspects ++ (sendingPart u p).toList } } := by
  simp [ringFault, h]

theorem headerBad_iff (p : Packet) : headerBad p = true ↔ p.reserved ≠ 0 ∨ 4 < p.scope ∨ 16 < lenOf p := by
  simp [headerBad, or_assoc]

/-! ### A module link (R26, R34) -/

/-- A packet of a link's group as it stands at the link's stop. -/
def linked (link : Nat) (q : Packet) : Packet :=
  { q with pos := .inject (Config.linkStop link), dir := false, vc := false, link := some link, via := none, ring := RingTrip.off }

theorem moduleLinkReceive_eq (s : State) (link : Nat) (ok : Bool) (q : Packet) :
    moduleLinkReceive s link ok q =
      if ok = true ∧ link < 24 ∧ linksUp s = true ∧ partFenced s.module.fenced (.link link) = false then
        if q.intact = true ∧ headerBad q = false then launchPacket s (linked link q)
        else
          let u := notice s 5 [BitVec.ofNat 64 (32 + link), headerWord (linked link q), if headerBad q then 0 else 1, 0]
          { u with module := { u.module with suspects := u.module.suspects ++ [.link link] } }
      else s := by
  have hh : headerBad (linked link q) = headerBad q := rfl
  have hi : (linked link q).intact = q.intact := rfl
  have hm : moduleLinkReceive s link ok q = if !ok || 24 ≤ link || !linksUp s || partFenced s.module.fenced (.link link) then s
      else if !(linked link q).intact || headerBad (linked link q) then
        let u := notice s 5 [BitVec.ofNat 64 (32 + link), headerWord (linked link q), if headerBad (linked link q) then 0 else 1, 0]
        { u with module := { u.module with suspects := u.module.suspects ++ [.link link] } }
      else launchPacket s (linked link q) := rfl
  rw [hm, hh, hi]
  by_cases hok : ok = true ∧ link < 24 ∧ linksUp s = true ∧ partFenced s.module.fenced (.link link) = false
  · obtain ⟨h1, h2, h3, h4⟩ := hok
    cases hqi : q.intact <;> cases hqh : headerBad q <;> simp [h1, Nat.not_le.2 h2, h2, h3, h4]
  · rw [if_neg hok]
    refine if_pos (by_contra fun h => hok ?_)
    simp only [Bool.not_eq_true, Bool.or_eq_false_iff, Bool.not_eq_false', decide_eq_false_iff_not, Nat.not_le] at h
    obtain ⟨⟨⟨h1, h2⟩, h3⟩, h4⟩ := h
    exact ⟨h1, h2, h3, h4⟩

end Sys2Proof.Machine
end

section
/-!
SUPPORT. Messages at their interfaces (R30, R43, R46, R73, R241, R242, R344): taken, discarded, parked, refused, accepted, sent again.
-/

namespace Sys2Proof.Machine

/-! ### A packet that is a whole message -/

section Whole
variable {s : State} {n c : Nat} {p : Packet}
variable {ws : List Word} {code nosrc : Bool} {origin src seq : Nat} {wid wshape : Word} {work : Option LaunchRef}

/-- The message that a packet of a message carries, as it waits at a core. -/
def letterOf (s : State) (p : Packet) (ws : List Word) (origin : Nat) (nosrc : Bool) (src : Nat) (wid wshape : Word)
    (work : Option LaunchRef) (seq : Nat) : Msg :=
  ⟨s.ids, p.ctx, ws, origin, p.mprio, nosrc, src, wid, wshape, work, .message, 0, s.cyc, if origin = 0 then none else some (p.src, seq)⟩

variable (hpl : p.payload = .message ws code origin nosrc src wid wshape work seq)
include hpl

theorem msgOf_message : msgOf s p = some (letterOf s p ws origin nosrc src wid wshape work seq, code) := by
  simp only [msgOf, hpl, letterOf]

theorem wholeHere_message : wholeHere s p = true := by simp only [wholeHere, hpl]

theorem takeWhole_message : takeWhole s n p = takePkt s n := by simp [takeWhole, restOf, hpl]

/-- Taking a message notes its sequence number at the core. -/
theorem takeMsg_message : takeMsg s n c p = modCore (takePkt s n) c (fun k => { k with
    lastSeq := k.lastSeq.filter (fun x => x.1 != p.src || x.2.1 != p.dst) ++ [(p.src, p.dst, seq)] }) := by
  simp [takeMsg, takeWhole_message hpl, seqOf, hpl]

end Whole

/-- What taking a message leaves alone. -/
structure Taken (s t : State) (n c : Nat) : Prop where
  net : t.net = (takePkt s n).net
  mem : t.mem = s.mem
  undef : t.undef = s.undef
  poison : t.poison = s.poison
  ids : t.ids = s.ids
  cyc : t.cyc = s.cyc
  module : t.module = s.module
  clauses : t.clauses = s.clauses
  waiting : (coreOf t c).waiting = (coreOf s c).waiting
  hostq : (coreOf t c).hostq = (coreOf s c).hostq

theorem Taken.of_message {s : State} {n c : Nat} {p : Packet} {ws : List Word} {code nosrc : Bool} {origin src seq : Nat}
    {wid wshape : Word} {work : Option LaunchRef} (hpl : p.payload = .message ws code origin nosrc src wid wshape work seq) :
    Taken s (takeMsg s n c p) n c := by
  rw [takeMsg_message hpl]
  exact ⟨rfl, rfl, rfl, rfl, rfl, rfl, rfl, rfl, by simp, by simp⟩

/-! ### At a compute core -/

section Compute
variable {s : State} {n c : Nat} {p : Packet} {m : Msg} {code : Bool}
variable (ha : arrivedAt s n = some (p, c)) (hm : msgOf s p = some (m, code)) (hw : wholeHere s p = true) (hc : isApp c = false)
include ha hm hw hc

theorem messageArrival_duplicate (hd : duplicate s c p = true) : messageArrival s n = takeWhole s n p := by
  simp [messageArrival, ha, hm, hw, hc, hd]

theorem messageArrival_notLive (hd : duplicate s c p = false) (hl : ctxState s p.ctx ≠ 1) :
    messageArrival s n = undeliverable s n p m := by
  simp [messageArrival, ha, hm, hw, hc, hd, hl]

theorem messageArrival_live (hd : duplicate s c p = false) (hl : ctxState s p.ctx = 1) :
    messageArrival s n = if code then codeArrival s n c p m else missPass (takeMsg s n c p) c m := by
  simp [messageArrival, ha, hm, hw, hc, hd, hl]

end Compute

section Code
variable {s : State} {n c : Nat} {p : Packet} {m : Msg}

theorem codeArrival_passes (h : missOldest s (clauseOfCore c) c m.ctx (msgCodeId m) = none) (hp : codePasses s c m = true) :
    codeArrival s n c p m = missPass (takeMsg s n c p) c m := by simp [codeArrival, h, hp]

theorem codeArrival_refused (hp : codePasses s c m = false) (hq : 32 ≤ (clauseOf s (clauseOfCore c)).missQueue.length) :
    codeArrival s n c p m = movePkt s n p (.refused s.cyc) := by
  have hr : missRoom s (clauseOfCore c) = 0 := Nat.sub_eq_zero_of_le hq
  simp [codeArrival, hp, hr]

theorem codeArrival_parks (hp : codePasses s c m = false) (hq : (clauseOf s (clauseOfCore c)).missQueue = []) :
    codeArrival s n c p m = missArrive (takeMsg s n c p) (clauseOfCore c) c m (headerWord p) := by
  simp [codeArrival, hp, missRoom, hq]

/-- A message that goes on to its core waits there under the next id. -/
theorem missPass_waits (s : State) (c : Nat) (m : Msg) :
    (missPass s c m).net = s.net ∧ (missPass s c m).mem = s.mem ∧ (missPass s c m).ids = s.ids + 1 ∧
    (coreOf (missPass s c m) c).waiting = (coreOf s c).waiting ++ [{ m with id := s.ids, since := s.cyc }] := by
  simp [missPass]

end Code

/-! ### A code message of a wrong version, before an empty miss queue (R241, R242) -/

section Miss
variable {s : State} {cl c : Nat} {m : Msg} {header : Word} (hq : (clauseOf s cl).missQueue = [])
include hq

theorem missOldest_empty (core ctx id : Nat) : missOldest s cl core ctx id = none := by simp [missOldest, hq, bestBy]

/-- The message parks at entry 0. -/
theorem missPark_empty : missPark s cl c m header = modClause (newId s) cl (fun k => { k with missQueue := [(0, ⟨c, m, s.ids, false, header⟩)] }) := by
  have h0 : ((List.range 32).find? (fun i => (tget ([] : Tab MissEntry) i).isNone)).getD 31 = 0 := by decide
  simp only [missPark, hq, h0, modClause]
  congr 3
  simp [hq, tset]

theorem missOldest_park : missOldest (missPark s cl c m header) cl c m.ctx (msgCodeId m) = some (0, ⟨c, m, s.ids, false, header⟩) := by
  rw [missPark_empty hq]
  simp [missOldest, missKey, bestBy]

omit hq in
theorem codePasses_congr {t : State} (h : (clauseOf t (clauseOfCore c)).lexicon = (clauseOf s (clauseOfCore c)).lexicon) :
    codePasses t c m = codePasses s c m := by simp [codePasses, slotOf, h]

omit hq in
theorem ctxState_congr {t : State} (hm : t.mem = s.mem) (hu : t.undef = s.undef) (hp : t.poison = s.poison)
    (ht : t.module.ctxtab = s.module.ctxtab) (hf : t.module.fenced = s.module.fenced) (x : Nat) : ctxState t x = ctxState s x := by
  simp [ctxState, ctxWord, ctxEntryLoc, ht, tableWord_congr hm hu hp hf]

/-- Its check fails, and its version miss waits for its turn. -/
theorem missArrive_fails (hcl : cl = clauseOfCore c) (hl : ctxState s m.ctx = 1) (hp : codePasses s c m = false) :
    missArrive s cl c m header = missFailed (missPark s cl c m header) cl 0 ⟨c, m, s.ids, false, header⟩ := by
  have hlex : (clauseOf (missPark s cl c m header) (clauseOfCore c)).lexicon = (clauseOf s (clauseOfCore c)).lexicon := by
    rw [missPark_empty hq, ← hcl]; simp
  have hlive : ctxState (missPark s cl c m header) m.ctx = 1 := by
    rw [missPark_empty hq]; exact (ctxState_congr rfl rfl rfl rfl rfl _).trans hl
  simp [missArrive, missOldest_empty hq, missRecheck, missOldest_park hq, hlive, codePasses_congr hlex, hp]

theorem missArrive_waits (hcl : cl = clauseOfCore c) (hl : ctxState s m.ctx = 1) (hp : codePasses s c m = false) :
    (missArrive s cl c m header).net = s.net ∧
    (clauseOf (missArrive s cl c m header) cl).missQueue = [(0, ⟨c, m, s.ids, true, header⟩)] ∧
    (coreOf (missArrive s cl c m header) c).waiting = (coreOf s c).waiting ++
      [⟨s.ids + 1, m.ctx, m.words.take 2, 2, 3, m.nosrc, m.src, 0, 0, none, .versionMiss 0, 0, s.cyc, none⟩] := by
  rw [missArrive_fails hq hcl hl hp, missPark_empty hq]
  refine ⟨rfl, ?_, ?_⟩
  · simp [missFailed, tset]
  · simp [missFailed, engineMsg]

end Miss

/-! ### At an application core (R30) -/

theorem hostMessageArrival_live {s : State} {n c : Nat} {p : Packet} {m : Msg} {code : Bool} (ha : arrivedAt s n = some (p, c))
    (hm : msgOf s p = some (m, code)) (hc : isApp c = true) (hd : duplicate s c p = false) (hl : ctxState s p.ctx = 1)
    (hq : (coreOf s c).hostq.length < 256) :
    hostMessageArrival s n = acceptMsg (hostEnqueue (takeMsg s n c p) c m) c m 0 := by
  simp [hostMessageArrival, ha, hm, hc, hd, hl, Nat.not_le.2 hq]

/-- Returning an acceptance changes no core, and sends it to the message's sender. -/
theorem acceptMsg_sends (s : State) (c : Nat) (m : Msg) (st : Nat) :
    (acceptMsg s c m st).cores = s.cores ∧
    ∀ d seq, m.sender = some (d, seq) → ∃ q, tget (acceptMsg s c m st).net s.ids = some q ∧ q.payload = .accepted seq st ∧ q.dst = d := by
  unfold acceptMsg
  refine ⟨by split <;> rfl, fun d seq h => ?_⟩
  simp [h, sendPkt, launchPacket, mkPacket]

/-! ### A packet of a message for a live context -/

section Live
variable {s : State} {n c : Nat} {p : Packet}
variable {ws : List Word} {code nosrc : Bool} {origin src seq : Nat} {wid wshape : Word} {work : Option LaunchRef}
variable (hpl : p.payload = .message ws code origin nosrc src wid wshape work seq)
variable (ha : arrivedAt s n = some (p, c)) (hl : ctxState s p.ctx = 1) (hd : duplicate s c p = false)
include hpl ha hl hd

/-- It waits at a compute core: it is no code, or passes the check of code. -/
theorem messageArrival_waits (hc : isApp c = false)
    (hpass : code = false ∨ missOldest s (c / 8) c p.ctx (msgCodeId (letterOf s p ws origin nosrc src wid wshape work seq)) = none ∧
      codePasses s c (letterOf s p ws origin nosrc src wid wshape work seq) = true) :
    ∃ t, exec (.messageArrival n) s = .next t ∧ t.net = (takePkt s n).net ∧
      (coreOf t c).waiting = (coreOf s c).waiting ++ [letterOf s p ws origin nosrc src wid wshape work seq] ∧ t.ids = s.ids + 1 ∧ t.mem = s.mem := by
  have ht : Taken s (takeMsg s n c p) n c := .of_message hpl
  have heq : messageArrival s n = missPass (takeMsg s n c p) c (letterOf s p ws origin nosrc src wid wshape work seq) := by
    rw [messageArrival_live ha (msgOf_message hpl) (wholeHere_message hpl) hc hd hl]
    rcases hpass with hcode | ⟨ho, hpass⟩
    · rw [hcode]; rfl
    · rw [codeArrival_passes ho hpass, ite_self]
  obtain ⟨hnet, hmem, hids, hwait⟩ := missPass_waits (takeMsg s n c p) c (letterOf s p ws origin nosrc src wid wshape work seq)
  refine ⟨_, congrArg Host.Outcome.next heq, hnet.trans ht.net, ?_, by rw [hids, ht.ids], hmem.trans ht.mem⟩
  rw [hwait, ht.waiting, ht.ids, ht.cyc]
  rfl

/-- It is code that fails its check, and enters the miss queue. -/
theorem messageArrival_misses (hc : isApp c = false) (hcode : code = true)
    (hfail : codePasses s c (letterOf s p ws origin nosrc src wid wshape work seq) = false) (hq : (clauseOf s (c / 8)).missQueue = []) :
    ∃ t, exec (.messageArrival n) s = .next t ∧ t.net = (takePkt s n).net ∧
      (clauseOf t (c / 8)).missQueue = [(0, ⟨c, letterOf s p ws origin nosrc src wid wshape work seq, s.ids, true, headerWord p⟩)] ∧
      (coreOf t c).waiting = (coreOf s c).waiting ++
        [⟨s.ids + 1, p.ctx, ws.take 2, 2, 3, nosrc, src, 0, 0, none, .versionMiss 0, 0, s.cyc, none⟩] := by
  have ht : Taken s (takeMsg s n c p) n c := .of_message hpl
  have hcl (d) : clauseOf (takeMsg s n c p) d = clauseOf s d := by simp [clauseOf, ht.clauses]
  have hlive : ctxState (takeMsg s n c p) p.ctx = 1 :=
    (ctxState_congr ht.mem ht.undef ht.poison (by rw [ht.module]) (by rw [ht.module]) _).trans hl
  obtain ⟨hnet, hmiss, hwait⟩ := missArrive_waits (s := takeMsg s n c p) (c := c)
    (m := letterOf s p ws origin nosrc src wid wshape work seq) (header := headerWord p) ((congrArg Clause.missQueue (hcl _)).trans hq) rfl hlive
    ((codePasses_congr (congrArg Clause.lexicon (hcl _))).trans hfail)
  refine ⟨_, congrArg Host.Outcome.next ?_, hnet.trans ht.net, ?_, ?_⟩
  · rw [messageArrival_live ha (msgOf_message hpl) (wholeHere_message hpl) hc hd hl, if_pos hcode, codeArrival_parks hfail hq]; rfl
  · rw [hmiss, ht.ids]
  · rw [hwait, ht.waiting, ht.ids, ht.cyc]
    rfl

/-- It enters the receive queue of an application core, and is accepted. -/
theorem hostMessageArrival_enters (hc : isApp c = true) (hq : (coreOf s c).hostq.length < 256) :
    ∃ t, exec (.hostMessageArrival n) s = .next t ∧
      (coreOf t c).hostq = (coreOf s c).hostq ++ [letterOf s p ws origin nosrc src wid wshape work seq] ∧ (coreOf t c).msgIrq = true ∧
      (origin ≠ 0 → ∃ q, tget t.net (s.ids + 1) = some q ∧ q.payload = .accepted seq 0 ∧ q.dst = p.src) := by
  have ht : Taken s (takeMsg s n c p) n c := .of_message hpl
  have heq := hostMessageArrival_live ha (msgOf_message hpl) hc hd hl hq
  obtain ⟨hcores, hsend⟩ := acceptMsg_sends (hostEnqueue (takeMsg s n c p) c (letterOf s p ws origin nosrc src wid wshape work seq)) c
    (letterOf s p ws origin nosrc src wid wshape work seq) 0
  have hcore := congrArg (fun k => tgetD k c Core.init) hcores
  refine ⟨_, congrArg Host.Outcome.next heq, ?_, ?_, fun ho => ?_⟩
  · exact (congrArg Core.hostq hcore).trans (by rw [← coreOf, hostEnqueue_hostq, ht.hostq, ht.ids]; rfl)
  · exact (congrArg Core.msgIrq hcore).trans (hostEnqueue_msgIrq ..)
  · rw [← ht.ids]
    exact hsend p.src seq (if_neg ho)

end Live

/-! ### Acceptances, resends and acknowledgements -/

section Accepted
variable {s : State} {n c seq st : Nat} {p : Packet} (ha : arrivedAt s n = some (p, c)) (hpl : p.payload = .accepted seq st)

/-- The sender's side once an acceptance has come: its copy is gone, and what is still on the network of the message too. -/
def acceptedAt (s : State) (n c seq : Nat) (p : Packet) : State :=
  let t := dropCopy (takePkt s n) c seq
  { t with net := t.net.filter (fun m => !(m.2.src == p.dst && seqOf m.2 == some seq)) }

theorem acceptedAt_unacked : (coreOf (acceptedAt s n c seq p) c).unacked = (coreOf s c).unacked.filter (fun u => u.seq ≠ seq) := by
  have h : coreOf (acceptedAt s n c seq p) c = coreOf (dropCopy (takePkt s n) c seq) c := rfl
  rw [h]
  simp only [dropCopy, coreOf_modCore_self, coreOf_takePkt]
  exact List.filter_congr fun u _ => by by_cases h : u.seq = seq <;> simp [h]

theorem active_acceptedAt : (coreOf (acceptedAt s n c seq p) c).active = (coreOf s c).active := by
  have h : coreOf (acceptedAt s n c seq p) c = coreOf (dropCopy (takePkt s n) c seq) c := rfl
  rw [h]
  simp [dropCopy]

include ha hpl

theorem messageAcceptanceNotice_eq : messageAcceptanceNotice s n = answer (acceptedAt s n c seq p) ⟨c, p.ctx, 0⟩
    (fun w => if w.stage = 1 ∧ w.tags.contains seq then { w with tags := [], reply := some (BitVec.ofNat 64 st) } else w) := by
  simp only [messageAcceptanceNotice, ha, hpl, acceptedAt]

end Accepted

section Resend
variable {s : State} {n c y : Nat} {p : Packet} (hp : tget s.net n = some p)

theorem tget_restart : tget (restart s n p).net n = some { p with
    intact := true, link := none, vc := false, dir := false, via := none, ring := RingTrip.off, pos := startPos p.src p.dst p.payload } := by
  simp [restart, movePkt]

include hp

theorem missQueueResend_room (hy : p.pos = .refused y) (hc : takerOf s p.dst = some c) (hm : isMessage p = true)
    (hq : (clauseOf s (clauseOfCore c)).missQueue.length < 32) : missQueueResend s n = restart s n p := by
  have hr : missRoom s (clauseOfCore c) ≠ 0 := Nat.sub_ne_zero_of_lt hq
  simp [missQueueResend, hp, hy, hc, hm, hr]

theorem messageCopyResend_lost (hl : p.pos = .lost) (hm : isMessage p = true) : messageCopyResend s n = restart s n p := by
  simp [messageCopyResend, hp, hm, hl]

theorem remoteNackResend_refused (hy : p.pos = .refused y) (hk : kindOf p = 1) :
    remoteNackResend s n = if 64 ≤ s.cyc - y then restart s n p else s := by
  simp [remoteNackResend, hp, hy, hk]

end Resend

/-- An acknowledgement that answers no access at a link is taken off, and nothing else. -/
theorem storeAcknowledgement_taken {s : State} {n c off path : Nat} {p : Packet} {a : AgentId} (ha : arrivedAt s n = some (p, c))
    (hpl : p.payload = .ack a off path) (hl : ∀ m ∈ s.net, ∀ l, m.2.pos ≠ .link l) : storeAcknowledgement s n = takePkt s n := by
  have hnone : (takePkt s n).net.find? (fun m => ackedBy p m.2 a off path) = none := by
    refine List.find?_eq_none.2 fun m hm => ?_
    have hpos := hl m (mem_tdel hm)
    unfold ackedBy
    cases hx : m.2.pos with
    | link l => exact absurd hx (hpos l)
    | _ => simp
  simp only [storeAcknowledgement, ha, hpl, hnone]

end Sys2Proof.Machine
end

section
/-!
SUPPORT. The networks and the message interfaces: the obligation, from one lemma per outcome of an event.
-/

open Sys2Proof Sys2Proof.Machine

/-- Settles O42: each clause is the lemma about that outcome of the event. -/
theorem networkAndMessageEvents : Obligations.NetworkAndMessageEvents := by
  unfold Obligations.NetworkAndMessageEvents
  refine ⟨fun s n p hp hb => ⟨fun die cl out hm => ?_, ⟨fun k hk => ?_,
    fun hi hh => ⟨fun k shared x hk hx => ?_, fun k x hk hm hx hne _ _ => ?_, fun k hk hm hl => ?_⟩⟩,
    fun link ok q => ?_, fun link => exec_linkGroupResend s link⟩, fun s n c p => ?_⟩
  · refine ⟨fun h => ?_, fun h => ⟨meshNext p.path cl (meshTarget p out), ?_, meshNext_leg p.path cl (meshTarget p out)⟩⟩
    · rw [exec_meshPacketArrival, meshPacketArrival_target hp hb hm h]
    · rw [exec_meshPacketArrival, meshPacketArrival_on hp hb hm h]
  · refine ⟨fun hi => ?_, fun hi hbad => ?_⟩
    · rw [exec_ringPacketArrival, ringPacketArrival_damaged hp hb hk hi, ringFault_suspects (by decide)]
    · rw [exec_ringPacketArrival, ringPacketArrival_headerBad hp hb hk hi ((headerBad_iff p).2 hbad), ringFault_suspects (by decide)]
  · have hstop := ringPacketArrival_stop hp hb hi hh hk hx
    simp only [exec_ringPacketArrival, hstop, Host.Outcome.next.injEq]
    refine ⟨fun hne hg hs => ?_, fun hne hg hs he => ?_, fun hne h => ?_, fun he hm hr ⟨g, hg, hf⟩ => ?_, fun he hr ⟨g, hg⟩ => ?_⟩
    · rw [if_neg hne]
      exact ringHop_through hg (headerSlot_shared hs)
    · rw [if_neg hne]
      exact ringHop_through hg (headerSlot_escape hs he)
    · rw [if_neg hne]
      exact ringHop_stays (h.imp_right fun ⟨hs, he⟩ => headerSlot_none hs he)
    · rw [if_pos he, ringDrain_last hg hf hr, ringExit_here hm]
      rfl
    · rw [if_pos he]
      exact ringDrain_more hg hr
  · intro down to_ vc q hg hs
    rw [exec_ringPacketArrival, ringPacketArrival_entering hp hb hi hh hk hm hx hne]
    exact congrArg _ (ringHop_enters hg (headerSlot_shared hs))
  · rw [exec_ringPacketArrival, ringPacketArrival_noLink hp hb hi hh hk hm hl]
    rfl
  · rw [exec_moduleLinkReceive, moduleLinkReceive_eq]
    rfl
  · refine ⟨?_, ?_, fun seq st ha hpl => ?_, fun hp => ⟨fun y hy hc hm hq => ?_, fun hl hm => ?_, fun y hy hk => ?_, tget_restart⟩,
      fun a off path ha hpl hl => ?_⟩
    · intro ha hl ws code origin nosrc src wid wshape work seq hpl m gone
      have hm : msgOf s p = some (m, code) := msgOf_message hpl
      have hw := wholeHere_message (s := s) hpl
      refine ⟨fun hc hd => ?_, fun hc hd hpass => ?_, fun hc hd hcode hfail hq => ?_, fun hc hd hcode hfail hq => ?_, fun hc hd hq => ?_⟩
      · rw [exec_messageArrival, messageArrival_duplicate ha hm hw hc hd, takeWhole_message hpl]
      · exact messageArrival_waits hpl ha hl hd hc hpass
      · rw [exec_messageArrival, messageArrival_live ha hm hw hc hd hl, if_pos hcode, codeArrival_refused hfail hq]
      · exact messageArrival_misses hpl ha hl hd hc hcode hfail hq
      · exact hostMessageArrival_enters hpl ha hl hd hc hq
    · intro ha hc hd hl ws code nosrc src wid wshape work seq hpl
      rw [exec_messageArrival, messageArrival_notLive ha (msgOf_message hpl) (wholeHere_message hpl) hc hd hl, undeliverable,
        takeWhole_message hpl]
      rfl
    · refine ⟨_, congrArg Host.Outcome.next (messageAcceptanceNotice_eq ha hpl),
        (answer_unacked ..).trans acceptedAt_unacked, fun a w hact hx hw hst htag => ?_⟩
      have hact' : actAt (acceptedAt s n c seq p) ⟨c, none⟩ = some a := by simpa [actAt, active_acceptedAt] using hact
      have hx' : ctxAt (acceptedAt s n c seq p) ⟨c, none⟩ = p.ctx := by simpa [ctxAt, active_acceptedAt] using hx
      rw [actAt_answer _ ⟨c, p.ctx, 0⟩ _ hact' hx' hw]
      simp [hst, htag]
    · rw [exec_missQueueResend, missQueueResend_room hp hy hc hm hq]
    · rw [exec_messageCopyResend, messageCopyResend_lost hp hl hm]
    · rw [exec_remoteNackResend, remoteNackResend_refused hp hy hk]
    · rw [exec_storeAcknowledgement, storeAcknowledgement_taken ha hpl hl]
end

section
/-!
SUPPORT. Leases of the matrix engine (R217-R220, R377): how the lease table changes, grants, turns and forfeits.
-/

namespace Sys2Proof.Machine

section Events
variable (s : State) (cl : Nat)

@[simp] theorem exec_mleaseGrant : exec (.mleaseGrant cl) s = .next (mleaseGrant s cl) := rfl
@[simp] theorem exec_tileMoveComplete : exec (.tileMoveComplete cl) s = .next (tileMoveComplete s cl) := rfl
@[simp] theorem exec_leaseTurn : exec (.leaseTurn cl) s = .next (leaseTurn s cl) := rfl
@[simp] theorem exec_leaseForfeit : exec (.leaseForfeit cl) s = .next (leaseForfeit s cl) := rfl
@[simp] theorem exec_matrixCommandRun : exec (.matrixCommandRun cl) s = .next (matrixCommandRun s cl) := rfl
@[simp] theorem exec_drainSizeReply : exec (.drainSizeReply cl) s = .next (drainSizeReply s cl) := rfl

end Events

/-! ### What an agent forgets -/

/-- Forgetting an agent's accesses changes the notes of accesses alone. -/
theorem forget_eq (s : State) (core ctx unit : Nat) :
    forget s core ctx unit = { s with memos := s.memos.filter (fun m => !(m.core == core && m.ctx == ctx && m.unit == unit)) } := by
  unfold forget
  split
  · rename_i h
    rw [List.isEmpty_iff.1 h]
    exact congrArg (fun m => { s with memos := m }) (List.isEmpty_iff.1 h)
  · rfl

section Forget
variable (s : State) (core ctx unit c : Nat)

@[simp] theorem forget_mem : (forget s core ctx unit).mem = s.mem := by rw [forget_eq]
@[simp] theorem forget_undef : (forget s core ctx unit).undef = s.undef := by rw [forget_eq]
@[simp] theorem forget_net : (forget s core ctx unit).net = s.net := by rw [forget_eq]
@[simp] theorem forget_module : (forget s core ctx unit).module = s.module := by rw [forget_eq]
@[simp] theorem forget_cores : (forget s core ctx unit).cores = s.cores := by rw [forget_eq]
@[simp] theorem clauseOf_forget : clauseOf (forget s core ctx unit) c = clauseOf s c := by rw [forget_eq]; rfl
@[simp] theorem coreOf_forget : coreOf (forget s core ctx unit) c = coreOf s c := by rw [forget_eq]; rfl

end Forget

/-! ### The lease table -/

theorem replaceFirst_head {α : Type} {p : α → Bool} {f : α → α} {x : α} {r : List α} (h : p x = true) :
    replaceFirst p f (x :: r) = f x :: r := by simp [replaceFirst, h]

section Table
variable {s : State} {cl : Nat} {l : Lease}

@[simp] theorem clauseOf_modLease (s : State) (cl core ctx : Nat) (f : Lease → Lease) :
    clauseOf (modLease s cl core ctx f) cl =
      { clauseOf s cl with leases := replaceFirst (fun l => l.core == core && l.ctx == ctx) f (clauseOf s cl).leases } := by
  simp [modLease]

@[simp] theorem modLease_net (s : State) (cl core ctx : Nat) (f : Lease → Lease) : (modLease s cl core ctx f).net = s.net := rfl
@[simp] theorem modLease_mem (s : State) (cl core ctx : Nat) (f : Lease → Lease) : (modLease s cl core ctx f).mem = s.mem := rfl
@[simp] theorem modLease_cyc (s : State) (cl core ctx : Nat) (f : Lease → Lease) : (modLease s cl core ctx f).cyc = s.cyc := rfl
@[simp] theorem coreOf_modLease (s : State) (cl core ctx c : Nat) (f : Lease → Lease) : coreOf (modLease s cl core ctx f) c = coreOf s c := rfl

@[simp] theorem ctxOf_modLease (s : State) (cl core ctx c x : Nat) (f : Lease → Lease) : ctxOf (modLease s cl core ctx f) c x = ctxOf s c x := rfl

/-- The first lease of a table, changed. -/
theorem leases_modLease {r : List Lease} (h : (clauseOf s cl).leases = l :: r) (f : Lease → Lease) :
    (clauseOf (modLease s cl l.core l.ctx f) cl).leases = f l :: r := by
  simp [h, replaceFirst]

/-- The first lease of a table is the lease of its core and context. -/
theorem leaseOf_first {r : List Lease} (h : (clauseOf s cl).leases = l :: r) (hc : clauseOfCore l.core = cl) :
    leaseOf s l.core l.ctx = some l := by simp [leaseOf, hc, h]

theorem currentLease_first {r : List Lease} (h : (clauseOf s cl).leases = l :: r) (hc : clauseOfCore l.core = cl)
    (hcur : (clauseOf s cl).current = some (l.core, l.ctx)) : currentLease s cl = some l := by
  simp only [currentLease, hcur, leaseOf_first h hc]

end Table

/-! ### A new turn (R218, R219) -/

/-- The indices of the parked tiles of a lease. -/
def parkedTiles (ps : List TilePlace) : List Nat := (ps.zipIdx.filter (fun p => match p.1 with | .parked _ => true | _ => false)).map (·.2)

/-- The indices of the tiles of a lease that were never given a place. -/
def newTiles (ps : List TilePlace) : List Nat := (ps.zipIdx.filter (fun p => match p.1 with | .unassigned => true | _ => false)).map (·.2)

/-- A new turn: other tiles are parked, the lease's own are given, and the lease is current. -/
theorem startTurn_eq {s : State} {cl core ctx : Nat} {l : Lease} (h : leaseOf s core ctx = some l) :
    startTurn s cl core ctx =
      let free := ((List.range 4).filter (fun t => tileFree (clauseOf s cl) t)).length
      let out := (victims (clauseOf s cl) core ctx).take ((parkedTiles l.places).length + (newTiles l.places).length - free)
      let t := out.foldl (fun s v => parkTile s cl v.1 v.2.1 v.2.2) s
      let t := (parkedTiles l.places ++ newTiles l.places).foldl (fun s i => giveTile s cl core ctx i) t
      let t := modLease t cl core ctx (fun l => { l with turn := 0, lastCurrent := t.cyc })
      modClause t cl (fun c => { c with current := some (core, ctx) }) := by
  simp only [startTurn, h]
  rfl

theorem startTurn_current {s : State} {cl core ctx : Nat} {l : Lease} (h : leaseOf s core ctx = some l) :
    (clauseOf (startTurn s cl core ctx) cl).current = some (core, ctx) := by
  rw [startTurn_eq h]
  simp

/-! ### A granted lease (R217, R377) -/

/-- The places of n tiles once the first k have been given: the physical tile of the same number each. -/
def given (n k : Nat) : List TilePlace := (List.range k).map TilePlace.phys ++ List.replicate (n - k) .unassigned

section Grant
variable {n k : Nat}

theorem given_zero : given n 0 = List.replicate n .unassigned := by simp [given]
theorem given_all : given n n = (List.range n).map TilePlace.phys := by simp [given]

theorem newTiles_replicate (h : n ≤ 4) :
    newTiles (List.replicate n .unassigned) = List.range n ∧ parkedTiles (List.replicate n .unassigned) = [] := by
  have all : ∀ n < 5, newTiles (List.replicate n .unassigned) = List.range n ∧ parkedTiles (List.replicate n .unassigned) = [] := by decide
  exact all n (by omega)

/-- The next tile is not yet given, its physical tile is the first free one, and it is given that. -/
theorem given_next (hn : n ≤ 4) (hk : k < n) : (given n k).getD k .unassigned = .unassigned ∧
    (List.range 4).find? (fun t => !(given n k).contains (.phys t)) = some k ∧ setAt (given n k) k (.phys k) = given n (k + 1) := by
  have all : ∀ n < 5, ∀ k < n, (given n k).getD k .unassigned = .unassigned ∧
    (List.range 4).find? (fun t => !(given n k).contains (.phys t)) = some k ∧ setAt (given n k) k (.phys k) = given n (k + 1) := by decide
  exact all n (by omega) k hk

/-- The only lease of a clause has been given the first k of its n tiles. -/
structure Given (s : State) (cl : Nat) (l : Lease) (reqs : List LeaseReq) (n k : Nat) : Prop where
  leases : (clauseOf s cl).leases = [{ l with places := given n k }]
  reqs : (clauseOf s cl).leaseReqs = reqs

variable {s : State} {cl : Nat} {l : Lease} {reqs : List LeaseReq}

theorem Given.next (hc : clauseOfCore l.core = cl) (hn : n ≤ 4) (hk : k < n) (h : Given s cl l reqs n k) :
    Given (giveTile s cl l.core l.ctx k) cl l reqs n (k + 1) := by
  obtain ⟨hplace, hfree, hset⟩ := given_next hn hk
  have hl : leaseOf s l.core l.ctx = some { l with places := given n k } := leaseOf_first h.leases hc
  have hf : (List.range 4).find? (fun t => tileFree (clauseOf s cl) t) = some k := by
    simpa [tileFree, h.leases] using hfree
  have he : giveTile s cl l.core l.ctx k =
      modClause (modLease s cl l.core l.ctx (fun l => { l with places := setAt l.places k (.phys k) })) cl
        (fun c => { c with tiles := tset c.tiles k [] }) := by
    simp only [giveTile, hl, hf, hplace]
  have hleases := leases_modLease h.leases (fun l => { l with places := setAt l.places k (.phys k) })
  rw [he]
  refine ⟨?_, ?_⟩
  · rw [clauseOf_modClause_self]
    exact hleases.trans (by rw [hset])
  · simp [h.reqs]

theorem Given.all (hc : clauseOfCore l.core = cl) (hn : n ≤ 4) (h : Given s cl l reqs n 0) : ∀ k ≤ n,
    Given ((List.range k).foldl (fun s i => giveTile s cl l.core l.ctx i) s) cl l reqs n k
  | 0, _ => h
  | k + 1, hk => by
    rw [List.range_succ, List.foldl_append]
    exact (Given.all hc hn h k (by omega)).next hc hn hk

/-- The first turn of the only lease of a clause: its tiles are the clause's first ones. -/
theorem startTurn_only (hl : (clauseOf s cl).leases = [l]) (hc : clauseOfCore l.core = cl) (hn : n ≤ 4)
    (hp : l.places = List.replicate n .unassigned) : ∃ m, (clauseOf (startTurn s cl l.core l.ctx) cl).leases = [m] ∧ m.core = l.core ∧
      m.ctx = l.ctx ∧ m.queue = l.queue ∧ m.places = (List.range n).map TilePlace.phys ∧
      (clauseOf (startTurn s cl l.core l.ctx) cl).leaseReqs = (clauseOf s cl).leaseReqs := by
  have hstart : Given s cl l (clauseOf s cl).leaseReqs n 0 := ⟨by rw [given_zero, ← hp, hl], rfl⟩
  have hall := hstart.all hc hn n le_rfl
  have hout : victims (clauseOf s cl) l.core l.ctx = [] := by simp [victims, hl, sortBy]
  obtain ⟨hnew, hparked⟩ := newTiles_replicate hn
  rw [startTurn_eq (leaseOf_first hl hc), hp, hnew, hparked, hout]
  simp only [List.take_nil, List.foldl_nil, List.nil_append, clauseOf_modClause_self, clauseOf_modLease, hall.leases, hall.reqs]
  refine ⟨_, replaceFirst_head (α := Lease) (by simp), rfl, rfl, rfl, ?_, trivial⟩
  exact given_all

/-- A waiting request is granted the first entry of an empty table. -/
theorem mleaseGrant_first {r : LeaseReq} {rest : List LeaseReq} (hr : (clauseOf s cl).leaseReqs = r :: rest) (hl : (clauseOf s cl).leases = [])
    (hcur : (clauseOf s cl).current = none) (hc : clauseOfCore r.core = cl) (hn : r.tiles ≤ 4) :
    ∃ l, (clauseOf (mleaseGrant s cl) cl).leases = [l] ∧ l.core = r.core ∧ l.ctx = r.ctx ∧ l.queue = [] ∧
      l.places = (List.range r.tiles).map TilePlace.phys ∧ (clauseOf (mleaseGrant s cl) cl).leaseReqs = rest ∧
      (clauseOf (mleaseGrant s cl) cl).current = some (r.core, r.ctx) := by
  let l : Lease := ⟨r.core, r.ctx, List.replicate r.tiles .unassigned, List.replicate r.tiles 0, Vector.replicate 16 0, [], 0, s.cyc, 0,
    false, none, none, false, 0⟩
  let t := modClause (modClause s cl (fun c => { c with leaseReqs := rest })) cl (fun c => { c with leases := c.leases ++ [l] })
  have hlt : (clauseOf t cl).leases = [l] := by simp [t, hl]
  have heq : mleaseGrant s cl = startTurn t cl l.core l.ctx := by
    subst hc
    simp [mleaseGrant, hr, hl, enterLease, hcur, t, l]
  obtain ⟨m, hm, hcore, hctx, hqueue, hplaces, hreqs⟩ := startTurn_only hlt hc hn rfl
  rw [heq]
  exact ⟨m, hm, hcore, hctx, hqueue, hplaces, hreqs.trans (by simp [t]), startTurn_current (leaseOf_first hlt hc)⟩

end Grant

theorem mleaseGrant_full {s : State} {cl : Nat} (h : 16 ≤ (clauseOf s cl).leases.length) : mleaseGrant s cl = s := by
  cases hr : (clauseOf s cl).leaseReqs <;> simp [mleaseGrant, hr, Nat.not_lt.2 h]

/-! ### A turn between two leases (R218, R220) -/

section Turn
variable {s : State} {cl : Nat} {l m : Lease} (hl : (clauseOf s cl).leases = [l, m]) (hcur : (clauseOf s cl).current = some (l.core, l.ctx))
variable (hmoves : (clauseOf s cl).moves = 0) (hcl : clauseOfCore l.core = cl)
variable (hne : (l.core, l.ctx) ≠ (m.core, m.ctx)) (hm : leaseReady m = true) (ht : l.taken = false)
include hl hne hm

theorem otherReady_two : otherReady (clauseOf s cl) l = [m] := by
  have h : ¬m.core = l.core ∨ ¬m.ctx = l.ctx := by
    rw [← not_and_or]
    exact fun h => hne (by rw [h.1, h.2])
  simp [otherReady, hl, hm, h]

include ht

theorem turnOver_two : turnOver s cl l = (!leaseReady l || leaseCommands s l ≤ l.turn) := by
  simp [turnOver, otherReady_two hl hne hm, ht]

include hcur hmoves hcl

theorem leaseTurn_stays (hr : leaseReady l = true) (h : l.turn < leaseCommands s l) : leaseTurn s cl = s := by
  have hover : turnOver s cl l = false := by rw [turnOver_two hl hne hm ht]; simp [hr, h]
  simp [leaseTurn, hmoves, currentLease_first hl hcl hcur, hover]

theorem leaseTurn_passes (hcm : clauseOfCore m.core = cl) (h : leaseReady l = false ∨ leaseCommands s l ≤ l.turn) :
    (clauseOf (leaseTurn s cl) cl).current = some (m.core, m.ctx) := by
  have hover : turnOver s cl l = true := by rw [turnOver_two hl hne hm ht]; rcases h with h | h <;> simp [h]
  have heq : leaseTurn s cl = startTurn (modLease s cl l.core l.ctx (fun l => { l with waitSince := s.cyc })) cl m.core m.ctx := by
    simp [leaseTurn, hmoves, currentLease_first hl hcl hcur, hover, otherReady_two hl hne hm, nextLease, bestBy]
  have hfind : leaseOf (modLease s cl l.core l.ctx (fun l => { l with waitSince := s.cyc })) m.core m.ctx = some m := by
    have hk : ¬ (l.core = m.core ∧ l.ctx = m.ctx) := fun h => hne (by rw [h.1, h.2])
    rw [leaseOf, hcm, leases_modLease hl, List.find?_cons_of_neg (by simpa using hk)]
    simp
  rw [heq]
  exact startTurn_current hfind

end Turn

end Sys2Proof.Machine
end

section
/-!
SUPPORT. Bytes of an agent's plain access to the scratchpad, little-endian values, and stores as their home performs them.
-/

namespace Sys2Proof.Machine

/-! ### A table whose every value changes -/

/-- A table whose every value changes by a function of its key and itself. -/
theorem tget_mapKeyed {α β : Type} (f : Nat → α → β) (t : Tab α) (k : Nat) :
    tget (t.map (fun x => (x.1, f x.1 x.2))) k = (tget t k).map (f k) := by
  induction t with
  | nil => rfl
  | cons x r ih =>
    simp only [List.map_cons, tget, ih]
    split
    next h => rw [h]; rfl
    next => rfl

theorem tget_map {α β : Type} (f : α → β) (t : Tab α) (k : Nat) : tget (t.map (fun x => (x.1, f x.2))) k = (tget t k).map f :=
  tget_mapKeyed (fun _ => f) t k

/-- What a change of every value of a table keeps of each. -/
theorem tgetD_map_keeps {α β : Type} (g : α → β) {f : α → α} (hf : ∀ x, g (f x) = g x) (t : Tab α) (k : Nat) (d : α) :
    g (tgetD (t.map (fun x => (x.1, f x.2))) k d) = g (tgetD t k d) := by
  rw [tgetD, tget_map, tgetD]
  cases tget t k with
  | none => rfl
  | some x => exact hf x

/-! ### Little-endian values (R186) -/

@[simp] theorem length_leBytes (n v : Nat) : (leBytes n v).length = n := by
  induction n generalizing v with
  | zero => rfl
  | succ n ih => simp [leBytes, ih]

theorem leNat_leBytes (n v : Nat) : leNat (leBytes n v) = v % 256 ^ n := by
  induction n generalizing v with
  | zero => simp [leBytes, leNat, Nat.mod_one]
  | succ n ih => rw [leBytes, leNat, ih, BitVec.toNat_ofNat, pow_succ' 256 n, Nat.mod_mul (x := v) (a := 256) (b := 256 ^ n)]

/-- Item k of a list of blocks of one length. -/
theorem take_drop_flatMap {α : Type} {f : Nat → List α} {w : Nat} (hf : ∀ i, (f i).length = w) {k : Nat} :
    ∀ n, k < n → (((List.range n).flatMap f).drop (w * k)).take w = f k
  | n + 1, hk => by
    have hlen : ((List.range n).flatMap f).length = w * n := by simp [hf, Nat.mul_comm]
    rw [List.range_succ, List.flatMap_append]
    by_cases h : k < n
    · have hle : w * k + w ≤ w * n := by nlinarith
      rw [List.drop_append_of_le_length (by omega), List.take_append_of_le_length (by rw [List.length_drop]; omega)]
      exact take_drop_flatMap hf n h
    · obtain rfl : k = n := by omega
      rw [List.drop_append, hlen, List.drop_eq_nil_of_le (by omega), Nat.sub_self]
      simp [hf]

/-! ### Stores (R148, R49, R360) -/

/-- What waking the watchers of some lines leaves of the state. -/
theorem wakeLines_eq (s : State) (loc n : Nat) : ∃ ks, wakeLines s loc n = { s with cores := ks } := by
  unfold wakeLines
  split
  · exact ⟨s.cores, rfl⟩
  · exact ⟨_, rfl⟩

/-- What a home's store leaves of the state: memory changes, and cores in nothing but their watch tables. -/
theorem storeAt_eq (s : State) (ctx loc : Nat) (bs : List Byte) :
    ∃ ks, storeAt s ctx loc bs = { writeBytes s ctx loc bs with cores := ks } := by
  unfold storeAt
  split
  · rename_i h
    rw [List.isEmpty_iff.1 h]
    exact ⟨s.cores, rfl⟩
  · obtain ⟨ks, hk⟩ := wakeLines_eq (writeBytes s ctx loc bs) loc bs.length
    exact ⟨ks, hk⟩

section Store
variable (s : State) (ctx loc : Nat) (bs : List Byte)

@[simp] theorem storeAt_clauses : (storeAt s ctx loc bs).clauses = s.clauses := by obtain ⟨_, h⟩ := storeAt_eq s ctx loc bs; simp [h]
@[simp] theorem storeAt_net : (storeAt s ctx loc bs).net = s.net := by obtain ⟨_, h⟩ := storeAt_eq s ctx loc bs; simp [h]
@[simp] theorem storeAt_module : (storeAt s ctx loc bs).module = s.module := by obtain ⟨_, h⟩ := storeAt_eq s ctx loc bs; simp [h]
@[simp] theorem storeAt_cyc : (storeAt s ctx loc bs).cyc = s.cyc := by obtain ⟨_, h⟩ := storeAt_eq s ctx loc bs; simp [h]
@[simp] theorem storeAt_memos : (storeAt s ctx loc bs).memos = s.memos := by obtain ⟨_, h⟩ := storeAt_eq s ctx loc bs; simp [h]
@[simp] theorem clauseOf_storeAt (c : Nat) : clauseOf (storeAt s ctx loc bs) c = clauseOf s c := by simp [clauseOf]

theorem readByte_storeAt (l : Nat) : readByte (storeAt s ctx loc bs) l = readByte (writeBytes s ctx loc bs) l := by
  obtain ⟨_, h⟩ := storeAt_eq s ctx loc bs
  rw [h]
  rfl

/-- A core once a store to some lines has woken its watch entries. -/
def wokenCore (loc n : Nat) (k : Core) : Core :=
  { k with watch := k.watch.map (fun w => if loc / 64 ≤ w.line && w.line ≤ (loc + n - 1) / 64 then { w with woken := true } else w) }

theorem wakeLines_map (n : Nat) : wakeLines s loc n =
    if s.cores.all (fun c => c.2.watch.isEmpty) then s else { s with cores := s.cores.map (fun k => (k.1, wokenCore loc n k.2)) } := rfl

/-- A field of a core that waking its watchers keeps. -/
theorem wakeLines_keeps {α : Type} (g : Core → α) (hg : ∀ (k : Core) (w : List Watch), g { k with watch := w } = g k) (n c : Nat) :
    g (coreOf (wakeLines s loc n) c) = g (coreOf s c) := by
  rw [wakeLines_map]
  split
  · rfl
  · exact tgetD_map_keeps (f := wokenCore loc n) g (fun k => hg k _) s.cores c Core.init

theorem storeAt_keeps {α : Type} (g : Core → α) (hg : ∀ (k : Core) (w : List Watch), g { k with watch := w } = g k) (c : Nat) :
    g (coreOf (storeAt s ctx loc bs) c) = g (coreOf s c) := by
  unfold storeAt
  split
  · rfl
  · rw [wakeLines_keeps _ _ g hg]
    simp [coreOf]

@[simp] theorem ctxOf_storeAt (c x : Nat) : ctxOf (storeAt s ctx loc bs) c x = ctxOf s c x := by
  have h : (coreOf (storeAt s ctx loc bs) c).ctxs = (coreOf s c).ctxs := storeAt_keeps s ctx loc bs Core.ctxs (fun _ _ => rfl) c
  simp [ctxOf, h]

variable {s bs}

/-- Bytes read back from inside what a home has stored. -/
theorem readBytes_storeAt (hw : MemoryCanonical s) {off n : Nat} (h : off + n ≤ bs.length) :
    readBytes (storeAt s ctx loc bs) (loc + off) n = (bs.drop off).take n := by
  apply List.ext_getElem
  · simp [readBytes]; omega
  · intro i h1 h2
    have hi : i < n := by simpa [readBytes] using h1
    simp only [readBytes, List.getElem_map, List.getElem_range, List.getElem_take, List.getElem_drop]
    rw [readByte_storeAt, Nat.add_assoc, readByte_writeBytes_in hw ctx loc bs (off + i) (by omega)]

end Store

/-! ### An engine's plain read of window 0 (R108, R225) -/

/-- Ending an agent's walks changes the waiting walkers alone. -/
theorem endWalks_eq (s : State) (w : Who) :
    endWalks s w = { s with walks := s.walks.filter (fun x => !(x.2.agent == w.agent && x.2.unit == w.unit)) } := by
  unfold endWalks
  split
  · rename_i h
    rw [List.isEmpty_iff.1 h]
    exact congrArg (fun m => { s with walks := m }) (List.isEmpty_iff.1 h)
  · rfl

section Window
variable {s : State} {w : Who} {a : Word} {n : Nat}

theorem poisonFault_none (h : poisonAbout s = false) (va pa n : Nat) : poisonFault s w va pa n = none := by
  simp [poisonFault, poisonedIn, h]

theorem resolve_window0 (hr : rangeOf a = .window 0) (k : AccKind) (hp : poisonAbout s = false)
    (hfit : windowOff a + n ≤ scratchSize (ctxOf s w.agent.core w.agent.ctx).regs.part) : resolve s w k a n =
      .ok [[(scratchBase w.agent.core (ctxOf s w.agent.core w.agent.ctx).regs.part + windowOff a, none, n)]] [] := by
  simp only [resolve, hr, if_pos hfit, poisonFault_none hp]

/-- Pools are reached at once, by no packet. -/
theorem byPacket_pool (s : State) (core off : Nat) : byPacket s none (poolLoc core off) = none := by
  have h : 2 ^ 48 ≤ poolLoc core off := by unfold poolLoc; omega
  simpa [byPacket] using fun _ => h

theorem readMem_window0 (hr : rangeOf a = .window 0) (hp : poisonAbout s = false)
    (hfit : windowOff a + n ≤ scratchSize (ctxOf s w.agent.core w.agent.ctx).regs.part)
    (hown : ownPending s w.agent (scratchBase w.agent.core (ctxOf s w.agent.core w.agent.ctx).regs.part + windowOff a) n = false) :
    readMem s w a n = .ok (endWalks s w)
      (readBytes s (scratchBase w.agent.core (ctxOf s w.agent.core w.agent.ctx).regs.part + windowOff a) n) := by
  have hpool : byPacket (endWalks s w) none
      (scratchBase w.agent.core (ctxOf s w.agent.core w.agent.ctx).regs.part + windowOff a) = none := by
    rw [scratchBase, poolLoc, Nat.add_assoc]
    exact byPacket_pool _ _ _
  have hown' : ownPending (endWalks s w) w.agent
      (scratchBase w.agent.core (ctxOf s w.agent.core w.agent.ctx).regs.part + windowOff a) n = false := by
    rw [endWalks_eq]; exact hown
  have hread (loc : Nat) : readBytes (endWalks s w) loc n = readBytes s loc n := by rw [endWalks_eq]; rfl
  simp [readMem, resolve_window0 hr .load hp hfit, commitLeaves, setLeaves, readParts, hown', hpool, Eng.bind, hread]

/-- An engine's first read of window 0 notes what it has read. -/
theorem engLoad_window0 (hm : memoOf s w false a.toNat n = none) (hr : rangeOf a = .window 0) (hp : poisonAbout s = false)
    (hfit : windowOff a + n ≤ scratchSize (ctxOf s w.agent.core w.agent.ctx).regs.part)
    (hown : ownPending s w.agent (scratchBase w.agent.core (ctxOf s w.agent.core w.agent.ctx).regs.part + windowOff a) n = false) :
    engLoad s w a n =
      let bs := readBytes s (scratchBase w.agent.core (ctxOf s w.agent.core w.agent.ctx).regs.part + windowOff a) n
      .ok (addMemo (endWalks s w) w false a.toNat n 0 (some bs)) bs := by
  simp [engLoad, hm, hr, readMem_window0 hr hp hfit hown, Eng.bind]

end Window

end Sys2Proof.Machine
end

section
/-!
SUPPORT. Forfeits and the commands of the matrix engine (R212-R222, R379-R384), for the only lease of a clause.
-/

namespace Sys2Proof.Machine

/-! ### A forfeited lease parks its tile (R106, R219, R220) -/

section Forfeit
variable {s : State} {cl x k : Nat} {l : Lease} (hl : (clauseOf s cl).leases = [l]) (hc : clauseOfCore l.core = cl)
variable (hp : l.places = [.phys x]) (hk : l.passes = [k]) (hmap : (ctxOf s l.core l.ctx).parkMap = [])

/-- The state once the data of a lease's only tile, with its passes, lies in park tile 0. -/
def parkedData (s : State) (cl : Nat) (l : Lease) (x k : Nat) : State :=
  if k = 0 then s else storeAt s l.ctx (parkLoc s l.core l.ctx 0) (tileBytes (tgetD (clauseOf s cl).tiles x []))

@[simp] theorem clauseOf_parkedData (c : Nat) : clauseOf (parkedData s cl l x k) c = clauseOf s c := by
  unfold parkedData; split <;> simp

theorem tileBytes_length (t : Tab A48) : (tileBytes t).length = 98304 := by
  simp only [tileBytes, List.length_flatMap, length_leBytes, List.map_const', List.length_range, List.sum_replicate, smul_eq_mul]

/-- Entry i of a parked tile. -/
theorem readNat_parkedData (hw : MemoryCanonical s) (hk0 : k ≠ 0) {i : Nat} (hi : i < 16384) :
    readNat (parkedData s cl l x k) (parkLoc s l.core l.ctx 0 + 6 * i) 6 = (tgetD (tgetD (clauseOf s cl).tiles x []) i 0).toNat := by
  have hbytes : ((tileBytes (tgetD (clauseOf s cl).tiles x [])).drop (6 * i)).take 6 =
      leBytes 6 (tgetD (tgetD (clauseOf s cl).tiles x []) i 0).toNat := take_drop_flatMap (fun _ => length_leBytes 6 _) 16384 hi
  rw [parkedData, if_neg hk0, readNat, readBytes_storeAt _ _ hw (by rw [tileBytes_length]; omega), hbytes, leNat_leBytes]
  exact Nat.mod_eq_of_lt (tgetD (tgetD (clauseOf s cl).tiles x []) i 0).isLt

include hl hc hp hk hmap

theorem parkTile_only : parkTile s cl l.core l.ctx 0 =
    modClause (modLease (modCtx (parkedData s cl l x k) l.core l.ctx (fun c => { c with parkMap := tset c.parkMap 0 ⟨0, k⟩ })) cl l.core l.ctx
      (fun l => { l with places := setAt l.places 0 (.parked 0) })) cl
      (fun c => { c with tiles := tdel c.tiles x, moves := c.moves + if k = 0 then 0 else 1 }) := by
  have hfree : ((List.range 4).find? (fun p => (tget ([] : Tab ParkEntry) p).isNone)).getD 3 = 0 := by decide
  simp only [parkTile, leaseOf_first hl hc, hp, hk, hmap, hfree, List.getD_cons_zero, parkedData]

omit hl hc hp hk hmap in
theorem ite_none_ne (o : Option (Nat × Nat)) (y : Nat × Nat) : (if o = some y then none else o) ≠ some y := by
  split
  · exact nofun
  · assumption

/-- A forfeited lease with nothing left to finish leaves the rotation with its tile parked. -/
theorem leaseForfeit_only (hf : l.forfeit = some 0) (hh : l.held = none) (hw : MemoryCanonical s) :
    (clauseOf (leaseForfeit s cl) cl).leases =
      [{ l with places := [.parked 0], forfeit := none, out := l.queue.isEmpty, waitSince := s.cyc }] ∧
    (clauseOf (leaseForfeit s cl) cl).current ≠ some (l.core, l.ctx) ∧
    (ctxOf (leaseForfeit s cl) l.core l.ctx).parkMap = [(0, ⟨0, k⟩)] ∧
    (k ≠ 0 → ∀ i < 16384, readNat (leaseForfeit s cl) (parkLoc s l.core l.ctx 0 + 6 * i) 6 =
      (tgetD (tgetD (clauseOf s cl).tiles x []) i 0).toNat) := by
  have hfind : (clauseOf s cl).leases.find? (fun l => l.forfeit == some 0 && l.held.isNone) = some l := by simp [hl, hf, hh]
  have heq : leaseForfeit s cl =
      let t := parkTile s cl l.core l.ctx 0
      modClause (modLease t cl l.core l.ctx (fun l => { l with forfeit := none, out := l.queue.isEmpty, waitSince := t.cyc })) cl
        (fun c => { c with current := if c.current = some (l.core, l.ctx) then none else c.current }) := by
    simp only [leaseForfeit, hfind, hp, List.length_singleton]
    rfl
  have hcyc : (parkTile s cl l.core l.ctx 0).cyc = s.cyc := by
    rw [parkTile_only hl hc hp hk hmap]
    unfold parkedData
    split <;> simp
  have hmap' : (ctxOf (parkedData s cl l x k) l.core l.ctx).parkMap = [] := by
    unfold parkedData
    split <;> simp [hmap]
  rw [heq]
  simp only [hcyc]
  rw [parkTile_only hl hc hp hk hmap]
  refine ⟨?_, ?_, ?_, fun hk0 i hi => ?_⟩
  · simp [hl, hp, replaceFirst, setAt]
  · rw [clauseOf_modClause_self]
    exact ite_none_ne _ _
  · simp [hmap', tset]
  · exact readNat_parkedData hw hk0 hi

end Forfeit

/-! ### A command at the head of the queue (R218, R375) -/

/-- A lease once the command at the head of its queue is complete. -/
def Lease.done (l : Lease) : Lease :=
  { l with queue := l.queue.tail, turn := l.turn + 1, progress := 0, taken := false, forfeit := l.forfeit.map (fun k => k - 1) }

section Pop
variable {s : State} {cl : Nat} {l : Lease} {r : List Lease}

theorem leases_popCmd (h : (clauseOf s cl).leases = l :: r) : (clauseOf (popCmd s cl l.core l.ctx) cl).leases = l.done :: r := by
  unfold popCmd
  exact leases_modLease ((congrArg Clause.leases (clauseOf_forget ..)).trans h) Lease.done

@[simp] theorem tiles_popCmd (core ctx : Nat) : (clauseOf (popCmd s cl core ctx) cl).tiles = (clauseOf s cl).tiles := by simp [popCmd]
@[simp] theorem popCmd_net (core ctx : Nat) : (popCmd s cl core ctx).net = s.net := by simp [popCmd]
@[simp] theorem popCmd_mem (core ctx : Nat) : (popCmd s cl core ctx).mem = s.mem := by simp [popCmd]
@[simp] theorem coreOf_popCmd (core ctx c : Nat) : coreOf (popCmd s cl core ctx) c = coreOf s c := by simp [popCmd]

theorem readByte_popCmd (core ctx loc : Nat) : readByte (popCmd s cl core ctx) loc = readByte s loc :=
  readByte_congr (popCmd_mem core ctx) (by simp [popCmd, modLease]) loc

end Pop

section Clear
variable {s : State} {cl t x : Nat} {l : Lease} {r : List Lease} (hl : (clauseOf s cl).leases = l :: r) (hp : l.places.getD t .unassigned = .phys x)
include hp

theorem physOf_eq : physOf l t = x := by simp only [physOf, hp]

theorem tiles_clearTile : (clauseOf (clearTile s cl l t) cl).tiles = tset (clauseOf s cl).tiles x [] := by
  simp [clearTile, physOf_eq hp]

omit hp in
include hl in
theorem leases_clearTile : (clauseOf (clearTile s cl l t) cl).leases = { l with passes := setAt l.passes t 0 } :: r := by
  unfold clearTile
  exact leases_modLease (f := fun l => { l with passes := setAt l.passes t 0 }) (by simp [hl])

end Clear

section Run
variable {s : State} {cl : Nat} {l : Lease} (hl : (clauseOf s cl).leases = [l]) (hc : clauseOfCore l.core = cl)
variable (hcur : (clauseOf s cl).current = some (l.core, l.ctx)) (hmoves : (clauseOf s cl).moves = 0)
variable (hh : l.held = none) (ho : l.out = false) (ht : l.taken = false) (hf : l.forfeit ≠ some 0)

/-- What the engine does with a command that it takes. -/
def takenCmd (s : State) (cl : Nat) (l : Lease) : MatCmd → State
  | .mldb src e0 => runMldb s cl l src e0
  | .mbmeta m => popCmd (modLease s cl l.core l.ctx (fun l => { l with mask := m })) cl l.core l.ctx
  | .mzero t => popCmd (clearTile s cl l t) cl l.core l.ctx
  | .mma t a e0 e1 g => if s.module.withheld then s else runMma s cl l t (mmaArgs a e0 e1 g)
  | .mmacode t a e0 => if s.module.withheld then s else runMmacode s cl l t a e0
  | .mdrain _ _ _ _ _ => modLease s cl l.core l.ctx (fun l => { l with taken := true })

include hl hc hcur hmoves hh ho ht hf

/-- The engine takes the only lease's next command. -/
theorem matrixCommandRun_only {c : MatCmd} {rest : List MatCmd} (hq : l.queue = c :: rest) : matrixCommandRun s cl = takenCmd s cl l c := by
  have hready : leaseReady l = true := by simp [leaseReady, hq, hh, ho, hf]
  have hover : turnOver s cl l = false := by simp [turnOver, otherReady, hl]
  simp only [matrixCommandRun, currentLease_first hl hc hcur, hmoves, hready, ht, hover, hq]
  cases c <;> simp [takenCmd]

end Run

end Sys2Proof.Machine
end

section
/-!
SUPPORT. MLDB, MMA and MDRAIN as the engine runs them (R213-R222, R379-R384).
-/

namespace Sys2Proof.Machine

/-! ### Fields of a word -/

theorem bits_low {n : Nat} (w : BitVec n) (hi : Nat) : bits w hi 0 = w.toNat % 2 ^ (hi + 1) := by simp [bits]

theorem bits_lt {n : Nat} (w : BitVec n) (hi lo : Nat) : bits w hi lo < 2 ^ (hi + 1 - lo) := Nat.mod_lt _ (Nat.two_pow_pos _)

theorem bit_eq_getLsbD {n : Nat} (w : BitVec n) (i : Nat) : bit w i = w.getLsbD i := by
  rw [BitVec.getLsbD, Nat.testBit_eq_decide_div_mod_eq, bit]
  exact beq_eq_decide _ _

/-- The fields above a bit are 0 in a word that has none from there on. -/
theorem bits_above {n : Nat} {w : BitVec n} {k : Nat} (h : w.toNat / 2 ^ k = 0) (hi : Nat) {lo : Nat} (hk : k ≤ lo) : bits w hi lo = 0 := by
  have hz : w.toNat / 2 ^ lo = 0 := by
    rw [← Nat.add_sub_of_le hk, Nat.pow_add, ← Nat.div_div_eq_div_mul, h, Nat.zero_div]
  rw [bits, hz, Nat.zero_mod]

theorem bit_above {n : Nat} {w : BitVec n} {k : Nat} (h : w.toNat / 2 ^ k = 0) {i : Nat} (hk : k ≤ i) : bit w i = false := by
  have hb := bits_above h i hk
  rw [bits, Nat.add_sub_cancel_left, Nat.pow_one] at hb
  rw [bit, hb]
  rfl

/-! ### Addresses of window 0 (R107, R108) -/

theorem rangeOf_window0_iff (a : Word) : rangeOf a = .window 0 ↔ windowBase ≤ a.toNat ∧ a.toNat < windowBase + 2 ^ 24 := by
  have hw : windowBase = 0x7F000000000000 := by decide
  have hg : gatherBase = 0x7D000000000000 := by decide
  have hx : apertureBase = 0x7E000000000000 := by decide
  simp only [rangeOf, hw, hg, hx]
  split_ifs with h1 h2 h3 h4
  · simp; omega
  · simp; omega
  · simp; omega
  · simp; omega
  · simp only [Range.window.injEq]; omega

/-- An address further on in window 0. -/
theorem window0_add {a : Word} {k : Nat} (hr : rangeOf a = .window 0) (hk : windowOff a + k < 2 ^ 24) :
    rangeOf (a + BitVec.ofNat 64 k) = .window 0 ∧ windowOff (a + BitVec.ofNat 64 k) = windowOff a + k ∧
    (a + BitVec.ofNat 64 k).toNat = a.toNat + k := by
  have hw : windowBase = 0x7F000000000000 := by decide
  obtain ⟨h1, h2⟩ := (rangeOf_window0_iff a).1 hr
  rw [windowOff] at hk
  have hsum : (a + BitVec.ofNat 64 k).toNat = a.toNat + k := by
    rw [BitVec.toNat_add, BitVec.toNat_ofNat]
    omega
  rw [rangeOf_window0_iff, windowOff, windowOff, hsum]
  omega

theorem scratchSize_lt (p : Word) : scratchSize p < 2 ^ 24 := by
  have h := bits_lt p 21 16
  rw [scratchSize, partS]
  omega

theorem readBytes_add (s : State) (loc m n : Nat) : readBytes s loc (m + n) = readBytes s loc m ++ readBytes s (loc + m) n := by
  simp [readBytes, List.range_add, Nat.add_assoc, Function.comp_def]

/-! ### MLDB of one block (R221, R379) -/

/-- What an engine's note of a read leaves of the state. -/
theorem noted_eq (t : State) (w : Who) (va n : Nat) (bs : Option (List Byte)) :
    ∃ ws ms, addMemo (endWalks t w) w false va n 0 bs = { t with walks := ws, memos := ms } := by
  rw [endWalks_eq]
  exact ⟨_, _, rfl⟩

section Mldb
variable {s : State} {w : Who} {a : Word}

/-- One access of MLDB's read, without a swizzle and outside gather windows. -/
theorem mldbRead_step (hr : rangeOf a ≠ .gather) (sh : Nat) {n : Nat} (hn : n ≠ 0) (fuel : Nat) : mldbRead s w false sh a n (fuel + 1) =
    let k := min n (64 - a.toNat % 64)
    (engLoad s w a k).bind (fun s x => (mldbRead s w false sh (a + BitVec.ofNat 64 k) (n - k) fuel).bind (fun s y => .ok s (x ++ y))) := by
  simp only [mldbRead, if_neg hn, if_neg hr, swizzle]
  rfl

theorem mldbRead_nothing (sh : Nat) (swz : Bool) (fuel : Nat) : mldbRead s w swz sh a 0 fuel = .ok s [] := by
  cases fuel <;> simp [mldbRead]

variable (hr : rangeOf a = .window 0) (ha : a.toNat % 64 = 0) (hp : poisonAbout s = false) (hm : s.memos = [])
variable (hfit : windowOff a + 128 ≤ scratchSize (ctxOf s w.agent.core w.agent.ctx).regs.part)
variable (hown : ∀ x, (x = 0 ∨ x = 64) →
  ownPending s w.agent (scratchBase w.agent.core (ctxOf s w.agent.core w.agent.ctx).regs.part + windowOff a + x) 64 = false)
include hr ha hp hm hfit hown

/-- 128 aligned bytes of window 0 are read by two accesses, which only notes and walkers remember. -/
theorem mldbRead_block (sh : Nat) : ∃ ws ms, mldbRead s w false sh a 128 128 = .ok { s with walks := ws, memos := ms }
    (readBytes s (scratchBase w.agent.core (ctxOf s w.agent.core w.agent.ctx).regs.part + windowOff a) 128) := by
  have hsize := scratchSize_lt (ctxOf s w.agent.core w.agent.ctx).regs.part
  obtain ⟨hr2, hoff2, hnat2⟩ := window0_add (k := 64) hr (by omega)
  let loc := scratchBase w.agent.core (ctxOf s w.agent.core w.agent.ctx).regs.part + windowOff a
  let t := addMemo (endWalks s w) w false a.toNat 64 0 (some (readBytes s loc 64))
  have ht : t = { s with walks := (endWalks s w).walks, memos := t.memos } := by
    simp only [t, endWalks_eq, addMemo]
  have hfirst : engLoad s w a 64 = .ok t (readBytes s loc 64) :=
    engLoad_window0 (by simp [memoOf, hm]) hr hp (by omega) (hown 0 (.inl rfl))
  have hmemo : memoOf t w false (a + BitVec.ofNat 64 64).toNat 64 = none := by
    have hms : t.memos = [⟨w.agent.core, w.ctx, w.unit, false, a.toNat, 64, 0, some (readBytes s loc 64), false⟩] := by
      simp [t, addMemo, endWalks_eq, hm]
    simp [memoOf, hms, hnat2]
  have hsecond : engLoad t w (a + BitVec.ofNat 64 64) 64 =
      .ok (addMemo (endWalks t w) w false (a + BitVec.ofNat 64 64).toNat 64 0 (some (readBytes s (loc + 64) 64))) (readBytes s (loc + 64) 64) := by
    have hload := engLoad_window0 (s := t) (w := w) (n := 64) hmemo hr2 (by rw [ht]; exact hp)
      (by rw [hoff2, ht]; exact (Nat.add_assoc ..).trans_le hfit) (by rw [hoff2, ht]; exact hown 64 (.inr rfl))
    rw [hoff2, ht] at hload
    rw [ht]
    exact hload
  obtain ⟨ws, ms, hnoted⟩ := noted_eq t w (a + BitVec.ofNat 64 64).toNat 64 (some (readBytes s (loc + 64) 64))
  rw [hnoted] at hsecond
  refine ⟨ws, ms, ?_⟩
  rw [mldbRead_step (by simp [hr]) sh (by decide) 127, ha]
  simp only [show min 128 (64 - 0) = 64 from rfl, hfirst, Eng.bind]
  rw [mldbRead_step (by simp [hr2]) sh (by decide) 126, hnat2, Nat.add_mod, ha]
  simp only [show min (128 - 64) (64 - (0 + 64 % 64) % 64) = 64 from rfl, hsecond, Eng.bind, Nat.sub_self, mldbRead_nothing, List.append_nil]
  rw [readBytes_add s loc 64 64, ht]

end Mldb

section Block
variable {s : State} {cl : Nat} {l : Lease} {src e0 : Word} (hl : (clauseOf s cl).leases = [l])
variable (hr : rangeOf src = .window 0) (ha : src.toNat % 64 = 0) (hprog : l.progress = 0)
variable (hfit : windowOff src + 128 ≤ scratchSize (ctxOf s l.core l.ctx).regs.part) (hw : MemoryCanonical s) (hm : s.memos = [])
variable (hp : poisonAbout s = false)
variable (hown : ∀ x, (x = 0 ∨ x = 64) → ownPending s (matrixWho s l.core l.ctx).agent
  (scratchBase l.core (ctxOf s l.core l.ctx).regs.part + windowOff src + x) 64 = false)
variable (h32 : e0.toNat / 2 ^ 32 = 0) (h24 : e0.toNat / 2 ^ 24 % 256 = 0) (h8 : e0.toNat / 2 ^ 8 % 128 = 0)
include hl hr ha hprog hfit hw hm hp hown h32 h24 h8

/-- An MLDB of one plain block stores its 128 bytes in the B-store and is complete. -/
theorem runMldb_block : (clauseOf (runMldb s cl l src e0) cl).leases = [l.done] ∧ ∀ i < 128,
    readByte (runMldb s cl l src e0) (bstoreLoc cl (32768 * (e0.toNat % 128) + 128 * (e0.toNat / 2 ^ 16 % 256)) + i) =
      readByte s (scratchBase l.core (ctxOf s l.core l.ctx).regs.part + windowOff src + i) := by
  have hn : bits e0 14 8 = 0 := by simpa [bits] using h8
  have hb : bits e0 31 24 = 0 := by simpa [bits] using h24
  have hat : bstoreLoc cl (32768 * (bits e0 6 0 + 0 % (0 + 1)) + 128 * (bits e0 23 16 + 0 / (0 + 1))) =
      bstoreLoc cl (32768 * (e0.toNat % 128) + 128 * (e0.toNat / 2 ^ 16 % 256)) := by simp [bits]
  generalize hloc : bstoreLoc cl (32768 * (e0.toNat % 128) + 128 * (e0.toNat / 2 ^ 16 % 256)) = loc at hat ⊢
  obtain ⟨ws, ms, hread⟩ := mldbRead_block (w := matrixWho s l.core l.ctx) hr ha hp hm hfit hown (bits e0 44 40)
  let t : State := { s with walks := ws, memos := ms }
  let bs := readBytes s (scratchBase l.core (ctxOf s l.core l.ctx).regs.part + windowOff src) 128
  let u := modLease (forget (storeAt t l.ctx loc bs) l.core l.ctx (jobUnit 3 0)) cl l.core l.ctx (fun l => { l with progress := 1 })
  have hblock : mldbBlock s cl l.core l.ctx src e0 0 = .ok u () := by
    have hread' : mldbRead s (matrixWho s l.core l.ctx) false (bits e0 44 40) (src + BitVec.ofNat 64 (128 * 0)) 128 128 = .ok t bs := by
      rw [show src + BitVec.ofNat 64 (128 * 0) = src from BitVec.add_zero src]
      exact hread
    simp only [mldbBlock, hn, bits_above h32 38 (show 32 ≤ 34 by decide), bit_above h32 (show 32 ≤ 39 by decide), if_true, hread', Eng.bind, hat]
    rfl
  have hrun : runMldb s cl l src e0 = popCmd u cl l.core l.ctx := by
    simp only [runMldb, hn, hb, hprog]
    simp only [mldbFrom, hblock, Eng.bind]
  have hlu : (clauseOf u cl).leases = [{ l with progress := 1 }] := leases_modLease (by simp; exact hl) _
  have hlen : bs.length = 128 := by simp [bs, readBytes]
  rw [hrun]
  refine ⟨leases_popCmd (l := { l with progress := 1 }) hlu, fun i hi => ?_⟩
  rw [readByte_popCmd, readByte_congr (s := storeAt t l.ctx loc bs) (by simp [u]) (by simp [u, modLease]), readByte_storeAt,
    readByte_writeBytes_in (s := t) hw _ _ _ _ (by omega)]
  simp [bs, readBytes]

end Block

end Sys2Proof.Machine
end

section
/-!
SUPPORT. A dense MMA of one pass (R204, R213-R216, R381): every used entry gets one exact sum, and no other entry changes.
-/

namespace Sys2Proof.Machine

/-! ### Entries of a tile -/

section Tput
variable {t : Tab A48} (k : Nat) (v : A48)

theorem risingFrom_tput (h : risingFrom 0 t = true) : risingFrom 0 (tput 0 t k v) = true := by
  unfold tput
  split
  · exact risingFrom_tdel h
  · exact risingFrom_tset v (Nat.zero_le k) h

theorem tgetD_tput (h : risingFrom 0 t = true) (i : Nat) : tgetD (tput 0 t k v) i 0 = if i = k then v else tgetD t i 0 := by
  unfold tput
  split
  next hv =>
    split
    next hi => rw [hi, tgetD, tget_tdel_self h, eq_of_beq hv]; rfl
    next hi => rw [tgetD, tget_tdel_ne t hi, tgetD]
  next => simp only [tgetD, tget_tset, apply_ite (Option.getD · (0 : A48)), Option.getD_some]

end Tput

/-- The n entries from b on, each changed by a function of its number. -/
def changeRow (g : Nat → A48 → A48) (b n : Nat) (t : Tab A48) : Tab A48 :=
  (List.range n).foldl (fun t m => tput 0 t (b + m) (g m (tgetD t (b + m) 0))) t

/-- The first n columns' entries of the rows from j0 on, each changed by a function of its row and column. -/
def changeRows (g : Nat → Nat → A48 → A48) (j0 n m : Nat) (t : Tab A48) : Tab A48 :=
  (List.range n).foldl (fun t j => changeRow (g j) (128 * (j0 + j)) m t) t

section Change
variable {t : Tab A48} (h : risingFrom 0 t = true)
include h

theorem changeRow_entries (g : Nat → A48 → A48) (b n : Nat) : risingFrom 0 (changeRow g b n t) = true ∧
    ∀ i, tgetD (changeRow g b n t) i 0 = if b ≤ i ∧ i < b + n then g (i - b) (tgetD t i 0) else tgetD t i 0 := by
  induction n with
  | zero => exact ⟨h, fun i => (if_neg (by omega)).symm⟩
  | succ n ih =>
    obtain ⟨hrise, hget⟩ := ih
    have hstep : changeRow g b (n + 1) t = tput 0 (changeRow g b n t) (b + n) (g n (tgetD (changeRow g b n t) (b + n) 0)) := by
      simp [changeRow, List.range_succ]
    rw [hstep]
    refine ⟨risingFrom_tput _ _ hrise, fun i => ?_⟩
    rw [tgetD_tput _ _ hrise, hget, hget]
    by_cases hi : i = b + n
    · subst hi; simp
    · rw [if_neg hi]
      congr 1
      simp only [eq_iff_iff]
      omega

theorem changeRows_entries (g : Nat → Nat → A48 → A48) (j0 n : Nat) {m : Nat} (hm : m ≤ 128) :
    risingFrom 0 (changeRows g j0 n m t) = true ∧ ∀ i, tgetD (changeRows g j0 n m t) i 0 =
      if (j0 ≤ i / 128 ∧ i / 128 < j0 + n) ∧ i % 128 < m then g (i / 128 - j0) (i % 128) (tgetD t i 0) else tgetD t i 0 := by
  induction n with
  | zero => exact ⟨h, fun i => (if_neg (by omega)).symm⟩
  | succ n ih =>
    obtain ⟨hrise, hget⟩ := ih
    have hstep : changeRows g j0 (n + 1) m t = changeRow (g n) (128 * (j0 + n)) m (changeRows g j0 n m t) := by
      simp [changeRows, List.range_succ]
    obtain ⟨hrise', hget'⟩ := changeRow_entries hrise (g n) (128 * (j0 + n)) m
    rw [hstep]
    refine ⟨hrise', fun i => ?_⟩
    rw [hget', hget]
    by_cases hi : 128 * (j0 + n) ≤ i ∧ i < 128 * (j0 + n) + m
    · have hrow : i / 128 - j0 = n := by omega
      have hcol : i - 128 * (j0 + n) = i % 128 := by omega
      rw [if_pos hi, if_neg (by omega), if_pos (by omega), hrow, hcol]
    · rw [if_neg hi]
      congr 1
      simp only [eq_iff_iff]
      omega

end Change

/-! ### The terms of an entry (R213, R214) -/

theorem Xv.scale_zero (x : Xv) : x.scale 0 = x := by cases x <;> simp [Xv.scale]

/-- An element lies in the bytes up to the second of its pair. -/
theorem blockElem_congr (fmt : Nat) {f g : Nat → Nat} {e : Nat} (h : ∀ i ≤ 2 * e + 1, f i = g i) : blockElem fmt f e = blockElem fmt g e := by
  unfold blockElem
  split
  · rw [h e (by omega)]
  · rw [h e (by omega)]
  · rw [h (e / 2) (by omega)]
  · rw [h (2 * e) (by omega), h (2 * e + 1) (by omega)]
  · rw [h (2 * e) (by omega), h (2 * e + 1) (by omega)]

theorem depthOf_le (fmt : Nat) : depthOf fmt ≤ 256 := by
  unfold depthOf
  split <;> decide

section Mma
variable {s : State} {cl y t : Nat} {l : Lease} {a e0 e1 : Word} {g : Nat}

/-- An entry plus the exact sum of its products, with one rounding (R204). -/
def mmaEntry (terms : List Xv) (v : A48) : A48 := BitVec.ofNat 48 (a48.sum (a48.decode v.toNat :: terms)).1

theorem mmaPass_eq (x : MmaArgs) (tile : Tab A48) (p : Nat) : mmaPass s cl l x tile p =
    changeRows (fun j m => mmaEntry (mmaTerms s cl l x p m (x.j0 + j))) x.j0 x.n x.m tile := rfl

/-- The products of row m of A and column j of B. -/
def products (s : State) (cl base : Nat) (x : MmaArgs) (j m : Nat) : List Xv :=
  (List.range (depthOf x.afmt)).map (fun k =>
    (blockElem x.afmt (fun i => (readByte s (base + x.off + m * x.stride + i)).toNat) k).mul
      (blockElem x.bfmt (fun i => (readByte s (bstoreLoc cl (32768 * j) + 128 * x.b0 + i)).toNat) k))

theorem mmaTerms_dense {m : Nat} (j : Nat) (hs : (mmaArgs a e0 e1 g).sparse = 0) (hsc : (mmaArgs a e0 e1 g).scaled = false)
    (hz : (ctxOf s l.core l.ctx).regs.mswz.getLsbD 8 = false) (hm : m < 128) :
    mmaTerms s cl l (mmaArgs a e0 e1 g) 0 m j = products s cl (scratchBase l.core (partOf s l.core l.ctx)) (mmaArgs a e0 e1 g) j m := by
  simp only [mmaTerms, hs, hsc, bit_eq_getLsbD, hz, if_true, Bool.false_eq_true, if_false, products]
  refine List.map_congr_left fun k hk => ?_
  have hdepth := depthOf_le (mmaArgs a e0 e1 g).afmt
  have hk := List.mem_range.1 hk
  have hoff : (mmaArgs a e0 e1 g).off < 2 ^ 24 := Nat.mod_lt _ (by decide)
  have hstride : (mmaArgs a e0 e1 g).stride < 2 ^ 20 := bits_lt e1 19 0
  have hrow : m * (mmaArgs a e0 e1 g).stride ≤ 128 * 2 ^ 20 := Nat.mul_le_mul (by omega) (by omega)
  rw [Xv.scale_zero]
  congr 1
  refine blockElem_congr _ fun i hi => ?_
  rw [swizzle, if_neg (by decide), BitVec.toNat_ofNat, Nat.mod_eq_of_lt (by omega)]
  congr 2
  omega

variable (hl : (clauseOf s cl).leases = [l]) (hy : l.places.getD t .unassigned = .phys y)
variable (hs : (mmaArgs a e0 e1 g).sparse = 0) (hsc : (mmaArgs a e0 e1 g).scaled = false) (hone : (mmaArgs a e0 e1 g).p = 1)
variable (hp : poisonAbout s = false) (hz : (ctxOf s l.core l.ctx).regs.mswz.getLsbD 8 = false)

omit hl hsc hz in
include hy hs hone hp in
theorem runMma_dense : runMma s cl l t (mmaArgs a e0 e1 g) =
    let s := modClause s cl (fun c => { c with tiles := tset c.tiles y (mmaPass s cl l (mmaArgs a e0 e1 g) (tgetD (clauseOf s cl).tiles y []) 0) })
    popCmd (modLease s cl l.core l.ctx (fun l => { l with passes := setAt l.passes t (l.passes.getD t 0 + 1) })) cl l.core l.ctx := by
  simp [runMma, hs, hone, readsLost, hp, physOf_eq hy]

include hl hy hs hone hp

omit hsc hz in
theorem leases_runMma : (clauseOf (runMma s cl l t (mmaArgs a e0 e1 g)) cl).leases =
    [{ l with passes := setAt l.passes t (l.passes.getD t 0 + 1) }.done] := by
  rw [runMma_dense hy hs hone hp]
  exact leases_popCmd (l := { l with passes := setAt l.passes t (l.passes.getD t 0 + 1) })
    (leases_modLease (by rw [clauseOf_modClause_self]; exact hl) _)

omit hl hsc hz in
theorem tiles_runMma : tgetD (clauseOf (runMma s cl l t (mmaArgs a e0 e1 g)) cl).tiles y [] =
    mmaPass s cl l (mmaArgs a e0 e1 g) (tgetD (clauseOf s cl).tiles y []) 0 := by
  rw [runMma_dense hy hs hone hp]
  simp

variable (hr : risingFrom 0 (tgetD (clauseOf s cl).tiles y []) = true)
omit hl
include hsc hz hr

/-- The used entries. -/
theorem runMma_used {j m : Nat} (h1 : (mmaArgs a e0 e1 g).j0 ≤ j) (h2 : j < (mmaArgs a e0 e1 g).j0 + (mmaArgs a e0 e1 g).n)
    (h3 : m < (mmaArgs a e0 e1 g).m) :
    tgetD (tgetD (clauseOf (runMma s cl l t (mmaArgs a e0 e1 g)) cl).tiles y []) (128 * j + m) 0 =
      mmaEntry (products s cl (scratchBase l.core (partOf s l.core l.ctx)) (mmaArgs a e0 e1 g) j m)
        (tgetD (tgetD (clauseOf s cl).tiles y []) (128 * j + m) 0) := by
  have hm : (mmaArgs a e0 e1 g).m ≤ 128 := bits_lt e0 6 0
  have hrow : (128 * j + m) / 128 = j := by omega
  have hcol : (128 * j + m) % 128 = m := by omega
  rw [tiles_runMma hy hs hone hp, mmaPass_eq, (changeRows_entries hr _ _ _ hm).2, hrow, hcol, if_pos ⟨⟨h1, h2⟩, h3⟩,
    Nat.add_sub_of_le h1, mmaTerms_dense j hs hsc hz (by omega)]

omit hsc hz in
theorem runMma_unused {i : Nat} (h : i / 128 < (mmaArgs a e0 e1 g).j0 ∨ (mmaArgs a e0 e1 g).j0 + (mmaArgs a e0 e1 g).n ≤ i / 128 ∨
    (mmaArgs a e0 e1 g).m ≤ i % 128) :
    tgetD (tgetD (clauseOf (runMma s cl l t (mmaArgs a e0 e1 g)) cl).tiles y []) i 0 = tgetD (tgetD (clauseOf s cl).tiles y []) i 0 := by
  have hm : (mmaArgs a e0 e1 g).m ≤ 128 := bits_lt e0 6 0
  rw [tiles_runMma hy hs hone hp, mmaPass_eq, (changeRows_entries hr _ _ _ hm).2, if_neg (by omega)]

end Mma

end Sys2Proof.Machine
end

section
/-!
SUPPORT. MDRAIN's answer (R105, R222, R384): the drain's writes, then its wake, or the reply that the area is too small.
-/

namespace Sys2Proof.Machine

/-! ### Packets sent one after another -/

/-- The packets of a list of n, sent in order. -/
def launchAll (s : State) (p : Nat → Packet) (n : Nat) : State := (List.range n).foldl (fun s j => launchPacket s (p j)) s

section Launch
variable (s : State) (p : Nat → Packet)

theorem launchAll_succ (n : Nat) : launchAll s p (n + 1) = launchPacket (launchAll s p n) (p n) := by
  simp [launchAll, List.range_succ]

@[simp] theorem launchAll_ids (n : Nat) : (launchAll s p n).ids = s.ids + n := by
  induction n with
  | zero => rfl
  | succ n ih => rw [launchAll_succ, launchPacket, ih]; rfl

/-- Sending changes the network and the names given out, and nothing else. -/
theorem launchAll_eq (n : Nat) : ∃ net ids, launchAll s p n = { s with net := net, ids := ids } := by
  induction n with
  | zero => exact ⟨s.net, s.ids, rfl⟩
  | succ n ih =>
    obtain ⟨net, ids, h⟩ := ih
    rw [launchAll_succ, h]
    exact ⟨_, _, rfl⟩

theorem tget_launchAll {n j : Nat} (h : j < n) : tget (launchAll s p n).net (s.ids + j) = some (p j) := by
  induction n with
  | zero => omega
  | succ n ih =>
    rw [launchAll_succ, launchPacket, launchAll_ids, tget_tset]
    by_cases hj : j = n
    · rw [if_pos (by omega), hj]
    · rw [if_neg (by omega), ih (by omega)]

end Launch

section Drain
variable {s : State} {cl t y : Nat} {l : Lease} {d : Node} {e0 e1 e2 : Word}

/-- The data packet of column j of a drain. -/
def drainPacket (s : State) (cl : Nat) (l : Lease) (t : Nat) (d : Node) (e1 : Word) (j : Nat) : Packet :=
  mkPacket (nodeOf s l.core) d l.ctx 4 0 0 (.drain (128 * (bits e1 9 0 + j)) (bits e1 22 16 + 1) ((List.range (bits e1 22 16 + 1)).map
    (fun r => tgetD (tgetD (clauseOf s cl).tiles (physOf l t) []) (128 * j + r) 0)))

/-- The extent and the tile of a drain, as its wake tells them. -/
def drainWord (e1 : Word) (t : Nat) : Word :=
  BitVec.ofNat 64 (128 * bits e1 9 0 + bits e1 22 16 * 2 ^ 17 + bits e1 30 24 * 2 ^ 25 + t * 2 ^ 32)

theorem sendDrain_eq (s : State) (cl : Nat) (l : Lease) (t : Nat) (d : Node) (e0 e1 e2 : Word) : ∃ src, sendDrain s cl l t d e0 e1 e2 =
    clearTile (sendWake (launchAll s (drainPacket s cl l t d e1) (bits e1 30 24 + 1)) l.core d l.ctx [e0, drainWord e1 t, e2] src) cl l t :=
  ⟨_, rfl⟩

/-- The wake of a drain, as it is sent and as its sender keeps it. -/
def wakePacket (s : State) (core : Nat) (d : Node) (ctx : Nat) (ws : List Word) (src : Nat) : Packet :=
  mkPacket (nodeOf s core) d ctx 4 0 3 (.wake ws src s.ids)

theorem sendWake_net (core ctx src : Nat) (ws : List Word) :
    (sendWake s core d ctx ws src).net = tset s.net s.ids (wakePacket s core d ctx ws src) := rfl

theorem unacked_sendWake (core ctx src : Nat) (ws : List Word) : (coreOf (sendWake s core d ctx ws src) core).unacked =
    (coreOf s core).unacked ++ [⟨s.ids, d, wakePacket s core d ctx ws src⟩] := by
  simp only [sendWake, coreOf_modCore_self]
  rfl

@[simp] theorem checkedReply_net (core ctx stage : Nat) (v : Word) : (checkedReply s core ctx stage v).net = s.net := rfl
@[simp] theorem clauseOf_checkedReply (core ctx stage c : Nat) (v : Word) : clauseOf (checkedReply s core ctx stage v) c = clauseOf s c := rfl

@[simp] theorem unacked_checkedReply (core ctx stage c : Nat) (v : Word) :
    (coreOf (checkedReply s core ctx stage v) c).unacked = (coreOf s c).unacked := by simp [checkedReply]

@[simp] theorem clearTile_net : (clearTile s cl l t).net = s.net := rfl
@[simp] theorem coreOf_clearTile (c : Nat) : coreOf (clearTile s cl l t) c = coreOf s c := rfl

variable {c : Nat} {dst : Node} {rest : List MatCmd} (hl : (clauseOf s cl).leases = [l]) (hc : clauseOfCore l.core = cl)
variable (hcur : (clauseOf s cl).current = some (l.core, l.ctx)) (htaken : l.taken = true)
variable {dest : Word} (hq : l.queue = .mdrain t dest e0 e1 e2 :: rest)
variable (hdst : cmapEntry s (ctxOf s l.core l.ctx).entry (dest.toNat % 2 ^ 21) = some dst) (hhost : dst.host = false)
variable (htaker : takerOf s dst = some c)
include hl hc hcur htaken hq hdst hhost htaker

/-- The answer to a drain that another core of this module takes. -/
theorem drainSizeReply_only : drainSizeReply s cl =
    if drainEntries (partOf s c l.ctx) < 128 * (bits e1 9 0 + bits e1 30 24 + 1) then
      checkedReply (popCmd s cl l.core l.ctx) l.core l.ctx checkedStage 1
    else checkedReply (popCmd (sendDrain s cl l t dst e0 e1 e2) cl l.core l.ctx) l.core l.ctx checkedStage 0 := by
  have hdst' : cmapEntry s (ctxOf s l.core l.ctx).entry (bits dest 20 0) = some dst := by rw [bits_low]; exact hdst
  simp only [drainSizeReply, currentLease_first hl hc hcur, htaken, hq, drainReply, hdst', hhost, drainArea, htaker]
  rfl

/-- A drain that does not fit the area is answered, and sends nothing. -/
theorem drainSizeReply_small (h : drainEntries (partOf s c l.ctx) < 128 * (bits e1 9 0 + bits e1 30 24 + 1)) :
    (clauseOf (drainSizeReply s cl) cl).leases = [l.done] ∧ (drainSizeReply s cl).net = s.net ∧
    (clauseOf (drainSizeReply s cl) cl).tiles = (clauseOf s cl).tiles := by
  rw [drainSizeReply_only hl hc hcur htaken hq hdst hhost htaker, if_pos h]
  exact ⟨leases_popCmd hl, popCmd_net (cl := cl) .., tiles_popCmd ..⟩

variable (h : ¬drainEntries (partOf s c l.ctx) < 128 * (bits e1 9 0 + bits e1 30 24 + 1)) (hy : l.places.getD t .unassigned = .phys y)
include h

include hy in
/-- A drain that fits is done: its tile is +0 with no pass. -/
theorem drainSizeReply_tiles : (clauseOf (drainSizeReply s cl) cl).leases = [{ l with passes := setAt l.passes t 0 }.done] ∧
    tgetD (clauseOf (drainSizeReply s cl) cl).tiles y [] = [] := by
  rw [drainSizeReply_only hl hc hcur htaken hq hdst hhost htaker, if_neg h]
  obtain ⟨src, hsend⟩ := sendDrain_eq s cl l t dst e0 e1 e2
  obtain ⟨net, ids, hall⟩ := launchAll_eq s (drainPacket s cl l t dst e1) (bits e1 30 24 + 1)
  rw [hsend, hall]
  refine ⟨?_, ?_⟩
  · exact leases_popCmd (l := { l with passes := setAt l.passes t 0 }) (leases_clearTile hl)
  · rw [clauseOf_checkedReply, tiles_popCmd, tiles_clearTile hy, tgetD_tset_self]

/-- What a drain that fits sends: a write for each column, and then its wake, of which it keeps a copy. -/
theorem drainSizeReply_sends :
    (∀ j < bits e1 30 24 + 1, tget (drainSizeReply s cl).net (s.ids + j) = some (drainPacket s cl l t dst e1 j)) ∧
    ∃ p src, tget (drainSizeReply s cl).net (s.ids + (bits e1 30 24 + 1)) = some p ∧ p.dst = dst ∧ p.path = 0 ∧
      p.payload = .wake [e0, drainWord e1 t, e2] src (s.ids + (bits e1 30 24 + 1)) ∧
      (coreOf (drainSizeReply s cl) l.core).unacked = (coreOf s l.core).unacked ++ [⟨s.ids + (bits e1 30 24 + 1), dst, p⟩] := by
  obtain ⟨src, hsend⟩ := sendDrain_eq s cl l t dst e0 e1 e2
  obtain ⟨net, ids, hall⟩ := launchAll_eq s (drainPacket s cl l t dst e1) (bits e1 30 24 + 1)
  have hcore : coreOf (launchAll s (drainPacket s cl l t dst e1) (bits e1 30 24 + 1)) l.core = coreOf s l.core := by rw [hall]; rfl
  have hnet : (drainSizeReply s cl).net = tset (launchAll s (drainPacket s cl l t dst e1) (bits e1 30 24 + 1)).net (s.ids + (bits e1 30 24 + 1))
      (wakePacket (launchAll s (drainPacket s cl l t dst e1) (bits e1 30 24 + 1)) l.core dst l.ctx [e0, drainWord e1 t, e2] src) := by
    rw [drainSizeReply_only hl hc hcur htaken hq hdst hhost htaker, if_neg h, hsend]
    simp [sendWake_net]
  refine ⟨fun j hj => ?_, _, src, by rw [hnet]; exact tget_tset_self .., rfl, rfl, ?_, ?_⟩
  · rw [hnet, tget_tset_ne _ _ (by omega), tget_launchAll _ _ hj]
  · rw [wakePacket, launchAll_ids]; rfl
  · rw [drainSizeReply_only hl hc hcur htaken hq hdst hhost htaker, if_neg h, hsend]
    simp [unacked_sendWake, hcore]

end Drain

end Sys2Proof.Machine
end

section
/-!
SUPPORT. Each command of the only lease of a clause, and O49.
-/

namespace Sys2Proof.Machine

/-- A table of one lease, the command at the head of whose queue is complete. -/
theorem leases_done {ls : List Lease} {l : Lease} {c : MatCmd} {rest : List MatCmd} (h : ls = [l.done]) (hq : l.queue = c :: rest) : ls =
    [{ l with queue := rest, turn := l.turn + 1, progress := 0, taken := false, forfeit := l.forfeit.map (fun k => k - 1) }] := by
  simp [h, Lease.done, hq]

section Commands
variable {s : State} {cl : Nat} {l : Lease} {rest : List MatCmd} (hl : (clauseOf s cl).leases = [l])

include hl in
theorem takenCmd_mzero {t x : Nat} (hx : l.places.getD t .unassigned = .phys x) :
    (clauseOf (takenCmd s cl l (.mzero t)) cl).leases = [{ l with passes := setAt l.passes t 0 }.done] ∧
    (clauseOf (takenCmd s cl l (.mzero t)) cl).tiles = tset (clauseOf s cl).tiles x [] :=
  ⟨leases_popCmd (l := { l with passes := setAt l.passes t 0 }) (leases_clearTile hl), (tiles_popCmd ..).trans (tiles_clearTile hx)⟩

include hl in
theorem takenCmd_mbmeta (m : VReg) : (clauseOf (takenCmd s cl l (.mbmeta m)) cl).leases = [{ l with mask := m }.done] :=
  leases_popCmd (l := { l with mask := m }) (leases_modLease hl _)

include hl in
theorem takenCmd_mdrain (t : Nat) (d e0 e1 e2 : Word) :
    (clauseOf (takenCmd s cl l (.mdrain t d e0 e1 e2)) cl).leases = [{ l with taken := true }] ∧
    (takenCmd s cl l (.mdrain t d e0 e1 e2)).net = s.net := ⟨leases_modLease hl _, rfl⟩

theorem takenCmd_withheld (h : s.module.withheld = true) :
    (∀ t a e0 e1 g, takenCmd s cl l (.mma t a e0 e1 g) = s) ∧ ∀ t a e0, takenCmd s cl l (.mmacode t a e0) = s :=
  ⟨fun _ _ _ _ _ => if_pos h, fun _ _ _ => if_pos h⟩

theorem takenCmd_mma (h : s.module.withheld = false) (t : Nat) (a e0 e1 : Word) (g : Nat) :
    takenCmd s cl l (.mma t a e0 e1 g) = runMma s cl l t (mmaArgs a e0 e1 g) := if_neg (by simp [h])

end Commands
end Sys2Proof.Machine

namespace Sys2Proof
open Machine

/-- Settles O49: the only lease's commands one by one (`matrixCommandRun_only`), a dense MMA entry by entry (`changeRows_entries`), a
drain's packets in the order in which they are named (`tget_launchAll`). -/
theorem matrixEvents : Obligations.MatrixEvents := by
  intro s cl
  refine ⟨fun r rest hr => ⟨fun h => ?_, fun hl hcur hc hn => ?_⟩, by simp [tileMoveComplete],
    fun l m hl hcur hmoves hcl hcm hne hm ht => ⟨fun h => ?_, fun hr h => ?_⟩, fun l hl hc => ?_⟩
  · rw [exec_mleaseGrant, mleaseGrant_full h]
  · obtain ⟨l, hgrant⟩ := mleaseGrant_first hr hl hcur hc hn
    exact ⟨_, l, exec_mleaseGrant s cl, hgrant⟩
  · exact ⟨_, exec_leaseTurn s cl, leaseTurn_passes hl hcur hmoves hcl hne hm ht hcm h⟩
  · rw [exec_leaseTurn, leaseTurn_stays hl hcur hmoves hcl hne hm ht hr h]
  intro part base gone
  refine ⟨fun x k hf hh hp hk hmap hw => ⟨_, exec_leaseForfeit s cl, leaseForfeit_only hl hc hp hk hmap hf hh hw⟩,
    fun hcur hmoves hh ho ht hf => ?_, ?_⟩
  · have htake {c : MatCmd} {rest : List MatCmd} (hq : l.queue = c :: rest) :
        exec (.matrixCommandRun cl) s = .next (takenCmd s cl l c) := by
      rw [exec_matrixCommandRun, matrixCommandRun_only hl hc hcur hmoves hh ho ht hf hq]
    refine ⟨fun t x rest hq hx => ?_, fun m rest hq => ?_, fun src e0 rest hq hr ha hprog hfit hw hm hp hown h32 h24 h8 => ?_,
      fun hheld => ⟨fun t a e0 e1 g rest hq => ?_, fun t a e0 rest hq => ?_⟩,
      fun t y a e0 e1 g rest hq hheld hy => ?_, fun t d e0 e1 e2 rest hq => ?_⟩
    · obtain ⟨hleases, htiles⟩ := takenCmd_mzero hl hx
      exact ⟨_, htake hq, leases_done hleases hq, htiles⟩
    · exact ⟨_, htake hq, leases_done (takenCmd_mbmeta hl m) hq⟩
    · obtain ⟨hleases, hbytes⟩ := runMldb_block hl hr ha hprog hfit hw hm hp hown h32 h24 h8
      exact ⟨_, htake hq, leases_done hleases hq, hbytes⟩
    · rw [htake hq, (takenCmd_withheld hheld).1]
    · rw [htake hq, (takenCmd_withheld hheld).2]
    · intro x tile hs hsc hone hp hz hr
      rw [htake hq, takenCmd_mma hheld]
      refine ⟨_, rfl, leases_done (leases_runMma hl hy hs hone hp) hq, fun j m h1 h2 h3 => ?_, fun i hi => ?_⟩
      · exact runMma_used hy hs hsc hone hp hz hr h1 h2 h3
      · exact runMma_unused hy hs hone hp hr hi
    · exact ⟨_, htake hq, takenCmd_mdrain hl t d e0 e1 e2⟩
  · intro t d e0 e1 e2 rest dst c y hcur htaken hq hdst hhost htaker hy c0 n m tile
    have hc0 : bits e1 9 0 = c0 := bits_low e1 9
    refine ⟨fun h => ?_, fun h => ?_⟩
    · rw [← hc0] at h
      obtain ⟨hleases, hnet, htiles⟩ := drainSizeReply_small hl hc hcur htaken hq hdst hhost htaker h
      exact ⟨_, exec_drainSizeReply s cl, leases_done hleases hq, hnet, htiles⟩
    · rw [← hc0, ← Nat.not_lt] at h
      obtain ⟨hleases, htile⟩ := drainSizeReply_tiles hl hc hcur htaken hq hdst hhost htaker h hy
      obtain ⟨hdata, p, src, hp, hpdst, hpath, hpay, hkept⟩ := drainSizeReply_sends hl hc hcur htaken hq hdst hhost htaker h
      refine ⟨_, exec_drainSizeReply s cl, leases_done hleases hq, htile, fun j hj => ⟨_, hdata j hj, rfl, rfl, rfl, ?_⟩,
        p, drainWord e1 t, src, hp, hpdst, hpath, hpay, hkept, ?_⟩
      · rw [drainPacket, physOf_eq hy, hc0]; rfl
      · rw [drainWord, hc0]; rfl

end Sys2Proof
end

section
/-!
SUPPORT. Start-up (R32, R33), the module's registers (R36, R38) and withheld passes (R13).
-/

namespace Sys2Proof.Machine

section Events
variable (s : State)

@[simp] theorem exec_powerOn : exec .powerOn s = .next (powerOn s) := rfl
@[simp] theorem exec_startupStageComplete (failed : List Part) (ok : Bool) :
    exec (.startupStageComplete failed ok) s = .next (startupStageComplete s failed ok) := rfl
@[simp] theorem exec_faccWrite (high : Bool) (v : Word) : exec (.faccWrite high v) s = .next (faccWrite s high v) := rfl
@[simp] theorem exec_modnumWrite (v : Word) : exec (.modnumWrite v) s = .next (modnumWrite s v) := rfl
@[simp] theorem exec_ctxtabWrite (v : Word) : exec (.ctxtabWrite v) s = .next (ctxtabWrite s v) := rfl

end Events

/-! ### Start-up -/

theorem powerOn_eq (s : State) : powerOn s = { s with module := { s.module with powered := true } } := by
  unfold powerOn
  split
  next h => rw [← h]
  next => rfl

theorem step_halted {s : State} (h : s.module.halt = true) : step s = .fault .halted := by simp [step, h]

/-- The part that alone is found failed is fenced. -/
theorem fenceParts_one {s : State} {p : Part} (h : p ∉ s.module.fenced) : fenceParts s [p] =
    { s with module := { s.module with fenced := s.module.fenced ++ [p], degraded := true, replace := true } } := by
  simp [fenceParts, h, List.eraseDups_cons]

theorem fenceParts_none (s : State) : fenceParts s [] = s := rfl

section Stage
variable {s : State} (hpow : s.module.powered = true) (hhalt : s.module.halt = false) (failed : List Part) (ok : Bool)
include hpow hhalt

/-- Stage 1: the flash image has passed its check. -/
theorem stage0_passes (h : s.module.stage = 0) : startupStageComplete s failed true =
    { s with module := { s.module with stage := 1, flashSumOk := true } } := by
  simp [startupStageComplete, hpow, hhalt, h]

theorem stage0_fails (h : s.module.stage = 0) : (startupStageComplete s failed false).module.halt = true := by
  simp [startupStageComplete, hpow, hhalt, h, stopStartup]

theorem stage3_fences {p : Part} (h : s.module.stage = 3) (hp : p ∉ s.module.fenced) : startupStageComplete s [p] ok =
    { s with module := { s.module with stage := 4, fenced := s.module.fenced ++ [p], degraded := true, replace := true } } := by
  have hf := fenceParts_one (s := { s with module := { s.module with stage := 4 } }) hp
  simpa [startupStageComplete, hpow, hhalt, h] using hf

theorem stage4_zeroes (h : s.module.stage = 4) :
    startupStageComplete s [] ok = zeroMemory { s with module := { s.module with stage := 5 } } := by
  simp [startupStageComplete, hpow, hhalt, h, fenceParts_none]

theorem stage6_starts (h : s.module.stage = 6) :
    startupStageComplete s failed ok = startKernel { s with module := { s.module with stage := 7 } } := by
  simp [startupStageComplete, hpow, hhalt, h]

end Stage

/-- A clause whose lexicon lines bear no owner tag. -/
def untagged (k : Clause) : Clause := { k with lexTags := [] }

section Zero
variable (s : State)

theorem readByte_zeroMemory (loc : Nat) : readByte (zeroMemory s) loc = 0 := rfl

theorem ownerOf_zeroMemory (loc : Nat) : ownerOf (zeroMemory s) loc = 0 := by
  have htags (c : Nat) : (tgetD (zeroMemory s).clauses c Clause.init).lexTags = [] := by
    have hget : tget (zeroMemory s).clauses c = (tget s.clauses c).map untagged := tget_map untagged s.clauses c
    rw [tgetD, hget]
    cases tget s.clauses c <;> rfl
  simp only [ownerOf, lexOwner, htags]
  split
  · rfl
  · rfl

end Zero

/-! ### The kernel starts (R32) -/

/-- What application core i runs once start-up is done. -/
def bootAct (s : State) (i : Nat) : Act :=
  { Act.zero with pc := evenPc s.module.flashEntry, priv := true, wait := if i = 0 then none else some (bootWait s) }

/-- Application core i starts, or waits. -/
def bootCore (s : State) (i : Nat) : State :=
  if partFenced s.module.fenced (.core (Config.computeCores + i)) then s
  else modCore s (Config.computeCores + i) (fun k => { k with active := some ⟨0, some (bootAct s i)⟩ })

theorem startKernel_eq (s : State) : startKernel s = (List.range Config.appCores).foldl bootCore (writeBytes s 0 0 s.module.flash) := rfl

/-- The first n application cores have started, and only cores have changed. -/
structure Booted (s t : State) (n : Nat) : Prop where
  mem : t.mem = s.mem
  undef : t.undef = s.undef
  module : t.module = s.module
  cyc : t.cyc = s.cyc
  active : ∀ i < n, (coreOf t (Config.computeCores + i)).active = some ⟨0, some (bootAct s i)⟩

theorem Booted.next {s t : State} {n : Nat} (hf : s.module.fenced = []) (h : Booted s t n) : Booted s (bootCore t n) (n + 1) := by
  obtain ⟨hmem, hundef, hmodule, hcyc, hactive⟩ := h
  have hfenced : partFenced t.module.fenced (.core (Config.computeCores + n)) = false := by simp [hmodule, hf, partFenced]
  have hact : bootAct t n = bootAct s n := by simp [bootAct, bootWait, hmodule, hcyc]
  rw [bootCore, hfenced, if_neg (by decide), hact]
  refine ⟨hmem, hundef, hmodule, hcyc, fun i hi => ?_⟩
  by_cases hin : i = n
  · rw [hin, coreOf_modCore_self]
  · rw [coreOf_modCore_ne _ _ (by omega)]
    exact hactive i (by omega)

theorem booted_range {s : State} (hf : s.module.fenced = []) : ∀ n, Booted s ((List.range n).foldl bootCore s) n
  | 0 => ⟨rfl, rfl, rfl, rfl, fun i hi => absurd hi (Nat.not_lt_zero i)⟩
  | n + 1 => by
    rw [List.range_succ, List.foldl_append]
    exact (booted_range hf n).next hf

/-- Stage 7 of a module without failed parts. -/
theorem startKernel_starts {s : State} (hf : s.module.fenced = []) (hw : MemoryCanonical s) :
    (startKernel s).module = s.module ∧ readBytes (startKernel s) 0 s.module.flash.length = s.module.flash ∧
    ∀ i < 32, ∃ a, actAt (startKernel s) ⟨8192 + i, none⟩ = some a ∧ ctxAt (startKernel s) ⟨8192 + i, none⟩ = 0 ∧
      a.pc = s.module.flashEntry &&& ~~~1#64 ∧ a.priv = true ∧ (i = 0 ↔ a.wait = none) := by
  have hb := booted_range (s := writeBytes s 0 0 s.module.flash) (by simpa using hf) Config.appCores
  rw [← startKernel_eq] at hb
  obtain ⟨hmem, hundef, hmodule, hcyc, hactive⟩ := hb
  have hslot (i : Nat) (hi : i < 32) : (coreOf (startKernel s) (8192 + i)).active =
      some ⟨0, some (bootAct (writeBytes s 0 0 s.module.flash) i)⟩ := hactive i hi
  refine ⟨hmodule.trans (writeBytes_module ..), ?_, fun i hi => ⟨bootAct (writeBytes s 0 0 s.module.flash) i, ?_, ?_, ?_, rfl, ?_⟩⟩
  · simp only [readBytes, readByte_congr hmem hundef]
    exact readBytes_writeBytes hw 0 0 s.module.flash
  · simp only [actAt, hslot i hi]
  · simp only [ctxAt, hslot i hi]
  · rw [bootAct, writeBytes_module]; rfl
  · by_cases h : i = 0 <;> simp [bootAct, h]

/-! ### The module's registers -/

section Registers
variable (s : State) (v : Word)

theorem faccWrite_low (h : s.module.facc0 = none) : faccWrite s false v =
    { s with module := { s.module with facc0 := some v, early := if s.module.facc1.isSome then created s else s.module.early } } := by
  cases h1 : s.module.facc1 <;> simp [faccWrite, h, h1]

theorem faccWrite_high (h : s.module.facc1 = none) : faccWrite s true v =
    { s with module := { s.module with facc1 := some v, early := if s.module.facc0.isSome then created s else s.module.early } } := by
  cases h0 : s.module.facc0 <;> simp [faccWrite, h, h0]

theorem faccWrite_low_again (h : s.module.facc0.isSome = true) : faccWrite s false v = s := by
  obtain ⟨w, hw⟩ := Option.isSome_iff_exists.1 h
  have hm : { s.module with facc0 := some (s.module.facc0.getD v) } = s.module := by rw [hw, Option.getD_some, ← hw]
  have hboth : ((s.module.facc0.isNone || s.module.facc1.isNone) && s.module.facc0.isSome && s.module.facc1.isSome) = false := by
    cases s.module.facc1 <;> simp [hw]
  simp [faccWrite, hm, hboth]

theorem faccWrite_high_again (h : s.module.facc1.isSome = true) : faccWrite s true v = s := by
  obtain ⟨w, hw⟩ := Option.isSome_iff_exists.1 h
  have hm : { s.module with facc1 := some (s.module.facc1.getD v) } = s.module := by rw [hw, Option.getD_some, ← hw]
  have hboth : ((s.module.facc0.isNone || s.module.facc1.isNone) && s.module.facc0.isSome && s.module.facc1.isSome) = false := by
    cases s.module.facc0 <;> simp [hw]
  simp [faccWrite, hm, hboth]

theorem modnumWrite_first (h : s.module.modnum = none) :
    modnumWrite s v = { s with module := { s.module with modnum := some (v.toNat % 64) } } := by
  rw [modnumWrite, h, bits_low]
  rfl

theorem modnumWrite_again (h : s.module.modnum.isSome = true) : modnumWrite s v = s := by
  obtain ⟨w, hw⟩ := Option.isSome_iff_exists.1 h
  rw [modnumWrite, hw, Option.getD_some, ← hw]

theorem anyLive_iff : anyLive s = true ↔ ∃ x < 4096, ctxState s x = 1 := by simp [anyLive]

theorem ctxtabWrite_dead (h : ∀ x < 4096, ctxState s x ≠ 1) :
    ctxtabWrite s v = { s with module := { s.module with ctxtab := v &&& ~~~(0xFFFFF#64) } } :=
  if_neg (fun hl => by
    obtain ⟨x, hx, hx1⟩ := (anyLive_iff s).1 hl
    exact h x hx hx1)

theorem ctxtabWrite_live (h : ∃ x < 4096, ctxState s x = 1) : ctxtabWrite s v = s := if_pos ((anyLive_iff s).2 h)

end Registers

end Sys2Proof.Machine
end

section
/-!
SUPPORT. Failures of a stack and of a link of a module without launches (R46, R51), and notices (R44).
-/

namespace Sys2Proof.Machine

@[simp] theorem exec_partFailure (s : State) (p : Part) : exec (.partFailure p) s = .next (partFailure s p) := rfl

section Notice
variable (s : State) (kind : Nat) (ws : List Word)

/-- A notice changes the module's registers alone. -/
theorem notice_eq : ∃ m, notice s kind ws = { s with module := m } := by
  unfold notice
  split <;> exact ⟨_, rfl⟩

@[simp] theorem notice_mem : (notice s kind ws).mem = s.mem := by obtain ⟨_, h⟩ := notice_eq s kind ws; rw [h]
@[simp] theorem notice_undef : (notice s kind ws).undef = s.undef := by obtain ⟨_, h⟩ := notice_eq s kind ws; rw [h]

@[simp] theorem notice_portDone : (notice s kind ws).module.portDone = s.module.portDone := by unfold notice; split <;> rfl

theorem notice_room (h : s.module.notices.length < 64) :
    (notice s kind ws).module.notices = s.module.notices ++ [BitVec.ofNat 64 kind :: ws] := by simp [notice, h]

end Notice

section Failure
variable {s : State} {n : Nat} {p : Part}

theorem partFailure_fenced (h : p ∈ s.module.fenced) : partFailure s p = s := by simp [partFailure, h]

theorem refuseLaunches_none (hl : s.launches = []) (hd : s.dies = []) : refuseLaunches s = s := by
  have h : { s with launches := [], dies := [] } = s := by rw [← hl, ← hd]
  simp [refuseLaunches, hl, hd, h]

theorem loseMessages_none (s : State) : loseMessages s [] = s := by simp [loseMessages]

/-- The messages that stand at one link are lost. -/
theorem loseMessages_link (s : State) (n : Nat) : loseMessages s [n] = { s with net := s.net.map (fun p =>
    (p.1, if p.2.pos = .link n ∧ isMessage p.2 = true then { p.2 with pos := .lost } else p.2)) } := by
  simp [loseMessages]

variable (hl : s.launches = []) (hd : s.dies = []) (hp : p ∉ s.module.fenced)
include hl hd hp

theorem refuseLaunches_fence : refuseLaunches (fenceParts s [p]) =
    { s with module := { s.module with fenced := s.module.fenced ++ [p], degraded := true, replace := true } } := by
  rw [fenceParts_one hp]
  exact refuseLaunches_none hl hd

end Failure

section Parts
variable {s : State} {n : Nat} (hl : s.launches = []) (hd : s.dies = [])
include hl hd

theorem partFailure_stack (hp : .stack n ∉ s.module.fenced) :
    let t : State := { s with module := { s.module with fenced := s.module.fenced ++ [.stack n], degraded := true, replace := true } }
    partFailure s (.stack n) = notice t 4 [3, BitVec.ofNat 64 n, modStateWord t, 0] := by
  intro t
  have ht : { t with launches := t.launches.map (fun x => { x with journal := x.journal.filter (· != n) }) } = t := by
    rw [show t.launches = [] from hl, List.map_nil, ← show t.launches = [] from hl]
  simp only [partFailure, List.contains_iff_mem, if_neg hp, partNumber, partCores, partClauses, partLinks, List.foldl_nil,
    refuseLaunches_fence hl hd hp, loseMessages_none]
  exact congrArg (fun u => notice u 4 [3, BitVec.ofNat 64 n, modStateWord u, 0]) ht

theorem partFailure_link (hp : .link n ∉ s.module.fenced) :
    let t : State := { s with
      module := { s.module with fenced := s.module.fenced ++ [.link n], degraded := true, replace := true }
      net := s.net.map (fun p => (p.1, if p.2.pos = .link n ∧ isMessage p.2 = true then { p.2 with pos := .lost } else p.2)) }
    partFailure s (.link n) = notice t 4 [4, BitVec.ofNat 64 n, modStateWord t, 0] := by
  intro t
  simp only [partFailure, List.contains_iff_mem, if_neg hp, partNumber, partCores, partClauses, partLinks, List.foldl_nil,
    refuseLaunches_fence hl hd hp, loseMessages_link]
  rfl

end Parts

end Sys2Proof.Machine
end

section
/-!
SUPPORT. Uncorrectable lines (R50): the end of a context, and the trap on application core 0.
-/

namespace Sys2Proof.Machine

@[simp] theorem exec_scrubLine (s : State) (line : Nat) (unc : Bool) : exec (.scrubLine line unc) s = .next (scrubLine s line unc) := rfl

/-- What holds of the default and of every changed value holds of every entry of a changed table. -/
theorem tgetD_map_meets {α : Type} {P : α → Prop} {f : α → α} (hf : ∀ x, P (f x)) {d : α} (hd : P d) (t : Tab α) (k : Nat) :
    P (tgetD (t.map (fun x => (x.1, f x.2))) k d) := by
  rw [tgetD, tget_map]
  cases tget t k with
  | none => exact hd
  | some x => exact hf x

/-! ### The end of a context (R55) -/

section End
variable (s : State) (ctx : Nat)

@[simp] theorem contextEnd_poison : (contextEnd s ctx).poison = s.poison := by
  simp only [contextEnd]
  split
  · exact writeBytes_poison ..
  · rfl

theorem contextEnd_launches : (contextEnd s ctx).launches = s.launches.filter (fun l => l.ctx != ctx) := by
  simp only [contextEnd]
  split
  · exact writeBytes_launches ..
  · rfl

theorem contextEnd_cores : (contextEnd s ctx).cores = s.cores.map (fun c => (c.1, endCtxCore c.2 ctx)) := by
  simp only [contextEnd]
  split
  · exact writeBytes_cores ..
  · rfl

/-- No core runs a context that has ended. -/
theorem contextEnd_active (k : Nat) : ∀ f, (coreOf (contextEnd s ctx) k).active = some f → f.ctx ≠ ctx := by
  have hend (c : Core) : ∀ f, (endCtxCore c ctx).active = some f → f.ctx ≠ ctx := by
    intro f
    cases hx : c.active with
    | none => simp [endCtxCore, hx]
    | some x =>
      by_cases h : x.ctx = ctx
      · simp [endCtxCore, hx, h]
      · simp only [endCtxCore, hx, h, if_false, Option.some.injEq]
        rintro rfl
        exact h
  rw [coreOf, contextEnd_cores]
  exact tgetD_map_meets (P := fun c : Core => ∀ f, c.active = some f → f.ctx ≠ ctx) (f := fun c => endCtxCore c ctx) hend (by simp [Core.init])
    s.cores k

end End

/-! ### The trap on application core 0 -/

/-- An activation that has trapEntered in privileged mode (R307). -/
def trapEntered (tvec : Word) (c : Cause) (tval : Word) (a : Act) : Act :=
  { a with
    cr := { a.cr with
      tcause := BitVec.ofNat 64 c.code
      tval := tval
      tpc := a.pc
      tstat := tstatWord false false a.runsOn.isSome a.priv }
    priv := true
    wait := none
    pc := evenPc tvec }

section Trap
variable {s : State} {a : Act} (ha : actAt s ⟨Config.computeCores, none⟩ = some a) (c : Cause) (v : Word)
include ha

theorem hostTrap_eq : hostTrap s c v =
    { setActAt { s with cur := ⟨Config.computeCores, none⟩ } ⟨Config.computeCores, none⟩
        (some (trapEntered (coreOf s Config.computeCores).tvec c v a)) with cur := s.cur } := by
  have hact : act { s with cur := ⟨Config.computeCores, none⟩ } = a := by
    rw [act, show actAt { s with cur := ⟨Config.computeCores, none⟩ } ⟨Config.computeCores, none⟩ = some a from ha]
    rfl
  simp only [hostTrap, ha, privTrap, modAct, hact]
  rfl

theorem actAt_hostTrap :
    actAt (hostTrap s c v) ⟨Config.computeCores, none⟩ = some (trapEntered (coreOf s Config.computeCores).tvec c v a) := by
  rw [hostTrap_eq ha]
  have hsome : (actAt { s with cur := ⟨Config.computeCores, none⟩ } ⟨Config.computeCores, none⟩).isSome = true := by
    rw [show actAt { s with cur := ⟨Config.computeCores, none⟩ } ⟨Config.computeCores, none⟩ = some a from ha]
    rfl
  exact actAt_setActAt_self _ _ _ hsome

theorem hostTrap_poison : (hostTrap s c v).poison = s.poison := by rw [hostTrap_eq ha]; simp
theorem hostTrap_module : (hostTrap s c v).module = s.module := by rw [hostTrap_eq ha]; simp
theorem hostTrap_faultCount : (hostTrap s c v).faultCount = s.faultCount := by rw [hostTrap_eq ha]; simp

end Trap

/-! ### Scrubbing -/

section Scrub
variable {s : State} {line : Nat}

theorem scrubLine_correctable : scrubLine s line false = s := by simp [scrubLine]

variable (hp : line ∉ s.poison)
include hp

theorem scrubLine_unowned (ho : ownerOf s (64 * line) = 0) :
    scrubLine s line true = hostTrap { s with poison := s.poison ++ [line] } .uncorrectable (BitVec.ofNat 64 (64 * line)) := by
  simp [scrubLine, hp, ho]

theorem scrubLine_owned (ho : ownerOf s (64 * line) ≠ 0) :
    scrubLine s line true = contextEnd { s with poison := s.poison ++ [line] } (ownerOf s (64 * line)) := by
  simp [scrubLine, hp, ho]

end Scrub

end Sys2Proof.Machine
end

section
/-!
SUPPORT. What an agent's store leaves alone, and the delivery of notices and MSI-X vectors (R31, R44, R48).
-/

namespace Sys2Proof.Machine

@[simp] theorem exec_noticeDelivery (s : State) : exec .noticeDelivery s = .next (noticeDelivery s) := rfl
@[simp] theorem exec_msixVector (s : State) (port vector : Nat) : exec (.msixVector port vector) s = .next (msixVector s port vector) := rfl

/-! ### What an access leaves alone -/

/-- Setting and buffering leaves keeps what a written word and a buffered leaf keep. -/
theorem setLeaves_keeps {β : Type} (g : State → β) {w : Who} (hword : ∀ s loc v, g (writeWord s 0 loc v) = g s)
    (hfill : ∀ s e, g (tlbFill s w.tlb e) = g s) (k : AccKind) (ls : List TlbEntry) (s : State) : g (setLeaves s w k ls) = g s := by
  induction ls generalizing s with
  | nil => rfl
  | cons e r ih =>
    have hbits : g (setLeafBits s k e).1 = g s := by
      simp only [setLeafBits]
      split
      · rfl
      · split
        · exact hword ..
        · rfl
    rw [setLeaves, ih, hfill, hbits]

theorem tlbFill_core_module (s : State) (c : Nat) (e : TlbEntry) : (tlbFill s (.core c) e).module = s.module := by
  simp only [tlbFill]
  split <;> rfl

@[simp] theorem endWalks_module (s : State) (w : Who) : (endWalks s w).module = s.module := by rw [endWalks_eq]
@[simp] theorem endWalks_memos (s : State) (w : Who) : (endWalks s w).memos = s.memos := by rw [endWalks_eq]
@[simp] theorem endWalks_heldPorts (s : State) (w : Who) : (endWalks s w).heldPorts = s.heldPorts := by rw [endWalks_eq]

/-- A store by packets that has been answered changes nothing more. -/
theorem farWrite_ok {s t : State} {w : Who} {m : Nat} : ∀ {ps : List (Nat × Nat)} {va : Nat} {bs : List Byte},
    farWrite s w va m ps bs = .ok t () → t = s
  | [], _, _, h => by simpa [farWrite] using h.symm
  | (pa, n) :: r, va, bs, h => by
    rw [farWrite] at h
    split at h
    · split at h
      · cases h
      · split at h
        · cases h
        · exact farWrite_ok h
    · cases h

/-- A store that has been made keeps the module's registers. -/
theorem writeParts_ok_module {w : Who} {u : State} : ∀ {ps : List (Nat × Option Nat × Nat)} {s : State} {va : Nat} {bs : List Byte},
    writeParts s w va ps bs = .ok u () → u.module = s.module
  | [], s, _, _, h => by
    simp only [writeParts, Eng.ok.injEq, and_true] at h
    rw [h]
  | (pa, m, n) :: r, s, va, bs, h => by
    have hfar {m : Nat} (h : (farWrite s w va m (linePieces pa n (n + 1)) (bs.take n)).bind
        (fun s _ => writeParts s w (va + n) r (bs.drop n)) = .ok u ()) : u.module = s.module := by
      cases hf : farWrite s w va m (linePieces pa n (n + 1)) (bs.take n) with
      | ok t x =>
        rw [hf, Eng.bind] at h
        rw [writeParts_ok_module h, farWrite_ok hf]
      | fault t c v => simp [hf, Eng.bind] at h
      | wait t => simp [hf, Eng.bind] at h
    cases m with
    | some m => exact hfar h
    | none =>
      simp only [writeParts] at h
      split at h
      · cases h
      · split at h
        · exact hfar h
        · rw [writeParts_ok_module h, storeAt_module]

theorem writeMem_ok_module {s u : State} {w : Who} {c : Nat} {a : Word} {bs : List Byte} (hw : w.tlb = .core c)
    (h : writeMem s w a bs = .ok u ()) : u.module = s.module := by
  unfold writeMem at h
  split at h
  next ps ls _ =>
    have hleaves : (commitLeaves s w .store ls).module = s.module := by
      rw [commitLeaves, setLeaves_keeps State.module (fun s loc v => writeBytes_module ..) (fun s e => by rw [hw, tlbFill_core_module]),
        endWalks_module]
    rw [writeParts_ok_module h, hleaves]
  next => cases h
  next => cases h

/-! ### Delivery -/

/-- The words of a notice's message. -/
def noticeWords (s : State) (n : List Word) : List Word :=
  s.module.noticeh :: BitVec.ofNat 64 ((n.headD 0).toNat + min 65535 s.module.noticesLost * 256) :: n.tail

/-- The state once the oldest notice has left its queue. -/
def noticeTaken (s : State) (rest : List (List Word)) : State := { s with module := { s.module with notices := rest, noticesLost := 0 } }

section Delivery
variable {s : State} {n : List Word} {rest : List (List Word)} (hroom : hostLoad s 8192 < 256) (hn : s.module.notices = n :: rest)
include hroom hn

/-- A notice becomes a message of application core 0. -/
theorem noticeDelivery_passes (h : ¬(ctxState s 0 = 1 ∧ handlerOk (tableEntry s 0) s.module.noticeh = false)) : ∃ m,
    noticeDelivery s = hostEnqueue (noticeTaken s rest) 8192 m ∧ m.origin = 2 ∧ m.words = noticeWords s n := by
  have hroom' : ¬ 256 ≤ hostLoad s Config.computeCores := Nat.not_le.2 hroom
  have hcheck : ¬(ctxState s 0 = 1 ∧ (!handlerOk (tableEntry s 0) s.module.noticeh) = true) := by simpa using h
  simp only [noticeDelivery, hn, if_neg hroom', if_neg hcheck]
  exact ⟨_, rfl, rfl, rfl⟩

/-- A notice whose handler fails the check is recorded, and traps. -/
theorem noticeDelivery_refused (h1 : ctxState s 0 = 1) (h2 : handlerOk (tableEntry s 0) s.module.noticeh = false) :
    noticeDelivery s = noticeRefused (noticeTaken s rest) s.module.noticeh (noticeWords s n) := by
  have hroom' : ¬ 256 ≤ hostLoad s Config.computeCores := Nat.not_le.2 hroom
  have hcheck : ctxState s 0 = 1 ∧ (!handlerOk (tableEntry s 0) s.module.noticeh) = true := by simp [h1, h2]
  simp only [noticeDelivery, hn, if_neg hroom', if_pos hcheck]
  rfl

end Delivery

/-- The words of the record of a notice whose handler fails the check. -/
theorem noticeRecord_words (s : State) (n : List Word) :
    [0x36#64, 0, 0] ++ (List.range 5).map (fun i => (noticeWords s n).getD i 0) =
      [0x36#64, 0, 0, s.module.noticeh, BitVec.ofNat 64 ((n.headD 0).toNat + min 65535 s.module.noticesLost * 256)] ++
        (List.range 3).map (fun i => n.getD (i + 1) 0) := by
  cases n <;> simp [noticeWords, List.range_succ]

/-- An error record that its fault queue has room for, and whose store is made, is counted. -/
theorem errorRecord_stored {s u : State} {core ctx : Nat} {ws : List Word} (hroom : tgetD s.faultCount ctx 0 < (ctxWord s ctx 10).toNat)
    (h : writeMem s (recordWho s core ctx) (ctxWord s ctx 9 + BitVec.ofNat 64 (64 * tgetD s.faultCount ctx 0))
      (ws.flatMap (fun x => leBytes 8 x.toNat)) = .ok u ()) :
    errorRecord s core ctx ws = { forget u core ctx 9 with faultCount := tset u.faultCount ctx (tgetD s.faultCount ctx 0 + 1) } := by
  simp only [errorRecord, if_neg (Nat.not_le.2 hroom), h]

section Refused
variable {s u : State} {n : List Word} {rest : List (List Word)} {a : Act} (hroom : tgetD s.faultCount 0 0 < (ctxWord s 0 10).toNat)
variable (hstore : writeMem (noticeTaken s rest) (recordWho (noticeTaken s rest) 8192 0)
  (ctxWord s 0 9 + BitVec.ofNat 64 (64 * tgetD s.faultCount 0 0))
  (([0x36#64, 0, 0, s.module.noticeh, BitVec.ofNat 64 ((n.headD 0).toNat + min 65535 s.module.noticesLost * 256)] ++
    (List.range 3).map (fun i => n.getD (i + 1) 0)).flatMap (fun x => leBytes 8 x.toNat)) = .ok u ())
variable (ha : actAt u ⟨8192, none⟩ = some a)
include hroom hstore ha

theorem noticeRefused_stored : ∃ t, noticeRefused (noticeTaken s rest) s.module.noticeh (noticeWords s n) = t ∧ t.module.notices = rest ∧
    tgetD t.faultCount 0 0 = tgetD s.faultCount 0 0 + 1 ∧
    actAt t ⟨8192, none⟩ = some (trapEntered (coreOf u 8192).tvec .hbounds s.module.noticeh a) := by
  let r : State := { forget u 8192 0 9 with faultCount := tset u.faultCount 0 (tgetD s.faultCount 0 0 + 1) }
  have hrecord : errorRecord (noticeTaken s rest) Config.computeCores 0
      ([0x36#64, 0, 0] ++ (List.range 5).map (fun i => (noticeWords s n).getD i 0)) = r := by
    rw [noticeRecord_words]
    exact errorRecord_stored (s := noticeTaken s rest) hroom hstore
  have hcores : r.cores = u.cores := forget_cores ..
  have har : actAt r ⟨Config.computeCores, none⟩ = some a := (actAt_congr hcores _).trans ha
  have htvec : coreOf r Config.computeCores = coreOf u 8192 := by rw [coreOf, coreOf, hcores]; rfl
  refine ⟨_, rfl, ?_, ?_, ?_⟩
  · rw [noticeRefused, hrecord, hostTrap_module har, show r.module = u.module from forget_module .., writeMem_ok_module rfl hstore]
    rfl
  · rw [noticeRefused, hrecord, hostTrap_faultCount har]
    exact tgetD_tset_self ..
  · rw [noticeRefused, hrecord, ← htvec]
    exact actAt_hostTrap har ..

end Refused

/-- A vector that a core is named for becomes a message of it. -/
theorem msixVector_named {s : State} {port vector i : Nat} (hi : tget s.module.msix (65536 * port + vector) = some i)
    (hf : partFenced s.module.fenced (.rootPort port) = false) (hroom : hostLoad s (8192 + i % 32) < 256) : ∃ m,
    msixVector s port vector = hostEnqueue s (8192 + i % 32) m ∧
      m.words.length = 1 ∧ m.origin = 2 ∧ m.nosrc = true ∧ m.ctx = 0 ∧ m.mprio = 3 := by
  have hroom' : ¬ 256 ≤ hostLoad s (Config.computeCores + i % 32) := Nat.not_le.2 hroom
  have hcheck : ¬(partFenced s.module.fenced (.rootPort port) || 256 ≤ hostLoad s (Config.computeCores + i % 32)) = true := by
    simp [hf, hroom']
  simp only [msixVector, hi, if_neg hcheck]
  exact ⟨_, rfl, rfl, rfl, rfl, rfl, rfl⟩

end Sys2Proof.Machine
end

section
/-!
SUPPORT. Card accesses (R139, R144, R146): the function entry in force, and what each outcome of an access comes to.
-/

namespace Sys2Proof.Machine

@[simp] theorem exec_portRequest (s : State) (r : PortReq) : exec (.portRequest r) s = .next (portRequest s r) := rfl

/-! ### The function entry in force (R146) -/

/-- The words read from a function table line that is not lost. -/
theorem tableWord_half {s : State} {loc : Nat} (h : poisonedIn s loc 16 = none) :
    tableWord s loc = readWord s loc ∧ tableWord s (loc + 8) = readWord s (loc + 8) := by
  have hlow : poisonedIn s loc 8 = none ∧ poisonedIn s (loc + 8) 8 = none := by
    unfold poisonedIn at h ⊢
    split at h
    next hp =>
      simp only [List.find?_eq_none, List.mem_map, List.mem_range, forall_exists_index, and_imp, if_pos hp] at h ⊢
      refine ⟨fun x i hi hx => h x i (by omega) hx, fun x i hi hx => h x (8 + i) (by omega) (by omega)⟩
    next hp => simp [if_neg hp]
  obtain ⟨h1, h2⟩ := hlow
  simp [tableWord, tableNat, h1, h2, readWord]

section Entry
variable {s : State} {r : PortReq}

theorem functionEntry_held {x : Word × Word} (h : tget s.module.portFns (65536 * r.port + r.requester) = some x) :
    functionEntry s r = (s, x) := by
  rw [functionEntry, show tget s.module.portFns (functionIndex r) = some x from h]

theorem functionEntry_read (h : tget s.module.portFns (65536 * r.port + r.requester) = none) : functionEntry s r =
    (let e := (tableWord s (functionLoc s r), tableWord s (functionLoc s r + 8))
    ({ s with module := { s.module with portFns := tset s.module.portFns (functionIndex r) e } }, e)) := by
  rw [functionEntry, show tget s.module.portFns (functionIndex r) = none from h]

theorem functionEntry_eq (s : State) (r : PortReq) :
    ∃ fns, (functionEntry s r).1 = { s with module := { s.module with portFns := fns } } := by
  unfold functionEntry
  split
  · exact ⟨s.module.portFns, rfl⟩
  · exact ⟨_, rfl⟩

end Entry

/-! ### What a refused access leaves alone -/

/-- Memory, the queue of notices and the completions at the ports are the same. -/
structure PortsQuiet (s t : State) : Prop where
  memory : SameMemory s t
  done : t.module.portDone = s.module.portDone
  held : t.module.portHeld = s.module.portHeld
  notices : t.module.notices = s.module.notices

section Quiet
variable {s t : State}

theorem PortsQuiet.entry (s : State) (r : PortReq) : PortsQuiet s (functionEntry (newId s) r).1 := by
  obtain ⟨fns, h⟩ := functionEntry_eq (newId s) r
  rw [h]
  exact ⟨fun _ => rfl, rfl, rfl, rfl⟩

theorem PortsQuiet.ended (h : PortsQuiet s t) (w : Who) : PortsQuiet s (endWalks t w) := by
  rw [endWalks_eq]
  exact ⟨h.memory, h.done, h.held, h.notices⟩

theorem PortsQuiet.forgot (h : PortsQuiet s t) (core ctx unit : Nat) : PortsQuiet s (forget t core ctx unit) := by
  rw [forget_eq]
  exact ⟨h.memory, h.done, h.held, h.notices⟩

theorem startWalk_eq (s : State) (w : Who) (va : Nat) (h : Hold) : ∃ ws ids, startWalk s w va h = { s with walks := ws, ids := ids } := by
  unfold startWalk
  cases h with
  | earlier => exact ⟨s.walks, s.ids, rfl⟩
  | walker =>
    cases hw : walkState s w va with
    | none => exact ⟨_, _, rfl⟩
    | some x => exact ⟨s.walks, s.ids, rfl⟩
  | migrating e =>
    cases hw : walkState s w va with
    | none => exact ⟨_, _, rfl⟩
    | some x =>
      simp only
      split
      · exact ⟨_, s.ids, rfl⟩
      · split
        · exact ⟨_, s.ids, rfl⟩
        · exact ⟨s.walks, s.ids, rfl⟩

theorem PortsQuiet.waits (h : PortsQuiet s t) (w : Who) (va : Nat) (x : Hold) : PortsQuiet s (startWalk t w va x) := by
  obtain ⟨ws, ids, he⟩ := startWalk_eq t w va x
  rw [he]
  exact ⟨h.memory, h.done, h.held, h.notices⟩

/-- The completions at the ports once a request has its own: none for a posted write. -/
def completed (s : State) (r : PortReq) (status : Nat) (bs : List Byte) : List PortDone :=
  if r.write then s.module.portDone else s.module.portDone ++ [⟨r.port, r.requester, status, bs⟩]

theorem portReply_portDone (t : State) (r : PortReq) (status : Nat) (bs : List Byte) (h : t.module.portDone = s.module.portDone) :
    (portReply t r status bs).module.portDone = completed s r status bs := by
  unfold portReply completed
  split
  · exact h
  · exact congrArg (· ++ [_]) h

/-- A request that is not performed has its completion and its notice, and memory is untouched. -/
theorem PortsQuiet.refused (h : PortsQuiet s t) (r : PortReq) (cause status : Nat) :
    SameMemory s (portRefuse t r cause status) ∧ (portRefuse t r cause status).module.portDone = completed s r status [] ∧
    (s.module.notices.length < 64 → (portRefuse t r cause status).module.notices = s.module.notices ++
      [[3, BitVec.ofNat 64 (r.port % 8 + r.requester % 65536 * 65536), BitVec.ofNat 64 cause, r.va, 0]]) := by
  obtain ⟨hmem, hdone, hheld, hnotices⟩ := h
  have hreply : (portReply t r status []).module.notices = s.module.notices := by
    unfold portReply
    split <;> exact hnotices
  refine ⟨fun loc => ?_, ?_, fun hroom => ?_⟩
  · rw [portRefuse, readByte_congr (notice_mem ..) (notice_undef ..), ← hmem loc]
    unfold portReply
    split <;> rfl
  · rw [portRefuse, notice_portDone, portReply_portDone t r status [] hdone]
  · rw [portRefuse, notice_room _ _ _ (by rw [hreply]; exact hroom), hreply]
    rfl

end Quiet

/-! ### A request at its port -/

section Request
variable {s t : State} {r : PortReq} (hport : partFenced s.module.fenced (.rootPort r.port) = false)
include hport

theorem portRequest_settled (h : portServe (newId s) s.ids r = (t, true)) : portRequest s r = t := by
  simp [portRequest, hport, h]

theorem portRequest_held (h : portServe (newId s) s.ids r = (t, false)) :
    portRequest s r = { t with module := { t.module with portHeld := t.module.portHeld ++ [⟨s.ids, r⟩] } } := by
  simp [portRequest, hport, h]

end Request

section Serve
variable {s : State} {n : Nat} {r : PortReq}

theorem portServe_none (h : (functionEntry s r).2.1.getLsbD 63 = false) :
    portServe s n r = (portRefuse (functionEntry s r).1 r 0 1, true) := by
  simp only [portServe, bit_eq_getLsbD, h, Bool.not_false, if_true]

variable (he : (functionEntry s r).2.1.getLsbD 63 = true)
include he

theorem portServe_fault {t : State} {c : Cause} {v : Word} (hc : c ≠ .uncorrectable)
    (h : portAccess (functionEntry s r).1 (portWho (functionEntry s r).1 n r (functionEntry s r).2) r = .fault t c v) :
    let w := portWho (functionEntry s r).1 n r (functionEntry s r).2
    portServe s n r = (portRefuse (forget (endWalks t w) w.agent.core w.ctx w.unit) r c.code (portStatus c), true) := by
  simp only [portServe, bit_eq_getLsbD, he, Bool.not_true, Bool.false_eq_true, if_false, h, if_neg hc]

theorem portServe_ok {t : State} {bs : List Byte}
    (h : portAccess (functionEntry s r).1 (portWho (functionEntry s r).1 n r (functionEntry s r).2) r = .ok t bs) :
    let w := portWho (functionEntry s r).1 n r (functionEntry s r).2
    portServe s n r = (portReply (forget t w.agent.core w.ctx w.unit) r 0 bs, true) := by
  simp only [portServe, bit_eq_getLsbD, he, Bool.not_true, Bool.false_eq_true, if_false, h]

theorem portServe_wait {t : State}
    (h : portAccess (functionEntry s r).1 (portWho (functionEntry s r).1 n r (functionEntry s r).2) r = .wait t) :
    portServe s n r = (t, false) := by
  simp only [portServe, bit_eq_getLsbD, he, Bool.not_true, Bool.false_eq_true, if_false, h]

end Serve

theorem portStatus_eq (c : Cause) : portStatus c = if c = .notmapped ∨ c = .walknonres ∨ c = .walkremote then 1 else 2 := by
  cases c <;> rfl

/-! ### The accesses of a request -/

section Access
variable {s : State} {w : Who} {r : PortReq} {loc : Nat} {ls : List TlbEntry}

theorem portAccess_unpaged (hr : rangeOf r.va ≠ .paged) : portAccess s w r = .fault s .notmapped r.va := if_pos hr

theorem commitLeaves_port {β : Type} (g : State → β) {p : Nat} (hw : w.tlb = .port p) (hword : ∀ s loc v, g (writeWord s 0 loc v) = g s)
    (hfill : ∀ s e, g (tlbFill s (.port p) e) = g s) (hend : g (endWalks s w) = g s) (k : AccKind) : g (commitLeaves s w k ls) = g s :=
  (setLeaves_keeps g hword (by rw [hw]; exact hfill) k ls _).trans hend

/-- A request's access of one part, in memory of this module that no packet reaches for it. -/
theorem byPacket_here (h : s.heldPorts = false ∨ 2 ^ 48 ≤ loc) : byPacket s none loc = none := by
  rcases h with h | h <;> simp [byPacket, h]
  exact fun _ => h

variable (hr : rangeOf r.va = .paged)
include hr

theorem portAccess_read (hw : r.write = false) (h : translateAll s w .load [(r.va.toNat, r.len)] = .ok [[(loc, none, r.len)]] ls)
    (hown : ownPending (commitLeaves s w .load ls) w.agent loc r.len = false) (hp : byPacket (commitLeaves s w .load ls) none loc = none) :
    portAccess s w r = .ok (commitLeaves s w .load ls) (readBytes (commitLeaves s w .load ls) loc r.len) := by
  simp [portAccess, hr, hw, readMem, resolve, h, readParts, hown, hp, Eng.bind]

theorem portAccess_write (hw : r.write = true)
    (h : translateAll s w .store [(r.va.toNat, r.bytes.length)] = .ok [[(loc, none, r.bytes.length)]] ls)
    (hown : ownPending (commitLeaves s w .store ls) w.agent loc r.bytes.length = false)
    (hp : byPacket (commitLeaves s w .store ls) none loc = none) :
    portAccess s w r = .ok (storeAt (commitLeaves s w .store ls) w.ctx loc r.bytes) [] := by
  simp [portAccess, hr, hw, writeMem, resolve, h, writeParts, hown, hp, Eng.bind]

/-- The kind of a request's access. -/
def portKind (r : PortReq) : AccKind := if r.write then .store else .load

/-- The size of a request's access. -/
def portSize (r : PortReq) : Nat := if r.write then r.bytes.length else r.len

/-- A paged access resolves as its translation does. -/
theorem resolve_paged (k : AccKind) (n : Nat) : resolve s w k r.va n = translateAll s w k [(r.va.toNat, n)] := by rw [resolve, hr]

theorem portAccess_fault {c : Cause} {v : Word} (h : translateAll s w (portKind r) [(r.va.toNat, portSize r)] = .fault c v) :
    portAccess s w r = .fault (endWalks s w) c v := by
  rw [← resolve_paged hr] at h
  cases hw : r.write with
  | false =>
    rw [portKind, portSize, hw] at h
    simp [portAccess, hr, hw, readMem, show resolve s w .load r.va r.len = _ from h]
  | true =>
    rw [portKind, portSize, hw] at h
    simp [portAccess, hr, hw, writeMem, show resolve s w .store r.va r.bytes.length = _ from h, Eng.bind]

theorem portAccess_wait {va : Nat} {x : Hold} (h : translateAll s w (portKind r) [(r.va.toNat, portSize r)] = .wait va x) :
    portAccess s w r = .wait (startWalk s w va x) := by
  rw [← resolve_paged hr] at h
  cases hw : r.write with
  | false =>
    rw [portKind, portSize, hw] at h
    simp [portAccess, hr, hw, readMem, show resolve s w .load r.va r.len = _ from h]
  | true =>
    rw [portKind, portSize, hw] at h
    simp [portAccess, hr, hw, writeMem, show resolve s w .store r.va r.bytes.length = _ from h, Eng.bind]

end Access

theorem forget_unnoted {s : State} (h : s.memos = []) (core ctx unit : Nat) : forget s core ctx unit = s := by simp [forget, h]

/-! ### What becomes of a request -/

section Outcome
variable {s : State} {r : PortReq} (hport : partFenced s.module.fenced (.rootPort r.port) = false)

/-- A request that is not performed. -/
def Refused (s : State) (r : PortReq) (t : State) (cause status : Nat) : Prop :=
  exec (.portRequest r) s = .next t ∧ SameMemory s t ∧ t.module.portDone = completed s r status [] ∧
  (s.module.notices.length < 64 → t.module.notices = s.module.notices ++
    [[3, BitVec.ofNat 64 (r.port % 8 + r.requester % 65536 * 65536), BitVec.ofNat 64 cause, r.va, 0]])

include hport

/-- The function entry is not valid. -/
theorem portRequest_invalid (he : (functionEntry (newId s) r).2.1.getLsbD 63 = false) : ∃ t, Refused s r t 0 1 :=
  ⟨_, by rw [exec_portRequest, portRequest_settled hport (portServe_none he)], (PortsQuiet.entry s r).refused r 0 1⟩

variable (he : (functionEntry (newId s) r).2.1.getLsbD 63 = true)
include he

/-- The access faults. -/
theorem portRequest_faults {t : State} {c : Cause} {v : Word} (hc : c ≠ .uncorrectable) (ht : PortsQuiet s t)
    (h : portAccess (functionEntry (newId s) r).1 (portWho (functionEntry (newId s) r).1 s.ids r (functionEntry (newId s) r).2) r = .fault t c v) :
    ∃ u, Refused s r u c.code (portStatus c) :=
  ⟨_, by rw [exec_portRequest, portRequest_settled hport (portServe_fault he hc h)], ((ht.ended _).forgot _ _ _).refused r _ _⟩

/-- The access waits. -/
theorem portRequest_waits {t : State} (ht : PortsQuiet s t)
    (h : portAccess (functionEntry (newId s) r).1 (portWho (functionEntry (newId s) r).1 s.ids r (functionEntry (newId s) r).2) r = .wait t) :
    ∃ u, exec (.portRequest r) s = .next u ∧ SameMemory s u ∧ u.module.portDone = s.module.portDone ∧
      u.module.portHeld = s.module.portHeld ++ [⟨s.ids, r⟩] :=
  ⟨{ t with module := { t.module with portHeld := t.module.portHeld ++ [⟨s.ids, r⟩] } },
    by rw [exec_portRequest, portRequest_held hport (portServe_wait he h)], ht.memory, ht.done, congrArg (· ++ [⟨s.ids, r⟩]) ht.held⟩

variable {loc : Nat} {ls : List TlbEntry} (hr : rangeOf r.va = .paged) (hhere : s.heldPorts = false ∨ 2 ^ 48 ≤ loc)
include hr hhere

omit hport he hr in
/-- The accesses of a request whose leaves are set are at hand. -/
theorem byPacket_committed (k : AccKind) : byPacket (commitLeaves (functionEntry (newId s) r).1
    (portWho (functionEntry (newId s) r).1 s.ids r (functionEntry (newId s) r).2) k ls) none loc = none := by
  refine byPacket_here ?_
  obtain ⟨fns, hfn⟩ := functionEntry_eq (newId s) r
  rw [commitLeaves_port State.heldPorts rfl (fun s loc v => writeBytes_heldPorts ..) (fun s e => rfl) (endWalks_heldPorts ..), hfn]
  exact hhere

/-- A read is performed. -/
theorem portRequest_reads (hw : r.write = false) :
    let fn := (functionEntry (newId s) r).1
    let w := portWho fn s.ids r (functionEntry (newId s) r).2
    translateAll fn w .load [(r.va.toNat, r.len)] = .ok [[(loc, none, r.len)]] ls →
    ownPending (commitLeaves fn w .load ls) w.agent loc r.len = false →
    ∃ t, exec (.portRequest r) s = .next t ∧
      t.module.portDone = completed s r 0 (readBytes (commitLeaves fn w .load ls) loc r.len) := by
  intro fn w h hown
  have hacc := portAccess_read hr hw h hown (byPacket_committed hhere .load)
  refine ⟨_, by rw [exec_portRequest, portRequest_settled hport (portServe_ok he hacc)], portReply_portDone _ _ _ _ ?_⟩
  rw [forget_module, commitLeaves_port (fun s => s.module.portDone) rfl (fun s loc v => congrArg Module.portDone (writeBytes_module ..))
    (fun s e => rfl) (congrArg Module.portDone (endWalks_module ..))]
  exact (PortsQuiet.entry s r).done

/-- A posted write is performed. -/
theorem portRequest_writes (hw : r.write = true) (hm : s.memos = []) :
    let fn := (functionEntry (newId s) r).1
    let w := portWho fn s.ids r (functionEntry (newId s) r).2
    translateAll fn w .store [(r.va.toNat, r.bytes.length)] = .ok [[(loc, none, r.bytes.length)]] ls →
    ownPending (commitLeaves fn w .store ls) w.agent loc r.bytes.length = false →
    exec (.portRequest r) s = .next (storeAt (commitLeaves fn w .store ls) w.ctx loc r.bytes) := by
  intro fn w h hown
  have hacc := portAccess_write hr hw h hown (byPacket_committed hhere .store)
  obtain ⟨fns, hfn⟩ := functionEntry_eq (newId s) r
  have hmemos : (storeAt (commitLeaves fn w .store ls) w.ctx loc r.bytes).memos = [] := by
    rw [storeAt_memos, commitLeaves_port State.memos rfl (fun s loc v => writeBytes_memos ..) (fun s e => rfl) (endWalks_memos ..)]
    exact (congrArg State.memos hfn).trans hm
  rw [exec_portRequest, portRequest_settled hport (portServe_ok he hacc), forget_unnoted hmemos, portReply, if_pos hw]

end Outcome

end Sys2Proof.Machine
end

section
/-!
SUPPORT. The removal of a core (R90, R91): what moving a core's holdings keeps of the messages of every core.
-/

namespace Sys2Proof.Machine

@[simp] theorem exec_coreRemoval (s : State) (c d : Nat) : exec (.coreRemoval c d) s = .next (coreRemoval s c d) := rfl

/-! ### What keeps every message where it is -/

/-- The network and the messages that wait at every core are the same. -/
structure MessagesKept (s t : State) : Prop where
  net : t.net = s.net
  waiting : ∀ k, (coreOf t k).waiting = (coreOf s k).waiting

namespace MessagesKept
variable {s t u : State}

theorem refl (s : State) : MessagesKept s s := ⟨rfl, fun _ => rfl⟩

theorem trans (h : MessagesKept s t) (h' : MessagesKept t u) : MessagesKept s u :=
  ⟨h'.net.trans h.net, fun k => (h'.waiting k).trans (h.waiting k)⟩

theorem modCore (c : Nat) {f : Core → Core} (hf : ∀ k, (f k).waiting = k.waiting) : MessagesKept s (Machine.modCore s c f) := by
  refine ⟨rfl, fun k => ?_⟩
  by_cases h : k = c
  · rw [h, coreOf_modCore_self, hf]
  · rw [coreOf_modCore_ne _ _ h]

theorem modCtx (c x : Nat) (f : CtxCore → CtxCore) : MessagesKept s (Machine.modCtx s c x f) := modCore c (fun _ => rfl)

theorem modClause (c : Nat) (f : Clause → Clause) : MessagesKept s (Machine.modClause s c f) := ⟨rfl, fun _ => rfl⟩

theorem modLease (cl core ctx : Nat) (f : Lease → Lease) : MessagesKept s (Machine.modLease s cl core ctx f) := ⟨rfl, fun _ => rfl⟩

/-- A change of every core that keeps what waits at each. -/
theorem mapCores {f : Nat → Core → Core} (hf : ∀ c k, (f c k).waiting = k.waiting) :
    MessagesKept s { s with cores := s.cores.map (fun k => (k.1, f k.1 k.2)) } := by
  refine ⟨rfl, fun k => ?_⟩
  rw [coreOf, coreOf, tgetD, tget_mapKeyed, tgetD]
  cases tget s.cores k with
  | none => rfl
  | some x => exact hf k x

theorem foldl {α : Type} {f : State → α → State} (hf : ∀ s x, MessagesKept s (f s x)) (l : List α) (s : State) :
    MessagesKept s (l.foldl f s) := by
  induction l generalizing s with
  | nil => exact refl s
  | cons x r ih => exact (hf s x).trans (ih _)

theorem storeAt (s : State) (ctx loc : Nat) (bs : List Byte) : MessagesKept s (Machine.storeAt s ctx loc bs) :=
  ⟨storeAt_net .., fun k => storeAt_keeps s ctx loc bs Core.waiting (fun _ _ => rfl) k⟩

end MessagesKept

/-! ### The steps of a removal -/

theorem parkTile_kept (s : State) (cl core ctx i : Nat) : MessagesKept s (parkTile s cl core ctx i) := by
  unfold parkTile
  split
  · exact .refl s
  · split
    · refine MessagesKept.trans ?_ (.modClause ..)
      refine MessagesKept.trans ?_ (.modLease ..)
      refine MessagesKept.trans ?_ (.modCtx ..)
      split
      · exact .refl s
      · exact .storeAt ..
    · exact .refl s

theorem saveFrame_kept (s : State) (core : Nat) (f : Frame) : MessagesKept s (saveFrame s core f) := by
  simp only [saveFrame]
  refine MessagesKept.trans ?_ (.modCtx ..)
  exact .storeAt ..

theorem copyBytes_kept (n : Nat) : ∀ (s : State) (a b : Nat), MessagesKept s (copyBytes s a b n) := by
  induction n with
  | zero => exact fun s _ _ => .refl s
  | succ n ih => exact fun s a b => MessagesKept.trans (t := writeByte s (ownerOf s a) b (readByte s a)) ⟨rfl, fun _ => rfl⟩ (ih ..)

theorem copyPool_kept (s : State) (c d ctx : Nat) : MessagesKept s (copyPool s c d ctx) :=
  (copyBytes_kept ..).trans ⟨rfl, fun _ => rfl⟩

theorem moveEngines_kept (s : State) (c d : Nat) : MessagesKept s (moveEngines s c d) := by
  simp only [moveEngines]
  refine MessagesKept.trans ?_ (MessagesKept.foldl (fun s l => ?_) _ _)
  · refine MessagesKept.trans ?_ (.modClause ..)
    refine MessagesKept.trans ?_ (.modClause ..)
    exact MessagesKept.foldl (fun s l => MessagesKept.foldl (fun s i => parkTile_kept ..) _ s) _ s
  · split
    · exact .modClause ..
    · exact MessagesKept.trans (.modClause ..) (.modClause ..)

theorem giveArea_kept (s : State) (c d : Nat) : MessagesKept s (giveArea s c d) := by
  simp only [giveArea, saveIdle]
  split
  · exact .refl s
  · refine MessagesKept.trans (.modCore d ?_) (MessagesKept.foldl (fun s x => ?_) _ _)
    · exact fun _ => rfl
    · split
      · exact .refl s
      · exact saveFrame_kept ..

theorem moveArrivals_kept (s : State) (d : Nat) (x : Nat × CtxCore) : MessagesKept s (moveArrivals s d x) := by
  unfold moveArrivals
  split
  · exact .refl s
  · exact .modCtx ..

theorem copyFrames_kept (s : State) (c d : Nat) (cs : List Nat) : MessagesKept s (copyFrames s c d cs) := by
  simp only [copyFrames]
  split
  · exact .refl s
  · split
    · exact MessagesKept.foldl (fun s x => saveFrame_kept ..) _ s
    · refine MessagesKept.foldl (fun t x => ?_) _ s
      split
      · exact .refl t
      · exact copyBytes_kept ..

theorem moveSlots_kept (s : State) (c d : Nat) : MessagesKept s (moveSlots s c d) := by
  simp only [moveSlots]
  split
  · refine MessagesKept.trans ?_ (.modCore d ?_)
    · split
      · exact .refl s
      · exact MessagesKept.foldl (fun s f => saveFrame_kept ..) _ s
    · exact fun _ => rfl
  · exact MessagesKept.foldl (fun s f => saveFrame_kept ..) _ s

theorem remapCtx_cores (s : State) (c d ctx : Nat) : (remapCtx s c d ctx).cores = s.cores ∧ (remapCtx s c d ctx).net = s.net := by
  have hfold (ls : List Nat) (f : Nat → Nat) (bs : List Byte) : ∀ s : State,
      (ls.foldl (fun s l => writeBytes s 0 (f l) bs) s).cores = s.cores ∧ (ls.foldl (fun s l => writeBytes s 0 (f l) bs) s).net = s.net := by
    induction ls with
    | nil => exact fun s => ⟨rfl, rfl⟩
    | cons l r ih => exact fun s => ⟨(ih _).1.trans (writeBytes_cores ..), (ih _).2.trans (writeBytes_net ..)⟩
  simp only [remapCtx]
  split
  · exact ⟨rfl, rfl⟩
  · exact ⟨(writeBytes_cores ..).trans (hfold ..).1, (writeBytes_net ..).trans (hfold ..).2⟩

theorem remapAll_cores (c d : Nat) (cs : List Nat) : ∀ s : State, (cs.foldl (fun s x => remapCtx s c d x) s).cores = s.cores ∧
    (cs.foldl (fun s x => remapCtx s c d x) s).net = s.net := by
  induction cs with
  | nil => exact fun s => ⟨rfl, rfl⟩
  | cons x r ih => exact fun s => ⟨(ih _).1.trans (remapCtx_cores ..).1, (ih _).2.trans (remapCtx_cores ..).2⟩

/-! ### The successor takes the core's place -/

/-- What the removed core holds before its slots and messages move. -/
def holdingsMoved (s : State) (c d : Nat) : State :=
  let cs := movedCtxs s c
  let k := coreOf s c
  let s := cs.foldl (fun s x => copyPool s c d x) (giveArea s c d)
  let s := modCore s d (fun m => { m with ctxs := k.ctxs.foldl (fun t x => if cs.contains x.1 then tset t x.1 x.2 else t) m.ctxs })
  let s := (k.ctxs.filter (fun x => !cs.contains x.1)).foldl (fun s x => moveArrivals s d x) s
  moveSlots (copyFrames s c d cs) c d

theorem holdingsMoved_kept (s : State) (c d : Nat) : MessagesKept s (holdingsMoved s c d) := by
  simp only [holdingsMoved]
  refine MessagesKept.trans ?_ (moveSlots_kept ..)
  refine MessagesKept.trans ?_ (copyFrames_kept ..)
  refine MessagesKept.trans ?_ (MessagesKept.foldl (fun s x => moveArrivals_kept ..) _ _)
  refine MessagesKept.trans ?_ (.modCore d (fun _ => rfl))
  exact (giveArea_kept ..).trans (MessagesKept.foldl (fun s x => copyPool_kept ..) _ _)

/-- The successor once it has taken over what waits at the removed core k. -/
def takenOver (s : State) (c d : Nat) (places : List (Nat × Nat)) (k m : Core) : Core :=
  { m with
    waiting := m.waiting ++ k.waiting.map (renameMiss places)
    away := m.away ++ k.away.map (rehome s c d)
    migrating := m.migrating ++ k.migrating
    refused := m.refused ++ k.refused
    recency := m.recency ++ k.recency.filter (fun x => !m.recency.contains x)
    watch := (m.watch ++ k.watch).take 16
    unacked := m.unacked ++ k.unacked
    lastSeq := m.lastSeq ++ k.lastSeq
    rotation := m.rotation ++ k.rotation }

/-- The removed core. -/
def leftCore (d : Nat) (k : Core) : Core := { Core.init with saveb := k.saveb, tvec := k.tvec, quiesced := true, successor := some d }

theorem moveCore_eq (s : State) (c d : Nat) (places : List (Nat × Nat)) : moveCore s c d places =
    modCore (moveGuests (modCore (holdingsMoved s c d) d (takenOver (holdingsMoved s c d) c d places (coreOf s c))) c d) c (leftCore d) := rfl

theorem renameMiss_nil (m : Msg) : renameMiss [] m = m := by
  unfold renameMiss
  split
  next n h => rw [show tgetD [] n n = n from rfl, ← h]
  next => rfl

/-- A core that has been removed: nothing runs or waits on it, and it names its successor. -/
structure Removed (k : Core) (d : Nat) : Prop where
  successor : k.successor = some d
  quiesced : k.quiesced = true
  active : k.active = none
  waiting : k.waiting = []

theorem moveCore_removes (s : State) (c d : Nat) (places : List (Nat × Nat)) : Removed (coreOf (moveCore s c d places) c) d := by
  rw [moveCore_eq, coreOf_modCore_self]
  exact ⟨rfl, rfl, rfl, rfl⟩

/-- A core whose activations that had migrated to the removed core go on elsewhere. -/
def guestsMoved (s : State) (c d home : Nat) (k : Core) : Core :=
  { k with away := k.away.map (fun f =>
      { f with act := f.act.map (fun a => if a.runsOn = some c then { a with runsOn := some (guestTarget s home d) } else a) }) }

theorem moveGuests_kept (s : State) (c d : Nat) : MessagesKept s (moveGuests s c d) :=
  .mapCores (f := guestsMoved s c d) (fun _ _ => rfl)

theorem takenOver_waiting (s : State) (c d : Nat) (k m : Core) : (takenOver s c d [] k m).waiting = m.waiting ++ k.waiting := by
  have hid : renameMiss [] = id := funext renameMiss_nil
  rw [takenOver, hid, List.map_id]

theorem moveCore_waiting (s : State) {c d : Nat} (hcd : c ≠ d) :
    (coreOf (moveCore s c d []) d).waiting = (coreOf s d).waiting ++ (coreOf s c).waiting := by
  rw [moveCore_eq, coreOf_modCore_ne _ _ hcd.symm, (moveGuests_kept ..).waiting, coreOf_modCore_self, takenOver_waiting,
    (holdingsMoved_kept s c d).waiting]

theorem moveCore_net (s : State) (c d : Nat) (places : List (Nat × Nat)) : (moveCore s c d places).net = s.net := by
  rw [moveCore_eq, modCore_net, (moveGuests_kept ..).net, modCore_net, (holdingsMoved_kept s c d).net]

/-- A core once others name the successor in its tables. -/
def renamedCore (s : State) (c d : Nat) (k : Core) : Core :=
  { k with
    watch := k.watch.map (fun w => { w with line := lineOf (poolMoved c d (w.line * 64)) })
    sendTab := renameSends (nodeOf s c) (nodeOf s d) k.sendTab
    ctxs := k.ctxs.map (fun x => (x.1, { x.2 with arrivals := x.2.arrivals.filter (fun r => r.1 != nodeOf s c) })) }

/-- Naming the successor keeps what a field of a core is, unless it is one of the renamed tables. -/
theorem renameCore_keeps {α : Type} (g : Core → α) (s : State) (c d k : Nat) (hg : ∀ k, g (renamedCore s c d k) = g k) :
    g (coreOf (renameCore s c d) k) = g (coreOf s k) :=
  tgetD_map_keeps (f := renamedCore s c d) g hg s.cores k Core.init

theorem forwardMessages_none {s : State} (d : Nat) (h : s.net = []) : forwardMessages s d = s := by simp [forwardMessages, h]

section Removal
variable {s : State} {c d : Nat}

theorem coreRemoval_refused (h : isApp c = true ∨ (coreOf s c).successor.isSome = true) : coreRemoval s c d = s := by
  rcases h with h | h <;> simp [coreRemoval, h]

theorem quiesce_quiesced (s : State) (c : Nat) : (coreOf (quiesce s c) c).quiesced = true := by simp [quiesce]

/-- A core in no phrase is quiesced without a word to others. -/
theorem quiesce_kept (hp : (coreOf s c).phrase = none) : MessagesKept s (quiesce s c) := by
  simp only [quiesce, hp]
  exact .modCore c (fun _ => rfl)

theorem removalReady_ne (h : removalReady s c d = true) : c ≠ d := by
  rintro rfl
  simp [removalReady] at h

variable (ha : isApp c = false) (hs : (coreOf s c).successor = none)
include ha hs

theorem coreRemoval_waits (h : removalReady (quiesce s c) c d = false) : coreRemoval s c d = quiesce s c := by
  simp [coreRemoval, ha, hs, h]

/-- What a removal within a clause comes to once it may go on. -/
theorem coreRemoval_ready (h : removalReady (quiesce s c) c d = true) (hcl : c / 8 = d / 8) :
    ∃ cs : List Nat, coreRemoval s c d = forwardMessages
      (cs.foldl (fun s x => remapCtx s c d x) (renameCore (moveCore (moveEngines (quiesce s c) c d) c d []) c d)) d := by
  have hplaces : missPlaces (quiesce s c) c d = [] := if_pos hcl
  have hmisses (t : State) : moveMisses t c d [] = t := rfl
  simp only [coreRemoval, ha, hs, h, hplaces, hmisses, Option.isSome_none, Bool.or_false, Bool.false_eq_true, Bool.not_true, if_false]
  exact ⟨_, rfl⟩

omit ha hs in
theorem renameCore_net (s : State) (c d : Nat) : (renameCore s c d).net = s.net := rfl

/-- A removal within a clause, with nothing in flight. -/
theorem coreRemoval_moves (h : removalReady (quiesce s c) c d = true) (hn : s.net = []) (hcl : c / 8 = d / 8)
    (hp : (coreOf s c).phrase = none) : Removed (coreOf (coreRemoval s c d) c) d ∧
    (coreOf (coreRemoval s c d) d).waiting = (coreOf s d).waiting ++ (coreOf s c).waiting := by
  have hm := (quiesce_kept hp).trans (moveEngines_kept (quiesce s c) c d)
  obtain ⟨cs, heq⟩ := coreRemoval_ready ha hs h hcl
  generalize moveEngines (quiesce s c) c d = m at hm heq
  generalize ht : renameCore (moveCore m c d []) c d = t at heq
  obtain ⟨hcores, hnet⟩ := remapAll_cores c d cs t
  have hempty : (cs.foldl (fun s x => remapCtx s c d x) t).net = [] := by rw [hnet, ← ht, renameCore_net, moveCore_net, hm.net, hn]
  have hcore (k : Nat) : coreOf (coreRemoval s c d) k = coreOf (renameCore (moveCore m c d []) c d) k := by
    rw [heq, forwardMessages_none d hempty, coreOf, hcores, ← ht, coreOf]
  obtain ⟨hsucc, hquiet, hactive, hleft⟩ := moveCore_removes m c d []
  rw [hcore, hcore]
  refine ⟨⟨?_, ?_, ?_, ?_⟩, ?_⟩
  · rw [renameCore_keeps Core.successor _ c d c (fun _ => rfl), hsucc]
  · rw [renameCore_keeps Core.quiesced _ c d c (fun _ => rfl), hquiet]
  · rw [renameCore_keeps Core.active _ c d c (fun _ => rfl), hactive]
  · rw [renameCore_keeps Core.waiting _ c d c (fun _ => rfl), hleft]
  · rw [renameCore_keeps Core.waiting _ c d d (fun _ => rfl), moveCore_waiting m (removalReady_ne h), hm.waiting, hm.waiting]

end Removal

end Sys2Proof.Machine
end

section
/-!
SUPPORT. O52, group by group of its events.
-/

namespace Sys2Proof.Machine

/-- A notice, delivered: a message of application core 0. -/
theorem noticeDelivery_message {s : State} {n : List Word} {rest : List (List Word)} (hroom : hostLoad s 8192 < 256)
    (hn : s.module.notices = n :: rest) (h : ¬(ctxState s 0 = 1 ∧ handlerOk (tableEntry s 0) s.module.noticeh = false)) :
    ∃ t m, exec .noticeDelivery s = .next t ∧ t.module.notices = rest ∧ t.module.noticesLost = 0 ∧
      (coreOf t 8192).hostq = (coreOf s 8192).hostq ++ [m] ∧ (coreOf t 8192).msgIrq = true ∧ m.origin = 2 ∧ m.words = noticeWords s n := by
  obtain ⟨m, hm, horigin, hwords⟩ := noticeDelivery_passes hroom hn h
  refine ⟨_, { m with id := s.ids }, exec_noticeDelivery s, ?_, ?_, ?_, ?_, horigin, hwords⟩
  · rw [hm, hostEnqueue_module]; rfl
  · rw [hm, hostEnqueue_module]; rfl
  · rw [hm, hostEnqueue_hostq]; rfl
  · rw [hm, hostEnqueue_msgIrq]

end Sys2Proof.Machine

namespace Sys2Proof
open Machine

/-- Settles O52, event by event: the kernel's start core by core (`booted_range`), a trap as `trapEntered` gives it, a card's access by the
outcome of its translation (`portServe_ok`, `portServe_fault`, `portServe_wait`), a removal by what keeps every core's messages
(`MessagesKept`). -/
theorem moduleEvents : Obligations.ModuleEvents := by
  intro s
  refine ⟨by rw [exec_powerOn, powerOn_eq], fun hpow hhalt => ⟨fun failed h => ⟨?_, ?_⟩, fun p ok h hp => ?_, fun ok h => ?_,
    fun failed ok h hf hw => ?_⟩, fun v => ⟨fun h => ?_, fun h => ?_, fun h => ?_, fun h => ?_, fun h => ?_, fun h => ?_, fun h => ?_,
    fun h => ?_⟩, rfl, rfl, fun p hp => ?_, fun n hl hd => ⟨fun hp => ?_, fun hp => ?_⟩,
    fun line => ⟨?_, fun hp ho a ha => ?_, fun hp ho => ?_⟩,
    fun hroom n rest hn => ⟨fun hok => ?_, fun h1 h2 hcount u a hstore ha => ?_⟩, fun port vector i hi hf hroom => ?_,
    fun r hport => ?_, fun c d h => ?_, fun c d ha hs => ⟨?_, fun h => ?_, fun h hn hcl hp => ?_⟩⟩
  · rw [exec_startupStageComplete, stage0_passes hpow hhalt failed h]
  · exact ⟨_, exec_startupStageComplete s failed false, stage0_fails hpow hhalt failed h, step_halted (stage0_fails hpow hhalt failed h)⟩
  · rw [exec_startupStageComplete, stage3_fences hpow hhalt ok h hp]
  · rw [exec_startupStageComplete, stage4_zeroes hpow hhalt ok h]
    exact ⟨_, rfl, rfl, fun loc => ⟨readByte_zeroMemory _ loc, ownerOf_zeroMemory _ loc⟩, rfl⟩
  · obtain ⟨hmodule, hflash, hcores⟩ := startKernel_starts (s := { s with module := { s.module with stage := 7 } }) hf hw
    rw [exec_startupStageComplete, stage6_starts hpow hhalt failed ok h]
    exact ⟨_, rfl, by rw [hmodule], hflash, hcores⟩
  · rw [exec_faccWrite, faccWrite_low s v h]
  · rw [exec_faccWrite, faccWrite_low_again s v h]
  · rw [exec_faccWrite, faccWrite_high s v h]
  · rw [exec_faccWrite, faccWrite_high_again s v h]
  · rw [exec_modnumWrite, modnumWrite_first s v h]
  · rw [exec_modnumWrite, modnumWrite_again s v h]
  · rw [exec_ctxtabWrite, ctxtabWrite_dead s v h]
  · rw [exec_ctxtabWrite, ctxtabWrite_live s v h]
  · rw [exec_partFailure, partFailure_fenced hp]
  · rw [exec_partFailure, partFailure_stack hl hd hp]
  · rw [exec_partFailure, partFailure_link hl hd hp]
  · rw [exec_scrubLine, scrubLine_correctable]
  · have ha' : actAt { s with poison := s.poison ++ [line] } ⟨Config.computeCores, none⟩ = some a := ha
    rw [exec_scrubLine, scrubLine_unowned hp ho]
    exact ⟨_, _, rfl, hostTrap_poison ha' .., actAt_hostTrap ha' .., rfl, rfl, rfl, rfl, rfl⟩
  · rw [exec_scrubLine, scrubLine_owned hp ho]
    refine ⟨_, rfl, contextEnd_poison .., contextEnd_active _ _, fun l hl => ?_⟩
    rw [contextEnd_launches] at hl
    simpa using (List.mem_filter.1 hl).2
  · exact noticeDelivery_message hroom hn hok
  · obtain ⟨t, ht, hrest, hfaults, hact⟩ := noticeRefused_stored (s := s) hcount hstore ha
    rw [exec_noticeDelivery, noticeDelivery_refused hroom hn h1 h2, ht]
    exact ⟨t, _, rfl, hrest, hfaults, hact, rfl, rfl, rfl, rfl, rfl⟩
  · obtain ⟨m, hm, hwords, horigin, hnosrc, hctx, hprio⟩ := msixVector_named hi hf hroom
    rw [exec_msixVector, hm]
    exact ⟨_, _, rfl, hostEnqueue_hostq .., hostEnqueue_msgIrq .., hwords, horigin, hnosrc, hctx, hprio⟩
  · intro fn e w done refusal
    refine ⟨fun x hx => ?_, fun hx => ⟨fun hlost => ?_, ?_⟩, fun he => portRequest_invalid hport he, fun he hr => ?_,
      fun he hr => ⟨fun hw loc ls h hown hhere => ?_, fun hw loc ls h hown hhere hm => ?_, fun c v hc h => ?_, fun va x h => ?_⟩⟩
    · exact ⟨congrArg Prod.snd (functionEntry_held (s := newId s) hx), congrArg Prod.fst (functionEntry_held (s := newId s) hx)⟩
    · obtain ⟨h0, h1⟩ := tableWord_half (s := newId s) hlost
      refine (congrArg Prod.snd (functionEntry_read (s := newId s) hx)).trans (congrArg₂ Prod.mk h0 h1)
    · have hfn : fn = _ := congrArg Prod.fst (functionEntry_read (s := newId s) hx)
      have hent : e = _ := congrArg Prod.snd (functionEntry_read (s := newId s) hx)
      rw [hfn, hent]
      exact tget_tset_self ..
    · exact portRequest_faults hport he (by decide) (PortsQuiet.entry s r) (portAccess_unpaged hr)
    · exact portRequest_reads hport he hr hhere hw h hown
    · exact portRequest_writes hport he hr hhere hw hm h hown
    · obtain ⟨t, ht⟩ := portRequest_faults hport he hc ((PortsQuiet.entry s r).ended w) (portAccess_fault hr h)
      exact ⟨t, portStatus_eq c ▸ ht⟩
    · exact portRequest_waits hport he ((PortsQuiet.entry s r).waits w va x) (portAccess_wait hr h)
  · rw [exec_coreRemoval, coreRemoval_refused h]
  · exact quiesce_quiesced s c
  · rw [exec_coreRemoval, coreRemoval_waits ha hs h]
  · obtain ⟨⟨hsucc, hquiet, hactive, hempty⟩, hwaiting⟩ := coreRemoval_moves ha hs h hn hcl hp
    exact ⟨_, exec_coreRemoval s c d, hsucc, hquiet, hactive, hempty, hwaiting⟩

end Sys2Proof
end

section
/-!
SUPPORT. A step of a running module (R33, R280): an activation stays in its place while its instruction is fetched, and every row of the
opcode table gives a next state where an activation is current.
-/

namespace Sys2Proof.Machine

/-- An activation is at the current place. -/
def Occupied (s : State) : Prop := (actAt s s.cur).isSome = true

theorem Occupied.congr {s t : State} (h : Occupied s) (hcores : t.cores = s.cores) (hcur : t.cur = s.cur) : Occupied t := by
  rw [Occupied, hcur, actAt_congr hcores]
  exact h

theorem Occupied.setAct {s : State} (h : Occupied s) (a : Act) : Occupied (setAct s a) := isSome_setAct h a

/-! ### What leaves the slots of a core alone -/

theorem actAt_modCore (s : State) (c : Nat) {f : Core → Core} (hactive : ∀ k, (f k).active = k.active) (haway : ∀ k, (f k).away = k.away)
    (d : Cur) : actAt (modCore s c f) d = actAt s d := by
  by_cases h : d.core = c
  · subst h
    simp only [actAt, coreOf_modCore_self, hactive, haway]
  · simp only [actAt, coreOf_modCore_ne s f h]

theorem actAt_tlbFill (s : State) (h : TlbHome) (e : TlbEntry) (d : Cur) : actAt (tlbFill s h e) d = actAt s d := by
  cases h with
  | core c =>
    have hcore := actAt_modCore s c (f := fun x => { x with tlb := tlbPush 64 e x.tlb }) (fun _ => rfl) (fun _ => rfl) d
    simp only [tlbFill]
    split
    · exact hcore
    · exact (actAt_congr rfl d).trans hcore
  | clause c => exact actAt_congr rfl d
  | port p => exact actAt_congr rfl d

theorem tlbFill_cur (s : State) (h : TlbHome) (e : TlbEntry) : (tlbFill s h e).cur = s.cur := by
  cases h with
  | core c =>
    simp only [tlbFill]
    split <;> rfl
  | clause c => rfl
  | port p => rfl

theorem actAt_commitLeaves (s : State) (w : Who) (k : AccKind) (ls : List TlbEntry) (d : Cur) :
    actAt (commitLeaves s w k ls) d = actAt s d :=
  (setLeaves_keeps (fun t => actAt t d) (fun _ _ _ => actAt_congr (writeBytes_cores ..) d) (fun t e => actAt_tlbFill t w.tlb e d) k ls _).trans
    (actAt_congr (by rw [endWalks_eq]) d)

theorem commitLeaves_cur (s : State) (w : Who) (k : AccKind) (ls : List TlbEntry) : (commitLeaves s w k ls).cur = s.cur :=
  (setLeaves_keeps State.cur (fun _ _ _ => writeBytes_cur ..) (fun t e => tlbFill_cur t w.tlb e) k ls _).trans (by rw [endWalks_eq])

theorem Occupied.commitLeaves {s : State} (h : Occupied s) (w : Who) (k : AccKind) (ls : List TlbEntry) : Occupied (commitLeaves s w k ls) := by
  rw [Occupied, commitLeaves_cur, actAt_commitLeaves]
  exact h

theorem Occupied.endWalks {s : State} (h : Occupied s) (w : Who) : Occupied (endWalks s w) := by
  rw [endWalks_eq]
  exact h

theorem Occupied.startWalk {s : State} (h : Occupied s) (w : Who) (va : Nat) (x : Hold) : Occupied (startWalk s w va x) := by
  obtain ⟨ws, ids, he⟩ := startWalk_eq s w va x
  rw [he]
  exact h

theorem Occupied.forget {s : State} (h : Occupied s) (core ctx unit : Nat) : Occupied (forget s core ctx unit) := by
  rw [forget_eq]
  exact h

/-! ### A fetch leaves the activation in its place (R282) -/

/-- Every state that a run of accesses comes to meets a predicate. -/
def Eng.Meets {α : Type} (P : State → Prop) : Eng α → Prop
  | .ok s _ => P s
  | .fault s _ _ => P s
  | .wait s => P s

theorem Eng.Meets.bind {α β : Type} {P : State → Prop} {g : Eng α} {f : State → α → Eng β} (hg : g.Meets P)
    (hf : ∀ s x, P s → (f s x).Meets P) : (g.bind f).Meets P := by
  cases g with
  | ok s x => exact hf s x hg
  | fault s c v => exact hg
  | wait s => exact hg

theorem farRead_occupied {w : Who} {m : Nat} : ∀ (ps : List (Nat × Nat)) {s : State} (va : Nat), Occupied s →
    (farRead s w va m ps).Meets Occupied
  | [], _, _, h => h
  | (pa, n) :: r, s, va, h => by
    rw [farRead]
    split
    · split
      · exact h
      · split
        · exact h
        · exact (farRead_occupied r _ h).bind (fun _ _ ht => ht)
    · exact h

theorem takeLines_occupied : ∀ (ls : List (Nat × Option Nat × Nat)) {s : State}, Occupied s → (takeLines s ls).Meets Occupied
  | [], _, h => h
  | (va, m, pa) :: r, s, h => by
    rw [takeLines]
    split
    · exact (takeLines_occupied r h).bind (fun _ _ ht => ht)
    · have hfill (t : State) (bs : List Byte) (ht : Occupied t) :
          ((takeLines (pushLine t ⟨lineKey m pa, bs, t.cyc⟩) r).bind (fun u ls => .ok u (⟨lineKey m pa, bs, t.cyc⟩ :: ls))).Meets Occupied :=
        (takeLines_occupied r (ht.setAct _)).bind (fun _ _ hu => hu)
      dsimp only
      split
      · exact hfill s _ h
      · exact (farRead_occupied _ _ h).bind hfill

/-- The state that a fetch comes to meets a predicate. -/
def Fetched.Meets (P : State → Prop) : Fetched → Prop
  | .instr s _ => P s
  | .bad s _ => P s
  | .fault s _ _ => P s
  | .wait s => P s

theorem fetchPart_occupied {s : State} (h : Occupied s) (va : Word) (n : Nat) :
    (∀ f, fetchPart s va n = .error f → f.Meets Occupied) ∧ (∀ t bs ls, fetchPart s va n = .ok (t, bs, ls) → Occupied t) := by
  unfold fetchPart
  split
  · exact ⟨fun f hf => by cases hf; exact h.endWalks _, fun _ _ _ hf => (by cases hf)⟩
  · exact ⟨fun f hf => by cases hf; exact h.startWalk _ _ _, fun _ _ _ hf => (by cases hf)⟩
  · next ps ls _ =>
    have hlines := takeLines_occupied (spanLines va.toNat ps.flatten) h
    split
    · next heq => exact ⟨fun f hf => by cases hf; rwa [heq] at hlines, fun _ _ _ hf => (by cases hf)⟩
    · next heq => exact ⟨fun f hf => by cases hf; rwa [heq] at hlines, fun _ _ _ hf => (by cases hf)⟩
    · next heq => exact ⟨fun _ hf => (by cases hf), fun _ _ _ ht => by cases ht; rwa [heq] at hlines⟩

theorem Occupied.fetched {s : State} (h : Occupied s) (ls : List TlbEntry) : Occupied (fetched s ls) := (h.commitLeaves ..).forget ..

theorem fetchBytes_occupied {s : State} (h : Occupied s) (va : Word) :
    (∀ f, fetchBytes s va = .error f → f.Meets Occupied) ∧ (∀ t bs, fetchBytes s va = .ok (t, bs) → Occupied t) := by
  unfold fetchBytes
  split
  · next f heq => exact ⟨fun g hg => by cases hg; exact (fetchPart_occupied h va 2).1 f heq, fun _ _ hf => (by cases hf)⟩
  · next t lo ls heq =>
    have ht := (fetchPart_occupied h va 2).2 t lo ls heq
    split
    · exact ⟨fun _ hf => (by cases hf), fun _ _ hu => by cases hu; exact ht.fetched ls⟩
    · split
      · next f heq => exact ⟨fun g hg => by cases hg; exact (fetchPart_occupied ht va 4).1 f heq, fun _ _ hf => (by cases hf)⟩
      · next u bs ks heq =>
        exact ⟨fun _ hf => (by cases hf), fun _ _ hv => by cases hv; exact ((fetchPart_occupied ht va 4).2 u bs ks heq).fetched ks⟩

theorem fetch_occupied {s : State} (h : Occupied s) : (fetch s).Meets Occupied := by
  unfold fetch
  split
  · next f heq => exact (fetchBytes_occupied h _).1 f heq
  · next t bs heq =>
    have ht := (fetchBytes_occupied h _).2 t bs heq
    split
    · exact ht
    · exact ht

/-! ### Every row of the opcode table (R280) -/

/-- An outcome is a next state. -/
def GoesOn (o : Host.Outcome State Fault Refusal) : Prop := ∃ t, o = .next t

/-- What a row of the opcode table comes to: the next state of an event, or an issue where an activation is current. -/
inductive RowOutcome : Host.Outcome State Fault Refusal → Prop
  | event (t : State) : RowOutcome (.next t)
  | issued (g : Gate) (body : State → Res) {s : State} (h : Occupied s) : RowOutcome (issue g body s)

theorem RowOutcome.goesOn {o : Host.Outcome State Fault Refusal} (h : RowOutcome o) : GoesOn o := by
  cases h with
  | event t => exact ⟨t, rfl⟩
  | issued g body h => exact issue_next h g body

/-- Setting the activation of an active slot that holds one empties no place. -/
theorem isSome_setActAt_slot {s : State} {c : Nat} (a : Act) {d : Cur} (h : (actAt s d).isSome = true) :
    (actAt (setActAt s ⟨c, none⟩ (some a)) d).isSome = true := by
  obtain ⟨core, away⟩ := d
  by_cases hc : core = c
  · subst hc
    cases away with
    | none => simp [actAt_setActAt_self s ⟨core, none⟩ a h]
    | some x => simpa [actAt, setActAt] using h
  · simpa [actAt, coreOf_setActAt_ne s ⟨c, none⟩ (some a) hc] using h

/-- A phrase that dissolves leaves the current activation in its place (R85). -/
theorem Occupied.dissolve {s : State} (h : Occupied s) (p : Phrase) : Occupied (dissolve s p) := by
  refine List.foldlRecOn p.members _ h (fun t ht c _ => ?_)
  have hfree : Occupied (modCore t c (fun k => { k with phrase := none })) := by
    rw [Occupied, modCore_cur, actAt_modCore t c (f := fun k => { k with phrase := none }) (fun _ => rfl) (fun _ => rfl)]
    exact ht
  dsimp only
  split
  · split
    · exact isSome_setActAt_slot _ hfree
    · exact hfree
  · exact hfree

theorem Occupied.splitBefore {s : State} (h : Occupied s) (test : State → Bool) : Occupied (splitBefore test s) := by
  unfold Machine.splitBefore
  split
  · split
    · exact h.dissolve _
    · exact h
  · exact h

/-- Every row issues on the current activation, MIGR and YIELD once a phrase has split, or is an event. -/
theorem exec_row {s : State} (h : Occupied s) (i : Instr) : RowOutcome (exec i s) := by
  cases i
  case migr => exact .issued _ _ (h.splitBefore _)
  case yield => exact .issued _ _ (h.splitBefore _)
  all_goals constructor
  all_goals exact h

/-! ### The agents of the agenda -/

theorem execThen_goesOn {s : State} (h : Occupied s) (i : Instr) (cores : List Nat) (away : Option Nat) (ctx : Nat) :
    GoesOn (execThen s i cores away ctx) := by
  obtain ⟨t, ht⟩ := (exec_row h i).goesOn
  exact ⟨forgetIssued t cores away ctx, by rw [execThen, ht]⟩

theorem issueFetched_goesOn {s : State} (h : Occupied s) : GoesOn (issueFetched s) := by
  have hf := fetch_occupied h
  unfold issueFetched
  split
  · next heq => rw [heq] at hf; exact execThen_goesOn hf ..
  · next heq => rw [heq] at hf; exact execThen_goesOn hf ..
  · next heq => rw [heq] at hf; exact execThen_goesOn hf ..
  · exact ⟨_, rfl⟩

theorem mayIssue_isSome {s : State} {c : Cur} (h : mayIssue s c = true) : (actAt s c).isSome = true := by
  cases hc : actAt s c with
  | none => simp [mayIssue, hc] at h
  | some a => rfl

theorem issueAt_goesOn (s : State) (c : Cur) : GoesOn (issueAt s c) := by
  unfold issueAt
  split
  · next h =>
    have hc : Occupied { s with cur := c } := mayIssue_isSome h
    dsimp only
    split
    · exact ⟨_, rfl⟩
    · exact issueFetched_goesOn (hc.setAct _)
  · exact ⟨s, rfl⟩

theorem runEvent_goesOn (s : State) (i : Instr) : GoesOn (runEvent s i) := by
  unfold runEvent
  split
  · exact ⟨s, rfl⟩
  · split
    · exact ⟨_, rfl⟩
    · exact ⟨s, rfl⟩

theorem eventTurn_goesOn {s : State} {o : Host.Outcome State Fault Refusal} (h : eventTurn s = some o) : GoesOn o := by
  obtain ⟨i, -, rfl⟩ := Option.map_eq_some_iff.1 h
  exact runEvent_goesOn s i

theorem issueTurn_goesOn {s : State} {o : Host.Outcome State Fault Refusal} (h : issueTurn s = some o) : GoesOn o := by
  obtain ⟨c, -, rfl⟩ := Option.map_eq_some_iff.1 h
  exact issueAt_goesOn s c

/-- Of two agents the first that can move does; where neither can, the state stays. -/
theorem GoesOn.turns {s : State} {x y : Option (Host.Outcome State Fault Refusal)} (hx : ∀ o, x = some o → GoesOn o)
    (hy : ∀ o, y = some o → GoesOn o) : GoesOn ((x.orElse (fun _ => y)).getD (.next s)) := by
  cases x with
  | some o => exact hx o rfl
  | none =>
    cases y with
    | some o => exact hy o rfl
    | none => exact ⟨s, rfl⟩

theorem ownTurn_goesOn (s : State) : GoesOn (ownTurn s) := by
  unfold ownTurn
  split
  · exact GoesOn.turns (fun _ h => eventTurn_goesOn h) (fun _ h => issueTurn_goesOn h)
  · exact GoesOn.turns (fun _ h => issueTurn_goesOn h) (fun _ h => eventTurn_goesOn h)

theorem GoesOn.tick {o : Host.Outcome State Fault Refusal} (h : GoesOn o) : GoesOn (tick o) := by
  obtain ⟨t, rfl⟩ := h
  exact ⟨_, rfl⟩

theorem stepAgenda_goesOn (s : State) : GoesOn (stepAgenda s) := by
  unfold stepAgenda
  split
  · exact (ownTurn_goesOn s).tick
  · exact (issueAt_goesOn _ _).tick
  · exact (issueAt_goesOn _ _).tick
  · exact (runEvent_goesOn _ _).tick
  all_goals exact ⟨_, rfl⟩

theorem step_goesOn {s : State} (h : s.module.halt = false) : GoesOn (step s) := by
  unfold step
  rw [if_neg (by simp [h])]
  split
  · exact ⟨_, rfl⟩
  · exact stepAgenda_goesOn s

end Sys2Proof.Machine

namespace Sys2Proof

open Machine

/-- Settles O59: a halted module's step is a fault by definition (`step_halted`); any other step runs an event or issues on a place that
holds an activation (`stepAgenda_goesOn`), which it still does after the fetch (`fetch_occupied`, `exec_row`). -/
theorem stepGoesOn : Obligations.StepGoesOn := fun _ => ⟨step_halted, step_goesOn⟩

end Sys2Proof
end

section
/-!
SUPPORT. The control registers that a number names (R35, R123, R124, R145), and the traps of CRD and CWR (R305).
-/

namespace Sys2Proof.Machine

/-! ### What has a value, and what takes a write -/

/-- The numbers of the control registers that have a value. -/
def readable : List Nat :=
  List.range' 0x000 12 ++ List.range' 0x010 15 ++ List.range' 0x020 5 ++ List.range' 0x028 4 ++ [0x030, 0x031] ++
  List.range' 0x038 6 ++ List.range' 0x040 19 ++ List.range' 0x100 7 ++ List.range' 0x108 6 ++ List.range' 0x110 3

/-- The numbers of the control registers that a write may change. -/
def writable : List Nat :=
  List.range' 0x012 5 ++ List.range' 0x018 7 ++ List.range' 0x020 5 ++ List.range' 0x028 4 ++ [0x031, 0x03B, 0x03C, 0x052] ++
  List.range' 0x100 4 ++ List.range' 0x110 3

theorem readCr_none {s : State} {n : Nat} (h : n ∉ readable) : readCr s n = none := by
  unfold readCr
  split
  case h_64 =>
    refine if_neg (fun hn => h ?_)
    simp only [readable, List.mem_append, List.mem_range'_1]
    omega
  all_goals exact absurd (by decide) h

theorem writeCr_none {s : State} {n : Nat} (h : n ∉ writable) (w : Word) : writeCr s n w = none := by
  unfold writeCr
  split
  case h_33 => rfl
  all_goals exact absurd (by decide) h

/-- CR.TPC and CR.TSTAT take no write in user mode (R123). -/
theorem writeCr_user {s : State} (hp : (act s).priv = false) (w : Word) : writeCr s 0x012 w = none ∧ writeCr s 0x016 w = none := by
  simp [writeCr, hp]

/-! ### Ranges of numbers -/

/-- A number lies in one of some ranges. -/
def InRanges (l : List (Nat × Nat)) (n : Nat) : Prop := ∃ r ∈ l, r.1 ≤ n ∧ n ≤ r.2

theorem InRanges.not_mem {l : List (Nat × Nat)} {n : Nat} (h : InRanges l n) {ns : List Nat}
    (hl : ∀ m ∈ ns, ∀ r ∈ l, ¬(r.1 ≤ m ∧ m ≤ r.2)) : n ∉ ns := by
  obtain ⟨r, hr, hn⟩ := h
  exact fun hm => hl n hm r hr hn

theorem InRanges.unprivileged {l : List (Nat × Nat)} {n : Nat} (h : InRanges l n) (hl : ∀ r ∈ l, r.2 < 0x013 ∨ (0x013 < r.1 ∧ r.2 < 0x100)) :
    crPrivileged n = false := by
  obtain ⟨r, hr, h1, h2⟩ := h
  have := hl r hr
  simp only [crPrivileged, Bool.or_eq_false_iff, beq_eq_false_iff_ne, decide_eq_false_iff_not]
  omega

/-! ### The traps of CRD and CWR -/

section Traps
variable {s : State} (h : Solo s) (a : SReg) {n : BitVec 9}
include h

theorem crd_priv (hn : crPrivileged n.toNat = true) (hp : (act s).priv = false) :
    exec (.crd a n) s = .next (trapped s .priv (BitVec.ofNat 64 n.toNat)) := by
  have hbody : crdBody (Instr.crd a n).tval a n.toNat s = .trap s .priv (BitVec.ofNat 64 n.toNat) := by simp [crdBody, hn, hp]
  exact (issue_base h _ _).trans (by rw [hbody]; rfl)

theorem cwr_priv (hn : crPrivileged n.toNat = true) (hp : (act s).priv = false) :
    exec (.cwr a n) s = .next (trapped s .priv (BitVec.ofNat 64 n.toNat)) :=
  (issue_base h _ _).trans (by simp only [hn, hp, Bool.not_false, Bool.and_self, if_true]; rfl)

/-- A number that the mode may name. -/
theorem crd_illegal (hn : crPrivileged n.toNat = false ∨ (act s).priv = true) (hr : n.toNat ∉ 0x01F :: readable) :
    exec (.crd a n) s = .next (trapped s .illegal (Instr.crd a n).tval) := by
  rw [List.mem_cons, not_or] at hr
  obtain ⟨hcpgo, hnone⟩ := hr
  have hname : (crPrivileged n.toNat && !(act s).priv) = false := by rcases hn with hn | hn <;> simp [hn]
  have hbody : crdBody (Instr.crd a n).tval a n.toNat s = .trap s .illegal (Instr.crd a n).tval := by
    simp [crdBody, hname, hcpgo, readCr_none hnone]
  exact (issue_base h _ _).trans (by rw [hbody]; rfl)

theorem cwr_illegal (hn : crPrivileged n.toNat = false ∨ (act s).priv = true) (hw : writeCr s n.toNat (rS s a) = none) :
    exec (.cwr a n) s = .next (trapped s .illegal (Instr.cwr a n).tval) := by
  have hname : (crPrivileged n.toNat && !(act s).priv) = false := by rcases hn with hn | hn <;> simp [hn]
  exact (issue_base h _ _).trans (by simp only [hname, hw]; rfl)

end Traps

end Sys2Proof.Machine

namespace Sys2Proof
open Machine

/-- Settles O15: every number outside the lists `readable` and `writable` has no value and takes no write (`readCr_none`, `writeCr_none`),
and no range of the statement meets the list that it is checked against. -/
theorem controlRegisterTraps : Obligations.ControlRegisterTraps := by
  intro s a n h
  refine ⟨fun hp hn => ?_, fun hn => ?_, fun hn => ?_, fun hp hn => ?_, fun hp => ⟨fun hn => ?_, fun hn => ?_⟩⟩
  · have hpriv : crPrivileged n.toNat = true := by
      rcases hn with rfl | hn
      · rfl
      · simp [crPrivileged, hn]
    exact ⟨crd_priv h a hpriv hp, cwr_priv h a hpriv hp⟩
  · have hname := InRanges.unprivileged hn (by decide)
    exact ⟨crd_illegal h a (.inl hname) (InRanges.not_mem hn (by decide)),
      cwr_illegal h a (.inl hname) (writeCr_none (InRanges.not_mem hn (by decide)) _)⟩
  · exact cwr_illegal h a (.inl (InRanges.unprivileged hn (by decide))) (writeCr_none (InRanges.not_mem hn (by decide)) _)
  · rcases hn with rfl | rfl
    · exact cwr_illegal h a (.inl rfl) (writeCr_user hp _).1
    · exact cwr_illegal h a (.inl rfl) (writeCr_user hp _).2
  · exact ⟨crd_illegal h a (.inr hp) (InRanges.not_mem hn (by decide)),
      cwr_illegal h a (.inr hp) (writeCr_none (InRanges.not_mem hn (by decide)) _)⟩
  · exact cwr_illegal h a (.inr hp) (writeCr_none (InRanges.not_mem hn (by decide)) _)

end Sys2Proof
end

section
/-!
SUPPORT. Decode's fates before an instruction's own effect (R29, R39, R86, R279, R280), by the gate that an instruction issues through.
-/

namespace Sys2Proof.Machine

/-- An instruction issues through a gate. -/
def IssuesBy (i : Instr) (g : Gate) : Prop := ∃ body, ∀ s, exec i s = issue g body s

/-- The gate of an extension D instruction, by the feature bits that it needs. -/
def doubleGate (i : Instr) (feats : List Nat) : Gate := { baseGate i with extD := true, feats := feats }

theorem gateX_needs (i : Instr) (t : Bool) : 5 ∈ (gateX i t).feats ∧ (gateX i t).word = i.tval := by
  cases t <;> exact ⟨by simp [gateX], rfl⟩

theorem finish_trap (g : Gate) (s : State) (c : Cause) (v : Word) : finish g (.trap s c v) = trapped s c v := rfl

/-! ### The fates -/

section Fates
variable {s : State} (h : Solo s) {i : Instr} {g : Gate} (hi : IssuesBy i g) (hw : g.word = i.tval)
include h hi

theorem exec_gated : ∃ body, exec i s = .next (finish g (gated g body s)) := by
  obtain ⟨body, hbody⟩ := hi
  exact ⟨body, (hbody s).trans (issue_solo h g body)⟩

include hw in
/-- An application core has no engine (R29). -/
theorem exec_noEngine (hg : g.engine = true) (ha : isApp (runCore s) = true) : exec i s = .next (trapped s .illegal i.tval) := by
  obtain ⟨body, hexec⟩ := exec_gated h hi
  have hgated : gated g body s = .trap s .illegal i.tval := by simp [gated, hg, ha, hw]
  rw [hexec, hgated, finish_trap]

include hw in
/-- Without a feature bit that it needs, an instruction is no encoding (R39). -/
theorem exec_noFeature {b : Nat} (hb : b ∈ g.feats) (hf : featureFor s (ctxId s) b = false) :
    exec i s = .next (trapped s .illegal i.tval) := by
  obtain ⟨body, hexec⟩ := exec_gated h hi
  have hany : g.feats.any (fun b => !featureFor s (ctxId s) b) = true := List.any_eq_true.2 ⟨b, hb, by simp [hf]⟩
  have hgated : gated g body s = .trap s .illegal i.tval := by simp [gated, hany, hw]
  rw [hexec, hgated, finish_trap]

/-- A lean core has no extension D: the activation migrates, where it can (R86, R279). -/
theorem exec_noDouble {feats : List Nat} (hg : g = doubleGate i feats) (hf : ∀ b ∈ feats, featureFor s (ctxId s) b = true)
    (ha : isApp (runCore s) = false) (hc : runCore s % 8 < 6) :
    exec i s = .next (finish g (if canMigrate s then .migrate s else .trap s .extabsent i.tval)) := by
  obtain ⟨body, hexec⟩ := exec_gated h hi
  have hany : feats.any (fun b => !featureFor s (ctxId s) b) = false := List.any_eq_false.2 (fun b hb => by simp [hf b hb])
  have hlacks : lacksExt s g = true := by simp [hg, lacksExt, doubleGate, baseGate, hasExtD, ha, Nat.not_le.2 hc]
  have hgated : gated g body s = if canMigrate s then .migrate s else .trap s .extabsent i.tval := by
    subst hg
    simp only [gated, hlacks, if_true]
    simp [doubleGate, baseGate, hany]
  rw [hexec, hgated]

end Fates

/-- A privileged instruction in user mode (R280, R307). -/
theorem exec_unprivileged {s : State} (h : Solo s) {i : Instr} (hi : IssuesBy i (privGate i)) (hp : (act s).priv = false) :
    exec i s = .next (trapped s .priv i.tval) := by
  obtain ⟨body, hexec⟩ := exec_gated h hi
  rw [hexec, gated_priv body (by simp [privGate, baseGate]) rfl (by simp [privGate, baseGate, lacksExt]) rfl hp, finish_trap]

/-! ### A migration begins (R86) -/

theorem migrating_setAct (s : State) (a : Act) (c : Nat) : (coreOf (setAct s a) c).migrating = (coreOf s c).migrating := by
  unfold setAct setActAt
  by_cases h : c = s.cur.core
  · subst h
    cases s.cur.away <;> simp
  · cases s.cur.away <;> simp [coreOf_modCore_ne _ _ h]

theorem act_modCore (s : State) (c : Nat) {f : Core → Core} (hactive : ∀ k, (f k).active = k.active) (haway : ∀ k, (f k).away = k.away) :
    act (modCore s c f) = act s := by
  simp only [act, modCore_cur, actAt_modCore s c hactive haway]

theorem finish_migrate {s : State} (h : Solo s) (g : Gate) :
    (coreOf (finish g (.migrate s)) (home s)).migrating = (coreOf s (home s)).migrating ++ [ctxId s] ∧
    act (finish g (.migrate s)) = { act s with wait := none } := by
  have hmigrating := migrating_setAct s { act s with wait := none } (home s)
  have hact := act_modCore (setAct s { act s with wait := none }) (home s)
    (f := fun k => { k with migrating := k.migrating ++ [ctxId s] }) (fun _ => rfl) (fun _ => rfl)
  exact ⟨by simp [finish, modAct, hmigrating], hact.trans (act_setAct h.1 _)⟩

end Sys2Proof.Machine

namespace Sys2Proof
open Machine

/-- Settles O56: each list of the statement issues through the gates of its unit, and the gate's unit, features, extension or privilege
decide (`exec_noEngine`, `exec_noFeature`, `exec_noDouble`, `exec_unprivileged`). -/
theorem decodeFates : Obligations.DecodeFates := by
  intro s a b c va vb vc p pa sc i j k t g m n nw lexicon parser signature others double fate h
  have hlexicon : ∀ x ∈ lexicon, IssuesBy x (engineGate x [0]) :=
    List.forall_iff_forall_mem.1 (by and_intros <;> exact ⟨_, fun _ => rfl⟩)
  have hparser : ∀ x ∈ parser, IssuesBy x (engineGate x [1]) :=
    List.forall_iff_forall_mem.1 (by and_intros <;> exact ⟨_, fun _ => rfl⟩)
  have hsignature : ∀ x ∈ signature, IssuesBy x (sigGate x) :=
    List.forall_iff_forall_mem.1 (by and_intros <;> exact ⟨_, fun _ => rfl⟩)
  have hothers : ∀ x ∈ others, ∃ feats, IssuesBy x (engineGate x feats) :=
    List.forall_iff_forall_mem.1 (by and_intros <;> exact ⟨_, _, fun _ => rfl⟩)
  have hdouble : ∀ x ∈ double, ∃ feats, IssuesBy x (doubleGate x feats) ∧ 3 ∈ feats ∧ ∀ b ∈ feats, b = 3 ∨ b = 5 :=
    List.forall_iff_forall_mem.1 (by and_intros <;> exact ⟨_, ⟨_, fun _ => rfl⟩, by decide, by decide⟩)
  have hextended : ∀ x ∈ [Instr.vxacc nw p va vb, .vxrnd nw p va vb], IssuesBy x (gateX x nw) :=
    List.forall_iff_forall_mem.1 ⟨⟨_, fun _ => rfl⟩, _, fun _ => rfl⟩
  have hcollgo : ∀ x ∈ [Instr.collgo b], IssuesBy x (engineGate x [9]) :=
    List.forall_iff_forall_mem.1 ⟨_, fun _ => rfl⟩
  have hprivileged : ∀ x ∈ [Instr.eret, .halt, .tlbinv sc b c, .tlbinva sc b], IssuesBy x (privGate x) :=
    List.forall_iff_forall_mem.1 (by and_intros <;> exact ⟨_, fun _ => rfl⟩)
  refine ⟨fun ha x hx => ?_, fun hf x hx => exec_noFeature h (hlexicon x hx) rfl (List.mem_singleton_self 0) hf,
    fun hf x hx => exec_noFeature h (hparser x hx) rfl (List.mem_singleton_self 1) hf,
    fun hf x hx => exec_noFeature h (hsignature x hx) rfl (List.mem_singleton_self 2) hf, fun hf x hx => ?_, fun hf x hx => ?_,
    fun hf x hx => exec_noFeature h (hcollgo x hx) rfl (List.mem_singleton_self 9) hf, fun ha hc h3 h5 => ?_,
    fun hp x hx => exec_unprivileged h (hprivileged x hx) hp⟩
  · simp only [List.mem_append] at hx
    obtain ((hx | hx) | hx) | hx := hx
    · exact exec_noEngine h (hlexicon x hx) rfl rfl ha
    · exact exec_noEngine h (hparser x hx) rfl rfl ha
    · exact exec_noEngine h (hsignature x hx) rfl rfl ha
    · obtain ⟨feats, hi⟩ := hothers x hx
      exact exec_noEngine h hi rfl rfl ha
  · obtain ⟨feats, hi, h3, -⟩ := hdouble x hx
    exact exec_noFeature h hi rfl h3 hf
  · obtain ⟨h5, hword⟩ := gateX_needs x nw
    exact exec_noFeature h (hextended x hx) hword h5 hf
  · have hlean : ∀ x ∈ double, ∃ feats, exec x s =
        .next (finish (doubleGate x feats) (if canMigrate s then .migrate s else .trap s .extabsent x.tval)) := by
      intro x hx
      obtain ⟨feats, hi, -, hfeats⟩ := hdouble x hx
      have hall : ∀ b ∈ feats, featureFor s (ctxId s) b = true := by
        intro b hb
        obtain rfl | rfl := hfeats b hb
        · exact h3
        · exact h5
      exact ⟨feats, exec_noDouble h hi rfl hall ha hc⟩
    refine ⟨fun hm x hx => ?_, fun hm x hx => ?_⟩
    · obtain ⟨feats, hx⟩ := hlean x hx
      rw [hx, hm]
      rfl
    · obtain ⟨feats, hx⟩ := hlean x hx
      rw [hm] at hx
      exact ⟨_, hx, finish_migrate h _⟩

end Sys2Proof
end

section
/-!
SUPPORT. The machine right after reset (R32, R36-R38, R102, R123, R145, R220, R238).
-/

namespace Sys2Proof.Machine

/-- The state after reset, with any place as the current one. -/
def resetAt (c : Cur) : State := { State.reset with cur := c }

section Reset
variable (c : Cur)

theorem actAt_reset (d : Cur) : actAt (resetAt c) d = none := by
  obtain ⟨core, away⟩ := d
  cases away <;> rfl

@[simp] theorem act_reset : act (resetAt c) = Act.zero := by rw [act, actAt_reset]; rfl
@[simp] theorem regs_reset : regs (resetAt c) = CtxRegs.init := rfl
@[simp] theorem cyc_reset : (resetAt c).cyc = 0 := rfl
@[simp] theorem module_reset : (resetAt c).module = Module.init := rfl
@[simp] theorem coreOf_reset (n : Nat) : coreOf (resetAt c) n = Core.init := rfl

@[simp] theorem bitsWhere_false (n : Nat) : bitsWhere n (fun _ => false) = 0 := by simp [bitsWhere]

@[simp] theorem modLinkWord_reset : modLinkWord (resetAt c) = 0 := by simp [modLinkWord, Module.init]
@[simp] theorem modTierWord_reset : modTierWord (resetAt c) = 0 := by simp [modTierWord, Module.init]
@[simp] theorem modStateWord_reset : modStateWord (resetAt c) = 0 := by simp [modStateWord, Module.init]
@[simp] theorem moduleNumber_reset : moduleNumber (resetAt c) = 0 := rfl

end Reset

end Sys2Proof.Machine

namespace Sys2Proof
open Machine

/-- Settles O58: the control registers as the current activation, its context's registers and the module hold them (`act_reset`,
`regs_reset`, `module_reset`); the rest is the definition of the reset state. -/
theorem resetState : Obligations.ResetState := by
  refine ⟨fun c => ?_, rfl, rfl, rfl, rfl, rfl, rfl, rfl, rfl, rfl, rfl, fun c => ⟨actAt_reset _ c, rfl⟩, fun _ => rfl, ?_,
    rfl, rfl, fun _ => rfl, wf_reset⟩
  · change ∀ p : Nat × Word, p ∈ _ → readCr (resetAt c) p.1 = some p.2
    refine List.forall_iff_forall_mem.1 ?_
    and_intros
    all_goals simp [readCr, Act.zero, ActCR.zero, CtxRegs.init, Module.init, Core.init]
  · decide

end Sys2Proof
end

section
/-!
SUPPORT. A move of an event vector's home (R55) to a die whose mirror table lists the context twice.
-/

namespace Sys2Proof.Machine

/-- Context 0 is live, and its core map at 0x1000 names core 0, so its vector's home is die 0, which holds no vector yet. Die 0's mirror
table lists context 0 twice: its keys do not rise, as those of every table of the model do. -/
def twiceMirrored : State :=
  { State.reset with
    mem := [(0, 1), (25, 0x10), (32, 1), (4099, 0x80)]
    dies := [(0, { Die.init with mirrors := [(0, 0), (0, 0)] })] }

theorem homeDie_twiceMirrored : homeDie twiceMirrored 0 = some 0 := by decide

theorem localDie_twiceMirrored : localDie twiceMirrored 0 = some 0 := by decide

/-- The move takes one of the two entries off the table. -/
theorem homeMove_twiceMirrored : tget (dieOf (homeMove twiceMirrored 0) 0).mirrors 0 = some 0 := by decide

@[simp] theorem exec_eventVectorHomeMove (s : State) (ctx : Nat) : exec (.eventVectorHomeMove ctx) s = .next (homeMove s ctx) := rfl

end Sys2Proof.Machine

namespace Sys2Proof
open Machine

/-- Refutes O48: its last clause says that the new home's unit holds no mirror of the vector after EVENT_VECTOR_HOME_MOVE, in every state.
`tdel` removes the first entry of a key alone, so in `twiceMirrored`, whose mirror table lists the context twice, a mirror is left. -/
theorem not_launchEvents : ¬ Obligations.LaunchEvents := by
  intro h
  obtain ⟨-, -, -, hmove⟩ := h twiceMirrored 0
  obtain ⟨t, ht, -, -, -, hnone, -⟩ := (hmove 0 0 rfl homeDie_twiceMirrored localDie_twiceMirrored).2 (by decide)
  rw [exec_eventVectorHomeMove] at ht
  injection ht with ht
  rw [← ht, homeMove_twiceMirrored] at hnone
  cases hnone

end Sys2Proof
end

section
/-!
SUPPORT. Waits that a time limit ends (R72, R313, R314, R351, R361) and fetches that fail (R107, R280).
-/

namespace Sys2Proof.Machine

@[simp] theorem exec_sleepExpire (s : State) (c : Nat) : exec (.sleepExpire c) s = .next (sleepExpire s c) := rfl
@[simp] theorem exec_wfeTimeout (s : State) (c : Nat) : exec (.wfeTimeout c) s = .next (wfeTimeout s c) := rfl
@[simp] theorem exec_mwaitTimeout (s : State) (c : Nat) : exec (.mwaitTimeout c) s = .next (mwaitTimeout s c) := rfl
@[simp] theorem exec_evwaitTimeout (s : State) (c : Nat) : exec (.evwaitTimeout c) s = .next (evwaitTimeout s c) := rfl

/-! ### The waiting instruction is found and issued again -/

/-- The active slot is the first place of its core, so it is the one a time-out takes. -/
theorem expired_active {s : State} {c kind n : Nat} {limit : Cur → Wait → Option Nat} {w : Wait} (hw : waitAt s ⟨c, none⟩ = some w)
    (hk : w.kind = kind) (hl : limit ⟨c, none⟩ w = some n) (hn : n ≤ s.cyc - w.start) : expired s c kind limit = some ⟨c, none⟩ := by
  simp [expired, placesOf, hw, hk, hl, hn]

theorem reissue_next {s t u : State} {c : Cur} {bs : List Byte} {i : Instr} {run : Instr → State → Option (Host.Outcome State Fault Refusal)}
    (hf : fetchBytes { s with cur := c } (act { s with cur := c }).pc = .ok (t, bs)) (hl : leNat bs % 4 = 3)
    (hd : decode32 (leNat bs) = some i) (hr : run i t = some (.next u)) : reissue s c run = { u with cur := s.cur } := by
  simp only [reissue, hf, hl, if_true, hd, hr]

/-- A wait of a kind of its own is kept as it was first issued (R104). -/
theorem waitOr_kept {s : State} {w : Wait} (hw : (act s).wait = some w) (hk : w.kind ≠ 0) (kind : Nat) (operand : Word) :
    waitOr s kind operand = w := by simp [waitOr, hw, hk]

/-! ### What the instruction issued again comes to -/

section Reissued
variable {t : State} {w : Wait} (hs : Solo t) (hw : (act t).wait = some w)
include hs hw

theorem execSleep_expired (hk : w.kind = 6) (hn : w.operand.toNat ≤ t.cyc - w.start) (b : SReg) : execSleep b t = .next (after 4 t) := by
  have h := waitOr_kept hw (by omega) 6 (rS t b)
  simp [execSleep, issue_base hs, h, hn]

theorem execWfe_timedOut (hk : w.kind = 9) (hn : 65536 ≤ t.cyc - w.start) : execWfe t = .next (after 4 t) := by
  have h := waitOr_kept hw (by omega) 9 0#64
  simp [execWfe, issue_base hs, h, hn]

theorem execMwait_timedOut (hk : w.kind = 5) (hout : w.out = false) (hwoken : watchWoken t = false) (hlost : (ctxNow t).watchLost = false)
    (h0 : w.operand ≠ 0#64) (hn : w.operand.toNat ≤ t.cyc - w.start) (a b : SReg) :
    execMwait a b t = .next (after 4 (wS (dropWatch (acquire t)) a 1)) := by
  have h := waitOr_kept hw (by omega) 5 (rS t b)
  simp [execMwait, issue_base hs, h, hout, hwoken, hlost, h0, hn]

theorem execEvwait_timedOut (hk : w.kind = 3) (hrecheck : w.recheck = false) (a : SReg) (b : VRegN)
    (hhome : (homeDie t (ctxId t)).isSome = true) (hcore : 2 ^ 192 ≤ (eventMask (rV t b)).toNat)
    (hunset : vectorNow t &&& eventMask (rV t b) ≠ eventMask (rV t b)) (h0 : (entry t).evtmo ≠ 0#64)
    (hn : (entry t).evtmo.toNat ≤ t.cyc - w.start) : execEvwait a b t = .next (after 4 (wS t a 1)) := by
  have h := waitOr_kept hw (by omega) 3 (entry t).evtmo
  simp only [Nat.reducePow] at hcore
  obtain ⟨d, hd⟩ := Option.isSome_iff_exists.1 hhome
  simp [execEvwait, issue_base hs, h, hw, hrecheck, hd, hunset, h0, hn, hcore]

end Reissued

/-! ### Words that are no instruction, and fetches that fail -/

/-- A gate that names no unit, feature, extension or privilege refuses nothing. -/
theorem gated_open (word : Word) (len : Nat) (body : State → Res) (s : State) :
    gated ⟨word, len, false, false, false, [], none⟩ body s = body s := by simp [gated, lacksExt]

theorem exec_reservedEncoding {s : State} (h : Solo s) (word : BitVec 32) :
    exec (.reservedEncoding word) s = .next (trapped s .illegal (word.setWidth 64)) := by
  change execReservedEncoding word s = _
  rw [execReservedEncoding, issue_solo h, gated_open, finish_trap]

theorem exec_instructionFetchFault {s : State} (h : Solo s) (cause : Cause) (va : Word) :
    exec (.instructionFetchFault cause va) s = .next (trapped s cause va) := by
  change execInstructionFetchFault cause va s = _
  rw [execInstructionFetchFault, issue_solo h, gated_open, finish_trap]

end Sys2Proof.Machine

namespace Sys2Proof
open Machine

/-- Settles O47: a time-out finds the active slot's wait (`expired_active`) and issues its instruction again (`reissue_next`), which
completes as its own lemma says; a failed word or fetch is an issue whose body traps. -/
theorem timeoutAndFetchEvents : Obligations.TimeoutAndFetchEvents := by
  refine ⟨fun s t c w bs i hwait hfetch hlong hdec hsolo _ hcyc hw => ⟨?_, ?_, ?_, ?_⟩,
    fun s word cause va h => ⟨exec_reservedEncoding h word, exec_instructionFetchFault h cause va⟩⟩
  · rintro hk ⟨b, rfl⟩ hn
    rw [exec_sleepExpire, sleepExpire, expired_active hwait hk rfl hn]
    exact congrArg _ (reissue_next hfetch hlong hdec (congrArg some (execSleep_expired hsolo hw hk (hcyc ▸ hn) b)))
  · rintro hk rfl hn
    rw [exec_wfeTimeout, wfeTimeout, expired_active hwait hk rfl hn]
    exact congrArg _ (reissue_next hfetch hlong hdec (congrArg some (execWfe_timedOut hsolo hw hk (hcyc ▸ hn))))
  · rintro a b hk rfl hout hwoken hlost h0 hn
    rw [exec_mwaitTimeout, mwaitTimeout, expired_active hwait hk (if_neg h0) hn]
    exact congrArg _ (reissue_next hfetch hlong hdec (congrArg some (execMwait_timedOut hsolo hw hk hout hwoken hlost h0 (hcyc ▸ hn) a b)))
  · rintro a b hk rfl hrecheck hhome hcore hunset hevtmo h0 hn
    have hlim : (entry t).evtmo.toNat ≠ 0 := fun h => h0 (BitVec.eq_of_toNat_eq h)
    rw [exec_evwaitTimeout, evwaitTimeout, expired_active hwait hk (if_neg (hevtmo ▸ hlim)) (hevtmo ▸ hn)]
    exact congrArg _ (reissue_next hfetch hlong hdec
      (congrArg some (execEvwait_timedOut hsolo hw hk hrecheck a b hhome hcore hunset h0 (hcyc ▸ hn))))

end Sys2Proof
end

section
/-!
SUPPORT. Phrases: FUSE forms one (R82, R315), and its members take an instruction in lock step (R83, R84).
-/

namespace Sys2Proof.Machine

/-! ### The request that waits, and the one that completes it -/

/-- The other core of the aligned pair of a core. -/
def pairMate (c : Nat) : Nat := if c % 2 = 0 then c + 1 else c - 1

theorem pairMate_ne (c : Nat) : pairMate c ≠ c := by unfold pairMate; split <;> omega

theorem pairMate_clause (c : Nat) : pairMate c / 8 = c / 8 := by unfold pairMate; split <;> omega

theorem pairMate_mem (c : Nat) : pairMate c = c / 2 * 2 ∨ pairMate c = c / 2 * 2 + 1 := by unfold pairMate; split <;> omega

theorem fuseBlock_two (c : Nat) : fuseBlock c 2 = [c / 2 * 2, c / 2 * 2 + 1] := by simp [fuseBlock, List.range_succ, Nat.add_comm]

theorem mem_fuseBlock {c n j : Nat} (hn : 0 < n) : j ∈ fuseBlock c n ↔ j / n = c / n := by
  simp only [fuseBlock, List.mem_map, List.mem_range]
  constructor
  · rintro ⟨i, hi, rfl⟩
    rw [Nat.add_mul_div_right _ _ hn, Nat.div_eq_of_lt hi, Nat.zero_add]
  · exact fun h => ⟨j % n, Nat.mod_lt j hn, by rw [← h, Nat.mod_add_div']⟩

theorem fuseBlock_nodup (c n : Nat) : (fuseBlock c n).Nodup :=
  (List.nodup_range).map (fun _ _ h => Nat.add_right_cancel h)

/-- A test that one element of a list without repetitions meets picks out that element. -/
theorem filter_unique {l : List Nat} {p : Nat → Bool} {x : Nat} (hl : l.Nodup) (hx : x ∈ l) (hp : ∀ j ∈ l, p j = true ↔ j = x) :
    l.filter p = [x] := by
  have h : l.filter p = l.filter (· == x) := List.filter_congr fun j hj => by
    rw [Bool.eq_iff_iff, hp j hj, beq_iff_eq]
  rw [h, List.filter_beq, List.count_eq_one_of_mem hl hx]
  rfl

/-! ### A core's place and its phrase -/

theorem actAt_setActAt_ne (s : State) {c d : Cur} (a : Option Act) (h : d.core ≠ c.core) : actAt (setActAt s c a) d = actAt s d := by
  simp only [actAt, coreOf_setActAt_ne s c a h]

theorem ctxAt_modCore (s : State) (c : Nat) {f : Core → Core} (hactive : ∀ k, (f k).active = k.active) (d : Cur) :
    ctxAt (modCore s c f) d = ctxAt s d := by
  by_cases h : d.core = c
  · subst h; simp [ctxAt, hactive]
  · simp [ctxAt, coreOf_modCore_ne _ _ h]

/-- A core is a phrase's member while its active slot holds a live activation of the phrase's context (R83). -/
theorem inPhrase_iff (s : State) (p : Phrase) (c : Nat) :
    inPhrase s p c = true ↔ ctxAt s ⟨c, none⟩ = p.ctx ∧ (actAt s ⟨c, none⟩).isSome = true := by
  cases h : (coreOf s c).active <;> simp [inPhrase, ctxAt, actAt, h]

theorem phraseNow_of_member {s : State} {c : Nat} {p : Phrase} (hc : s.cur = ⟨c, none⟩) (hp : (coreOf s c).phrase = some p)
    (hi : inPhrase s p c = true) : phraseNow s = some p := by simp [phraseNow, home, hc, hp, hi]

/-- A phrase is set in its members, and nothing else of any core changes. -/
theorem coreOf_setPhrase (s : State) (p : Phrase) (d : Nat) :
    coreOf (setPhrase s p) d = if d ∈ p.members then { coreOf s d with phrase := some p } else coreOf s d := by
  have h : ∀ (l : List Nat) (s : State), coreOf (l.foldl (fun s c => modCore s c (fun k => { k with phrase := some p })) s) d =
      if d ∈ l then { coreOf s d with phrase := some p } else coreOf s d := by
    intro l
    induction l with
    | nil => simp
    | cons c r ih =>
      intro s
      rw [List.foldl_cons, ih]
      by_cases hd : d = c
      · subst hd; simp
      · simp [hd, coreOf_modCore_ne _ _ hd]
  exact h p.members s

@[simp] theorem setPhrase_cur (s : State) (p : Phrase) : (setPhrase s p).cur = s.cur := by
  have h : ∀ (l : List Nat) (s : State), (l.foldl (fun s c => modCore s c (fun k => { k with phrase := some p })) s).cur = s.cur := by
    intro l
    induction l with
    | nil => intro s; rfl
    | cons c r ih => exact fun s => ih _
  exact h p.members s

@[simp] theorem actAt_setPhrase (s : State) (p : Phrase) (d : Cur) : actAt (setPhrase s p) d = actAt s d := by
  have h := coreOf_setPhrase s p d.core
  split at h <;> simp [actAt, h]

@[simp] theorem ctxAt_setPhrase (s : State) (p : Phrase) (d : Cur) : ctxAt (setPhrase s p) d = ctxAt s d := by
  have h := coreOf_setPhrase s p d.core
  split at h <;> simp [ctxAt, h]

/-! ### The end of a FUSE (R82) -/

theorem actAt_clearFuse (s : State) (c : Nat) (d : Cur) : actAt (modCore s c (fun k => { k with fuse := none })) d = actAt s d :=
  actAt_modCore s c (f := fun k => { k with fuse := none }) (fun _ => rfl) (fun _ => rfl) d

/-- A FUSE that waits ends: its status is in the register that its wait names, and the activation goes on. -/
theorem endFuse_eq {s : State} {c : Nat} {b : Act} {w : Wait} (hb : actAt s ⟨c, none⟩ = some b) (hw : b.wait = some w) (status : Nat)
    (to_ : Option Word) : endFuse s c status to_ = setActAt (modCore s c (fun k => { k with fuse := none })) ⟨c, none⟩
      (some { b.setS (BitVec.ofNat 5 w.stage) (BitVec.ofNat 64 status) with pc := to_.getD (b.pc + 4), wait := none }) := by
  simp only [endFuse, actAt_clearFuse, hb, hw]

theorem actAt_endFuse {s : State} {c : Nat} {b : Act} {w : Wait} (hb : actAt s ⟨c, none⟩ = some b) (hw : b.wait = some w) (status : Nat)
    (to_ : Option Word) : actAt (endFuse s c status to_) ⟨c, none⟩ =
      some { b.setS (BitVec.ofNat 5 w.stage) (BitVec.ofNat 64 status) with pc := to_.getD (b.pc + 4), wait := none } := by
  rw [endFuse_eq hb hw]
  exact actAt_setActAt_self _ _ _ (by rw [actAt_clearFuse, hb]; rfl)

theorem fuse_endFuse {s : State} {c : Nat} {b : Act} {w : Wait} (hb : actAt s ⟨c, none⟩ = some b) (hw : b.wait = some w) (status : Nat)
    (to_ : Option Word) : (coreOf (endFuse s c status to_) c).fuse = none := by
  rw [endFuse_eq hb hw]
  simp [setActAt]

theorem endFuse_cur {s : State} {c : Nat} {b : Act} {w : Wait} (hb : actAt s ⟨c, none⟩ = some b) (hw : b.wait = some w) (status : Nat)
    (to_ : Option Word) : (endFuse s c status to_).cur = s.cur := by rw [endFuse_eq hb hw]; simp

/-- No other core takes part in the end of a FUSE. -/
theorem coreOf_endFuse_ne {s : State} {c d : Nat} {b : Act} {w : Wait} (hb : actAt s ⟨c, none⟩ = some b) (hw : b.wait = some w)
    (status : Nat) (to_ : Option Word) (h : d ≠ c) : coreOf (endFuse s c status to_) d = coreOf s d := by
  rw [endFuse_eq hb hw, coreOf_setActAt_ne _ _ _ h, coreOf_modCore_ne _ _ h]

/-- The leader of an aligned pair is its even core. -/
theorem leaderPc {s : State} {b : Act} (hc : s.cur.away = none) (hb : actAt s ⟨pairMate (home s), none⟩ = some b) :
    ((actAt s ⟨home s / 2 * 2, none⟩).getD (act s)).pc = if home s % 2 = 0 then (act s).pc else b.pc := by
  split
  · next h =>
    have hl : (⟨home s / 2 * 2, none⟩ : Cur) = s.cur := by
      rw [show home s / 2 * 2 = home s by omega, home, ← hc]
    rw [hl]
    cases ha : actAt s s.cur <;> simp [act, ha]
  · next h =>
    have hl : home s / 2 * 2 = pairMate (home s) := by rw [pairMate, if_neg h]; omega
    rw [hl, hb]
    rfl

section Formed
variable {s : State} {a : SReg} {f : FuseWait} {b : Act} (hc : s.cur.away = none) (happ : isApp (home s) = false)
  (hfuse : (coreOf s (home s)).fuse = none) (hphrase : (coreOf s (home s)).phrase = none)
  (hf : (coreOf s (pairMate (home s))).fuse = some f) (hq : (coreOf s (pairMate (home s))).quiesced = false) (hn : f.n = 2)
  (hx : f.ctx = ctxId s) (hb : actAt s ⟨pairMate (home s), none⟩ = some b)
  (hrest : ∀ j, j / 8 = home s / 8 → j ≠ home s → j ≠ pairMate (home s) → (coreOf s j).fuse = none ∨ (coreOf s j).quiesced = true)
include hc happ hfuse hphrase hf hq hn hx hb hrest

theorem fuseBody_pairs : fuseBody a 1 s =
    .jump (setPhrase (wS (endFuse s (pairMate (home s)) 1 (some ((if home s % 2 = 0 then (act s).pc else b.pc) + 4))) a 1)
      ⟨[home s / 2 * 2, home s / 2 * 2 + 1], [], none, ctxId s⟩) ((if home s % 2 = 0 then (act s).pc else b.pc) + 4) := by
  have hmate : pairMate (home s) ∈ fuseBlock (home s) 8 := (mem_fuseBlock (by omega)).2 (pairMate_clause _)
  unfold fuseBody
  simp only [hphrase, happ, hc, hfuse, show 2 ^ (1 : BitVec 2).toNat = 2 from rfl]
  rw [filter_unique (x := pairMate (home s)) (fuseBlock_nodup _ _) hmate]
  · simp [hf, hn, hx, fuseBlock_two, leaderPc hc hb]
  · intro j hj
    have hj8 := (mem_fuseBlock (by omega)).1 hj
    by_cases hjm : j = pairMate (home s)
    · subst hjm
      simp only [hf, hq, hn, fuseBlock_two, iff_true, Bool.and_eq_true, bne_iff_ne, ne_eq, pairMate_ne, not_false_eq_true, Bool.not_false,
        Bool.or_eq_true, List.contains_iff_mem, List.mem_cons, List.not_mem_nil, or_false, true_and]
      exact Or.inl (pairMate_mem (home s))
    · simp only [hjm, iff_false]
      rcases eq_or_ne j (home s) with rfl | hjh
      · simp
      · rcases hrest j hj8 hjh hjm with h | h <;> simp [h]

/-- Two cores of an aligned pair that ask for each other form the phrase (R82). -/
theorem exec_fuse_pairs {w : Wait} (hs : Solo s) (hw : b.wait = some w) :
    let p : Phrase := ⟨[home s / 2 * 2, home s / 2 * 2 + 1], [], none, ctxId s⟩
    let next := (if home s % 2 = 0 then (act s).pc else b.pc) + 4
    ∃ t, exec (.fuse a 1) s = .next t ∧ phraseNow t = some p ∧ (coreOf t (pairMate (home s))).phrase = some p ∧
      (coreOf t (pairMate (home s))).fuse = none ∧ act t = { (act s).setS a 1 with pc := next, wait := none } ∧
      actAt t ⟨pairMate (home s), none⟩ = some { b.setS (BitVec.ofNat 5 w.stage) 1 with pc := next, wait := none } := by
  intro p next
  have hne := pairMate_ne (home s)
  let u := endFuse s (pairMate (home s)) 1 (some next)
  let v := setPhrase (wS u a 1) p
  have hcur : s.cur = ⟨home s, none⟩ := by rw [home, ← hc]
  have hexec : exec (.fuse a 1) s = .next (jumped v next) := by
    change execFuse a 1 s = _
    rw [execFuse, issue_base hs, fuseBody_pairs hc happ hfuse hphrase hf hq hn hx hb hrest, finish_jump]
  have hucur : u.cur = s.cur := endFuse_cur hb hw 1 (some next)
  have huhome : coreOf u (home s) = coreOf s (home s) := coreOf_endFuse_ne hb hw 1 (some next) hne.symm
  have hu : actAt u u.cur = some (act s) := by
    rw [hucur, ← actAt_eq_act hs.1, hcur]; simp only [actAt, huhome]
  have hvcur : v.cur = ⟨home s, none⟩ := by simp [v, hucur, hcur]
  have hact : act u = act s := by simp [act, hu]
  have hv : actAt v v.cur = some ((act s).setS a 1) := by
    simp only [v, actAt_setPhrase, setPhrase_cur, wS_cur]
    rw [wS, hact]
    exact actAt_setActAt_self u u.cur _ (by rw [hu]; rfl)
  have hvact : act v = (act s).setS a 1 := by simp [act, hv]
  have hctx : ctxAt v v.cur = ctxId s := by
    have h : ctxAt v v.cur = ctxId (wS u a 1) := by simp [v, ctxId]
    rw [h, wS, ctxId_setAct, ctxId, ctxId, hucur, hcur]
    simp only [ctxAt, huhome]
  have hmate : coreOf v (pairMate (home s)) = { coreOf u (pairMate (home s)) with phrase := some p } := by
    rw [coreOf_setPhrase, if_pos (by simpa [p] using pairMate_mem (home s)), wS, setAct,
      coreOf_setActAt_ne _ _ _ (by rw [hucur, hcur]; exact hne)]
  have hleads : phraseNow v = some p := by
    refine phraseNow_of_member hvcur ?_ ((inPhrase_iff v p (home s)).2 ⟨?_, ?_⟩)
    · rw [coreOf_setPhrase, if_pos (by simp [p]; omega)]
    · rw [← hvcur, hctx]
    · rw [← hvcur, hv]; rfl
  have hout : coreOf (jumped v next) (pairMate (home s)) = coreOf v (pairMate (home s)) :=
    coreOf_setActAt_ne _ _ _ (by rw [hvcur]; exact hne)
  have hlive : (actAt v v.cur).isSome = true := by rw [hv]; rfl
  refine ⟨_, hexec, ?_, ?_, ?_, ?_, ?_⟩
  · exact (phraseNow_setAct hlive _).trans hleads
  · rw [hout, hmate]
  · rw [hout, hmate]; exact fuse_endFuse hb hw 1 (some next)
  · rw [jumped, modAct, act_setAct hlive, hvact]
  · have hub := actAt_endFuse hb hw 1 (some next)
    simp only [actAt, hout, hmate] at hub ⊢
    exact hub

end Formed

/-- An application core has no neighbour to fuse with (R315). -/
theorem exec_fuse_app {s : State} (hs : Solo s) (happ : isApp (home s) = true) (a : SReg) (n : BitVec 2) :
    exec (.fuse a n) s = .next (after 4 (wS s a 0)) := by
  change execFuse a n s = _
  rw [execFuse, issue_base hs, fuseBody, if_pos (by simp [happ])]
  rfl

/-! ### Lock step (R83, R84) -/

/-- The active slot of a core runs this activation, for this context. -/
def Stands (s : State) (c : Nat) (a : Act) (m : Nat) : Prop := actAt s ⟨c, none⟩ = some a ∧ ctxAt s ⟨c, none⟩ = m

section Standing
variable {s : State} {c d m : Nat} {a : Act}

theorem stands_of_active (h : (coreOf s c).active = some ⟨m, some a⟩) : Stands s c a m := by simp [Stands, actAt, ctxAt, h]

theorem Stands.act (h : Stands s c a m) : act { s with cur := ⟨c, none⟩ } = a := by
  have ha : actAt { s with cur := ⟨c, none⟩ } ⟨c, none⟩ = some a := h.1
  simp [Machine.act, ha]

theorem Stands.inPhrase {p : Phrase} (h : Stands s c a p.ctx) : inPhrase s p c = true :=
  (inPhrase_iff s p c).2 ⟨h.2, by rw [h.1]; rfl⟩

theorem Stands.moved (h : Stands s c a m) (k : Cur) : Stands { s with cur := k } c a m := h

theorem Stands.setPhrase (h : Stands s c a m) (p : Phrase) : Stands (setPhrase s p) c a m := by
  simpa only [Stands, actAt_setPhrase, ctxAt_setPhrase] using h

theorem Stands.setSelf (h : Stands s c a m) (b : Act) : Stands (setActAt s ⟨c, none⟩ (some b)) c b m :=
  ⟨actAt_setActAt_self s _ b (by rw [h.1]; rfl), by rw [ctxAt_setActAt, h.2]⟩

theorem Stands.setOther (h : Stands s c a m) (hne : c ≠ d) (o : Option Act) : Stands (setActAt s ⟨d, none⟩ o) c a m :=
  ⟨by rw [actAt_setActAt_ne _ _ hne, h.1], by rw [ctxAt_setActAt, h.2]⟩

end Standing

/-- A member's part of the instruction is whole, changes nothing but its pc, and leads to `t`. -/
def Completes (g : Gate) (body : State → Res) (s : State) (t : Word) : Prop :=
  (gated g body s = .ok s ∧ t = (act s).pc + BitVec.ofNat 64 g.len) ∨ gated g body s = .jump s t

/-- The phrase once core `c` has finished the instruction, which leads to `t` for it: the leader's target is the phrase's (R83). -/
def Phrase.finished (p : Phrase) (c : Nat) (t : Word) : Phrase :=
  { p with
    done := p.done ++ [c]
    target := if p.members.head? = some c then some t else p.target.orElse (fun _ => some t) }

/-- A member finishes its part: it waits no more, and no other core's activation is touched. -/
theorem memberStep_completes {g : Gate} {body : State → Res} {s : State} {c m : Nat} {a : Act} {t : Word} (p : Phrase)
    (h : Stands s c a m) (hc : Completes g body { s with cur := ⟨c, none⟩ } t) : ∃ u, memberStep g body s p c = (u, some (p.finished c t)) ∧
      Stands u c { a with wait := none } m ∧ ∀ {d b n}, d ≠ c → Stands s d b n → Stands u d b n := by
  refine ⟨setPhrase (setActAt { s with cur := ⟨c, none⟩ } ⟨c, none⟩ (some { a with wait := none })) (p.finished c t), ?_, ?_, ?_⟩
  · rcases hc with ⟨hg, rfl⟩ | hg <;> simp only [memberStep, hg, modAct, h.act] <;> rfl
  · exact ((h.moved ⟨c, none⟩).setSelf _).setPhrase _
  · exact fun hne hd => ((hd.moved ⟨c, none⟩).setOther hne _).setPhrase _

/-- A member that has not finished the instruction takes its part, and the members after it theirs. -/
theorem phraseStep_cons {g : Gate} {body : State → Res} {s : State} {c : Nat} {a : Act} {t : Word} {p : Phrase} (r : List Nat)
    (h : Stands s c a p.ctx) (hd : p.done.contains c = false) (hc : Completes g body { s with cur := ⟨c, none⟩ } t) :
    ∃ u, phraseStep g body s p (c :: r) = phraseStep g body u (p.finished c t) r ∧
      Stands u c { a with wait := none } p.ctx ∧ ∀ {d b n}, d ≠ c → Stands s d b n → Stands u d b n := by
  obtain ⟨u, hu, hself, hother⟩ := memberStep_completes p h hc
  refine ⟨u, ?_, hself, hother⟩
  rw [phraseStep, hd, h.inPhrase, hu]
  rfl

section LockStep
variable {g : Gate} {body : State → Res} {s : State} {c m : Nat} {x y : Act} {t : Word} (hx : Stands s c x m) (hy : Stands s (c + 1) y m)
  (hlead : Completes g body { s with cur := ⟨c, none⟩ } t)
  (hfollow : ∀ u, Stands u (c + 1) y m → ∃ v, Completes g body { u with cur := ⟨c + 1, none⟩ } v)
include hx hy hlead hfollow

/-- Both members of a pair finish the instruction, and the phrase goes where the leader goes. -/
theorem phraseStep_pair : ∃ u, phraseStep g body s ⟨[c, c + 1], [], none, m⟩ [c, c + 1] = (u, some ⟨[c, c + 1], [c, c + 1], some t, m⟩) ∧
    Stands u c { x with wait := none } m ∧ Stands u (c + 1) { y with wait := none } m := by
  obtain ⟨u1, h1, hx1, ho1⟩ := phraseStep_cons (p := ⟨[c, c + 1], [], none, m⟩) [c + 1] hx rfl hlead
  have hy1 := ho1 (by omega) hy
  obtain ⟨v, hv⟩ := hfollow u1 hy1
  obtain ⟨u2, h2, hy2, ho2⟩ := phraseStep_cons (p := Phrase.finished ⟨[c, c + 1], [], none, m⟩ c t) [] hy1
    (by simp [Phrase.finished]) hv
  refine ⟨u2, ?_, ho2 (by omega) hx1, hy2⟩
  rw [h1, h2, phraseStep]
  simp [Phrase.finished]

/-- Lock step: both members go on at the leader's target, and the phrase stays. -/
theorem issuePhrase_pair (hext : g.extD = false ∧ g.extS = false) : ∃ u, issuePhrase g body s ⟨[c, c + 1], [], none, m⟩ = u ∧ u.cur = s.cur ∧
    Stands u c { x with pc := t, wait := none } m ∧ Stands u (c + 1) { y with pc := t, wait := none } m ∧
    (coreOf u c).phrase = some ⟨[c, c + 1], [], none, m⟩ := by
  obtain ⟨u, hu, hx', hy'⟩ := phraseStep_pair hx hy hlead hfollow
  obtain ⟨hD, hS⟩ := hext
  let u1 := setActAt u ⟨c, none⟩ (some { x with pc := t, wait := none })
  have hy1 : Stands u1 (c + 1) { y with wait := none } m := hy'.setOther (by omega) _
  let u2 := setActAt u1 ⟨c + 1, none⟩ (some { y with pc := t, wait := none })
  have hx2 : Stands u2 c { x with pc := t, wait := none } m := (hx'.setSelf _).setOther (by omega) _
  have hy2 : Stands u2 (c + 1) { y with pc := t, wait := none } m := hy1.setSelf _
  refine ⟨{ setPhrase u2 ⟨[c, c + 1], [], none, m⟩ with cur := s.cur }, ?_, rfl, (hx2.setPhrase _).moved _, (hy2.setPhrase _).moved _, ?_⟩
  · simp [issuePhrase, hD, hS, hu, hx'.1, hy1.1, u2, u1]
  · exact congrArg Core.phrase ((coreOf_setPhrase u2 _ c).trans (if_pos (by simp)))

/-- An instruction of the pair, as `exec` answers it. -/
theorem issue_pair (hext : g.extD = false ∧ g.extS = false) (hcur : s.cur = ⟨c, none⟩)
    (hp : (coreOf s c).phrase = some ⟨[c, c + 1], [], none, m⟩) : ∃ u, issue g body s = .next u ∧
    actAt u ⟨c, none⟩ = some { x with pc := t, wait := none } ∧ actAt u ⟨c + 1, none⟩ = some { y with pc := t, wait := none } ∧
    phraseNow u = phraseNow s := by
  have hnow : phraseNow s = some ⟨[c, c + 1], [], none, m⟩ := phraseNow_of_member hcur hp hx.inPhrase
  obtain ⟨u, hu, hucur, hxu, hyu, hpu⟩ := issuePhrase_pair hx hy hlead hfollow hext
  refine ⟨u, ?_, hxu.1, hyu.1, ?_⟩
  · have ha : actAt s s.cur = some x := hcur ▸ hx.1
    simp only [issue, ha, hnow, hu]
  · rw [hnow, phraseNow_of_member (hucur.trans hcur) hpu hxu.inPhrase]

end LockStep

theorem signExtend_double (k : BitVec 14) : k.signExtend 64 * 2#64 = BitVec.ofInt 64 (2 * k.toInt) := by
  rw [BitVec.ofInt_mul, BitVec.mul_comm]
  rfl

theorem exec_beq_issue (a b : SReg) (k : BitVec 14) (s : State) :
    exec (.beq a b k) s = issue (baseGate (.beq a b k)) (branchBody k (fun s => rS s a == rS s b)) s := rfl

section Members
variable {s : State} {c m : Nat} {x y : Act} (hcur : s.cur = ⟨c, none⟩) (hx : Stands s c x m) (hy : Stands s (c + 1) y m)
  (hp : (coreOf s c).phrase = some ⟨[c, c + 1], [], none, m⟩)
include hcur hx hy hp

theorem exec_nop_pair : ∃ t, exec .nop s = .next t ∧ actAt t ⟨c, none⟩ = some { x with pc := x.pc + 4, wait := none } ∧
    actAt t ⟨c + 1, none⟩ = some { y with pc := x.pc + 4, wait := none } ∧ phraseNow t = phraseNow s :=
  issue_pair (g := baseGate .nop) hx hy (.inl ⟨gated_base .., by rw [hx.act]; rfl⟩) (fun _ _ => ⟨_, .inl ⟨gated_base .., rfl⟩⟩) ⟨rfl, rfl⟩ hcur hp

/-- A branch that the leader takes: whatever a follower's own registers say, it goes where the leader goes. -/
theorem exec_beq_pair {a b : SReg} (k : BitVec 14) (heq : x.getS a = x.getS b) : ∃ t, exec (.beq a b k) s = .next t ∧
    actAt t ⟨c, none⟩ = some { x with pc := x.pc + BitVec.ofInt 64 (2 * k.toInt), wait := none } ∧
    actAt t ⟨c + 1, none⟩ = some { y with pc := x.pc + BitVec.ofInt 64 (2 * k.toInt), wait := none } ∧ phraseNow t = phraseNow s := by
  rw [exec_beq_issue]
  refine issue_pair hx hy (.inr ?_) (fun u hu => ?_) ⟨rfl, rfl⟩ hcur hp
  · rw [gated_base, branchBody, rS, rS, relTarget, hx.act, if_pos (by simpa using heq), signExtend_double]
  · by_cases h : rS { u with cur := ⟨c + 1, none⟩ } a = rS { u with cur := ⟨c + 1, none⟩ } b
    · exact ⟨_, .inr (by rw [gated_base, branchBody, if_pos (by simpa using h)])⟩
    · exact ⟨_, .inl ⟨by rw [gated_base, branchBody, if_neg (by simpa using h)], rfl⟩⟩

end Members

end Sys2Proof.Machine

namespace Sys2Proof
open Machine

/-- Settles O12: the FUSE that completes a pair ends its neighbour's and sets the phrase (`exec_fuse_pairs`); a pair takes NOP and BEQ in
lock step (`issue_pair`). -/
theorem phrases : Obligations.Phrases := by
  refine ⟨⟨fun s a f b w hs hc happ hfuse hphrase hf hq hn hx hb hw hrest => ?_, fun s a n hs happ => exec_fuse_app hs happ a n⟩,
    fun s x y c m hcur hx hy hp _ => ⟨?_, fun a b k heq => ?_⟩⟩
  · exact exec_fuse_pairs hc happ hfuse hphrase hf hq hn hx hb hrest hs hw
  · exact exec_nop_pair hcur (stands_of_active hx) (stands_of_active hy) hp
  · exact exec_beq_pair hcur (stands_of_active hx) (stands_of_active hy) hp k heq

end Sys2Proof
end

section
/-!
SUPPORT. Activations start (R74, R76, R77, R99, R100, R138, R242): the choice of the one waiting message, the new activation, what its start
leaves of the core.
-/

namespace Sys2Proof.Machine

@[simp] theorem exec_activationStart (s : State) (c : Nat) : exec (.activationStart c) s = .next (activationStart s c) := rfl
@[simp] theorem exec_engineUpcallStart (s : State) (c : Nat) : exec (.engineUpcallStart c) s = .next (engineUpcallStart s c) := rfl
@[simp] theorem exec_versionMissStart (s : State) (c : Nat) : exec (.versionMissStart c) s = .next (versionMissStart s c) := rfl
@[simp] theorem exec_messageAging (s : State) (c n : Nat) : exec (.messageAging c n) s = .next (messageAging s c n) := rfl

/-! ### The choice (R74, R76) -/

theorem pickCtx_single (k : Core) (x r : Nat) : pickCtx k [(x, r)] = some x := by
  by_cases h : k.goal = some x <;> simp [pickCtx, bestBy, h]

theorem choose_single {s : State} {c : Nat} {m : Msg} (hw : (coreOf s c).waiting = [m]) (hst : startable s c m.ctx = true)
    (hsus : ∀ x, suspended s c x = false) : choose s c = some (m.ctx, some m) := by
  by_cases h : 4 ≤ m.mprio <;> simp [choose, hw, hst, hsus, h, pickCtx_single, bestBy]

/-! ### Migrated activations give up the core -/

/-- Only the migrated activations of cores change. -/
theorem setActAt_away (s : State) {g : Cur} (hg : g.away.isSome = true) (a : Option Act) (d : Nat) :
    ∃ as, coreOf (setActAt s g a) d = { coreOf s d with away := as } := by
  obtain ⟨x, hx⟩ := Option.isSome_iff_exists.1 hg
  by_cases h : d = g.core
  · subst h
    exact ⟨replaceFirst (fun f => f.ctx == x) (fun f => { f with act := a }) (coreOf s g.core).away,
      by simp only [setActAt, hx, coreOf_modCore_self]⟩
  · exact ⟨(coreOf s d).away, by rw [coreOf_setActAt_ne s g a h]⟩

theorem guestsOf_away {s : State} {c : Nat} {g : Cur} (h : g ∈ guestsOf s c) : g.away.isSome = true := by
  unfold guestsOf at h
  split at h
  · simp at h
  · obtain ⟨k, -, hk⟩ := List.mem_flatMap.1 h
    obtain ⟨f, -, hf⟩ := List.mem_filterMap.1 hk
    split at hf
    · split at hf
      · cases hf; rfl
      · cases hf
    · cases hf

/-- What the guests of a core leave: memory and the module as they were, and every core but for its migrated activations. -/
theorem guestsOut_keeps (s : State) (c : Nat) : (guestsOut s c).mem = s.mem ∧ (guestsOut s c).undef = s.undef ∧
    (guestsOut s c).poison = s.poison ∧ (guestsOut s c).module = s.module ∧
    ∀ d, ∃ as, coreOf (guestsOut s c) d = { coreOf s d with away := as } := by
  have h : ∀ (l : List Cur) (s : State), (∀ g ∈ l, g.away.isSome = true) →
      let t := l.foldl (fun s g => setActAt s g ((actAt s g).map switchedOut)) s
      t.mem = s.mem ∧ t.undef = s.undef ∧ t.poison = s.poison ∧ t.module = s.module ∧
        ∀ d, ∃ as, coreOf t d = { coreOf s d with away := as } := by
    intro l
    induction l with
    | nil => exact fun s _ => ⟨rfl, rfl, rfl, rfl, fun d => ⟨_, rfl⟩⟩
    | cons g r ih =>
      intro s hl
      obtain ⟨hm, hu, hp, hf, hc⟩ := ih (setActAt s g ((actAt s g).map switchedOut)) (fun j hj => hl j (List.mem_cons_of_mem _ hj))
      simp only [setActAt_mem, setActAt_undef, setActAt_poison, setActAt_module] at hm hu hp hf
      refine ⟨hm, hu, hp, hf, fun d => ?_⟩
      obtain ⟨as, has⟩ := hc d
      obtain ⟨bs, hbs⟩ := setActAt_away s (hl g List.mem_cons_self) ((actAt s g).map switchedOut) d
      exact ⟨as, by rw [List.foldl_cons, has, hbs]⟩
  exact h _ s (fun g hg => guestsOf_away hg)

/-! ### The new activation (R100) -/

theorem makeUndef_eq (s : State) (lo hi : Nat) : ∃ m us, makeUndef s lo hi = { s with mem := m, undef := us } := by
  unfold makeUndef
  split
  · exact ⟨_, _, rfl⟩
  · exact ⟨s.mem, s.undef, rfl⟩

/-- Clearing a scratchpad changes memory alone. -/
theorem clearScratch_eq (s : State) (c x : Nat) : ∃ m us, clearScratch s c x = { s with mem := m, undef := us } := by
  have h : ∀ (l : List (Nat × Nat)) (b : Nat) (s : State), ∃ m us, l.foldl (fun s i => makeUndef s (b + i.1) (b + i.2)) s = { s with mem := m, undef := us } := by
    intro l b
    induction l with
    | nil => exact fun s => ⟨s.mem, s.undef, rfl⟩
    | cons i r ih =>
      intro s
      obtain ⟨m, us, h⟩ := makeUndef_eq s (b + i.1) (b + i.2)
      rw [List.foldl_cons, h]
      exact ih _
  exact h _ _ s

/-- The activation that `beginAct` makes before its start sets what is particular to it. -/
def bornAct (s : State) (c x : Nat) : Act :=
  { ((freshAct s.freeCtr).setS 30 (stackTop (ctxOf s c x).entry)).setS 1 0 with priv := x == 0 || isApp c, serial := 2 * s.freeCtr + 2 }

theorem coreOf_beginAct (s : State) (c x : Nat) (f : Act → Act) :
    coreOf (beginAct s c x f) c = { coreOf s c with active := some ⟨x, some (f (bornAct s c x))⟩ } := by
  obtain ⟨m, us, h⟩ := clearScratch_eq s c x
  unfold beginAct
  rw [h]
  simp only [coreOf_modCore_self]
  rfl

/-- Writing a scalar register changes the scalar registers alone. -/
theorem Act.setS_eq (a : Act) (i : SReg) (w : Word) : ∃ r, a.setS i w = { a with s := r } := by
  unfold Act.setS
  split
  · exact ⟨a.s, rfl⟩
  · exact ⟨_, rfl⟩

theorem Act.getS_congr {a b : Act} (h : a.s = b.s) (i : SReg) : a.getS i = b.getS i := by simp only [Act.getS, h]

/-- A new activation holds nothing of an earlier one (R100). -/
theorem bornAct_eq (s : State) (c x : Nat) : ∃ r, bornAct s c x =
    { freshAct s.freeCtr with s := r, priv := x == 0 || isApp c, serial := 2 * s.freeCtr + 2 } := by
  obtain ⟨r1, h1⟩ := Act.setS_eq (freshAct s.freeCtr) 30 (stackTop (ctxOf s c x).entry)
  obtain ⟨r2, h2⟩ := Act.setS_eq { freshAct s.freeCtr with s := r1 } 1 0
  exact ⟨r2, by rw [bornAct, h1, h2]⟩

/-- The stack top is in s30 (R100). -/
theorem bornAct_stack (s : State) (c x : Nat) : (bornAct s c x).getS 30 = stackTop (ctxOf s c x).entry := by
  have h : (bornAct s c x).s = (((freshAct s.freeCtr).setS 30 (stackTop (ctxOf s c x).entry)).setS 1 0).s := rfl
  rw [Act.getS_congr h, Act.getS_setS_ne _ (by decide), Act.getS_setS_self _ (by decide)]

/-! ### A start by handler address (R99, R100) -/

/-- The activation that a message starts at a handler address. -/
def handlerAct (m : Msg) (ws : List Word) (s1 xfer : Word) (up : Bool) (a : Act) : Act :=
  { ((a.setS 1 s1).setS 2 (BitVec.ofNat 64 ws.length)) with
    pc := ws.headD 0
    qin := ws.tail
    upcall := up
    work := m.work
    msg5 := ws.take 5
    startPrio := effPrio m
    cr := { ActCR.zero with
      wid := m.wid
      wshape := m.wshape
      msgsrc := msgsrcWord m.origin m.mprio m.nosrc m.src
      msglen := BitVec.ofNat 64 ws.length
      xfer := xfer } }

theorem acceptMsg_cores (s : State) (c : Nat) (m : Msg) (st : Nat) : (acceptMsg s c m st).cores = s.cores := by
  unfold acceptMsg
  split <;> rfl

theorem startAtHandler_ok {s : State} {c : Nat} {m : Msg} {ws : List Word} (hok : handlerOk (ctxOf s c m.ctx).entry (ws.headD 0) = true)
    (hw : m.work = none) (s1 xfer : Word) (up : Bool) : startAtHandler s c m ws s1 xfer up =
      beginAct (acceptMsg s c m 0) c m.ctx (handlerAct m ws s1 xfer up) := by
  simp only [startAtHandler, hok, if_true, hw]
  congr 1
  funext a
  simp [handlerAct, hw]

/-- An upcall whose address is a handler starts there (R119). -/
theorem bareUpcall_ok {s : State} {c x : Nat} (hok : handlerOk (ctxOf s c x).entry (ctxOf s c x).regs.upcall = true)
    (s1 cause va tpc s30 : Word) : bareUpcall s c x s1 cause va tpc s30 =
      beginAct s c x (fun a => upcallAct a (ctxOf s c x).regs.upcall s1 cause va s30 0 0 tpc 0) := by
  simp [bareUpcall, startUpcall, hok]

/-! ### The start of a waiting message (R74) -/

/-- The core as it turns to the message it starts: the message waits no more, its context is the most recent (R76). -/
def calledFrom (s : State) (c : Nat) (m : Msg) : State :=
  modCore s c (fun k => touch { k with waiting := k.waiting.filter (fun x => x.id != m.id) } m.ctx)

theorem loadEntry_current {s : State} {c x : Nat} (h : (ctxOf s c x).entry.ctxgen.toNat = bits (ctxWord s x 0) 63 48) :
    loadEntry s c x = s := if_pos h

section Start
variable {s : State} {c : Nat} {m : Msg} (hl : loadEntry (calledFrom s c m) c m.ctx = calledFrom s c m)
include hl

theorem startMsg_message (h : m.start = .message) : startMsg s c m = startAtHandler (calledFrom s c m) c m m.words m.wid 0 false := by
  unfold calledFrom at hl ⊢
  simp only [startMsg, hl, h]

theorem startMsg_versionMiss {n : Nat} (h : m.start = .versionMiss n) : startMsg s c m = startAtHandler (calledFrom s c m) c m
    ((ctxOf (calledFrom s c m) c m.ctx).regs.lxmissh :: m.words.take 2) (BitVec.ofNat 64 n) 0 false := by
  unfold calledFrom at hl ⊢
  simp only [startMsg, hl, h]

theorem startMsg_engine {tag cause va : Word} (h : m.start = .engine tag cause va) : startMsg s c m =
    bareUpcall (modCtx (calledFrom s c m) c m.ctx (fun x => { x with regs := { x.regs with fibre := tag } })) c m.ctx tag cause va 0
      (stackTop (ctxOf (calledFrom s c m) c m.ctx).entry) := by
  unfold calledFrom at hl ⊢
  simp only [startMsg, hl, h]

end Start

/-- The registers that a start at a handler sets, and those it leaves as a new activation has them. -/
theorem handlerAct_registers (m : Msg) (ws : List Word) (s1 xfer : Word) (up : Bool) (a : Act) :
    (handlerAct m ws s1 xfer up a).getS 1 = s1 ∧ (handlerAct m ws s1 xfer up a).getS 2 = BitVec.ofNat 64 ws.length ∧
    (handlerAct m ws s1 xfer up a).getS 30 = a.getS 30 ∧ (handlerAct m ws s1 xfer up a).priv = a.priv ∧
    (handlerAct m ws s1 xfer up a).qout = a.qout ∧ (handlerAct m ws s1 xfer up a).wait = a.wait := by
  have hr (i : SReg) : (handlerAct m ws s1 xfer up a).getS i = ((a.setS 1 s1).setS 2 (BitVec.ofNat 64 ws.length)).getS i :=
    Act.getS_congr rfl i
  obtain ⟨r1, h1⟩ := Act.setS_eq a 1 s1
  obtain ⟨r2, h2⟩ := Act.setS_eq { a with s := r1 } 2 (BitVec.ofNat 64 ws.length)
  refine ⟨?_, ?_, ?_, ?_, ?_, ?_⟩
  · rw [hr, Act.getS_setS_ne _ (by decide), Act.getS_setS_self _ (by decide)]
  · rw [hr, Act.getS_setS_self _ (by decide)]
  · rw [hr, Act.getS_setS_ne _ (by decide), Act.getS_setS_ne _ (by decide)]
  all_goals rw [handlerAct, h1, h2]

/-- The registers of an upcall (R119). -/
theorem upcallAct_registers (a : Act) (hdl s1 s2 s3 s30 wid wshape tpc tstat : Word) :
    (upcallAct a hdl s1 s2 s3 s30 wid wshape tpc tstat).getS 1 = s1 ∧ (upcallAct a hdl s1 s2 s3 s30 wid wshape tpc tstat).getS 2 = s2 ∧
    (upcallAct a hdl s1 s2 s3 s30 wid wshape tpc tstat).getS 3 = s3 ∧
    (upcallAct a hdl s1 s2 s3 s30 wid wshape tpc tstat).getS 30 = s30 := by
  have hr (i : SReg) : (upcallAct a hdl s1 s2 s3 s30 wid wshape tpc tstat).getS i =
    ((((a.setS 1 s1).setS 2 s2).setS 3 s3).setS 30 s30).getS i := Act.getS_congr rfl i
  refine ⟨?_, ?_, ?_, ?_⟩
  · rw [hr, Act.getS_setS_ne _ (by decide), Act.getS_setS_ne _ (by decide), Act.getS_setS_ne _ (by decide), Act.getS_setS_self _ (by decide)]
  · rw [hr, Act.getS_setS_ne _ (by decide), Act.getS_setS_ne _ (by decide), Act.getS_setS_self _ (by decide)]
  · rw [hr, Act.getS_setS_ne _ (by decide), Act.getS_setS_self _ (by decide)]
  · rw [hr, Act.getS_setS_self _ (by decide)]

/-! ### An idle core starts its one waiting message -/

/-- The core with its goal reached and its guests out, as a start finds it. -/
def clearedFor (s : State) (c : Nat) : State := modCore (guestsOut s c) c (fun k => { k with goal := none })

section Idle
variable {s : State} {c : Nat} {m : Msg} {g : Frame} (happ : isApp c = false) (ha : (coreOf s c).active = some g) (hg : g.act = none)
  (hx : g.ctx = m.ctx) (hsw : (coreOf s c).switching = false) (hq : (coreOf s c).quiesced = false) (hgoal : (coreOf s c).goal = none)
  (hw : (coreOf s c).waiting = [m]) (hst : startable s c m.ctx = true) (hguest : guestHolds s c m.ctx = false)
  (hsus : ∀ x, suspended s c x = false)
include happ ha hg hx hsw hq hgoal hw hst hguest hsus

theorem activationStart_single : activationStart s c = startMsg (clearedFor s c) c m := by
  simp [activationStart, idle, ha, hg, hsw, hq, happ, choose_single hw hst hsus, hguest, hgoal, frameCtx, hx, clearedFor]

end Idle

/-- What a start finds: memory and the module as they were, and of the core only its guests, its goal, its messages and the order of its
contexts changed. -/
theorem calledFrom_keeps (s : State) {c : Nat} {m : Msg} (hw : (coreOf s c).waiting = [m]) : ∃ as,
    coreOf (calledFrom (clearedFor s c) c m) c =
      { coreOf s c with away := as, goal := none, waiting := [], recency := m.ctx :: (coreOf s c).recency.filter (· != m.ctx) } := by
  obtain ⟨-, -, -, -, hc⟩ := guestsOut_keeps s c
  obtain ⟨as, has⟩ := hc c
  exact ⟨as, by simp [calledFrom, clearedFor, has, hw, touch]⟩

theorem ctxWord_congr {s t : State} (hm : t.mem = s.mem) (hu : t.undef = s.undef) (hp : t.poison = s.poison) (hf : t.module = s.module)
    (x i : Nat) : ctxWord t x i = ctxWord s x i := by
  rw [ctxWord, ctxWord, tableWord_congr hm hu hp (congrArg Module.fenced hf), ctxEntryLoc, ctxEntryLoc, hf]

/-- The chosen message is of the kind of the event (R138, R242). -/
theorem startKindOf_chosen {s : State} {c x : Nat} {m : Msg} {is : StartKind → Bool} (hc : choose s c = some (x, some m))
    (h : is m.start = true) : startKindOf s c is = activationStart s c := by simp only [startKindOf, hc, h, if_true]

theorem bits_high (w : Word) (lo : Nat) : bits w 63 lo = w.toNat / 2 ^ lo := by
  rcases Nat.lt_or_ge 63 lo with h | h
  · have hw : w.toNat / 2 ^ lo = 0 := Nat.div_eq_of_lt (lt_of_lt_of_le w.isLt (Nat.pow_le_pow_right (by omega) (by omega)))
    rw [bits, hw, Nat.zero_mod]
  · refine Nat.mod_eq_of_lt ((Nat.div_lt_iff_lt_mul (Nat.two_pow_pos lo)).2 ?_)
    rw [← Nat.pow_add, show 63 + 1 - lo + lo = 64 by omega]
    exact w.isLt

theorem stackTop_eq (e : CtxEntry) : stackTop e =
    BitVec.ofNat 64 (windowBase + e.regions[15].toNat % 2 ^ 32 + e.regions[15].toNat / 2 ^ 32) := by
  rw [stackTop, bits_high, bits_low]

/-- The state in which a message's activation begins. -/
def startsIn (s : State) (c : Nat) (m : Msg) : State := calledFrom (clearedFor s c) c m

section Begun
variable {s : State} {c : Nat} {m : Msg} (hw : (coreOf s c).waiting = [m])
include hw

theorem ctxOf_startsIn (x : Nat) : ctxOf (startsIn s c m) c x = ctxOf s c x := by
  obtain ⟨as, h⟩ := calledFrom_keeps s hw
  simp only [ctxOf, startsIn, h]

theorem loadEntry_startsIn (hgen : (ctxOf s c m.ctx).entry.ctxgen.toNat = (ctxWord s m.ctx 0).toNat / 2 ^ 48) :
    loadEntry (startsIn s c m) c m.ctx = startsIn s c m := by
  obtain ⟨hm, hu, hp, hf, -⟩ := guestsOut_keeps s c
  have h : ctxWord (startsIn s c m) m.ctx 0 = ctxWord s m.ctx 0 := ctxWord_congr hm hu hp hf _ _
  exact loadEntry_current (by rw [ctxOf_startsIn hw, h, bits_high, hgen])

/-- An activation that begins once its message is accepted: what it finds of its context, and what its core holds then. -/
theorem begun (f : Act → Act) : ∃ a, let t := beginAct (acceptMsg (startsIn s c m) c m 0) c m.ctx f
    actAt t ⟨c, none⟩ = some (f a) ∧ ctxAt t ⟨c, none⟩ = m.ctx ∧ (coreOf t c).waiting = [] ∧
    (coreOf t c).recency = m.ctx :: (coreOf s c).recency.filter (fun x => x ≠ m.ctx) ∧
    a.getS 30 = stackTop (ctxOf s c m.ctx).entry ∧ a.priv = (m.ctx == 0 || isApp c) ∧ a.qout = [] ∧ a.wait = none := by
  obtain ⟨as, h⟩ := calledFrom_keeps s hw
  have hc : coreOf (acceptMsg (startsIn s c m) c m 0) c = coreOf (startsIn s c m) c := by rw [coreOf, acceptMsg_cores]; rfl
  have hx : ctxOf (acceptMsg (startsIn s c m) c m 0) c m.ctx = ctxOf s c m.ctx := by rw [ctxOf, hc]; exact ctxOf_startsIn hw _
  obtain ⟨r, hr⟩ := bornAct_eq (acceptMsg (startsIn s c m) c m 0) c m.ctx
  refine ⟨bornAct (acceptMsg (startsIn s c m) c m 0) c m.ctx, ?_, ?_, ?_, ?_, ?_, ?_, ?_, ?_⟩
  · simp [actAt, coreOf_beginAct]
  · simp [ctxAt, coreOf_beginAct]
  · rw [coreOf_beginAct, hc, startsIn, h]
  · rw [coreOf_beginAct, hc, startsIn, h]
    simp [bne, beq_eq_decide]
  · rw [bornAct_stack, hx]
  · rw [hr]
  · rw [hr]; rfl
  · rw [hr]; rfl

/-- A start at a handler address, as the message's activation has it. -/
theorem handlerStart {ws : List Word} (s1 : Word) (happ : isApp c = false)
    (hok : handlerOk (ctxOf s c m.ctx).entry (ws.headD 0) = true) (hwork : m.work = none) :
    ∃ t a, startAtHandler (startsIn s c m) c m ws s1 0 false = t ∧ actAt t ⟨c, none⟩ = some a ∧ ctxAt t ⟨c, none⟩ = m.ctx ∧
      a.pc = ws.headD 0 ∧ a.qin = ws.tail ∧ a.qout = [] ∧ a.wait = none ∧ a.priv = (m.ctx == 0) ∧ a.upcall = false ∧
      a.getS 1 = s1 ∧ a.getS 2 = BitVec.ofNat 64 ws.length ∧ a.getS 30 = stackTop (ctxOf s c m.ctx).entry ∧
      a.cr.wid = m.wid ∧ a.cr.wshape = m.wshape ∧ a.cr.msglen = BitVec.ofNat 64 ws.length ∧ a.cr.fflags = 0 ∧ a.cr.xfer = 0 ∧
      a.cr.msgsrc = BitVec.ofNat 64 (m.origin * 2 ^ 62 + m.mprio * 2 ^ 22 + (if m.nosrc then 2 ^ 21 else m.src % 2 ^ 21)) ∧
      (coreOf t c).waiting = [] ∧ (coreOf t c).recency = m.ctx :: (coreOf s c).recency.filter (fun x => x ≠ m.ctx) := by
  obtain ⟨b, hact, hctx, hwait, hrec, hstack, hpriv, hqout, hnone⟩ := begun hw (handlerAct m ws s1 0 false)
  obtain ⟨h1, h2, h30, hp, hq, hn⟩ := handlerAct_registers m ws s1 0 false b
  refine ⟨_, handlerAct m ws s1 0 false b, startAtHandler_ok (by rwa [ctxOf_startsIn hw]) hwork s1 0 false, hact, hctx, rfl, rfl,
    hq.trans hqout, hn.trans hnone, ?_, rfl, h1, h2, h30.trans hstack, rfl, rfl, rfl, rfl, rfl, rfl, hwait, hrec⟩
  rw [hp, hpriv, happ, Bool.or_false]

/-- An engine's upcall, as its activation has it. -/
theorem upcallStart (tag cause va : Word) (hok : handlerOk (ctxOf s c m.ctx).entry (ctxOf s c m.ctx).regs.upcall = true) :
    ∃ t a, bareUpcall (modCtx (startsIn s c m) c m.ctx (fun x => { x with regs := { x.regs with fibre := tag } })) c m.ctx tag cause va 0
        (stackTop (ctxOf (startsIn s c m) c m.ctx).entry) = t ∧
      actAt t ⟨c, none⟩ = some a ∧ a.pc = (ctxOf s c m.ctx).regs.upcall ∧ a.upcall = true ∧ a.priv = false ∧
      a.getS 1 = tag ∧ a.getS 2 = cause ∧ a.getS 3 = va ∧ a.getS 30 = stackTop (ctxOf s c m.ctx).entry ∧
      a.cr.tcause = cause ∧ a.cr.tval = va ∧ (ctxOf t c m.ctx).regs.fibre = tag := by
  let u := modCtx (startsIn s c m) c m.ctx (fun x => { x with regs := { x.regs with fibre := tag } })
  have hu : ctxOf u c m.ctx = { ctxOf s c m.ctx with regs := { (ctxOf s c m.ctx).regs with fibre := tag } } := by
    rw [ctxOf_modCtx_self, ctxOf_startsIn hw]
  let f : Act → Act := fun a => upcallAct a (ctxOf s c m.ctx).regs.upcall tag cause va (stackTop (ctxOf s c m.ctx).entry) 0 0 0 0
  have hstart := bareUpcall_ok (s := u) (c := c) (x := m.ctx) (by rw [hu]; exact hok) tag cause va 0 (stackTop (ctxOf s c m.ctx).entry)
  rw [hu] at hstart
  obtain ⟨h1, h2, h3, h30⟩ := upcallAct_registers (bornAct u c m.ctx) (ctxOf s c m.ctx).regs.upcall tag cause va
    (stackTop (ctxOf s c m.ctx).entry) 0 0 0 0
  refine ⟨beginAct u c m.ctx f, f (bornAct u c m.ctx), ?_, ?_, rfl, rfl, rfl, h1, h2, h3, h30, rfl, rfl, ?_⟩
  · rw [ctxOf_startsIn hw]; exact hstart
  · simp [actAt, coreOf_beginAct]
  · have h : ctxOf (beginAct u c m.ctx f) c m.ctx = ctxOf u c m.ctx := by simp only [ctxOf, coreOf_beginAct]
    rw [h, hu]

end Begun

end Sys2Proof.Machine

namespace Sys2Proof
open Machine

/-- Settles O45: an idle core chooses its one waiting message (`choose_single`) and starts it (`activationStart_single`), at a handler address
(`handlerStart`) or as an upcall (`upcallStart`); ageing is a change of the waiting messages by definition. -/
theorem activationStarts : Obligations.ActivationStarts := by
  intro s c m g
  refine ⟨fun happ ha hg hx hsw hq hgoal hw hst hguest hsus hgen => ?_, fun n => rfl⟩
  have hone := activationStart_single happ ha hg hx hsw hq hgoal hw hst hguest hsus
  have hchoose := choose_single hw hst hsus
  have hload := loadEntry_startsIn hw hgen
  refine ⟨fun hmsg hwork hok => ?_, fun tag cause va heng hok => ?_, fun n hver hwork hok => ?_⟩
  · obtain ⟨t, a, ht, h⟩ := handlerStart hw m.wid happ hok hwork
    rw [stackTop_eq] at h
    exact ⟨t, a, by rw [exec_activationStart, hone, startMsg_message hload hmsg]; exact congrArg _ ht, h⟩
  · obtain ⟨t, a, ht, h⟩ := upcallStart hw tag cause va hok
    rw [stackTop_eq] at h
    refine ⟨t, a, ?_, h⟩
    rw [exec_engineUpcallStart, engineUpcallStart, startKindOf_chosen hchoose (by rw [heng]), hone, startMsg_engine hload heng]
    exact congrArg _ ht
  · obtain ⟨t, a, ht, hact, -, hpc, hqin, -, -, hpriv, hup, h1, -⟩ :=
      handlerStart hw (ws := (ctxOf s c m.ctx).regs.lxmissh :: m.words.take 2) (BitVec.ofNat 64 n) happ hok hwork
    refine ⟨t, a, ?_, hact, hpc, hqin, h1, hup, hpriv⟩
    have hctx : ctxOf (calledFrom (clearedFor s c) c m) c m.ctx = ctxOf s c m.ctx := ctxOf_startsIn hw m.ctx
    rw [exec_versionMissStart, versionMissStart, startKindOf_chosen hchoose (by rw [hver]), hone, startMsg_versionMiss hload hver, hctx]
    exact congrArg _ ht

end Sys2Proof
end

section
/-!
SUPPORT. Context slots: pre-emption (R75), switches and streaming (R79, R102), FUSE time-outs (R82), migration (R86) and donation (R88).
-/

namespace Sys2Proof.Machine

@[simp] theorem exec_preemption (s : State) (c : Nat) : exec (.preemption c) s = .next (preempt s c) := rfl
@[simp] theorem exec_switchComplete (s : State) (c : Nat) : exec (.switchComplete c) s = .next (switchComplete s c) := rfl
@[simp] theorem exec_streamInComplete (s : State) (c : Nat) : exec (.streamInComplete c) s = .next (streamInComplete s c) := rfl
@[simp] theorem exec_streamOutComplete (s : State) (c : Nat) : exec (.streamOutComplete c) s = .next (streamOutComplete s c) := rfl
@[simp] theorem exec_fuseTimeout (s : State) (c : Nat) : exec (.fuseTimeout c) s = .next (fuseTimeout s c) := rfl
@[simp] theorem exec_migrationComplete (s : State) (c x : Nat) : exec (.migrationComplete c x) s = .next (migrationComplete s c x) := rfl
@[simp] theorem exec_donationLimit (s : State) (c : Nat) : exec (.donationLimit c) s = .next (donationLimit s c) := rfl

/-! ### The core turns to a context (R75, R79, R80) -/

/-- A context that holds no slot of a core is in none of its frames. -/
theorem frameCtx_of_noSlot {k : Core} {x : Nat} (h : holdsSlot k x = false) :
    frameCtx k.active ≠ some x ∧ frameCtx k.shadow ≠ some x ∧ frameCtx k.streaming ≠ some x := by
  simp only [holdsSlot, Bool.or_eq_false_iff] at h
  obtain ⟨⟨⟨ha, hs⟩, ht⟩, -⟩ := h
  refine ⟨?_, ?_, ?_⟩
  · cases hf : k.active <;> simp_all [frameCtx]
  · cases hf : k.shadow <;> simp_all [frameCtx]
  · cases hf : k.streaming <;> simp_all [frameCtx]

section Engage
variable (s : State) (c x : Nat)

/-- What the core turns to, and what it keeps. -/
theorem engage_keeps : (coreOf (engage s c x) c).goal = some x ∧ (coreOf (engage s c x) c).active = (coreOf s c).active ∧
    (coreOf (engage s c x) c).donation = (coreOf s c).donation := by
  simp only [engage, coreOf_modCore_self]
  split
  · exact ⟨rfl, rfl, rfl⟩
  · split
    · exact ⟨rfl, rfl, rfl⟩
    · split <;> exact ⟨rfl, rfl, rfl⟩

variable {s c x}

theorem engage_shadow (ha : frameCtx (coreOf s c).active ≠ some x) (hs : frameCtx (coreOf s c).shadow = some x) :
    (coreOf (engage s c x) c).switching = true ∧ (coreOf (engage s c x) c).streamIn = none := by
  simp [engage, ha, hs]

theorem engage_streams (h : holdsSlot (coreOf s c) x = false) (ho : (coreOf s c).streamOut = false) :
    (coreOf (engage s c x) c).streamIn = some x := by
  obtain ⟨ha, hs, ht⟩ := frameCtx_of_noSlot h
  simp [engage, ha, hs, ht, ho]

end Engage

/-! ### Pre-emption (R75) -/

theorem pickCtx_nil (k : Core) : pickCtx k [] = none := rfl

section Preempt
variable {s : State} {c : Nat} {f : Frame} {m : Msg} (ha : (coreOf s c).active = some f) (hlive : f.act.isSome = true)
  (hsw : (coreOf s c).switching = false) (hq : (coreOf s c).quiesced = false) (hw : (coreOf s c).waiting = [m]) (hne : m.ctx ≠ f.ctx)
  (hst : startable s c m.ctx = true) (hg : readyGuests s c = [])
include ha hlive hsw hq hw hne hst hg

theorem preemptBy_single : preemptBy s c =
    if trapPending f.act = false ∧ prioOf s c f.ctx < prioOf s c m.ctx then some m.ctx else none := by
  by_cases ht : trapPending f.act = true <;> by_cases hp : prioOf s c f.ctx < prioOf s c m.ctx <;>
    simp [preemptBy, ha, Option.isSome_iff_ne_none.1 hlive, hsw, hq, hw, hg, hne, hst, ht, hp, pickCtx_single, pickCtx_nil]

/-- Nothing pre-empts an activation of at least the message's priority, nor one whose trap waits for its record (R122). -/
theorem preempt_stays (h : prioOf s c m.ctx ≤ prioOf s c f.ctx ∨ trapPending f.act = true) : preempt s c = s := by
  have hnot : ¬(trapPending f.act = false ∧ prioOf s c f.ctx < prioOf s c m.ctx) := by
    rintro ⟨ht, hp⟩
    rcases h with h | h
    · omega
    · rw [ht] at h; cases h
  simp only [preempt, preemptBy_single ha hlive hsw hq hw hne hst hg, if_neg hnot]

theorem preempt_turns (hphrase : (coreOf s c).phrase = none) (hp : prioOf s c f.ctx < prioOf s c m.ctx) (ht : trapPending f.act = false) :
    preempt s c = engage (modCore s c (fun k => { k with donation := none })) c m.ctx := by
  simp only [preempt, preemptBy_single ha hlive hsw hq hw hne hst hg, if_pos (And.intro ht hp), hphrase]

end Preempt

/-- The state in which a pre-empted core turns to its context: its donation has ended (R88). -/
theorem preemption {s : State} {c : Nat} {f : Frame} {m : Msg} (ha : (coreOf s c).active = some f) (hlive : f.act.isSome = true)
    (hsw : (coreOf s c).switching = false) (hq : (coreOf s c).quiesced = false) (hphrase : (coreOf s c).phrase = none)
    (hw : (coreOf s c).waiting = [m]) (hne : m.ctx ≠ f.ctx) (hst : startable s c m.ctx = true) (hg : readyGuests s c = [])
    (hp : prioOf s c f.ctx < prioOf s c m.ctx) (ht : trapPending f.act = false) :
    ∃ t, exec (.preemption c) s = .next t ∧ (coreOf t c).goal = some m.ctx ∧ (coreOf t c).active = some f ∧
      ((coreOf s c).shadow.map (fun x => x.ctx) = some m.ctx → (coreOf t c).switching = true ∧ (coreOf t c).streamIn = none) ∧
      (holdsSlot (coreOf s c) m.ctx = false → (coreOf s c).streamOut = false → (coreOf t c).streamIn = some m.ctx) := by
  let u := modCore s c (fun k => { k with donation := none })
  have hu : coreOf u c = { coreOf s c with donation := none } := coreOf_modCore_self s c _
  obtain ⟨hgoal, hactive, -⟩ := engage_keeps u c m.ctx
  have hact : frameCtx (coreOf u c).active ≠ some m.ctx := by
    rw [hu]
    simpa [frameCtx, ha] using hne.symm
  refine ⟨engage u c m.ctx, by rw [exec_preemption, preempt_turns ha hlive hsw hq hw hne hst hg hphrase hp ht], hgoal, ?_, fun hs => ?_,
    fun h ho => ?_⟩
  · rw [hactive, hu, ha]
  · exact engage_shadow hact (by rw [hu]; exact hs)
  · exact engage_streams (by rw [hu]; exact h) (by rw [hu]; exact ho)

/-! ### A switch (R79, R123) -/

theorem coreOf_leaveActive (s : State) (c x d : Nat) : coreOf (leaveActive s c x) d = coreOf s d := by
  unfold leaveActive
  split <;> rfl

/-- Loading a context's entry changes the core's contexts alone. -/
theorem coreOf_loadEntry (s : State) (c x : Nat) : ∃ xs, coreOf (loadEntry s c x) c = { coreOf s c with ctxs := xs } := by
  unfold loadEntry
  split
  · exact ⟨(coreOf s c).ctxs, rfl⟩
  · exact ⟨_, coreOf_modCore_self s c _⟩

section LoadEntry
variable (s : State) (c x : Nat)

@[simp] theorem loadEntry_active : (coreOf (loadEntry s c x) c).active = (coreOf s c).active := by
  obtain ⟨_, h⟩ := coreOf_loadEntry s c x; rw [h]
@[simp] theorem loadEntry_shadow : (coreOf (loadEntry s c x) c).shadow = (coreOf s c).shadow := by
  obtain ⟨_, h⟩ := coreOf_loadEntry s c x; rw [h]
@[simp] theorem loadEntry_switching : (coreOf (loadEntry s c x) c).switching = (coreOf s c).switching := by
  obtain ⟨_, h⟩ := coreOf_loadEntry s c x; rw [h]

end LoadEntry

/-- The slots of a core once a switch is complete. -/
theorem switchComplete_slots {s : State} {c f : Nat} {a : Act} {g : Frame} (hsw : (coreOf s c).switching = true)
    (ha : (coreOf s c).active = some ⟨f, some a⟩) (hs : (coreOf s c).shadow = some g) :
    (coreOf (switchComplete s c) c).active = some { g with act := g.act.map (fun k => { k with rlb := [] }) } ∧
    (coreOf (switchComplete s c) c).shadow = some ⟨f, some (switchedOut a)⟩ ∧ (coreOf (switchComplete s c) c).switching = false := by
  simp [switchComplete, hsw, ha, hs, coreOf_leaveActive, touch]

/-- An activation that leaves its core: its wait knows it, its buffers are empty, and SLOT counts it (R78, R123). -/
theorem switchedOut_eq (a : Act) : switchedOut a = { a with
    cr := { a.cr with slot := BitVec.ofNat 64 (min (a.cr.slot.toNat % 65536 + 1) 65535 + 65536) }
    wait := a.wait.map (fun w => { w with out := true })
    rlb := []
    fetch := [] } := by
  have h : bits a.cr.slot 15 0 = a.cr.slot.toNat % 65536 := bits_low _ _
  simp only [switchedOut, h, Nat.min, Nat.reducePow]

@[simp] theorem coreOf_nextFree (s : State) (c : Nat) : coreOf (nextFree s) c = coreOf s c := rfl
@[simp] theorem ctxOf_nextFree (s : State) (c x : Nat) : ctxOf (nextFree s) c x = ctxOf s c x := rfl

theorem coreOf_modCtx_self (s : State) (c x : Nat) (f : CtxCore → CtxCore) :
    coreOf (modCtx s c x f) c = { coreOf s c with ctxs := tset (coreOf s c).ctxs x (f (ctxOf s c x)) } := coreOf_modCore_self s c _

/-- A change of a core that keeps its contexts keeps what each holds there. -/
theorem ctxOf_modCore (s : State) (c d x : Nat) {f : Core → Core} (hf : ∀ k, (f k).ctxs = k.ctxs) :
    ctxOf (modCore s c f) d x = ctxOf s d x := by
  by_cases h : d = c
  · subst h; simp [ctxOf, hf]
  · simp [ctxOf, coreOf_modCore_ne _ _ h]

/-! ### A frame is loaded (R79, R102, R104) -/

@[simp] theorem readWord_modCore (s : State) (c : Nat) (f : Core → Core) (loc : Nat) : readWord (modCore s c f) loc = readWord s loc := rfl
@[simp] theorem readNat_modCore (s : State) (c : Nat) (f : Core → Core) (loc n : Nat) : readNat (modCore s c f) loc n = readNat s loc n := rfl
@[simp] theorem poisonedIn_modCore (s : State) (c : Nat) (f : Core → Core) (loc n : Nat) :
    poisonedIn (modCore s c f) loc n = poisonedIn s loc n := rfl

theorem frameAct_none {s : State} {l : Nat} {res : Option Residue} (h : (readWord s (l + 0x958)).getLsbD 0 = false) :
    frameAct s l res = none := by
  simp only [frameAct, bit_eq_getLsbD, h]
  rfl

/-- An activation's pc and registers stand at the places of R104 of a frame. -/
def StandsInFrame (s : State) (l : Nat) (b : Act) : Prop :=
  b.pc = readWord s (l + 0x950) &&& ~~~1#64 ∧ (∀ i : SReg, i ≠ 0 → b.getS i = readWord s (l + 0x800 + 8 * i.toNat)) ∧
  (∀ i : EReg, b.getE i = readWord s (l + 0x900 + 8 * i.toNat)) ∧
  (∀ i : PReg, i ≠ 0 → b.getP i = BitVec.ofNat 16 (readNat s (l + 0x940 + 2 * i.toNat) 2))

/-- Control registers have no part in it. -/
theorem StandsInFrame.withCr {s : State} {l : Nat} {b : Act} (h : StandsInFrame s l b) (k : ActCR) : StandsInFrame s l { b with cr := k } := by
  simpa only [StandsInFrame, Act.getS, Act.getE, Act.getP] using h

theorem frameAct_some {s : State} {l : Nat} {res : Option Residue} (h : (readWord s (l + 0x958)).getLsbD 0 = true) :
    ∃ b, frameAct s l res = some b ∧ StandsInFrame s l b := by
  simp only [frameAct, bit_eq_getLsbD, h]
  refine ⟨_, rfl, rfl, fun i hi => ?_, fun i => ?_, fun i hi => ?_⟩
  · rw [Act.getS, if_neg hi]; exact Vector.getElem_ofFn _
  · exact Vector.getElem_ofFn _
  · rw [Act.getP, if_neg hi]; exact Vector.getElem_ofFn _

theorem frameRegs_part (s : State) (l : Nat) : (frameRegs s l).part = readWord s (l + 0x980) := rfl
theorem frameEntry_ctxgen (s : State) (l x : Nat) : (frameEntry s l x).ctxgen = readWord s (l + 0xAA0) := rfl

/-- An activation of the context has migrated from the core: the core keeps its registers (R443). -/
def Away (s : State) (c x : Nat) : Prop := ∃ f ∈ (coreOf s c).away, f.ctx = x

theorem away_any {s : State} {c x : Nat} (h : Away s c x) : (coreOf s c).away.any (fun f => f.ctx == x) = true := by
  simpa [Away] using h

theorem away_none {s : State} {c x : Nat} (h : ¬Away s c x) : (coreOf s c).away.any (fun f => f.ctx == x) = false := by
  simpa [Away] using h

/-- The core refuses a frame: the context is among the refused, and no slot changes. -/
def RefusesFrame (s t : State) (c x : Nat) : Prop :=
  x ∈ (coreOf t c).refused ∧ (coreOf t c).shadow = (coreOf s c).shadow ∧ (coreOf t c).streamIn = none

theorem coreOf_notice (s : State) (kind : Nat) (ws : List Word) (c : Nat) : coreOf (notice s kind ws) c = coreOf s c := by
  obtain ⟨m, h⟩ := notice_eq s kind ws
  rw [h]
  rfl

/-- A loaded activation: CR.SLOT keeps its count and says that the frame was streamed in (R123). -/
def streamedAct (a : Act) : Act := { a with cr := { a.cr with slot := BitVec.ofNat 64 (bits a.cr.slot 15 0 + 2 ^ 17) } }

section StreamIn
variable {s : State} {c x : Nat} (hin : (coreOf s c).streamIn = some x) (hsw : (coreOf s c).switching = false)
include hin hsw

theorem streamIn_lost (hl : poisonedIn s (frameLoc s c x) 4096 ≠ none) : RefusesFrame s (streamInComplete s c) c x := by
  have h := Option.isSome_iff_ne_none.2 hl
  simp [RefusesFrame, streamInComplete, hin, hsw, h]

theorem streamIn_badPart (hl : poisonedIn s (frameLoc s c x) 4096 = none) (ha : ¬Away s c x)
    (hp : partOk (readWord s (frameLoc s c x + 0x980)) = false) : RefusesFrame s (streamInComplete s c) c x := by
  simp [RefusesFrame, streamInComplete, hin, hsw, hl, away_none ha, frameRegs_part, hp, coreOf_notice]

/-- The registers of a context whose activation has migrated are those of its home, and its frame holds no activation to take up (R443). -/
theorem streamIn_kept (hl : poisonedIn s (frameLoc s c x) 4096 = none) (ha : Away s c x) (hp : partOk (ctxOf s c x).regs.part = true) :
    (coreOf (streamInComplete s c) c).shadow = some ⟨x, none⟩ ∧ (ctxOf (streamInComplete s c) c x).regs = (ctxOf s c x).regs ∧
    (ctxOf (streamInComplete s c) c x).entry = (ctxOf s c x).entry := by
  simp [streamInComplete, hin, hsw, hl, away_any ha, hp, ctxOf_modCore, coreOf_modCtx_self]

/-- A frame that keeps the limits is in the shadow slot, and what stood there streams out. -/
theorem streamIn_loads (hl : poisonedIn s (frameLoc s c x) 4096 = none) (ha : ¬Away s c x)
    (hp : partOk (readWord s (frameLoc s c x + 0x980)) = true) : ∃ a, (coreOf (streamInComplete s c) c).shadow = some ⟨x, a⟩ ∧
    (coreOf (streamInComplete s c) c).streaming = (coreOf s c).shadow ∧ (coreOf (streamInComplete s c) c).streamIn = none ∧
    (coreOf (streamInComplete s c) c).streamOut = (coreOf s c).shadow.isSome ∧
    (ctxOf (streamInComplete s c) c x).regs.part = readWord s (frameLoc s c x + 0x980) ∧
    (ctxOf (streamInComplete s c) c x).entry.ctxgen = readWord s (frameLoc s c x + 0xAA0) ∧
    ((readWord s (frameLoc s c x + 0x958)).getLsbD 0 = false → a = none) ∧
    ((readWord s (frameLoc s c x + 0x958)).getLsbD 0 = true → ∃ b, a = some b ∧ StandsInFrame s (frameLoc s c x) b) := by
  let u := modCore s c (fun k => { k with streamIn := none })
  have hnone (h : (readWord s (frameLoc s c x + 0x958)).getLsbD 0 = false) :
      (frameAct u (frameLoc s c x) (ctxOf s c x).residue).map streamedAct = none := by
    rw [frameAct_none (s := u) h]; rfl
  have hsome (h : (readWord s (frameLoc s c x + 0x958)).getLsbD 0 = true) :
      ∃ b, (frameAct u (frameLoc s c x) (ctxOf s c x).residue).map streamedAct = some b ∧ StandsInFrame s (frameLoc s c x) b := by
    obtain ⟨b, hb, hin⟩ := frameAct_some (s := u) (res := (ctxOf s c x).residue) h
    exact ⟨_, by rw [hb]; rfl, hin.withCr _⟩
  refine ⟨(frameAct u (frameLoc s c x) (ctxOf s c x).residue).map streamedAct, ?_, ?_, ?_, ?_, ?_, ?_, hnone, hsome⟩
  · simp [streamInComplete, hin, hsw, hl, away_none ha, frameRegs_part, hp, ctxOf_modCore, u]
    rfl
  all_goals simp [streamInComplete, hin, hsw, hl, away_none ha, frameRegs_part, frameEntry_ctxgen, hp, ctxOf_modCore, coreOf_modCtx_self]

end StreamIn

theorem streamIn_waits {s : State} {c : Nat} (hsw : (coreOf s c).switching = true) : streamInComplete s c = s := by
  simp [streamInComplete, hsw]

/-! ### The bytes of a frame (R104) -/

/-- A word's bytes stand in a list of bytes from place `o` up. -/
def WordAt (bs : List Byte) (o : Nat) (w : Word) : Prop := (bs.drop o).take 8 = leBytes 8 w.toNat

theorem WordAt.length_le {bs : List Byte} {o : Nat} {w : Word} (h : WordAt bs o w) : o + 8 ≤ bs.length := by
  have := congrArg List.length h
  simp only [List.length_take, List.length_drop, length_leBytes] at this
  omega

theorem WordAt.before {bs : List Byte} {o : Nat} {w : Word} (h : WordAt bs o w) (r : List Byte) : WordAt (bs ++ r) o w := by
  have hl := h.length_le
  rw [WordAt, List.drop_append_of_le_length (by omega), List.take_append_of_le_length (by rw [List.length_drop]; omega)]
  exact h

theorem WordAt.behind {bs r : List Byte} {n o : Nat} {w : Word} (h : WordAt bs o w) (hr : r.length = n) : WordAt (r ++ bs) (n + o) w := by
  rw [WordAt, ← hr, List.drop_append, List.drop_eq_nil_of_le (by omega), Nat.add_sub_cancel_left, List.nil_append]
  exact h

theorem wordAt_head (w : Word) (r : List Byte) : WordAt (leBytes 8 w.toNat ++ r) 0 w := by
  rw [WordAt, List.drop_zero, List.take_append_of_le_length (by simp), List.take_of_length_le (by simp)]

theorem wordAt_range (f : Nat → Word) {n k : Nat} (h : k < n) : WordAt ((List.range n).flatMap (fun i => leBytes 8 (f i).toNat)) (8 * k) (f k) :=
  take_drop_flatMap (fun _ => length_leBytes 8 _) n h

/-- A word that a home has stored reads back. -/
theorem readWord_storeAt {s : State} (hw : MemoryCanonical s) {ctx loc o : Nat} {bs : List Byte} {w : Word} (h : WordAt bs o w) :
    readWord (storeAt s ctx loc bs) (loc + o) = w := by
  rw [readWord, readNat, readBytes_storeAt _ _ hw h.length_le, h, leNat_leBytes, show 256 ^ 8 = 2 ^ 64 by norm_num, Nat.mod_eq_of_lt w.isLt,
    BitVec.ofNat_toNat, BitVec.setWidth_eq]

section FrameBytes
variable (r : CtxRegs) (e : CtxEntry) (a : Act)

/-- The registers of a frame in the order of R104: vector, scalar, e- and predicate registers. -/
def frameFiles : List Byte :=
  a.v.toList.flatMap (fun x => x.toList.flatMap (fun l => leBytes 4 l.toNat)) ++
  (List.range 32).flatMap (fun i => leBytes 8 (a.getS (BitVec.ofNat 5 i)).toNat) ++
  a.e.toList.flatMap (fun w => leBytes 8 w.toNat) ++
  (List.range 8).flatMap (fun i => leBytes 2 (a.getP (BitVec.ofNat 3 i)).toNat)

/-- The words of a frame from pc up. -/
def frameState : List Byte :=
  [a.pc, stateWord (some a), BitVec.ofNat 64 ((a.wait.getD (Wait.plain 0)).start % 2 ^ 48), (a.wait.getD (Wait.plain 0)).operand, 0, 0].flatMap
    (fun w => leBytes 8 w.toNat)

/-- The registers of a frame that its context and its activation hold from CR.PART up. -/
def frameControl : List Byte :=
  [r.part, a.cr.wid, a.cr.wshape, a.cr.msgsrc, a.cr.msglen, a.cr.fflags, a.cr.tcause, a.cr.tval, a.cr.tpc, a.cr.tstat,
    a.cr.xfer, r.upcall, r.fibre, r.freel, r.wscale, r.wef, r.x128l, r.mswz, r.lxstop, r.lxesc, r.lxkmax, r.lxfmt, r.lxmissh,
    r.cpsrc, r.cpdst, r.cplen, r.cpstr, r.cpflags, r.cphnd, r.cpswz, r.trace, r.traceptr, a.cr.pathcnt, a.cr.slot,
    0, 0].flatMap (fun w => leBytes 8 w.toNat)

theorem frameFiles_length : (frameFiles a).length = 0x950 := by
  simp [frameFiles, List.length_flatMap]

theorem frameState_length : (frameState a).length = 0x30 := by simp [frameState]

theorem frameControl_length : (frameControl r a).length = 0x120 := by simp [frameControl]

/-- Words, filled up with zero bytes to a length. -/
def padded (n : Nat) (ws : List Word) : List Byte :=
  let bs := ws.flatMap (fun w => leBytes 8 w.toNat)
  bs ++ List.replicate (n - bs.length) 0

theorem padded_length {n : Nat} {ws : List Word} (h : 8 * ws.length ≤ n) : (padded n ws).length = n := by
  simp [padded, List.length_flatMap]
  omega

/-- The entry values, the regions and the queues of a frame. -/
def frameRest : List Byte :=
  [e.ctxgen, e.asid, e.ptroot, e.pmask, e.cmapb, e.cmapn, e.hlo, e.hhi, e.evtmo, e.donate, e.lease, e.migok, 0, 0, 0, 0].flatMap
    (fun w => leBytes 8 w.toNat) ++
  e.regions.toList.flatMap (fun w => leBytes 8 w.toNat) ++ padded 0x1F8 a.qin ++ padded 0x200 a.qout ++ List.replicate 0x68 0

theorem frameBytes_eq : frameBytes r e (some a) = frameFiles a ++ frameState a ++ frameControl r a ++ frameRest e a := by
  simp only [frameFiles, frameState, frameControl, frameRest, padded, frameBytes, List.append_assoc]
  rfl

variable {a}

/-- A frame takes the 4 KiB of R104 while its queues keep their lengths. -/
theorem frameBytes_length (hin : a.qin.length ≤ 63) (hout : a.qout.length ≤ 64) : (frameBytes r e (some a)).length = 4096 := by
  simp [frameBytes_eq, frameFiles_length, frameState_length, frameControl_length, frameRest, padded_length (n := 0x1F8) (ws := a.qin) (by omega),
    padded_length (n := 0x200) (ws := a.qout) (by omega), List.length_flatMap]

variable (a)

theorem frameBytes_pc : WordAt (frameBytes r e (some a)) 0x950 a.pc := by
  rw [frameBytes_eq]
  exact (((wordAt_head a.pc _).behind (frameFiles_length a)).before _).before _

theorem frameBytes_part : WordAt (frameBytes r e (some a)) 0x980 r.part := by
  rw [frameBytes_eq]
  exact ((wordAt_head r.part _).behind (by rw [List.length_append, frameFiles_length, frameState_length])).before _

theorem frameBytes_scalar (i : SReg) : WordAt (frameBytes r e (some a)) (0x800 + 8 * i.toNat) (a.getS i) := by
  have h := wordAt_range (fun i => a.getS (BitVec.ofNat 5 i)) i.isLt
  rw [BitVec.ofNat_toNat, BitVec.setWidth_eq] at h
  rw [frameBytes_eq, frameFiles]
  refine (((((h.behind ?_).before _).before _).before _).before _).before _
  simp [List.length_flatMap]

end FrameBytes

/-! ### A frame is stored (R79, R104) -/

section StreamOut
variable {s : State} {c x : Nat} {a : Act} (ho : (coreOf s c).streamOut = true) (hs : (coreOf s c).streaming = some ⟨x, some a⟩)
  (hg : (coreOf s c).goal = none)
include ho hs hg

theorem streamOut_saves : streamOutComplete s c =
    modCore (saveFrame s c ⟨x, some a⟩) c (fun k => { k with streaming := none, streamOut := false }) := by
  have hgoal : (coreOf (modCore (saveFrame s c ⟨x, some a⟩) c (fun k => { k with streaming := none, streamOut := false })) c).goal = none := by
    simp only [coreOf_modCore_self, saveFrame, coreOf_modCtx_self]
    exact (storeAt_keeps s 0 _ _ Core.goal (fun _ _ => rfl) c).trans hg
  unfold saveFrame at hgoal ⊢
  simp only [streamOutComplete, ho, hs, hgoal]

theorem readByte_streamOut (l : Nat) : readByte (streamOutComplete s c) l =
    readByte (storeAt s 0 (frameLoc s c x) (frameBytes (ctxOf s c x).regs (ctxOf s c x).entry (some a))) l := by
  rw [streamOut_saves ho hs hg]
  exact readByte_congr (by simp [saveFrame]) (by simp [saveFrame]) l

theorem readWord_streamOut (l : Nat) : readWord (streamOutComplete s c) l =
    readWord (storeAt s 0 (frameLoc s c x) (frameBytes (ctxOf s c x).regs (ctxOf s c x).entry (some a))) l := by
  simp only [readWord, readNat, readBytes, readByte_streamOut ho hs hg]

theorem streamOut_slots : (coreOf (streamOutComplete s c) c).streaming = none ∧ (coreOf (streamOutComplete s c) c).streamOut = false := by
  rw [streamOut_saves ho hs hg, coreOf_modCore_self]
  exact ⟨rfl, rfl⟩

/-- Every byte outside the frame stays. -/
theorem streamOut_outside (hin : a.qin.length ≤ 63) (hout : a.qout.length ≤ 64) {l : Nat}
    (h : l < frameLoc s c x ∨ frameLoc s c x + 4096 ≤ l) :
    readByte (streamOutComplete s c) l = readByte s l := by
  rw [readByte_streamOut ho hs hg, readByte_storeAt, readByte_writeBytes_out _ _ _ (by rwa [frameBytes_length _ _ hin hout])]

end StreamOut

/-! ### The ends of a FUSE, a migration and a donation -/

theorem fuseTimeout_ends {s : State} {c g : Nat} {f : FuseWait} {a : Act} (hf : (coreOf s c).fuse = some f)
    (ha : (coreOf s c).active = some ⟨g, some a⟩) (h0 : (ctxOf s c g).entry.evtmo ≠ 0)
    (hn : (ctxOf s c g).entry.evtmo.toNat ≤ s.cyc - f.start) : fuseTimeout s c = endFuse s c 0 none := by
  have hlim : (ctxOf s c g).entry.evtmo.toNat ≠ 0 := fun h => h0 (BitVec.eq_of_toNat_eq h)
  simp only [fuseTimeout, hf, ha, if_pos (And.intro hlim hn)]

/-- A migrating activation in the active slot goes on at its full core, its buffers empty (R86, R87, R162). -/
theorem migrationComplete_moves {s : State} {c x d : Nat} {a : Act} (hx : x ∈ (coreOf s c).migrating)
    (ha : (coreOf s c).active = some ⟨x, some a⟩) (hp : performed s ⟨c, x, a.serial⟩ = true) (hu : unackedAny s ⟨c, x, a.serial⟩ = false)
    (hd : migrateTarget s c = some d) : (coreOf (migrationComplete s c x) c).active = some ⟨x, none⟩ ∧
      x ∉ (coreOf (migrationComplete s c x) c).migrating ∧ (coreOf (migrationComplete s c x) c).away =
        (coreOf s c).away ++ [⟨x, some { a with runsOn := some d, wait := none, rlb := [], fetch := [] }⟩] := by
  simp [migrationComplete, hx, ha, hp, hu, hd]

theorem donationLimit_ends {s : State} {c : Nat} {d : Donation} {g : Frame} (hd : (coreOf s c).donation = some d)
    (ha : (coreOf s c).active = some g) (hg : g.ctx = d.holder) (hn : (ctxOf s c d.waiter).entry.donate.toNat ≤ s.cyc - d.start) :
    donationLimit s c = engage (modCore s c (fun k => { k with donation := none })) c d.waiter := by
  simp [donationLimit, endDonation, hd, ha, frameCtx, hg, hn]

end Sys2Proof.Machine

namespace Sys2Proof
open Machine

/-- Settles O46: one lemma for what each event does to the slots, and the bytes of a frame place by place (`frameAct_some`, `frameBytes_pc`,
`frameBytes_part`, `frameBytes_scalar`). -/
theorem slotEvents : Obligations.SlotEvents := by
  intro s c
  refine ⟨fun f m ha hlive hsw hq hphrase hw hne hst hg => ⟨fun h => ?_, fun hp ht => ?_⟩, fun f a g hsw ha hs => ?_, fun x _ hsw => ?_,
    fun x hin hsw => ⟨fun hl ha hp => ?_, fun hl ha hp => ?_, fun h => ?_⟩, fun x a ho hs hg hmem hqin hqout => ?_,
    fun f g a w hf ha hw h0 hn => ?_, fun x a d hx ha hp hu hd => ?_, fun d g hd ha hg hn => ?_⟩
  · rw [exec_preemption, preempt_stays ha hlive hsw hq hw hne hst hg h]
  · exact preemption ha hlive hsw hq hphrase hw hne hst hg hp ht
  · obtain ⟨hactive, hshadow, hswitched⟩ := switchComplete_slots hsw ha hs
    refine ⟨_, switchedOut a, rfl, hactive, hshadow, hswitched, ?_⟩
    rw [switchedOut_eq]
    exact ⟨rfl, rfl, rfl, rfl, rfl, rfl, rfl, rfl, rfl⟩
  · rw [exec_streamInComplete, streamIn_waits hsw]
  · exact ⟨_, rfl, streamIn_kept hin hsw hl ha hp⟩
  · obtain ⟨a, hloaded⟩ := streamIn_loads hin hsw hl ha hp
    exact ⟨_, a, rfl, hloaded⟩
  · refine ⟨_, rfl, ?_⟩
    by_cases hl : poisonedIn s (frameLoc s c x) 4096 = none
    · rcases h with h | ⟨ha, hp⟩
      · exact absurd hl h
      · exact streamIn_badPart hin hsw hl ha hp
    · exact streamIn_lost hin hsw hl
  · obtain ⟨hstreaming, hout⟩ := streamOut_slots ho hs hg
    refine ⟨_, rfl, hstreaming, hout, ?_, fun i => ?_, ?_, fun l hl => streamOut_outside ho hs hg hqin hqout hl⟩
    · rw [readWord_streamOut ho hs hg]; exact readWord_storeAt hmem (frameBytes_pc _ _ a)
    · rw [readWord_streamOut ho hs hg, Nat.add_assoc]; exact readWord_storeAt hmem (frameBytes_scalar _ _ a i)
    · rw [readWord_streamOut ho hs hg]; exact readWord_storeAt hmem (frameBytes_part _ _ a)
  · have hact : actAt s ⟨c, none⟩ = some a := by simp [actAt, ha]
    exact ⟨_, by rw [exec_fuseTimeout, fuseTimeout_ends hf ha h0 hn], fuse_endFuse hact hw 0 none, actAt_endFuse hact hw 0 none⟩
  · exact ⟨_, rfl, migrationComplete_moves hx ha hp hu hd⟩
  · obtain ⟨hgoal, -, hnone⟩ := engage_keeps (modCore s c (fun k => { k with donation := none })) c d.waiter
    rw [coreOf_modCore_self] at hnone
    exact ⟨_, by rw [exec_donationLimit, donationLimit_ends hd ha hg hn], hnone, hgoal⟩

end Sys2Proof
end

section
/-!
SUPPORT. The register files (R93, R283).
-/

namespace Sys2Proof
open Machine

/-- Settles O1, register file by register file: s0 and p0 by definition, every other register by what reading gives after a write to the
same and to another register. -/
theorem registerFiles : Obligations.RegisterFiles := fun a =>
  ⟨fun w => ⟨a.getS_zero, a.setS_zero w⟩, fun x => ⟨a.getP_zero, a.setP_zero x⟩,
    fun _ w hi => a.getS_setS_self hi w, fun _ _ w hj => a.getS_setS_ne hj w,
    fun i x => a.getV_setV_self i x, fun _ _ x hj => a.getV_setV_ne hj x,
    fun _ x hi => a.getP_setP_self hi x, fun _ _ x hj => a.getP_setP_ne hj x,
    fun i w => a.getE_setE_self i w, fun _ _ w hj => a.getE_setE_ne hj w⟩

end Sys2Proof
end

section
/-!
SUPPORT. The queue instructions (R95-R98, R340, R341): what the body of each comes to, queue by queue.
-/

namespace Sys2Proof.Machine

/-- A first issue waits as of a kind and an operand. -/
theorem waitOr_first {s : State} (h : FirstIssue s) (kind : Nat) (operand : Word) : waitOr s kind operand = waiting s kind operand := by
  unfold FirstIssue at h
  simp only [waitOr, h]
  rfl

/-- Setting a field of the current activation past an instruction. -/
theorem act_after_setAct {s : State} (h : Solo s) (n : Nat) (a : Act) :
    act (after n (setAct s a)) = { a with pc := a.pc + BitVec.ofNat 64 n, wait := none } := by
  rw [after_setAct h, act_setAct h.1]

/-- A change of a context on a core leaves the activations alone. -/
theorem actAt_modCtx (s : State) (c x : Nat) (f : CtxCore → CtxCore) (d : Cur) : actAt (modCtx s c x f) d = actAt s d :=
  actAt_modCore s c (f := fun k => { k with ctxs := tset k.ctxs x (f (ctxOf s c x)) }) (fun _ => rfl) (fun _ => rfl) d

theorem ctxAt_modCtx (s : State) (c x : Nat) (f : CtxCore → CtxCore) (d : Cur) : ctxAt (modCtx s c x f) d = ctxAt s d :=
  ctxAt_modCore s c (f := fun k => { k with ctxs := tset k.ctxs x (f (ctxOf s c x)) }) (fun _ => rfl) d

/-- An instruction that leaves the activation to its completion moves pc past itself. -/
theorem act_after {s t : State} (h : Solo s) (n : Nat) (hact : actAt t t.cur = actAt s s.cur) :
    act (after n t) = { act s with pc := (act s).pc + BitVec.ofNat 64 n, wait := none } := by
  have hsome : (actAt t t.cur).isSome = true := hact ▸ h.1
  have hs : act t = act s := by simp only [act, hact]
  rw [after, modAct, act_setAct hsome, hs]

/-- A packet that an instruction has sent is on the network. -/
theorem tget_sendPkt (s : State) (src dst : Node) (ctx scope mprio : Nat) (pl : Payload) :
    tget (sendPkt s src dst ctx scope mprio pl).net s.ids = some (mkPacket src dst ctx scope 0 mprio pl) := tget_tset_self ..

theorem after_net (n : Nat) (s : State) : (after n s).net = s.net := modAct_net s _

section Queues
variable {s : State} {a b : SReg} {w : Word} {r : List Word}

theorem exec_qpop (h : Solo s) (q : BitVec 2) : exec (.qpop a q) s = .next (finish (baseGate (.qpop a q)) (popBody true a q s)) := issue_base h _ _

theorem exec_qpeek (h : Solo s) (q : BitVec 2) : exec (.qpeek a q) s = .next (finish (baseGate (.qpeek a q)) (popBody false a q s)) :=
  issue_base h _ _

theorem exec_qpush (h : Solo s) (q : BitVec 2) : exec (.qpush q b) s = .next (finish (baseGate (.qpush q b)) (pushBody q b s)) := issue_base h _ _

theorem exec_qlen (h : Solo s) (q : BitVec 2) : exec (.qlen a q) s = .next (after 4 (wS s a (BitVec.ofNat 64 (queueLen s q)))) :=
  issue_base h _ _

/-! ### QPOP and QPEEK -/

theorem popBody_qin (h : (act s).qin = w :: r) (take : Bool) :
    popBody take a 0 s = .ok (wS (if take then setAct s { act s with qin := r } else s) a w) := by
  simp [popBody, h, modAct]

theorem popBody_qin_empty (h : (act s).qin = []) (take : Bool) : popBody take a 0 s = .trap s .deadwait 0 := by
  simp [popBody, h]

theorem popBody_q3 (h : (ctxNow s).q3 = w :: r) (take : Bool) :
    popBody take a 3 s = .ok (wS (if take then modCtx s (home s) (ctxId s) (fun x => { x with q3 := r }) else s) a w) := by
  have hpop : popQ3 s = modCtx s (home s) (ctxId s) (fun x => { x with q3 := r }) := by
    have hq : (ctxOf s (home s) (ctxId s)).q3 = w :: r := h
    simp only [popQ3, modCtx, hq, List.tail_cons]
  simp [popBody, h, hpop]

theorem popBody_q3_empty (h : (ctxNow s).q3 = []) (hf : FirstIssue s) (take : Bool) :
    popBody take a 3 s = .stall s (waiting s 1 3) := by
  simp [popBody, h, waitOr_first hf]

/-! ### QPUSH -/

theorem pushBody_qout (h : (act s).qout.length < 64) :
    pushBody 1 b s = .ok (setAct s { act s with qout := (act s).qout ++ [rS s b] }) := by
  simp [pushBody, modAct, Nat.not_le.2 h]

theorem pushBody_qout_full (h : 64 ≤ (act s).qout.length) : pushBody 1 b s = .trap s .deadwait 1 := by
  simp [pushBody, h]

theorem pushBody_q2 (h : q2Held s < 16) :
    pushBody 2 b s = .ok (sendPkt s (nodeOf s (home s)) (nodeOf s (nextCore (home s))) (ctxId s) 1 0 (.channel (rS s b))) := by
  simp [pushBody, Nat.not_le.2 h]

/-! ### QLEN and QDROP -/

theorem queueLen_eq (s : State) (q : BitVec 2) : queueLen s q =
    if q = 0 then (act s).qin.length else if q = 1 then (act s).qout.length else if q = 2 then q2Held s else (ctxNow s).q3.length := by
  obtain rfl | rfl | rfl | rfl : q = 0 ∨ q = 1 ∨ q = 2 ∨ q = 3 := by revert q; decide
  all_goals rfl

section Drop
variable (h : Solo s)
include h

theorem exec_qdrop_qin (hn : (rS s b).toNat ≤ (act s).qin.length) :
    exec (.qdrop 0 b) s = .next (after 4 (setAct s { act s with qin := (act s).qin.drop (rS s b).toNat })) := by
  show execQdrop 0 b s = _
  rw [execQdrop, issue_base h]
  by_cases hz : (rS s b).toNat = 0
  · simp only [hz, if_true, finish_ok, baseGate_len, List.drop_zero, after_setAct h]
    rfl
  · simp only [hz, if_false, if_true, Nat.not_lt.2 hn, finish_ok, baseGate_len]
    rfl

theorem exec_qdrop_qin_short (hn : (act s).qin.length < (rS s b).toNat) : exec (.qdrop 0 b) s = .next (trapped s .deadwait 0) := by
  show execQdrop 0 b s = _
  rw [execQdrop, issue_base h]
  simp only [show (rS s b).toNat ≠ 0 by omega, if_false, if_true, hn, finish_trap]

theorem exec_qdrop_qout : exec (.qdrop 1 b) s =
    .next (after 4 (setAct s { act s with qout := (act s).qout.take ((act s).qout.length - (rS s b).toNat) })) := by
  show execQdrop 1 b s = _
  rw [execQdrop, issue_base h]
  by_cases hz : (rS s b).toNat = 0
  · simp only [hz, if_true, finish_ok, baseGate_len, Nat.sub_zero, List.take_length, after_setAct h]
    rfl
  · rw [if_neg hz]
    rfl

/-- Words dropped from q3 leave the activation to its completion. -/
theorem exec_qdrop_q3 (hf : FirstIssue s) (hn : (rS s b).toNat ≤ (ctxNow s).q3.length) : ∃ t, exec (.qdrop 3 b) s = .next (after 4 t) ∧
    actAt t t.cur = actAt s s.cur ∧ (ctxNow t).q3 = (ctxNow s).q3.drop (rS s b).toNat := by
  have hexec : exec (.qdrop 3 b) s = execQdrop 3 b s := rfl
  rw [hexec, execQdrop, issue_base h]
  by_cases hz : (rS s b).toNat = 0
  · exact ⟨s, by simp only [hz, if_true, finish_ok, baseGate_len], rfl, by simp [hz]⟩
  · refine ⟨modCtx s (home s) (ctxId s) (fun x => { x with q3 := x.q3.drop (rS s b).toNat }), ?_, actAt_modCtx .., ?_⟩
    · have hstage : (waiting s 1 ((3 : BitVec 2).setWidth 64)).stage = 0 := rfl
      simp only [hz, if_false, waitOr_first hf, hstage, Nat.sub_zero, hn, if_true]
      rfl
    · have hid : ctxId (modCtx s (home s) (ctxId s) (fun x => { x with q3 := x.q3.drop (rS s b).toNat })) = ctxId s := ctxAt_modCtx ..
      rw [ctxNow, hid]
      exact congrArg CtxCore.q3 (ctxOf_modCtx_self ..)

end Drop

end Queues

end Sys2Proof.Machine

namespace Sys2Proof
open Machine

/-- Settles O18: the body of each instruction, queue by queue (`popBody_qin`, `pushBody_q2`, `exec_qdrop_q3`), then its completion. -/
theorem queueInstructions : Obligations.QueueInstructions := by
  intro s a b h
  refine ⟨fun w r hq => ⟨?_, ?_⟩, fun hq => ⟨?_, ?_⟩, fun w r hq => ⟨?_, ?_⟩, fun hf hq => ?_, fun hq => ?_, fun hq => ?_, fun hq => ?_,
    fun q => ?_, fun hn => ?_, fun hn => exec_qdrop_qin_short h hn, ?_, fun hf hn => ?_⟩
  · rw [exec_qpop h, popBody_qin hq]; rfl
  · rw [exec_qpeek h, popBody_qin hq]; rfl
  · rw [exec_qpop h, popBody_qin_empty hq]; rfl
  · rw [exec_qpeek h, popBody_qin_empty hq]; rfl
  · rw [exec_qpop h, popBody_q3 hq]; rfl
  · rw [exec_qpeek h, popBody_q3 hq]; rfl
  · rw [exec_qpop h, popBody_q3_empty hq hf]; rfl
  · rw [exec_qpush h, pushBody_qout hq]; rfl
  · rw [exec_qpush h, pushBody_qout_full hq]; rfl
  · rw [exec_qpush h, pushBody_q2 hq]
    have hact : actAt (sendPkt s (nodeOf s (home s)) (nodeOf s (nextCore (home s))) (ctxId s) 1 0 (.channel (rS s b))) s.cur =
        actAt s s.cur := actAt_congr rfl _
    exact ⟨_, rfl, congrArg Act.pc (act_after h 4 hact), _,
      (congrArg (fun net => tget net s.ids) (after_net 4 _)).trans (tget_sendPkt ..), rfl, rfl, rfl⟩
  · rw [exec_qlen h, queueLen_eq]
  · exact ⟨_, exec_qdrop_qin h hn, act_after_setAct h 4 _⟩
  · exact ⟨_, exec_qdrop_qout h, act_after_setAct h 4 _⟩
  · obtain ⟨t, hexec, hact, hq3⟩ := exec_qdrop_q3 h hf hn
    exact ⟨_, hexec, congrArg Act.pc (act_after h 4 hact), (congrArg CtxCore.q3 (ctxNow_setAct ..)).trans hq3⟩

end Sys2Proof
end

section
/-!
SUPPORT. Bytes stored piece by piece (R49, R148, R360): one store of the pieces' bytes, whose watchers are woken.
-/

namespace Sys2Proof.Machine

/-! ### Lists of blocks -/

/-- Item i of a list's blocks of one length. -/
theorem take_drop_flatMap_getElem {α β : Type} {f : α → List β} {w : Nat} (hf : ∀ x, (f x).length = w) :
    ∀ (l : List α) {i : Nat} (h : i < l.length), ((l.flatMap f).drop (w * i)).take w = f l[i]
  | x :: r, 0, _ => by simp [hf]
  | x :: r, i + 1, h => by
    have hdrop : ((x :: r).flatMap f).drop (w * (i + 1)) = (r.flatMap f).drop (w * i) := by
      rw [List.flatMap_cons, List.drop_append, List.drop_eq_nil_of_le (by rw [hf]; nlinarith), List.nil_append, hf,
        show w * (i + 1) - w = w * i by rw [Nat.mul_succ, Nat.add_sub_cancel]]
    rw [hdrop, take_drop_flatMap_getElem hf r (by simpa using h)]
    rfl

/-- The bytes of the value that bytes stand for. -/
theorem leBytes_leNat : ∀ bs : List Byte, leBytes bs.length (leNat bs) = bs
  | [] => rfl
  | b :: r => by
    have hb := b.isLt
    rw [List.length_cons, leBytes, leNat, show (b.toNat + 256 * leNat r) / 256 = leNat r by omega, leBytes_leNat r]
    congr 1
    apply BitVec.eq_of_toNat_eq
    rw [BitVec.toNat_ofNat]
    omega

theorem leBytes_readNat (s : State) (loc n : Nat) : leBytes n (readNat s loc n) = readBytes s loc n := by
  have h := leBytes_leNat (readBytes s loc n)
  rwa [show (readBytes s loc n).length = n by simp [readBytes]] at h

/-! ### Pieces -/

theorem writeBytes_append (s : State) (ctx loc : Nat) (bs cs : List Byte) :
    writeBytes s ctx loc (bs ++ cs) = writeBytes (writeBytes s ctx loc bs) ctx (loc + bs.length) cs := by
  induction bs generalizing s loc with
  | nil => rfl
  | cons b r ih => rw [List.cons_append, writeBytes, ih, writeBytes, List.length_cons, Nat.add_assoc, Nat.add_comm 1]

theorem writeBytes_withCores (s : State) (ks : Tab Core) (ctx loc : Nat) (bs : List Byte) :
    writeBytes { s with cores := ks } ctx loc bs = { writeBytes s ctx loc bs with cores := ks } := by
  induction bs generalizing s loc with
  | nil => rfl
  | cons b r ih => exact ih (writeByte s ctx loc b) (loc + 1)

/-- `t` is `s` once a home has stored bytes from a location up, in one piece or several: cores differ in their watch tables alone. -/
structure Stored (s t : State) (ctx loc : Nat) (bs : List Byte) : Prop where
  state : ∃ ks, t = { writeBytes s ctx loc bs with cores := ks }
  cores : ∀ c, { coreOf t c with watch := [] } = { coreOf s c with watch := [] }

theorem Stored.nil (s : State) (ctx loc : Nat) : Stored s s ctx loc [] := ⟨⟨s.cores, rfl⟩, fun _ => rfl⟩

theorem Stored.storeAt (s : State) (ctx loc : Nat) (bs : List Byte) : Stored s (Machine.storeAt s ctx loc bs) ctx loc bs :=
  ⟨storeAt_eq s ctx loc bs, storeAt_keeps s ctx loc bs (fun k => { k with watch := [] }) (fun _ _ => rfl)⟩

theorem Stored.append {s t u : State} {ctx loc : Nat} {bs cs : List Byte} (h : Stored s t ctx loc bs)
    (h' : Stored t u ctx (loc + bs.length) cs) : Stored s u ctx loc (bs ++ cs) := by
  obtain ⟨⟨ks, hk⟩, hc⟩ := h
  obtain ⟨⟨ls, hl⟩, hd⟩ := h'
  exact ⟨⟨ls, by rw [hl, hk, writeBytes_withCores, writeBytes_append]⟩, fun c => (hd c).trans (hc c)⟩

/-- Pieces of one length, stored one after another. -/
theorem Stored.foldl {α : Type} {f : State → α × Nat → State} {enc : α → List Byte} {w n ctx loc : Nat} (hw : ∀ x, (enc x).length = w)
    (hf : ∀ s x k, k < n → Stored s (f s (x, k)) ctx (loc + w * k) (enc x)) :
    ∀ (xs : List α) {k : Nat} (s : State), k + xs.length ≤ n → Stored s ((xs.zipIdx k).foldl f s) ctx (loc + w * k) (xs.flatMap enc)
  | [], _, s, _ => .nil ..
  | x :: r, k, s, h => by
    rw [List.length_cons] at h
    have hr := Stored.foldl hw hf r (k := k + 1) (f s (x, k)) (by omega)
    rw [Nat.mul_succ, ← Nat.add_assoc] at hr
    exact (hf s x k (by omega)).append (by rw [hw]; exact hr)

section Stored
variable {s t : State} {ctx loc : Nat} {bs : List Byte} (h : Stored s t ctx loc bs)
include h

theorem Stored.net : t.net = s.net := by obtain ⟨_, hk⟩ := h.state; simp [hk]
theorem Stored.ids : t.ids = s.ids := by obtain ⟨_, hk⟩ := h.state; simp [hk]
theorem Stored.module : t.module = s.module := by obtain ⟨_, hk⟩ := h.state; simp [hk]
theorem Stored.cyc : t.cyc = s.cyc := by obtain ⟨_, hk⟩ := h.state; simp [hk]
theorem Stored.ctxOf (c x : Nat) : Machine.ctxOf t c x = Machine.ctxOf s c x := by
  have hk := congrArg (fun k : Core => tgetD k.ctxs x CtxCore.init) (h.cores c)
  exact hk
theorem Stored.frameHere (c x : Nat) : Machine.frameHere t c x = Machine.frameHere s c x := by
  have hk := congrArg (fun k : Core => holdsSlot k x || k.saveb == 0) (h.cores c)
  exact hk

theorem Stored.readByte (l : Nat) : Machine.readByte t l = Machine.readByte (Machine.storeAt s ctx loc bs) l := by
  obtain ⟨_, hk⟩ := h.state
  rw [readByte_storeAt, hk]
  rfl

theorem Stored.readByte_out {l : Nat} (hl : l < loc ∨ loc + bs.length ≤ l) : Machine.readByte t l = Machine.readByte s l := by
  rw [h.readByte, readByte_storeAt, readByte_writeBytes_out _ _ _ hl]

theorem Stored.canonical (hw : MemoryCanonical s) : MemoryCanonical t := by
  obtain ⟨_, hk⟩ := h.state
  rw [hk]
  exact wf_writeBytes hw ctx loc bs

theorem Stored.readBytes_in (hw : MemoryCanonical s) {off n : Nat} (hn : off + n ≤ bs.length) :
    readBytes t (loc + off) n = (bs.drop off).take n := by
  rw [← readBytes_storeAt ctx loc hw hn]
  simp only [readBytes, h.readByte]

theorem Stored.readBytes (hw : MemoryCanonical s) : Machine.readBytes t loc bs.length = bs := by
  have hr := h.readBytes_in hw (off := 0) (n := bs.length) (by omega)
  rwa [List.drop_zero, List.take_length] at hr

end Stored

end Sys2Proof.Machine
end

section
/-!
SUPPORT. What arrives at a core's port (R97, R113, R153, R158-R161, R163, R164, R182-R184, R222): stores, flags, counts, loads, atomics,
channel words and drain writes.
-/

namespace Sys2Proof.Machine

/-! ### Where a context's bytes lie -/

theorem partOf_frameHere {s : State} {c x : Nat} (h : frameHere s c x = true) : partOf s c x = (ctxOf s c x).regs.part := by
  simp only [frameHere, Bool.or_eq_true, beq_iff_eq] at h
  simp only [partOf, Bool.or_eq_true, decide_eq_true_eq, h, if_true]

/-! ### The counts of a source (R160, R182) -/

theorem all_zero_getD {cs : List Nat} (h : cs.all (· == 0) = true) (i : Nat) : cs.getD i 0 = 0 := by
  by_cases hi : i < cs.length
  · rw [List.getD_eq_getElem _ _ hi]
    simpa using List.all_eq_true.1 h _ (List.getElem_mem hi)
  · rw [List.getD_eq_default _ _ (Nat.not_lt.1 hi)]

/-- The counts of a source are those last set, whether or not they leave it an entry. -/
theorem arrivalCounts_setArrivals (x : CtxCore) (src : Node) (cs : List Nat) (i : Nat) :
    (arrivalCounts (setArrivals x src cs) src).getD i 0 = cs.getD i 0 := by
  have hnone : (x.arrivals.filter (fun a => a.1 != src)).find? (fun a => a.1 == src) = none :=
    List.find?_eq_none.2 fun a ha => by simpa using (List.mem_filter.1 ha).2
  by_cases h : cs.all (· == 0) = true
  · have hz : arrivalCounts (setArrivals x src cs) src = [0, 0, 0, 0] := by
      simp only [arrivalCounts, setArrivals, h, if_true, hnone, Option.map_none, Option.getD_none]
    rw [hz, all_zero_getD h, all_zero_getD (cs := [0, 0, 0, 0]) rfl]
  · have hs : arrivalCounts (setArrivals x src cs) src = cs := by
      simp [arrivalCounts, setArrivals, h, hnone, List.find?_append]
    rw [hs]

theorem getD_map_range {f : Nat → Nat} {i n : Nat} (h : i < n) : ((List.range n).map f).getD i 0 = f i := by
  rw [List.getD_eq_getElem _ _ (by simpa using h), List.getElem_map, List.getElem_range]

theorem bumpPath_getD (cs : List Nat) (path : Nat) {i : Nat} (h : i < 4) :
    (bumpPath cs path).getD i 0 = cs.getD i 0 + if i = path then 1 else 0 := getD_map_range h

theorem countsReach_iff (have_ need : List Nat) : countsReach have_ need = true ↔ ∀ i < 4, need.getD i 0 ≤ have_.getD i 0 := by
  simp only [countsReach, List.all_eq_true, List.mem_range, decide_eq_true_eq]

/-! ### The trace ring (R183, R184) -/

section Trace
variable {s : State} {c x : Nat}

theorem traceReg_off (hf : frameHere s c x = true) (h : (ctxOf s c x).regs.trace.getLsbD 0 = false) : bit (traceReg s c x) 0 = false := by
  cases hx : featureFor s x 8
  · simp [traceReg, hx, bit]
  · rw [bit_eq_getLsbD]
    simpa [traceReg, hx, hf] using h

theorem traceLog_off {p : Packet} (hf : frameHere s c p.ctx = true) (h : (ctxOf s c p.ctx).regs.trace.getLsbD 0 = false)
    (size : Nat) (atomic ord : Bool) (path off : Nat) : traceLog s c p size atomic ord path off = s := by
  simp [traceLog, traceReg_off hf h]

theorem sizeCode_le (n : Nat) : sizeCode n ≤ 6 := by
  unfold sizeCode
  cases h : (List.range 7).find? (fun k => n ≤ 2 ^ k) with
  | none => simp
  | some k =>
    have := List.mem_range.1 (List.mem_of_find?_eq_some h)
    simp only [Option.getD_some]
    omega

/-- The place of a context's next record in its trace ring. -/
def recordPlace (s : State) (c x : Nat) : Nat :=
  scratchBase c (partOf s c x) + (ctxOf s c x).regs.trace.toNat / 2 ^ 12 % 256 * 4096 + 16 * ((ctxOf s c x).regs.traceptr.toNat % 256)

/-- The first word of a plain store's trace record. -/
def recordWord0 (s : State) (size path : Nat) : Nat := size * 2 ^ 52 + path % 4 * 2 ^ 48 + s.cyc % 2 ^ 48

/-- The second word of a trace record: its source and its offset. -/
def recordWord1 (p : Packet) (off : Nat) : Nat := (if p.src.host then 2 ^ 41 else 0) + p.src.addr % 2 ^ 21 * 2 ^ 20 + off % 2 ^ 20

/-- CR.TRACEPTR once it has counted a record. -/
def countedPtr (w : Word) : Word := BitVec.ofNat 64 (bits w 63 63 * 2 ^ 63 + (bits w 62 0 + 1) % 2 ^ 63)

theorem countedPtr_toNat (w : Word) : (countedPtr w).toNat % 2 ^ 63 = (w.toNat + 1) % 2 ^ 63 := by
  rw [countedPtr, bits_low, BitVec.toNat_ofNat]
  omega

/-- A plain store is logged in the ring of a context in its slots. -/
theorem traceLog_store {p : Packet} {size path off : Nat} (hx : featureFor s p.ctx 8 = true) (hf : frameHere s c p.ctx = true)
    (ht : (ctxOf s c p.ctx).regs.trace.getLsbD 0 = true)
    (hr : (ctxOf s c p.ctx).regs.trace.toNat / 2 ^ 12 % 256 * 4096 + 4096 ≤ scratchSize (partOf s c p.ctx)) :
    traceLog s c p size false false path off =
      modCtx (storeAt s p.ctx (recordPlace s c p.ctx) (leBytes 8 (recordWord0 s size path) ++ leBytes 8 (recordWord1 p off))) c p.ctx
        (fun k => { k with regs := { k.regs with traceptr := countedPtr (ctxOf s c p.ctx).regs.traceptr } }) := by
  have hreg : traceReg s c p.ctx = (ctxOf s c p.ctx).regs.trace := by simp [traceReg, hx, hf]
  have hptr : tracePtr s c p.ctx = (ctxOf s c p.ctx).regs.traceptr := by simp [tracePtr, hf]
  have hbits : bits (ctxOf s c p.ctx).regs.trace 19 12 = (ctxOf s c p.ctx).regs.trace.toNat / 2 ^ 12 % 256 := rfl
  have hplace : bits (ctxOf s c p.ctx).regs.traceptr 62 0 % 256 = (ctxOf s c p.ctx).regs.traceptr.toNat % 256 := by
    rw [bits_low, Nat.mod_mod_of_dvd _ (by norm_num)]
  have hhere := (Stored.storeAt s p.ctx (recordPlace s c p.ctx)
    (leBytes 8 (recordWord0 s size path) ++ leBytes 8 (recordWord1 p off))).frameHere c p.ctx
  rw [hf] at hhere
  simp only [recordPlace, recordWord0, recordWord1] at hhere ⊢
  simp only [traceLog, hreg, hptr, bit_eq_getLsbD, ht, hbits, hplace, Nat.not_lt.2 hr, setTracePtr, hhere, if_true, if_false, Bool.not_true,
    Bool.false_and, Bool.or_self, Bool.false_eq_true, Nat.add_zero]
  rfl

/-- What a home's store leaves of the place of the next record. -/
theorem Stored.recordPlace {t : State} {ctx loc : Nat} {bs : List Byte} (h : Stored s t ctx loc bs) (hf : Machine.frameHere s c x = true) :
    Machine.recordPlace t c x = Machine.recordPlace s c x := by
  rw [Machine.recordPlace, Machine.recordPlace, partOf_frameHere hf, partOf_frameHere ((h.frameHere c x).trans hf), h.ctxOf]

end Trace

theorem featureFor_congr {s t : State} (h : t.module = s.module) (x b : Nat) : featureFor t x b = featureFor s x b := by
  unfold featureFor featureOn
  rw [h]

/-- Two words that a home has stored read back. -/
theorem readNat_storeAt_pair {s : State} (hw : MemoryCanonical s) (ctx loc v w : Nat) :
    readNat (storeAt s ctx loc (leBytes 8 v ++ leBytes 8 w)) loc 8 = v % 2 ^ 64 ∧
    readNat (storeAt s ctx loc (leBytes 8 v ++ leBytes 8 w)) (loc + 8) 8 = w % 2 ^ 64 := by
  have hlow := readBytes_storeAt ctx loc hw (bs := leBytes 8 v ++ leBytes 8 w) (off := 0) (n := 8) (by simp)
  have hhigh := readBytes_storeAt ctx loc hw (bs := leBytes 8 v ++ leBytes 8 w) (off := 8) (n := 8) (by simp)
  rw [List.drop_zero, List.take_left' (length_leBytes 8 v), Nat.add_zero] at hlow
  rw [List.drop_left' (length_leBytes 8 v), List.take_of_length_le (by simp)] at hhigh
  rw [readNat, readNat, hlow, hhigh, leNat_leBytes, leNat_leBytes]
  exact ⟨rfl, rfl⟩

theorem recordWord0_lt (s : State) (n path : Nat) : recordWord0 s (sizeCode n) path < 2 ^ 64 := by
  have hs := sizeCode_le n
  rw [recordWord0]
  omega

theorem recordWord1_lt (p : Packet) (off : Nat) : recordWord1 p off < 2 ^ 64 := by
  rw [recordWord1]
  split <;> omega

/-! ### Stores and flags at a port (R153, R158-R161, R182) -/

theorem portStore_stored {s : State} {c x off : Nat} {bs : List Byte} (h : off + bs.length ≤ scratchSize (partOf s c x)) :
    Stored s (portStore s c x off bs []) x (scratchBase c (partOf s c x) + off) bs := by
  have hf := Stored.foldl (f := fun t b => if ([] : List Nat).contains b.2 || scratchSize (partOf s c x) ≤ off + b.2 then t
      else storeAt t x (scratchBase c (partOf s c x) + off + b.2) [b.1]) (enc := fun b => [b]) (w := 1) (n := bs.length) (ctx := x)
    (loc := scratchBase c (partOf s c x) + off) (fun _ => rfl) (fun t b k hk => by
      simp only [List.contains_nil, Bool.false_or, decide_eq_true_eq, Nat.one_mul, if_neg (show ¬scratchSize (partOf s c x) ≤ off + k by omega)]
      exact .storeAt ..) bs (k := 0) s (by omega)
  rwa [Nat.mul_zero, Nat.add_zero, List.flatMap_singleton'] at hf

theorem nodeOf_congr {s t : State} (h : t.module = s.module) (c : Nat) : nodeOf t c = nodeOf s c := by
  unfold nodeOf moduleNumber featureOn
  rw [h]

theorem tget_sendPkt_of_ids {s t : State} (h : t.ids = s.ids) (src dst : Node) (ctx scope mprio : Nat) (pl : Payload) :
    tget (sendPkt t src dst ctx scope mprio pl).net s.ids = some (mkPacket src dst ctx scope 0 mprio pl) := by
  rw [← h]
  exact tget_sendPkt ..

/-- A home's acknowledgement is on its way to the source of what it acknowledges. -/
theorem sendAck_acks {s v : State} (hids : v.ids = s.ids) (hm : v.module = s.module) (c : Nat) (p : Packet) (agent : AgentId) (off : Nat) :
    ∃ q, tget (sendAck v c p agent off).net s.ids = some q ∧ q.payload = .ack agent off p.path ∧ q.dst = p.src ∧ q.src = nodeOf s c ∧
      q.ctx = p.ctx := by
  refine ⟨mkPacket (nodeOf s c) p.src p.ctx 4 0 0 (.ack agent off p.path), ?_, rfl, rfl, rfl, rfl⟩
  rw [sendAck, nodeOf_congr hm]
  exact tget_sendPkt_of_ids hids ..

/-- A remote store has been counted by its source and path. -/
def countedStore (s : State) (c : Nat) (p : Packet) : State :=
  modCtx s c p.ctx (fun x => setArrivals x p.src (bumpPath (arrivalCounts x p.src) p.path))

/-- The context at the port once a store has been counted, and acknowledged. -/
theorem ctxOf_countedStore (v : State) (c : Nat) (p : Packet) (agent : AgentId) (off : Nat) :
    ctxOf (sendAck (countedStore v c p) c p agent off) c p.ctx =
      setArrivals (ctxOf v c p.ctx) p.src (bumpPath (arrivalCounts (ctxOf v c p.ctx) p.src) p.path) :=
  ctxOf_modCtx_self v c p.ctx (fun x => setArrivals x p.src (bumpPath (arrivalCounts x p.src) p.path))

/-- A flag has taken off the counts that it carries. -/
def countedFlag (s : State) (c : Nat) (p : Packet) (cs : List Nat) : State :=
  modCtx s c p.ctx (fun x =>
    setArrivals x p.src ((List.range 4).map (fun i => (arrivalCounts x p.src).getD i 0 - cs.getD i 0)))

theorem frameHere_modCtx (s : State) (c x : Nat) (f : CtxCore → CtxCore) (y : Nat) : frameHere (modCtx s c x f) c y = frameHere s c y := by
  rw [frameHere, coreOf_modCtx_self]
  rfl

section Counted
variable {s : State} {c : Nat} {p : Packet} (cs : List Nat)

theorem ctxOf_countedFlag : ctxOf (countedFlag s c p cs) c p.ctx = setArrivals (ctxOf s c p.ctx) p.src
    ((List.range 4).map (fun i => (arrivalCounts (ctxOf s c p.ctx) p.src).getD i 0 - cs.getD i 0)) :=
  ctxOf_modCtx_self s c p.ctx (fun x =>
    setArrivals x p.src ((List.range 4).map (fun i => (arrivalCounts x p.src).getD i 0 - cs.getD i 0)))

theorem partOf_countedFlag (hf : frameHere s c p.ctx = true) : partOf (countedFlag s c p cs) c p.ctx = partOf s c p.ctx := by
  have hhere : frameHere (countedFlag s c p cs) c p.ctx = true := (frameHere_modCtx ..).trans hf
  rw [partOf_frameHere hf, partOf_frameHere hhere, ctxOf_countedFlag]
  rfl

end Counted

section Port
variable {s : State} {n c : Nat} {p : Packet} (ha : arrivedAt s n = some (p, c))
include ha

theorem tget_of_arrivedAt : tget s.net n = some p := by
  unfold arrivedAt at ha
  split at ha
  · cases ha
  · rename_i q hq
    split at ha
    · cases ha
    · split at ha
      · cases ha; exact hq
      · cases ha

section Store
variable {off : Nat} {bs : List Byte} {holes : List Nat} {agent : AgentId} (hpl : p.payload = .store off bs holes agent) (happ : isApp c = false)
include hpl happ

theorem remoteStoreArrival_full (hb : behindFlag (ctxOf s c p.ctx).heldFlags p = false) (hfull : arrivalsFull (ctxOf s c p.ctx) p.src = true) :
    remoteStoreArrival s n = movePkt s n p (.refused s.cyc) := by
  simp [remoteStoreArrival, ha, hpl, happ, hb, hfull]

/-- A store that nothing holds is performed, logged, counted and acknowledged; no held flag waits for it. -/
theorem remoteStoreArrival_performed {v : State} (hfull : arrivalsFull (ctxOf s c p.ctx) p.src = false) (hh : (ctxOf s c p.ctx).heldFlags = [])
    (hv : traceLog (portStore (takePkt s n) c p.ctx off bs holes) c p (sizeCode bs.length) false false p.path off = v)
    (hvh : (ctxOf v c p.ctx).heldFlags = []) : remoteStoreArrival s n = sendAck (countedStore v c p) c p agent off := by
  have hheld : (ctxOf (sendAck (countedStore v c p) c p agent off) c p.ctx).heldFlags = [] := by rw [ctxOf_countedStore]; exact hvh
  have hb : behindFlag [] p = false := rfl
  unfold countedStore at hheld ⊢
  simp only [remoteStoreArrival, ha, hpl, happ, hh, hb, hfull, hv, hheld, Bool.or_self, Bool.false_eq_true, if_false]
  rfl

end Store

/-- A plain store that is logged: two words at the place of the next record. -/
theorem remoteStoreArrival_logged {off : Nat} {bs : List Byte} {agent : AgentId} (hpl : p.payload = .store off bs [] agent)
    (happ : isApp c = false) (hfull : arrivalsFull (ctxOf s c p.ctx) p.src = false) (hh : (ctxOf s c p.ctx).heldFlags = [])
    (hw : MemoryCanonical s) (hf : frameHere s c p.ctx = true) (hfit : off + bs.length ≤ scratchSize (partOf s c p.ctx))
    (hx : featureFor s p.ctx 8 = true) (htr : (ctxOf s c p.ctx).regs.trace.getLsbD 0 = true)
    (hring : (ctxOf s c p.ctx).regs.trace.toNat / 2 ^ 12 % 256 * 4096 + 4096 ≤ scratchSize (partOf s c p.ctx)) :
    ∃ v, remoteStoreArrival s n = sendAck (countedStore v c p) c p agent off ∧ v.ids = s.ids ∧ v.module = s.module ∧
      readNat v (recordPlace s c p.ctx) 8 = recordWord0 s (sizeCode bs.length) p.path ∧
      readNat v (recordPlace s c p.ctx + 8) 8 = recordWord1 p off ∧
      (ctxOf v c p.ctx).regs.traceptr = countedPtr (ctxOf s c p.ctx).regs.traceptr := by
  have hst := portStore_stored (s := takePkt s n) (c := c) (x := p.ctx) hfit
  generalize hu : portStore (takePkt s n) c p.ctx off bs [] = u at hst
  have hctx : ctxOf u c p.ctx = ctxOf s c p.ctx := hst.ctxOf c p.ctx
  have hhere : frameHere u c p.ctx = true := (hst.frameHere c p.ctx).trans hf
  have hplace : recordPlace u c p.ctx = recordPlace s c p.ctx := hst.recordPlace hf
  have hword : recordWord0 u (sizeCode bs.length) p.path = recordWord0 s (sizeCode bs.length) p.path := by
    rw [recordWord0, hst.cyc]
    rfl
  have hlog := traceLog_store (p := p) (size := sizeCode bs.length) (path := p.path) (off := off)
    ((featureFor_congr hst.module p.ctx 8).trans hx) hhere (by rw [hctx]; exact htr)
    (by rw [partOf_frameHere hhere, hctx]; rw [partOf_frameHere hf] at hring; exact hring)
  rw [hplace, hword, hctx] at hlog
  have hlog' := (congrArg (fun t => traceLog t c p (sizeCode bs.length) false false p.path off) hu).trans hlog
  obtain ⟨hlow, hhigh⟩ := readNat_storeAt_pair (hst.canonical hw) p.ctx (recordPlace s c p.ctx)
    (recordWord0 s (sizeCode bs.length) p.path) (recordWord1 p off)
  rw [Nat.mod_eq_of_lt (recordWord0_lt ..)] at hlow
  rw [Nat.mod_eq_of_lt (recordWord1_lt ..)] at hhigh
  have hlogged := Stored.storeAt u p.ctx (recordPlace s c p.ctx)
    (leBytes 8 (recordWord0 s (sizeCode bs.length) p.path) ++ leBytes 8 (recordWord1 p off))
  refine ⟨_, remoteStoreArrival_performed ha hpl happ hfull hh hlog' ?_, hlogged.ids.trans hst.ids, hlogged.module.trans hst.module, hlow, hhigh, ?_⟩
  · rw [ctxOf_modCtx_self, hlogged.ctxOf, hctx]
    exact hh
  · rw [ctxOf_modCtx_self]

section Flag
variable {off : Nat} {bs : List Byte} {cs : List Nat} {agent : AgentId} (hpl : p.payload = .flag off bs cs agent) (happ : isApp c = false)
  (hfull : arrivalsFull (ctxOf s c p.ctx) p.src = false)
include hpl happ hfull

theorem orderedFlagArrival_held (hcs : ∃ i < 4, (arrivalCounts (ctxOf s c p.ctx) p.src).getD i 0 < cs.getD i 0) :
    orderedFlagArrival s n = modCtx (takePkt s n) c p.ctx (fun k => { k with heldFlags := k.heldFlags ++ [⟨p⟩] }) := by
  have hr : countsReach (arrivalCounts (ctxOf s c p.ctx) p.src) cs = false := by
    rw [Bool.eq_false_iff, Ne, countsReach_iff]
    obtain ⟨i, hi, hlt⟩ := hcs
    exact fun hall => absurd (hall i hi) (Nat.not_le.2 hlt)
  simp [orderedFlagArrival, ha, hpl, happ, hfull, carried, hr]

/-- A flag whose counts have been reached is performed, logged and acknowledged; no other is held. -/
theorem orderedFlagArrival_performed {v : State} (hh : (ctxOf s c p.ctx).heldFlags = []) (hcs : ∀ i < 4, cs.getD i 0 ≤ (arrivalCounts (ctxOf s c p.ctx) p.src).getD i 0)
    (hv : traceLog (portStore (countedFlag (takePkt s n) c p cs) c p.ctx off bs []) c p (sizeCode bs.length) false true p.path off = v)
    (hvh : (ctxOf v c p.ctx).heldFlags = []) : orderedFlagArrival s n = sendAck v c p agent off := by
  have hr := (countsReach_iff (arrivalCounts (ctxOf s c p.ctx) p.src) cs).2 hcs
  have hheld : (ctxOf (sendAck v c p agent off) c p.ctx).heldFlags = [] := hvh
  have hperf : performFlag (takePkt s n) c p cs = sendAck v c p agent off := by
    unfold countedFlag at hv
    simp only [performFlag, hpl, hv]
  have hb : behindFlag [] p = false := rfl
  simp only [orderedFlagArrival, ha, hpl, happ, hfull, carried, hr, hh, hb, hperf, hheld, Bool.not_true, Bool.not_false, Bool.or_self,
    Bool.and_self, Bool.false_eq_true, if_false, if_true]
  rfl

end Flag

/-! ### Loads and atomics at a port (R113, R150, R164) -/

section Load
variable {off size tag : Nat} {agent : AgentId} (hpl : p.payload = .loadReq off size tag agent) (hreq : tget s.reqs n = none)
include hpl hreq

theorem loadReq_behind (hb : behindFlag (ctxOf s c p.ctx).heldFlags p = true) : memoryAccessPerform s (.request n) = s := by
  simp [memoryAccessPerform, hreq, performPkt, tget_of_arrivedAt ha, hpl, ha, hb]

theorem loadReq_answered (hb : behindFlag (ctxOf s c p.ctx).heldFlags p = false)
    (hp : poisonedIn s (scratchBase c (partOf s c p.ctx) + off) size = none) : memoryAccessPerform s (.request n) =
      sendPkt (takePkt s n) (nodeOf s c) p.src p.ctx 4 0
        (.reply 3 none tag (readBytes s (scratchBase c (partOf s c p.ctx) + off) size) agent) := by
  simp [memoryAccessPerform, hreq, performPkt, tget_of_arrivedAt ha, hpl, ha, hb, hp]

/-- A lost line is answered as unbacked to a context that does not own it, and to context 0 (log 16). -/
theorem loadReq_lost {l : Nat} (hb : behindFlag (ctxOf s c p.ctx).heldFlags p = false)
    (hp : poisonedIn s (scratchBase c (partOf s c p.ctx) + off) size = some l) (ho : ownerOf s l ≠ p.ctx ∨ p.ctx = 0) :
    memoryAccessPerform s (.request n) = sendPkt (takePkt s n) (nodeOf s c) p.src p.ctx 4 0 (.unbacked 3 none tag agent) := by
  have hkeep : lostLine (takePkt s n) p.ctx l = takePkt s n := if_neg (fun h => ho.elim (fun ho => ho h.1) h.2)
  simp [memoryAccessPerform, hreq, performPkt, tget_of_arrivedAt ha, hpl, ha, hb, hp, hkeep]

end Load

/-- An atomic addition at a port is one store of the sum, answered with what was there. -/
theorem atomicPerform_add {off tag : Nat} {b e : Word} {agent : AgentId} (hpl : p.payload = .atomic off .add true b e tag agent)
    (hreq : tget s.reqs n = none) (ht : (ctxOf s c p.ctx).regs.trace.getLsbD 0 = false)
    (hb : behindFlag (ctxOf s c p.ctx).heldFlags p = false) (hf : frameHere s c p.ctx = true)
    (hp : poisonedIn s (scratchBase c (partOf s c p.ctx) + off) 8 = none) :
    let loc := scratchBase c (partOf s c p.ctx) + off
    atomicPerform s n = sendPkt (storeAt (takePkt s n) p.ctx loc (leBytes 8 ((readNat s loc 8 % 2 ^ 64 + b.toNat) % 2 ^ 64)))
      (nodeOf s c) p.src p.ctx 4 0 (.reply 8 none tag (readBytes s loc 8) agent) := by
  intro loc
  have hs := Stored.storeAt (takePkt s n) p.ctx loc (leBytes 8 ((readNat s loc 8 % 2 ^ 64 + b.toNat) % 2 ^ 64))
  have hlog := traceLog_off (p := p) ((hs.frameHere c p.ctx).trans hf) ((congrArg (fun x => x.regs.trace.getLsbD 0) (hs.ctxOf c p.ctx)).trans ht)
    (sizeCode 8) true false p.path off
  have hat : atomAt (takePkt s n) p.ctx loc .add true b e =
      (storeAt (takePkt s n) p.ctx loc (leBytes 8 ((readNat s loc 8 % 2 ^ 64 + b.toNat) % 2 ^ 64)), readNat s loc 8) := by
    simp only [atomAt, atomNew, if_true, Nat.mod_eq_of_lt b.isLt]
    rfl
  have hnode : nodeOf (storeAt (takePkt s n) p.ctx loc (leBytes 8 ((readNat s loc 8 % 2 ^ 64 + b.toNat) % 2 ^ 64))) c = nodeOf s c :=
    nodeOf_congr (storeAt_module ..) c
  simp only [loc] at hlog hat hnode
  simp only [atomicPerform, hreq, tget_of_arrivedAt ha, hpl, atomicPerform.coreAtomic, ha, hb, hp, hat, hlog, hnode, leBytes_readNat, if_true,
    Bool.false_eq_true, if_false]
  rfl

/-! ### Channel words and drains (R97, R105, R222) -/

theorem channelWordArrival_room {w : Word} (hpl : p.payload = .channel w) (h : (ctxOf s c p.ctx).q3.length < 16) :
    channelWordArrival s n = modCtx (takePkt s n) c p.ctx (fun k => { k with q3 := k.q3 ++ [w] }) := by
  simp [channelWordArrival, ha, hpl, Nat.not_le.2 h]

theorem channelWordArrival_full {w : Word} (hpl : p.payload = .channel w) (h : 16 ≤ (ctxOf s c p.ctx).q3.length) :
    channelWordArrival s n = s := by
  simp [channelWordArrival, ha, hpl, h]

/-- The entries of a drain write are stored in their order. -/
theorem drainWriteArrival_stored {first rows : Nat} {es : List A48} (hpl : p.payload = .drain first rows es)
    (h : first + es.length ≤ drainEntries (partOf s c p.ctx)) :
    Stored (takePkt s n) (drainWriteArrival s n) p.ctx (accBase c (partOf s c p.ctx) + 6 * first) (es.flatMap (fun e => leBytes 6 e.toNat)) := by
  have hf := Stored.foldl (f := fun t e => if drainEntries (partOf s c p.ctx) ≤ first + e.2 then t
      else storeAt t p.ctx (accBase c (partOf s c p.ctx) + 6 * (first + e.2)) (leBytes 6 e.1.toNat)) (enc := fun e : A48 => leBytes 6 e.toNat)
    (w := 6) (n := es.length) (ctx := p.ctx) (loc := accBase c (partOf s c p.ctx) + 6 * first) (fun _ => length_leBytes ..) (fun t e k hk => by
      simp only [if_neg (show ¬drainEntries (partOf s c p.ctx) ≤ first + k by omega), Nat.mul_add, ← Nat.add_assoc]
      exact .storeAt ..) es (k := 0) (takePkt s n) (by omega)
  simp only [drainWriteArrival, ha, hpl]
  exact hf

end Port

/-! ### Counts of an idle entry (R161) -/

theorem countPacketSend_early {s : State} {d i : Nat} {e : SendEntry} (he : (coreOf s d).sendTab[i]? = some e) (h : s.cyc - e.used < 4096) :
    countPacketSend s d i = s := by
  simp [countPacketSend, he, h]

theorem countPacketSend_idle {s : State} {d i : Nat} {e : SendEntry} (he : (coreOf s d).sendTab[i]? = some e) (h : 4096 ≤ s.cyc - e.used) :
    countPacketSend s d i = modCore (sendCount s d e ⟨d, e.ctx, 0⟩) d (fun k => { k with sendTab := removeFirst (· == e) k.sendTab }) := by
  simp [countPacketSend, he, Nat.not_lt.2 h]

end Sys2Proof.Machine

namespace Sys2Proof
open Machine

/-- Settles O44: what is stored at a port is one `Stored`, logged or not (`traceLog_off`, `traceLog_store`), then counted and acknowledged
(`remoteStoreArrival_performed`, `orderedFlagArrival_performed`); loads, atomics, words and drains by the lemma of that outcome. -/
theorem portEvents : Obligations.PortEvents := by
  intro s n c p ha
  refine ⟨fun off bs agent hpl hready hfit => ⟨fun htr => ?_, fun hx htr hring => ?_⟩, fun off bs holes agent hpl happ hb hfull => ?_,
    fun off bs cs agent hpl hready hfit => ⟨fun hcs => ?_, fun hcs htr => ?_⟩, fun d i e he => ⟨fun h => ?_, fun h => ?_⟩,
    fun off size tag agent hpl hreq => ⟨fun hb => ?_, fun hb hp => ?_, fun l hb hp ho => ?_⟩,
    fun off b e tag agent hpl hreq htr hb hp hf hw => ?_, fun w hpl => ⟨fun h => ?_, fun h => ?_⟩, fun first rows es hpl h hw => ?_⟩
  · obtain ⟨happ, hfull, hh, hw, hf⟩ := hready
    have hst := portStore_stored (s := takePkt s n) (c := c) (x := p.ctx) hfit
    have hlog := traceLog_off (p := p) ((hst.frameHere c p.ctx).trans hf)
      ((congrArg (fun x => x.regs.trace.getLsbD 0) (hst.ctxOf c p.ctx)).trans htr) (sizeCode bs.length) false false p.path off
    refine ⟨_, congrArg Host.Outcome.next (remoteStoreArrival_performed ha hpl happ hfull hh hlog ((congrArg CtxCore.heldFlags (hst.ctxOf c p.ctx)).trans hh)),
      ⟨hst.readBytes hw, fun l hl => hst.readByte_out hl⟩, sendAck_acks hst.ids hst.module c p agent off, fun i hi => ?_⟩
    rw [ctxOf_countedStore, arrivalCounts_setArrivals, bumpPath_getD _ _ hi, hst.ctxOf]
    rfl
  · obtain ⟨happ, hfull, hh, hw, hf⟩ := hready
    obtain ⟨v, hv, hids, hm, hlow, hhigh, hptr⟩ := remoteStoreArrival_logged ha hpl happ hfull hh hw hf hfit hx htr hring
    refine ⟨_, congrArg Host.Outcome.next hv, sendAck_acks hids hm c p agent off, hlow, hhigh, ?_⟩
    rw [ctxOf_countedStore]
    exact (congrArg (fun w => w.toNat % 2 ^ 63) hptr).trans (countedPtr_toNat _)
  · exact congrArg Host.Outcome.next (remoteStoreArrival_full ha hpl happ hb hfull)
  · obtain ⟨happ, hfull, hh, hw, hf⟩ := hready
    exact congrArg Host.Outcome.next (orderedFlagArrival_held ha hpl happ hfull hcs)
  · obtain ⟨happ, hfull, hh, hw, hf⟩ := hready
    have hpart : partOf (countedFlag (takePkt s n) c p cs) c p.ctx = partOf s c p.ctx := partOf_countedFlag (s := takePkt s n) cs hf
    have hst := portStore_stored (s := countedFlag (takePkt s n) c p cs) (c := c) (x := p.ctx) (off := off) (bs := bs) (by rwa [hpart])
    have hctx := (hst.ctxOf c p.ctx).trans (ctxOf_countedFlag cs)
    rw [hpart] at hst
    have hlog := traceLog_off (p := p) ((hst.frameHere c p.ctx).trans ((frameHere_modCtx ..).trans hf))
      ((congrArg (fun x => x.regs.trace.getLsbD 0) hctx).trans htr) (sizeCode bs.length) false true p.path off
    refine ⟨_, congrArg Host.Outcome.next (orderedFlagArrival_performed ha hpl happ hfull hh hcs hlog ?_),
      ⟨hst.readBytes hw, fun l hl => hst.readByte_out hl⟩, sendAck_acks hst.ids hst.module c p agent off, fun i hi => ?_⟩
    · rw [hctx]
      exact hh
    · refine (congrArg (fun x => (arrivalCounts x p.src).getD i 0) hctx).trans ?_
      rw [arrivalCounts_setArrivals, getD_map_range hi]
      rfl
  · exact congrArg Host.Outcome.next (countPacketSend_early he h)
  · exact ⟨_, _, congrArg Host.Outcome.next (countPacketSend_idle he h), tget_sendPkt .., rfl, rfl, rfl, rfl, congrArg Core.sendTab (coreOf_modCore_self ..)⟩
  · exact congrArg Host.Outcome.next (loadReq_behind ha hpl hreq hb)
  · exact ⟨_, _, congrArg Host.Outcome.next (loadReq_answered ha hpl hreq hb hp), tget_sendPkt .., rfl, rfl⟩
  · exact ⟨_, _, congrArg Host.Outcome.next (loadReq_lost ha hpl hreq hb hp ho), tget_sendPkt .., rfl, rfl⟩
  · have hs := Stored.storeAt (takePkt s n) p.ctx (scratchBase c (partOf s c p.ctx) + off)
      (leBytes 8 ((readNat s (scratchBase c (partOf s c p.ctx) + off) 8 % 2 ^ 64 + b.toNat) % 2 ^ 64))
    have hread := hs.readBytes hw
    rw [length_leBytes] at hread
    refine ⟨_, _, congrArg Host.Outcome.next (atomicPerform_add ha hpl hreq htr hb hf hp), tget_sendPkt_of_ids hs.ids .., rfl, rfl, ?_⟩
    refine (congrArg leNat hread).trans ?_
    rw [leNat_leBytes]
    omega
  · exact congrArg Host.Outcome.next (channelWordArrival_room ha hpl h)
  · exact congrArg Host.Outcome.next (channelWordArrival_full ha hpl h)
  · have hst := drainWriteArrival_stored ha hpl h
    have hlen : (es.flatMap (fun e => leBytes 6 e.toNat)).length = 6 * es.length := by simp [List.length_flatMap, Nat.mul_comm]
    refine ⟨_, rfl, fun i hi => ?_, fun l hl => hst.readByte_out (by rw [hlen]; omega)⟩
    have hread := hst.readBytes_in hw (off := 6 * i) (n := 6) (by rw [hlen]; omega)
    rw [take_drop_flatMap_getElem (fun _ => length_leBytes ..) es hi] at hread
    rw [Nat.mul_add, ← Nat.add_assoc]
    refine (congrArg leNat hread).trans ?_
    rw [leNat_leBytes]
    exact Nat.mod_eq_of_lt es[i].isLt

end Sys2Proof
end

section
/-!
SUPPORT. The bytes of a fibre record (R117), place by place.
-/

namespace Sys2Proof.Machine

/-! ### Bytes at a place -/

/-- Some bytes stand in a list of bytes from place `o` up. -/
def BytesAt (bs : List Byte) (o : Nat) (cs : List Byte) : Prop := cs <+: bs.drop o

section BytesAt
variable {bs cs ds r : List Byte} {o p n : Nat}

theorem BytesAt.before (h : BytesAt bs o cs) (r : List Byte) : BytesAt (bs ++ r) o cs := by
  rw [BytesAt, List.drop_append]
  exact h.trans (List.prefix_append ..)

theorem BytesAt.behind (h : BytesAt bs o cs) (hr : r.length = n) : BytesAt (r ++ bs) (n + o) cs := by
  rw [BytesAt, ← hr, List.drop_append, List.drop_eq_nil_of_le (by omega), Nat.add_sub_cancel_left, List.nil_append]
  exact h

theorem BytesAt.trans (h : BytesAt bs o cs) (h' : BytesAt cs p ds) : BytesAt bs (o + p) ds := by
  have hd := List.IsPrefix.drop h p
  rw [List.drop_drop] at hd
  exact List.IsPrefix.trans h' hd

theorem bytesAt_head (cs r : List Byte) : BytesAt (cs ++ r) 0 cs := List.prefix_append ..

theorem bytesAt_last (cs : List Byte) (hr : r.length = n) : BytesAt (r ++ cs) n cs := by
  rw [BytesAt, List.drop_left' hr]

/-- Item i of a list stands among its blocks of one length. -/
theorem bytesAt_item {α : Type} {f : α → List Byte} {w : Nat} (hf : ∀ x, (f x).length = w) (l : List α) {i : Nat} (h : i < l.length) :
    BytesAt (l.flatMap f) (w * i) (f l[i]) := by
  rw [BytesAt, ← take_drop_flatMap_getElem hf l h]
  exact List.take_prefix ..

/-- Bytes that a home has stored read back. -/
theorem BytesAt.readBytes_storeAt {s : State} (hw : MemoryCanonical s) (ctx loc : Nat) (h : BytesAt bs o cs) :
    readBytes (storeAt s ctx loc bs) (loc + o) cs.length = cs := by
  have hlen := h.length_le
  rw [List.length_drop] at hlen
  by_cases hc : cs.length = 0
  · rw [List.length_eq_zero_iff.1 hc]
    rfl
  · rw [Machine.readBytes_storeAt ctx loc hw (by omega)]
    exact (List.prefix_iff_eq_take.1 h).symm

end BytesAt

/-! ### The record -/

/-- Bytes, filled up with zero bytes to a length. -/
def filled (n : Nat) (bs : List Byte) : List Byte := bs ++ List.replicate (n - bs.length) 0

theorem filled_length {n : Nat} {bs : List Byte} (h : bs.length ≤ n) : (filled n bs).length = n := by
  simp [filled]
  omega

theorem bytesAt_filled (n : Nat) (bs : List Byte) : BytesAt (filled n bs) 0 bs := bytesAt_head ..

theorem bytesAt_fill {n k : Nat} {bs : List Byte} (h : bs.length = k) : BytesAt (filled n bs) k (List.replicate (n - k) 0) := by
  rw [filled, h]
  exact bytesAt_last _ h

/-- The bytes of some words. -/
def wordBytes (ws : List Word) : List Byte := ws.flatMap (fun w => leBytes 8 w.toNat)

theorem wordBytes_length (ws : List Word) : (wordBytes ws).length = 8 * ws.length := by simp [wordBytes, List.length_flatMap, Nat.mul_comm]

theorem bytesAt_wordBytes (ws : List Word) {i : Nat} (h : i < ws.length) : BytesAt (wordBytes ws) (8 * i) (leBytes 8 ws[i].toNat) :=
  bytesAt_item (f := fun w : Word => leBytes 8 w.toNat) (fun _ => length_leBytes ..) ws h

section Record
variable (a : Act) (hl : Nat) (c : Cause) (tval tstat : Word)

/-- The first words of a record: the link, the trap and the activation's control registers. -/
def recordFirst : List Word :=
  [0, a.pc, BitVec.ofNat 64 c.code, tval, tstat, a.cr.wid, a.cr.wshape, a.cr.msgsrc, a.cr.msglen, a.cr.fflags, a.cr.xfer]

/-- The words of a record before its registers. -/
def recordWords : List Word :=
  recordFirst a c tval tstat ++ [BitVec.ofNat 64 (a.qin.length * 2 ^ 16 + a.qout.length * 2 ^ 8), BitVec.ofNat 64 hl]

def recordScalars : List Byte := (List.finRange 32).flatMap (fun i => leBytes 8 (if i.val = 0 then 0 else a.s[i] : Word).toNat)

def recordPreds : List Byte := (List.range 8).flatMap (fun i => leBytes 2 (a.getP (BitVec.ofNat 3 i)).toNat)

def recordVectors : List Byte := a.v.toList.flatMap (fun x => x.toList.flatMap (fun l => leBytes 4 l.toNat))

theorem recordBytes_eq : recordBytes a hl c tval tstat =
    filled 0x80 (wordBytes (recordWords a hl c tval tstat)) ++ filled 0x100 (recordScalars a) ++ filled 0x40 (wordBytes a.e.toList) ++
    filled 0x40 (recordPreds a) ++ filled 0x800 (recordVectors a) ++ filled 0x200 (wordBytes a.qin) ++ filled 0x200 (wordBytes a.qout) ++
    List.replicate 0x200 0 := rfl

theorem recordWords_length : (recordWords a hl c tval tstat).length = 13 := rfl

theorem recordScalars_length : (recordScalars a).length = 0x100 := by simp [recordScalars, List.length_flatMap]

theorem recordPreds_length : (recordPreds a).length = 0x10 := by simp [recordPreds, List.length_flatMap]

theorem recordVectors_length : (recordVectors a).length = 0x800 := by simp [recordVectors, List.length_flatMap]

/-! ### Where the parts of a record stand -/

theorem record_head : BytesAt (recordBytes a hl c tval tstat) 0 (filled 0x80 (wordBytes (recordWords a hl c tval tstat))) := by
  rw [recordBytes_eq]
  exact ((((((bytesAt_head _ _).before _).before _).before _).before _).before _).before _

theorem record_scalars : BytesAt (recordBytes a hl c tval tstat) 0x80 (filled 0x100 (recordScalars a)) := by
  rw [recordBytes_eq]
  exact ((((((bytesAt_last _ (by simp [filled_length, wordBytes_length, recordWords_length])).before _).before _).before _).before
    _).before _).before _

theorem record_exts : BytesAt (recordBytes a hl c tval tstat) 0x180 (filled 0x40 (wordBytes a.e.toList)) := by
  rw [recordBytes_eq]
  exact (((((bytesAt_last _ (by simp [filled_length, wordBytes_length, recordWords_length, recordScalars_length])).before _).before
    _).before _).before _).before _

theorem record_preds : BytesAt (recordBytes a hl c tval tstat) 0x1C0 (filled 0x40 (recordPreds a)) := by
  rw [recordBytes_eq]
  exact ((((bytesAt_last _ (by simp [filled_length, wordBytes_length, recordWords_length, recordScalars_length])).before _).before _).before
    _).before _

/-- The bytes of a record before its vector registers. -/
theorem record_files_length : (filled 0x80 (wordBytes (recordWords a hl c tval tstat)) ++ filled 0x100 (recordScalars a) ++
    filled 0x40 (wordBytes a.e.toList) ++ filled 0x40 (recordPreds a)).length = 0x200 := by
  simp [filled_length, wordBytes_length, recordWords_length, recordScalars_length, recordPreds_length]

theorem record_vectors : BytesAt (recordBytes a hl c tval tstat) 0x200 (filled 0x800 (recordVectors a)) := by
  rw [recordBytes_eq]
  exact (((bytesAt_last _ (record_files_length a hl c tval tstat)).before _).before _).before _

theorem record_qin : BytesAt (recordBytes a hl c tval tstat) 0xA00 (filled 0x200 (wordBytes a.qin)) := by
  rw [recordBytes_eq]
  exact ((bytesAt_last _ (by rw [List.length_append, record_files_length, filled_length (recordVectors_length a).le])).before _).before _

section Queues
variable {a} (hin : a.qin.length ≤ 64)
include hin

theorem record_vectorsQin_length : (filled 0x80 (wordBytes (recordWords a hl c tval tstat)) ++ filled 0x100 (recordScalars a) ++
    filled 0x40 (wordBytes a.e.toList) ++ filled 0x40 (recordPreds a) ++ filled 0x800 (recordVectors a) ++ filled 0x200 (wordBytes a.qin)).length =
    0xC00 := by
  rw [List.length_append, List.length_append, record_files_length, filled_length (recordVectors_length a).le,
    filled_length (by rw [wordBytes_length]; omega)]

theorem record_qout : BytesAt (recordBytes a hl c tval tstat) 0xC00 (filled 0x200 (wordBytes a.qout)) := by
  rw [recordBytes_eq]
  exact (bytesAt_last _ (record_vectorsQin_length hl c tval tstat hin)).before _

variable (hout : a.qout.length ≤ 64)
include hout

theorem record_end : BytesAt (recordBytes a hl c tval tstat) 0xE00 (List.replicate 0x200 0) := by
  rw [recordBytes_eq]
  exact bytesAt_last _ (by rw [List.length_append, record_vectorsQin_length hl c tval tstat hin,
    filled_length (by rw [wordBytes_length]; omega)])

theorem recordBytes_length : (recordBytes a hl c tval tstat).length = 4096 := by
  rw [recordBytes_eq, List.length_append, List.length_append, record_vectorsQin_length hl c tval tstat hin,
    filled_length (by rw [wordBytes_length]; omega), List.length_replicate]

end Queues

/-! ### The items of a record -/

/-- Some bytes of a record's part. -/
theorem BytesAt.item {bs part : List Byte} {o n k : Nat} {cs : List Byte} (h : BytesAt bs o (filled n part)) (hk : BytesAt part k cs) :
    BytesAt bs (o + k) cs := by
  have h0 := h.trans ((bytesAt_filled n part).trans hk)
  rwa [Nat.zero_add] at h0

/-- Word k before the registers of a record. -/
theorem record_word {k : Nat} (hk : k < 13) :
    BytesAt (recordBytes a hl c tval tstat) (8 * k) (leBytes 8 ((recordWords a hl c tval tstat)[k]'hk).toNat) := by
  have h := (record_head a hl c tval tstat).item (bytesAt_wordBytes _ hk)
  rwa [Nat.zero_add] at h

/-- The first words of a record, each with its place. -/
theorem record_first : ∀ x ∈ (recordFirst a c tval tstat).zipIdx.map (fun p => (8 * p.2, p.1)),
    BytesAt (recordBytes a hl c tval tstat) x.1 (leBytes 8 x.2.toNat) := by
  intro x hx
  obtain ⟨⟨w, k⟩, hp, rfl⟩ := List.mem_map.1 hx
  obtain ⟨hk, rfl⟩ := List.getElem?_eq_some_iff.1 (List.mk_mem_zipIdx_iff_getElem?.1 hp)
  have hw := record_word a hl c tval tstat (k := k) (Nat.lt_trans hk (by simp [recordFirst]))
  simpa only [recordWords, List.getElem_append_left hk] using hw

theorem record_scalar (r : SReg) : BytesAt (recordBytes a hl c tval tstat) (0x80 + 8 * r.toNat) (leBytes 8 (a.getS r).toNat) := by
  have h := bytesAt_item (f := fun i : Fin 32 => leBytes 8 (if i.val = 0 then 0 else a.s[i] : Word).toNat) (fun _ => length_leBytes ..)
    (List.finRange 32) (i := r.toNat) (by simpa using r.isLt)
  have hs : (if r.toNat = 0 then 0 else a.s[r.toNat]'r.isLt : Word) = a.getS r := by
    simp only [Act.getS, ← BitVec.toNat_inj]
    rfl
  simp only [List.getElem_finRange, Fin.val_cast, Fin.getElem_fin, hs] at h
  exact (record_scalars a hl c tval tstat).item h

theorem record_ext (r : EReg) : BytesAt (recordBytes a hl c tval tstat) (0x180 + 8 * r.toNat) (leBytes 8 (a.getE r).toNat) :=
  (record_exts a hl c tval tstat).item (bytesAt_wordBytes a.e.toList (i := r.toNat) (by simpa using r.isLt))

theorem record_pred (r : PReg) : BytesAt (recordBytes a hl c tval tstat) (0x1C0 + 2 * r.toNat) (leBytes 2 (a.getP r).toNat) := by
  have h := bytesAt_item (f := fun i : Nat => leBytes 2 (a.getP (BitVec.ofNat 3 i)).toNat) (fun _ => length_leBytes ..)
    (List.range 8) (i := r.toNat) (by simpa using r.isLt)
  rw [List.getElem_range, BitVec.ofNat_toNat, BitVec.setWidth_eq] at h
  exact (record_preds a hl c tval tstat).item h

theorem record_lane (r : VRegN) (l : Fin 16) :
    BytesAt (recordBytes a hl c tval tstat) (0x200 + (64 * r.toNat + 4 * l.val)) (leBytes 4 (a.getV r)[l].toNat) := by
  have hreg := bytesAt_item (f := fun x : VReg => x.toList.flatMap (fun l => leBytes 4 l.toNat)) (w := 64)
    (fun x => by simp [List.length_flatMap]) a.v.toList (i := r.toNat) (by simpa using r.isLt)
  have hlane := bytesAt_item (f := fun l : Lane => leBytes 4 l.toNat) (fun _ => length_leBytes ..) (a.getV r).toList (i := l.val) (by simp)
  exact (record_vectors a hl c tval tstat).item (hreg.trans hlane)

theorem record_qinWord {i : Nat} (h : i < a.qin.length) :
    BytesAt (recordBytes a hl c tval tstat) (0xA00 + 8 * i) (leBytes 8 a.qin[i].toNat) :=
  (record_qin a hl c tval tstat).item (bytesAt_wordBytes a.qin h)

theorem record_qoutWord (hin : a.qin.length ≤ 64) {i : Nat} (h : i < a.qout.length) :
    BytesAt (recordBytes a hl c tval tstat) (0xC00 + 8 * i) (leBytes 8 a.qout[i].toNat) :=
  (record_qout hl c tval tstat hin).item (bytesAt_wordBytes a.qout h)

/-- The fill behind the words before the registers. -/
theorem record_headFill : BytesAt (recordBytes a hl c tval tstat) 0x68 (List.replicate 0x18 0) := by
  have h := (record_head a hl c tval tstat).trans (bytesAt_fill (wordBytes_length _))
  rwa [Nat.zero_add] at h

/-- The fill behind the predicate registers. -/
theorem record_predFill : BytesAt (recordBytes a hl c tval tstat) 0x1D0 (List.replicate 0x30 0) := by
  have h := (record_preds a hl c tval tstat).trans (bytesAt_fill (recordPreds_length a))
  simpa only [Nat.reduceAdd, Nat.reduceSub] using h

end Record

end Sys2Proof.Machine
end

section
/-!
SUPPORT. A user trap takes a fibre record and starts the upcall activation (R41, R116, R117, R119, R150).
-/

namespace Sys2Proof.Machine

/-! ### What setting leaves' bits leaves alone -/

/-- A field of a core that filling its buffer of leaves keeps. -/
theorem tlbFill_keeps {α : Type} (g : Core → α) (hg : ∀ (k : Core) (l : List TlbEntry), g { k with tlb := l } = g k) (s : State) (h : TlbHome)
    (e : TlbEntry) (d : Nat) : g (coreOf (tlbFill s h e) d) = g (coreOf s d) := by
  cases h with
  | core c =>
    have hcore : g (coreOf (modCore s c (fun x => { x with tlb := tlbPush 64 e x.tlb })) d) = g (coreOf s d) := by
      by_cases hd : d = c
      · subst hd
        rw [coreOf_modCore_self]
        exact hg ..
      · rw [coreOf_modCore_ne _ _ hd]
    simp only [tlbFill]
    split
    · exact hcore
    · exact hcore
  | clause c => rfl
  | port p => rfl

theorem tlbFill_mem (s : State) (h : TlbHome) (e : TlbEntry) : (tlbFill s h e).mem = s.mem := by
  cases h with
  | core c =>
    simp only [tlbFill]
    split <;> rfl
  | clause c => rfl
  | port p => rfl

theorem tlbFill_heldPorts (s : State) (h : TlbHome) (e : TlbEntry) : (tlbFill s h e).heldPorts = s.heldPorts := by
  cases h with
  | core c =>
    simp only [tlbFill]
    split <;> rfl
  | clause c => rfl
  | port p => rfl

section Commit
variable (s : State) (w : Who) (k : AccKind) (ls : List TlbEntry)

theorem commitLeaves_keeps {α : Type} (g : Core → α) (hg : ∀ (k : Core) (l : List TlbEntry), g { k with tlb := l } = g k) (d : Nat) :
    g (coreOf (commitLeaves s w k ls) d) = g (coreOf s d) :=
  (setLeaves_keeps (fun t => g (coreOf t d)) (fun s loc v => by rw [writeWord, coreOf, writeBytes_cores, ← coreOf])
    (fun t e => tlbFill_keeps g hg t w.tlb e d) k ls _).trans (by rw [endWalks_eq]; rfl)

theorem commitLeaves_heldPorts : (commitLeaves s w k ls).heldPorts = s.heldPorts :=
  (setLeaves_keeps State.heldPorts (fun _ _ _ => writeBytes_heldPorts ..) (fun t e => tlbFill_heldPorts t w.tlb e) k ls _).trans
    (endWalks_heldPorts ..)

theorem canonical_setLeafBits {s : State} (hw : MemoryCanonical s) (k : AccKind) (e : TlbEntry) : MemoryCanonical (setLeafBits s k e).1 := by
  simp only [setLeafBits]
  split
  · exact hw
  · split
    · exact wf_writeWord hw ..
    · exact hw

theorem canonical_setLeaves (w : Who) (k : AccKind) : ∀ (ls : List TlbEntry) {s : State}, MemoryCanonical s → MemoryCanonical (setLeaves s w k ls)
  | [], _, hw => hw
  | e :: r, s, hw => by
    rw [setLeaves]
    refine canonical_setLeaves w k r ?_
    rw [MemoryCanonical, tlbFill_mem]
    exact canonical_setLeafBits hw k e

theorem canonical_touched {s : State} (hw : MemoryCanonical s) (k : AccKind) (ls : List TlbEntry) : MemoryCanonical (touched s k ls) := by
  refine canonical_setLeaves (who s) k ls ?_
  rw [endWalks_eq]
  exact hw

end Commit

/-! ### Undefined bytes of a scratchpad lie in its pool (R100) -/

theorem tget_filter {α : Type} {q : Nat → Bool} {l : Nat} (hl : q l = true) : ∀ t : Tab α, tget (t.filter (fun c => q c.1)) l = tget t l
  | [] => rfl
  | (j, x) :: r => by
    by_cases hj : q j = true
    · rw [List.filter_cons_of_pos (p := fun c : Nat × α => q c.1) hj, tget, tget, tget_filter hl r]
    · have hne : j ≠ l := fun h => hj (h ▸ hl)
      rw [List.filter_cons_of_neg (p := fun c : Nat × α => q c.1) hj, tget, if_neg hne, tget_filter hl r]

theorem undefAt_append (us vs : List Undef) (l : Nat) : undefAt (us ++ vs) l = (undefAt us l).or (undefAt vs l) := by
  simp only [undefAt, List.find?_append]

/-- What is left of an undefined interval outside [lo, hi). -/
def undefOut (lo hi : Nat) (u : Undef) : List Undef :=
  (if u.lo < lo && u.lo < u.hi then [{ u with hi := Nat.min u.hi lo }] else []) ++ (if hi < u.hi then [{ u with lo := Nat.max u.lo hi }] else [])

/-- The epoch of the interval that covers a location, of one interval or none. -/
theorem undefAt_if (q : Prop) [Decidable q] (u : Undef) (l : Nat) :
    (undefAt (if q then [u] else []) l).map (·.epoch) = if q ∧ u.lo ≤ l ∧ l < u.hi then some u.epoch else none := by
  by_cases hq : q <;> by_cases hu : u.lo ≤ l ∧ l < u.hi <;> simp [undefAt, hq, hu]

section Out
variable {lo hi l : Nat} (h : lo < hi) (hl : l < lo ∨ hi ≤ l)
include h hl

theorem undefAt_undefOut (u : Undef) : (undefAt (undefOut lo hi u) l).map (·.epoch) = (undefAt [u] l).map (·.epoch) := by
  have hone := undefAt_if True u l
  simp only [if_true, true_and] at hone
  have hmin : Nat.min u.hi lo = min u.hi lo := rfl
  have hmax : Nat.max u.lo hi = max u.lo hi := rfl
  have hlow : ((u.lo < lo && u.lo < u.hi) = true ∧ u.lo ≤ l ∧ l < Nat.min u.hi lo) ↔ l < lo ∧ u.lo ≤ l ∧ l < u.hi := by
    rw [Bool.and_eq_true, decide_eq_true_eq, decide_eq_true_eq, hmin]
    omega
  have hhigh : (hi < u.hi ∧ Nat.max u.lo hi ≤ l ∧ l < u.hi) ↔ hi ≤ l ∧ u.lo ≤ l ∧ l < u.hi := by
    rw [hmax]
    omega
  rw [undefOut, undefAt_append, Option.map_or, undefAt_if, undefAt_if, hone]
  simp only [hlow, hhigh]
  rcases hl with hl | hl
  · simp [hl, show ¬hi ≤ l by omega]
  · simp [hl, show ¬l < lo by omega]

/-- Bytes outside an interval that becomes undefined read as before. -/
theorem readByte_makeUndef_out (s : State) : readByte (makeUndef s lo hi) l = readByte s l := by
  have hundef : ∀ us : List Undef, (undefAt (us.flatMap (undefOut lo hi) ++ [⟨lo, hi, s.freeCtr⟩]) l).map (·.epoch) =
      (undefAt us l).map (·.epoch) := by
    intro us
    induction us with
    | nil =>
      have hn : ¬(lo ≤ l ∧ l < hi) := by omega
      simp [undefAt, hn]
    | cons u r ih =>
      rw [List.flatMap_cons, List.append_assoc, undefAt_append, undefAt_cons, Option.map_or, Option.map_or, undefAt_undefOut h hl, ih]
  have hout : (!(decide (lo ≤ l) && decide (l < hi))) = true := by
    simp only [Bool.not_eq_true', Bool.and_eq_false_iff, decide_eq_false_iff_not]
    omega
  have hmem : memGet (s.mem.filter (fun c => !(lo ≤ c.1 && c.1 < hi))) l = memGet s.mem l := by
    rw [memGet, tgetD, tget_filter (q := fun j => !(decide (lo ≤ j) && decide (j < hi))) hout]
    rfl
  rw [readByte_of_epoch, readByte_of_epoch, makeUndef, if_pos h, hmem]
  exact congrArg (fun o : Option Nat => match o with | some e => Config.freeByte e l | none => memGet s.mem l) (hundef s.undef)

end Out

/-- Clearing a scratchpad leaves this module's memory alone. -/
theorem readByte_clearScratch (s : State) (c x : Nat) {l : Nat} (hl : l < 2 ^ 48) : readByte (clearScratch s c x) l = readByte s l := by
  have h : ∀ (is : List (Nat × Nat)) (b : Nat) (s : State), l < b →
      readByte (is.foldl (fun s i => makeUndef s (b + i.1) (b + i.2)) s) l = readByte s l := by
    intro is b
    induction is with
    | nil => exact fun _ _ => rfl
    | cons i r ih =>
      intro s hb
      rw [List.foldl_cons, ih _ hb]
      by_cases hi : b + i.1 < b + i.2
      · exact readByte_makeUndef_out hi (.inl (by omega)) s
      · rw [makeUndef, if_neg hi]
  refine h _ _ s ?_
  rw [scratchBase, poolLoc]
  omega

/-! ### The trapped activation leaves its core (R116) -/

/-- What disarming the watch entries of the current activation leaves. -/
theorem dropWatch_keeps (s : State) : (dropWatch s).mem = s.mem ∧ (dropWatch s).undef = s.undef ∧ (dropWatch s).cur = s.cur ∧
    (ctxOf (dropWatch s) (home s) (ctxId s)).regs = (regs s) ∧ (ctxOf (dropWatch s) (home s) (ctxId s)).entry = entry s := by
  have hctx : ctxOf (modCore s (home s) (fun k => { k with watch := k.watch.filter (fun w => w.ctx != ctxId s) })) (home s) (ctxId s) =
      ctxNow s := ctxOf_modCore s (home s) (home s) (ctxId s) (f := fun k => { k with watch := k.watch.filter (fun w => w.ctx != ctxId s) })
    (fun _ => rfl)
  simp only [dropWatch]
  split
  · have hhome : home (modCore s (home s) (fun k => { k with watch := k.watch.filter (fun w => w.ctx != ctxId s) })) = home s := rfl
    refine ⟨rfl, rfl, rfl, ?_, ?_⟩
    · rw [hhome, ctxOf_modCtx_self, hctx]
      rfl
    · rw [hhome, ctxOf_modCtx_self, hctx]
      rfl
  · exact ⟨rfl, rfl, rfl, congrArg CtxCore.regs hctx, congrArg CtxCore.entry hctx⟩

/-- What an activation in the active slot leaves of its core when it ends: memory, and the registers and the entry of its context. -/
theorem dropAct_keeps {s : State} (h : s.cur.away = none) : (dropAct s).mem = s.mem ∧ (dropAct s).undef = s.undef ∧ (dropAct s).cur = s.cur ∧
    (ctxOf (dropAct s) (home s) (ctxId s)).regs = regs s ∧ (ctxOf (dropAct s) (home s) (ctxId s)).entry = entry s := by
  have hquiet : ∃ ws ms, forget (forget (endWalks (endWalks s (who s)) (fetchWho s)) (home s) (ctxId s) 0) (home s) (ctxId s) 8 =
      { s with walks := ws, memos := ms } := by
    rw [forget_eq, forget_eq, endWalks_eq, endWalks_eq]
    exact ⟨_, _, rfl⟩
  obtain ⟨ws, ms, hq⟩ := hquiet
  obtain ⟨hmem, hundef, hcur, hregs, hentry⟩ := dropWatch_keeps { s with walks := ws, memos := ms }
  have hdrop : dropAct s = setActAt (dropWatch { s with walks := ws, memos := ms }) s.cur none := by
    simp only [dropAct, hq, hcur, h]
  have hctx : ctxOf (setActAt (dropWatch { s with walks := ws, memos := ms }) s.cur none) (home s) (ctxId s) =
      ctxOf (dropWatch { s with walks := ws, memos := ms }) (home s) (ctxId s) := by
    rw [ctxOf, (coreOf_setActAt _ s.cur none (home s)).1, ctxOf]
  rw [hdrop]
  exact ⟨by rw [setActAt_mem]; exact hmem, by rw [setActAt_undef]; exact hundef, by rw [setActAt_cur]; exact hcur,
    by rw [hctx]; exact hregs, by rw [hctx]; exact hentry⟩

/-! ### The entry is loaded (R41) -/

theorem loadEntry_mem (s : State) (c x : Nat) : (loadEntry s c x).mem = s.mem ∧ (loadEntry s c x).undef = s.undef ∧
    (loadEntry s c x).cur = s.cur := by
  unfold loadEntry
  split
  · exact ⟨rfl, rfl, rfl⟩
  · exact ⟨rfl, rfl, rfl⟩

/-- Loading an entry keeps the records of its context, and its upcall address while the generation is the same. -/
theorem loadEntry_regs (s : State) (c x : Nat) :
    (ctxOf (loadEntry s c x) c x).regs.fibre = (ctxOf s c x).regs.fibre ∧ (ctxOf (loadEntry s c x) c x).regs.freel = (ctxOf s c x).regs.freel ∧
    ((ctxOf (loadEntry s c x) c x).entry.ctxgen = (ctxOf s c x).entry.ctxgen →
      (ctxOf (loadEntry s c x) c x).regs.upcall = (ctxOf s c x).regs.upcall) := by
  unfold loadEntry
  split
  next => exact ⟨rfl, rfl, fun _ => rfl⟩
  next hgen =>
    rw [ctxOf_modCtx_self]
    refine ⟨rfl, rfl, fun h => absurd ?_ hgen⟩
    have hb := bits_lt (ctxWord s x 0) 63 48
    rw [← h]
    exact (BitVec.toNat_ofNat ..).trans (Nat.mod_eq_of_lt (Nat.lt_trans hb (by norm_num)))

/-! ### The upcall (R116, R119) -/

theorem storeAt_cur (s : State) (ctx loc : Nat) (bs : List Byte) : (storeAt s ctx loc bs).cur = s.cur := by
  obtain ⟨_, hk⟩ := storeAt_eq s ctx loc bs
  rw [hk]
  exact writeBytes_cur ..

/-- CR.TSTAT of a trap in user mode outside a phrase. -/
theorem tstatWord_user (migrated : Bool) : tstatWord false false migrated false = if migrated then 2 else 0 := by cases migrated <;> rfl

theorem home_of_cur {s t : State} (h : t.cur = s.cur) : home t = home s := by rw [home, h, home]

/-- The bytes of the record that a trap of the current activation writes. -/
def trapRecord (s : State) (c : Cause) (v : Word) : List Byte :=
  recordBytes (act s) ((logicalOf s (entry s) (nodeOf s (home s))).getD 0) c v (tstatWord false false (act s).runsOn.isSome (act s).priv)

/-- The record of a trap in user mode. -/
theorem trapRecord_user {s : State} (hpriv : (act s).priv = false) (c : Cause) (v : Word) : trapRecord s c v =
    recordBytes (act s) ((logicalOf s (entry s) (nodeOf s (home s))).getD 0) c v (if (act s).runsOn.isSome then 2 else 0) := by
  rw [trapRecord, hpriv, tstatWord_user]

/-- A logical address has 21 bits (R42). -/
theorem logicalOf_lt (s : State) (e : CtxEntry) (n : Node) : (logicalOf s e n).getD 0 < 2 ^ 21 := by
  cases h : logicalOf s e n with
  | none => norm_num
  | some l => exact Nat.lt_of_lt_of_le (List.mem_range.1 (List.mem_of_find?_eq_some h)) (Nat.min_le_right ..)

/-- The record is written: the trapped activation is in it. -/
def recordWritten (s : State) (c : Cause) (v : Word) (loc : Nat) (ms : List TlbEntry) : State :=
  storeAt (touched s .store ms) (ctxId s) loc ((trapRecord s c v).take 4096)

/-- A context once a record of a trap of `s` has been taken: CR.FREEL is the record's link, CR.FIBRE the record. -/
def takenCtx (s : State) (link : Nat) (x : CtxCore) : CtxCore :=
  { x with regs := { x.regs with freel := BitVec.ofNat 64 link, fibre := (regs s).freel } }

theorem takenCtx_entry (s : State) (link : Nat) (x : CtxCore) : (takenCtx s link x).entry = x.entry := rfl
theorem takenCtx_fibre (s : State) (link : Nat) (x : CtxCore) : (takenCtx s link x).regs.fibre = (regs s).freel := rfl
theorem takenCtx_freel (s : State) (link : Nat) (x : CtxCore) : (takenCtx s link x).regs.freel = BitVec.ofNat 64 link := rfl
theorem takenCtx_upcall (s : State) (link : Nat) (x : CtxCore) : (takenCtx s link x).regs.upcall = x.regs.upcall := rfl

/-- The model knows the work of the fibre that a trap of `s` makes (log 6). -/
def fibreKnown (s u : State) : State :=
  { u with fibres := u.fibres.filter (fun f => !(f.ctx == ctxId s && f.record == (regs s).freel)) ++
      [⟨ctxId s, (regs s).freel, (act s).work, (act s).triggered, (act s).serial⟩] }

/-- The record is taken in `u`, where it is written. -/
def recordTaken (s u : State) (link : Nat) : State :=
  fibreKnown s (modRegs u (fun x => { x with freel := BitVec.ofNat 64 link, fibre := (regs s).freel }))

theorem recordTaken_eq (s u : State) (link : Nat) :
    recordTaken s u link = fibreKnown s (modCtx u (home u) (ctxId u) (takenCtx s link)) := rfl

/-- The core once the trapped activation has left it and the context's entry is current. -/
def upcallReady (s u : State) (link : Nat) : State := loadEntry (dropAct (recordTaken s u link)) (home s) (ctxId s)

/-- The core once a trap's record has been written and taken, and the trapped activation has left it. -/
def trapReady (s : State) (c : Cause) (v : Word) (loc : Nat) (ms : List TlbEntry) : State :=
  upcallReady s (recordWritten s c v loc ms) (readNat (touched s .store ms) loc 8)

/-- What the upcall of a trap of `s` sets in its new activation, at a handler address. -/
def trapAct (s : State) (c : Cause) (v hdl : Word) (b : Act) : Act :=
  upcallAct b hdl (regs s).freel (BitVec.ofNat 64 c.code) v (((act s).getS 30 - 256#64) &&& ~~~(15#64)) (act s).cr.wid (act s).cr.wshape
    (act s).pc (tstatWord false false (act s).runsOn.isSome (act s).priv)

theorem trapAct_eq (s : State) (c : Cause) (v hdl : Word) : trapAct s c v hdl = fun b =>
    upcallAct b hdl (regs s).freel (BitVec.ofNat 64 c.code) v (((act s).getS 30 - 256#64) &&& ~~~(15#64)) (act s).cr.wid (act s).cr.wshape
      (act s).pc (tstatWord false false (act s).runsOn.isSome (act s).priv) := rfl

section Upcall
variable {s : State} {loc : Nat} {ls ms : List TlbEntry} (c : Cause) (v : Word)

/-- What the record's writing keeps of a core. -/
theorem recordWritten_keeps {α : Type} (g : Core → α) (hwatch : ∀ (k : Core) (l : List Watch), g { k with watch := l } = g k)
    (htlb : ∀ (k : Core) (l : List TlbEntry), g { k with tlb := l } = g k) (d : Nat) :
    g (coreOf (recordWritten s c v loc ms) d) = g (coreOf s d) :=
  (storeAt_keeps _ _ _ _ g hwatch d).trans (commitLeaves_keeps s (who s) .store ms g htlb d)

theorem recordWritten_cur : (recordWritten s c v loc ms).cur = s.cur := (storeAt_cur ..).trans (commitLeaves_cur ..)

theorem ctxAt_recordWritten (d : Cur) : ctxAt (recordWritten s c v loc ms) d = ctxAt s d := by
  have h := recordWritten_keeps (s := s) (loc := loc) (ms := ms) c v Core.active (fun _ _ => rfl) (fun _ _ => rfl) d.core
  simp only [ctxAt, h]

theorem ctxOf_recordWritten (d x : Nat) : ctxOf (recordWritten s c v loc ms) d x = ctxOf s d x := by
  have h := recordWritten_keeps (s := s) (loc := loc) (ms := ms) c v Core.ctxs (fun _ _ => rfl) (fun _ _ => rfl) d
  simp only [ctxOf, h]

end Upcall

section Taken
variable {s u : State} (hcur : u.cur = s.cur) (hid : ctxId u = ctxId s) (hnow : ctxNow u = ctxNow s) (link : Nat)
include hid hnow

/-- Taking the record keeps the place, and sets CR.FREEL and CR.FIBRE. -/
theorem recordTaken_keeps : ctxId (recordTaken s u link) = ctxId s ∧ regs (recordTaken s u link) = (takenCtx s link (ctxNow s)).regs ∧
    entry (recordTaken s u link) = entry s := by
  have htaken : ctxId (recordTaken s u link) = ctxId s := (ctxAt_modCtx u (home u) (ctxId u) (takenCtx s link) u.cur).trans hid
  have hctx : ctxNow (recordTaken s u link) = takenCtx s link (ctxNow s) := by
    rw [ctxNow, htaken, ← hid, ← hnow, recordTaken_eq]
    exact ctxOf_modCtx_self ..
  exact ⟨htaken, congrArg CtxCore.regs hctx, by rw [entry, hctx, takenCtx_entry, ← entry]⟩

include hcur in
/-- What leaves for the upcall: memory as the record left it, the records of the context, its upcall address unless its entry was loaded. -/
theorem upcallReady_keeps (haway : s.cur.away = none) : (upcallReady s u link).mem = u.mem ∧ (upcallReady s u link).undef = u.undef ∧
    (upcallReady s u link).cur = s.cur ∧ (ctxOf (upcallReady s u link) (home s) (ctxId s)).regs.fibre = (regs s).freel ∧
    (ctxOf (upcallReady s u link) (home s) (ctxId s)).regs.freel = BitVec.ofNat 64 link ∧
    ((ctxOf (upcallReady s u link) (home s) (ctxId s)).entry.ctxgen = (entry s).ctxgen →
      (ctxOf (upcallReady s u link) (home s) (ctxId s)).regs.upcall = (regs s).upcall) := by
  obtain ⟨htaken, hregs, hentry⟩ := recordTaken_keeps hid hnow link
  have htcur : (recordTaken s u link).cur = s.cur := hcur
  obtain ⟨hmem, hundef, hdcur, hdregs, hdentry⟩ := dropAct_keeps (s := recordTaken s u link) (by rw [htcur]; exact haway)
  obtain ⟨hlmem, hlundef, hlcur⟩ := loadEntry_mem (dropAct (recordTaken s u link)) (home s) (ctxId s)
  obtain ⟨hfibre, hfreel, hupcall⟩ := loadEntry_regs (dropAct (recordTaken s u link)) (home s) (ctxId s)
  rw [home_of_cur htcur, htaken, hregs] at hdregs
  rw [home_of_cur htcur, htaken, hentry] at hdentry
  rw [hdregs, takenCtx_fibre] at hfibre
  rw [hdregs, takenCtx_freel] at hfreel
  rw [hdregs, hdentry, takenCtx_upcall, ← regs] at hupcall
  rw [upcallReady]
  exact ⟨hlmem.trans hmem, hlundef.trans hundef, (hlcur.trans hdcur).trans hcur, hfibre, hfreel, hupcall⟩

end Taken

/-! ### Earlier accesses to a record (R150) -/

/-- An access of an agent touches some bytes. -/
def touches (agent : AgentId) (loc n : Nat) (x : AgentId × Nat × Nat) : Bool :=
  sameAgent x.1 agent && x.2.1 < loc + n && loc < x.2.1 + x.2.2

theorem ownPending_eq (s : State) (agent : AgentId) (loc n : Nat) : ownPending s agent loc n =
    (s.reqs.any (fun r => !r.2.performed && r.2.pieces.any (fun p => touches agent loc n (r.2.agent, p.1, p.2.1))) ||
      (2 ^ 48 ≤ loc && (s.net.any (fun p => ((packetSpan s p.2).map (touches agent loc n)).getD false) ||
        s.cores.any (fun c => c.2.ctxs.any (fun x => x.2.heldFlags.any (fun h =>
          ((packetSpan s h.packet).map (touches agent loc n)).getD false)))))) := rfl

theorem any_mono {α : Type} {f g : α → Bool} (h : ∀ x, f x = true → g x = true) {l : List α} (hl : l.any f = true) : l.any g = true := by
  obtain ⟨x, hx, hf⟩ := List.any_eq_true.1 hl
  exact List.any_eq_true.2 ⟨x, hx, h x hf⟩

theorem getD_map_mono {α : Type} {f g : α → Bool} (h : ∀ x, f x = true → g x = true) {o : Option α} (ho : (o.map f).getD false = true) :
    (o.map g).getD false = true := by
  cases o with
  | none => exact ho
  | some x => exact h x ho

/-- Earlier accesses to the first of some bytes are accesses to them. -/
theorem ownPending_part {s : State} {agent : AgentId} {loc m n : Nat} (hmn : m ≤ n) (h : ownPending s agent loc n = false) :
    ownPending s agent loc m = false := by
  have ht : ∀ x, touches agent loc m x = true → touches agent loc n x = true := fun x hx => by
    simp only [touches, Bool.and_eq_true, decide_eq_true_eq] at hx ⊢
    exact ⟨⟨hx.1.1, by omega⟩, hx.2⟩
  rw [Bool.eq_false_iff] at h ⊢
  refine fun hm => h ?_
  rw [ownPending_eq, Bool.or_eq_true, Bool.and_eq_true, Bool.or_eq_true] at hm ⊢
  refine hm.imp (any_mono fun r hr => ?_) (fun hp => ⟨hp.1, hp.2.imp (any_mono fun _ => getD_map_mono ht)
    (any_mono fun _ => any_mono fun _ => any_mono fun _ => getD_map_mono ht)⟩)
  rw [Bool.and_eq_true] at hr ⊢
  exact ⟨hr.1, any_mono (fun _ => ht _) hr.2⟩

/-! ### A new activation at the place it is begun -/

section Begun
variable {u : State} {c : Nat} (x : Nat) (f : Act → Act)

theorem beginAct_cur : (beginAct u c x f).cur = u.cur := by
  obtain ⟨m, us, h⟩ := clearScratch_eq u c x
  rw [beginAct, h]
  rfl

theorem readByte_beginAct (u : State) (c : Nat) {l : Nat} (hl : l < 2 ^ 48) : readByte (beginAct u c x f) l = readByte u l :=
  (readByte_congr (s := clearScratch u c x) (by simp only [beginAct, modCore_mem, nextFree_mem])
    (by simp only [beginAct, modCore_undef, nextFree_undef]) l).trans (readByte_clearScratch u c x hl)

variable (hcur : u.cur = ⟨c, none⟩)
include hcur

theorem act_beginAct : act (beginAct u c x f) = f (bornAct u c x) := by simp [act, actAt, beginAct_cur, hcur, coreOf_beginAct]

theorem ctxId_beginAct : ctxId (beginAct u c x f) = x := by simp [ctxId, ctxAt, beginAct_cur, hcur, coreOf_beginAct]

theorem ctxNow_beginAct : ctxNow (beginAct u c x f) = ctxOf u c x := by
  rw [ctxNow, ctxId_beginAct x f hcur, home, beginAct_cur, hcur, ctxOf, coreOf_beginAct]
  rfl

end Begun

theorem upcallAct_pc (b : Act) (hdl s1 s2 s3 s30 wid wshape tpc tstat : Word) :
    (upcallAct b hdl s1 s2 s3 s30 wid wshape tpc tstat).pc = hdl := rfl

/-- An upcall starts with no wait and empty queues where its activation is new (R119). -/
theorem upcallAct_queues (u : State) (c x : Nat) (hdl s1 s2 s3 s30 wid wshape tpc tstat : Word) :
    (upcallAct (bornAct u c x) hdl s1 s2 s3 s30 wid wshape tpc tstat).wait = none ∧
    (upcallAct (bornAct u c x) hdl s1 s2 s3 s30 wid wshape tpc tstat).qin = [] ∧
    (upcallAct (bornAct u c x) hdl s1 s2 s3 s30 wid wshape tpc tstat).qout = [] := by
  obtain ⟨r, hr⟩ := bornAct_eq u c x
  obtain ⟨r1, h1⟩ := Act.setS_eq (bornAct u c x) 1 s1
  obtain ⟨r2, h2⟩ := Act.setS_eq { bornAct u c x with s := r1 } 2 s2
  obtain ⟨r3, h3⟩ := Act.setS_eq { bornAct u c x with s := r2 } 3 s3
  obtain ⟨r4, h4⟩ := Act.setS_eq { bornAct u c x with s := r3 } 30 s30
  rw [upcallAct, h1, h2, h3, h4, hr]
  exact ⟨rfl, rfl, rfl⟩

section Whole
variable {s : State} {c : Cause} {v : Word} (hin : (act s).qin.length ≤ 63) (hout : (act s).qout.length ≤ 64)
include hin hout

theorem trapRecord_length : (trapRecord s c v).length = 4096 := recordBytes_length _ _ _ _ (by omega) hout

theorem trapRecord_take : (trapRecord s c v).take 4096 = trapRecord s c v := List.take_of_length_le (trapRecord_length hin hout).le

end Whole

/-- What a trap leaves for its upcall. -/
theorem trapReady_keeps {s : State} {loc : Nat} {ms : List TlbEntry} (c : Cause) (v : Word) (haway : s.cur.away = none) :
    (trapReady s c v loc ms).mem = (recordWritten s c v loc ms).mem ∧ (trapReady s c v loc ms).undef = (recordWritten s c v loc ms).undef ∧
    (trapReady s c v loc ms).cur = s.cur ∧ (ctxOf (trapReady s c v loc ms) (home s) (ctxId s)).regs.fibre = (regs s).freel ∧
    (ctxOf (trapReady s c v loc ms) (home s) (ctxId s)).regs.freel = BitVec.ofNat 64 (readNat (touched s .store ms) loc 8) ∧
    ((ctxOf (trapReady s c v loc ms) (home s) (ctxId s)).entry.ctxgen = (entry s).ctxgen →
      (ctxOf (trapReady s c v loc ms) (home s) (ctxId s)).regs.upcall = (regs s).upcall) := by
  have hcur := recordWritten_cur (s := s) (loc := loc) (ms := ms) c v
  have hid : ctxId (recordWritten s c v loc ms) = ctxId s := (ctxAt_recordWritten c v _).trans (congrArg (ctxAt s) hcur)
  have hnow : ctxNow (recordWritten s c v loc ms) = ctxNow s := by rw [ctxNow, ctxOf_recordWritten, home_of_cur hcur, hid, ← ctxNow]
  rw [trapReady]
  exact upcallReady_keeps hcur hid hnow _ haway

/-- The upcall starts at the place of the trapped activation. -/
theorem trapReady_place {s : State} {loc : Nat} {ms : List TlbEntry} (c : Cause) (v : Word) (haway : s.cur.away = none) :
    (trapReady s c v loc ms).cur = ⟨home s, none⟩ := by
  obtain ⟨-, -, hcur, -⟩ := trapReady_keeps (loc := loc) (ms := ms) c v haway
  rw [hcur, home, ← haway]

section Trapped
variable {s : State} {loc : Nat} {ls ms : List TlbEntry} {c : Cause} {v : Word} (haway : s.cur.away = none)
  (h0 : (regs s).freel ≠ 0) (halign : (regs s).freel.toNat % 4096 = 0) (hok : upcallOk s (home s) (ctxId s) = true)
  (hload : resolve s (who s) .load (regs s).freel 4096 = .ok [[(loc, none, 4096)]] ls)
  (hstore : resolve s (who s) .store (regs s).freel 4096 = .ok [[(loc, none, 4096)]] ms)
include haway h0 halign hok hload hstore

/-- A user upcall whose record is read and written in `u`: the record is taken, and the upcall starts. -/
theorem userUpcall_starts {u : State} {next : List Byte} (hcur : u.cur = s.cur)
    (hparts : (readParts (touched s .store ms) (who s) (regs s).freel.toNat (headPart [[(loc, none, 4096)]].flatten 8)).bind (fun t next =>
      (writeParts t (who s) (regs s).freel.toNat [[(loc, none, 4096)]].flatten (trapRecord s c v)).bind (fun t _ => .ok t next)) = .ok u next) :
    userUpcall s false c v = .done (beginAct (upcallReady s u (leNat next)) (home s) (ctxId s)
      (trapAct s c v (ctxOf (upcallReady s u (leNat next)) (home s) (ctxId s)).regs.upcall)) := by
  have hbad : (decide ((regs s).freel = 0) || decide ((regs s).freel.toNat % 4096 ≠ 0) || !upcallOk s (home s) (ctxId s)) = false := by
    have h0' : ¬(regs s).freel = 0#64 := h0
    simp [h0', halign, hok]
  have htaken : (recordTaken s u (leNat next)).cur = s.cur := hcur
  have hleft : (dropAct (recordTaken s u (leNat next))).cur.away = none := by
    rw [(dropAct_keeps (by rw [htaken]; exact haway)).2.2.1, htaken]
    exact haway
  unfold touched trapRecord at hparts
  simp only [recordTaken, fibreKnown] at hleft
  simp only [userUpcall, hbad, hload, hstore, hparts, hleft, upcallReady, recordTaken, fibreKnown, trapAct_eq, Bool.false_eq_true, if_false]

variable (hown : ownPending (touched s .store ms) (agentNow s) loc 4096 = false) (hport : s.heldPorts = false ∨ 2 ^ 48 ≤ loc)
  (hpriv : (act s).priv = false) (hc : c ≠ .uncorrectable)
include hpriv hc hown hport

theorem trapped_upcall : trapped s c v = beginAct (trapReady s c v loc ms) (home s) (ctxId s)
    (trapAct s c v (ctxOf (trapReady s c v loc ms) (home s) (ctxId s)).regs.upcall) := by
  have hbyPacket : byPacket (touched s .store ms) none loc = none := by
    have hheld : (touched s .store ms).heldPorts = s.heldPorts := commitLeaves_heldPorts ..
    rcases hport with hport | hport
    · simp [byPacket, hheld, hport]
    · simpa [byPacket] using fun _ => hport
  have hread : readParts (touched s .store ms) (who s) (regs s).freel.toNat [(loc, none, 8)] =
      .ok (touched s .store ms) (readBytes (touched s .store ms) loc 8) := by
    have hown8 : ownPending (touched s .store ms) (who s).agent loc 8 = false := ownPending_part (by norm_num) hown
    simp [readParts, hown8, hbyPacket, Eng.bind]
  have hwrite : writeParts (touched s .store ms) (who s) (regs s).freel.toNat [(loc, none, 4096)] (trapRecord s c v) =
      .ok (recordWritten s c v loc ms) () := by
    have hown' : ownPending (touched s .store ms) (who s).agent loc 4096 = false := hown
    simp only [writeParts, hown', hbyPacket, Bool.false_eq_true, if_false]
    rfl
  have hstart := userUpcall_starts (c := c) (v := v) haway h0 halign hok hload hstore (recordWritten_cur c v)
    (by rw [show headPart ([[(loc, none, 4096)]] : List (List (Nat × Option Nat × Nat))).flatten 8 = [(loc, none, 8)] from rfl, hread, Eng.bind,
      List.flatten_singleton, hwrite, Eng.bind])
  rw [← readNat, ← trapReady] at hstart
  rw [trapped, finish, deliverTrap, takeTrap_user hpriv _ hc, hstart]

theorem ctxNow_trapped : ctxNow (trapped s c v) = ctxOf (trapReady s c v loc ms) (home s) (ctxId s) ∧ ctxId (trapped s c v) = ctxId s := by
  have hplace := trapReady_place (loc := loc) (ms := ms) c v haway
  rw [trapped_upcall haway h0 halign hok hload hstore hown hport hpriv hc]
  exact ⟨ctxNow_beginAct _ _ hplace, ctxId_beginAct _ _ hplace⟩

/-- The upcall activation that the trap starts. -/
theorem act_trapped : act (trapped s c v) =
    upcallAct (bornAct (trapReady s c v loc ms) (home s) (ctxId s)) (regs (trapped s c v)).upcall (regs s).freel (BitVec.ofNat 64 c.code) v
      (((act s).getS 30 - 256#64) &&& ~~~(15#64)) (act s).cr.wid (act s).cr.wshape (act s).pc (if (act s).runsOn.isSome then 2 else 0) := by
  have hplace := trapReady_place (loc := loc) (ms := ms) c v haway
  rw [regs, (ctxNow_trapped haway h0 halign hok hload hstore hown hport hpriv hc).1,
    trapped_upcall haway h0 halign hok hload hstore hown hport hpriv hc, act_beginAct _ _ hplace, trapAct, hpriv, tstatWord_user]

/-- This module's memory after the trap: the record, and nothing else is new. -/
theorem readByte_trapped {l : Nat} (hl : l < 2 ^ 48) : readByte (trapped s c v) l = readByte (recordWritten s c v loc ms) l := by
  obtain ⟨hmem, hundef, -⟩ := trapReady_keeps (loc := loc) (ms := ms) c v haway
  rw [trapped_upcall haway h0 halign hok hload hstore hown hport hpriv hc, readByte_beginAct _ _ _ _ hl]
  exact readByte_congr hmem hundef l

section Record
variable (hin : (act s).qin.length ≤ 63) (hout : (act s).qout.length ≤ 64)
include hin hout

theorem readByte_trapped_out {l : Nat} (hl : l < 2 ^ 48) (ho : l < loc ∨ loc + 4096 ≤ l) :
    readByte (trapped s c v) l = readByte (touched s .store ms) l := by
  rw [readByte_trapped haway h0 halign hok hload hstore hown hport hpriv hc hl, recordWritten, trapRecord_take hin hout, readByte_storeAt,
    readByte_writeBytes_out _ _ _ (by rw [trapRecord_length hin hout]; exact ho)]

variable (hloc : loc + 4096 ≤ 2 ^ 48) (hw : MemoryCanonical s)
include hloc hw

/-- What stands in the record reads back. -/
theorem readBytes_trapped {o : Nat} {cs : List Byte} (h : BytesAt (trapRecord s c v) o cs) :
    readBytes (trapped s c v) (loc + o) cs.length = cs := by
  have hlen := h.length_le
  rw [List.length_drop, trapRecord_length hin hout] at hlen
  have hread := h.readBytes_storeAt (canonical_touched hw .store ms) (ctxId s) loc
  refine Eq.trans (List.map_congr_left fun i hi => ?_) hread
  rw [List.mem_range] at hi
  rw [readByte_trapped haway h0 halign hok hload hstore hown hport hpriv hc (by omega), recordWritten, trapRecord_take hin hout]

theorem readNat_trapped {o n x : Nat} (h : BytesAt (trapRecord s c v) o (leBytes n x)) (hx : x < 256 ^ n) :
    readNat (trapped s c v) (loc + o) n = x := by
  have hread := readBytes_trapped haway h0 halign hok hload hstore hown hport hpriv hc hin hout hloc hw h
  rw [length_leBytes] at hread
  rw [readNat, hread, leNat_leBytes, Nat.mod_eq_of_lt hx]

/-- The fill of a record reads as 0. -/
theorem readByte_trapped_fill {o k i : Nat} (h : BytesAt (trapRecord s c v) o (List.replicate k 0)) (h1 : o ≤ i) (h2 : i < o + k) :
    readByte (trapped s c v) (loc + i) = 0 := by
  have hread := readBytes_trapped haway h0 halign hok hload hstore hown hport hpriv hc hin hout hloc hw h
  rw [List.length_replicate] at hread
  have hmem : readByte (trapped s c v) (loc + i) ∈ readBytes (trapped s c v) (loc + o) k :=
    List.mem_map.2 ⟨i - o, List.mem_range.2 (by omega), by rw [Nat.add_assoc, Nat.add_sub_of_le h1]⟩
  rw [hread] at hmem
  exact List.eq_of_mem_replicate hmem

end Record

end Trapped

end Sys2Proof.Machine

namespace Sys2Proof
open Machine

/-- Settles O17: the trap comes to a record that is written and taken, and an upcall begun (`trapped_upcall`); the upcall's registers are
those of `upcallAct_registers`, and the record's bytes read back item by item (`readNat_trapped`). -/
theorem userUpcallEntry : Obligations.UserUpcallEntry := by
  intro s c v loc ls ms _ haway hpriv hc h0 halign hok hload hstore hown hport t a b word
  have hact : a = _ := act_trapped (loc := loc) (ms := ms) haway h0 halign hok hload hstore hown hport hpriv hc
  obtain ⟨hnow, hid⟩ := ctxNow_trapped (loc := loc) (ms := ms) haway h0 halign hok hload hstore hown hport hpriv hc
  obtain ⟨-, -, -, hfibre, hfreel, hupcall⟩ := trapReady_keeps (loc := loc) (ms := ms) c v haway
  rw [← hnow] at hfibre hfreel hupcall
  have hpc : a.pc = (regs t).upcall := by rw [hact, upcallAct_pc]
  obtain ⟨h1, h2, h3, h30⟩ : a.getS 1 = (regs s).freel ∧ a.getS 2 = BitVec.ofNat 64 c.code ∧ a.getS 3 = v ∧
      a.getS 30 = (b.getS 30 - 256#64) &&& ~~~(15#64) := by
    rw [hact]
    exact upcallAct_registers ..
  obtain ⟨hwait, hqin, hqout⟩ : a.wait = none ∧ a.qin = [] ∧ a.qout = [] := by
    rw [hact]
    exact upcallAct_queues ..
  refine ⟨hpc, hupcall, by rw [hact]; rfl, by rw [hact]; rfl, hwait, hqin, hqout, h1, h2, h3, h30, by rw [hact]; rfl, by rw [hact]; rfl,
    by rw [hact]; rfl, by rw [hact]; rfl, by rw [hact]; rfl, by rw [hact]; rfl, by rw [hact]; rfl, by rw [hact]; rfl, hfibre, hfreel, hid,
    fun hloc hw hin hout => ?_⟩
  have hread : ∀ {o n x : Nat}, BytesAt (recordBytes b _ c v _) o (leBytes n x) → x < 256 ^ n → readNat t (loc + o) n = x :=
    fun {_ _ _} h => readNat_trapped haway h0 halign hok hload hstore hown hport hpriv hc hin hout hloc hw (trapRecord_user hpriv c v ▸ h)
  have hfill : ∀ {o k : Nat}, BytesAt (recordBytes b _ c v _) o (List.replicate k 0) → ∀ i, o ≤ i → i < o + k → readByte t (loc + i) = 0 :=
    fun {_ _} h _ => readByte_trapped_fill haway h0 halign hok hload hstore hown hport hpriv hc hin hout hloc hw (trapRecord_user hpriv c v ▸ h)
  have hword : ∀ {o : Nat} {x : Word}, BytesAt (recordBytes b _ c v _) o (leBytes 8 x.toNat) → word o = x.toNat := fun {_ x} h => hread h x.isLt
  have hnat : ∀ {o n : Nat}, BytesAt (recordBytes b _ c v _) o (leBytes 8 (BitVec.ofNat 64 n).toNat) → n < 2 ^ 64 → word o = n :=
    fun {_ _} h hn => (hword h).trans ((BitVec.toNat_ofNat ..).trans (Nat.mod_eq_of_lt hn))
  refine ⟨fun x hx => hword (record_first _ _ _ _ _ x hx), hnat (record_word _ _ _ _ _ (k := 11) (by norm_num)) ?_,
    hnat (record_word _ _ _ _ _ (k := 12) (by norm_num)) ((logicalOf_lt ..).trans (by norm_num)), fun r => hword (record_scalar _ _ _ _ _ r),
    fun r => hword (record_ext _ _ _ _ _ r), fun r => ?_, fun r l => ?_, fun i h => hword (record_qinWord _ _ _ _ _ h),
    fun i h => hword (record_qoutWord _ _ _ _ _ (by omega) h), ?_, fun l hl ho => ?_⟩
  · omega
  · rw [Nat.add_assoc]
    exact hread (record_pred _ _ _ _ _ r) (b.getP r).isLt
  · rw [Nat.add_assoc, Nat.add_assoc]
    exact hread (record_lane _ _ _ _ _ r l) (b.getV r)[l].isLt
  · simp only [List.forall_mem_cons]
    exact ⟨hfill (record_headFill ..), hfill (record_predFill ..), hfill (record_end _ _ _ _ (by omega) hout), List.forall_mem_nil _⟩
  · exact readByte_trapped_out haway h0 halign hok hload hstore hown hport hpriv hc hin hout hl ho

end Sys2Proof
end

section
/-!
SUPPORT. The page-table walk (R125-R134): one lemma per outcome of an entry, and what setting a leaf's bits writes.
-/

namespace Sys2Proof.Machine

/-! ### Fields of an entry (R127, R128) -/

theorem bits_eq_extract {n : Nat} (w : BitVec n) (hi lo : Nat) : bits w hi lo = (w.extractLsb' lo (hi + 1 - lo)).toNat := by
  rw [bits, BitVec.extractLsb'_toNat, Nat.shiftRight_eq_div_pow]

/-- A field inside a mask that a word has no bit of is 0. -/
theorem extract_of_masked {w m : Word} (h : w &&& m = 0) {lo len : Nat} (hm : ∀ i < len, m.getLsbD (lo + i) = true) :
    w.extractLsb' lo len = 0 := by
  apply BitVec.eq_of_getLsbD_eq
  intro i hi
  have hbit : (w &&& m).getLsbD (lo + i) = false := by rw [h]; exact BitVec.getLsbD_zero
  rw [BitVec.getLsbD_and, hm i hi, Bool.and_true] at hbit
  rw [BitVec.getLsbD_extractLsb', hbit, Bool.and_false]
  exact BitVec.getLsbD_zero.symm

/-- The bits of word 0 that an entry of this module's memory must have at 0 (R127). -/
def entryMask : Word := 0xFFFF_0000_0000_E000#64

theorem entryBad_masked {w : Word} (h : w &&& entryMask = 0) (ht : w.extractLsb' 10 2 ≠ 3) : entryBad w = false := by
  have hfield : ∀ hi lo, (∀ i < hi + 1 - lo, entryMask.getLsbD (lo + i) = true) → bits w hi lo = 0 := fun hi lo hm => by
    rw [bits_eq_extract, extract_of_masked h hm]
    rfl
  have htier : bits w 11 10 ≠ 3 := fun h3 => ht (BitVec.eq_of_toNat_eq ((bits_eq_extract w 11 10).symm.trans h3))
  simp [entryBad, hfield 63 58 (by decide), hfield 51 48 (by decide), hfield 15 13 (by decide), hfield 57 52 (by decide), htier]

theorem entryPa_eq (w : Word) : entryPa w = (w.extractLsb' 16 32).toNat * 65536 := by
  rw [entryPa, bits_eq_extract]
  norm_num

theorem inHbm_iff (pa : Nat) : inHbm pa = true ↔ pa < Config.hbmBytes := by rw [inHbm, decide_eq_true_eq]
theorem inTier2_iff (pa : Nat) : inTier2 pa = true ↔ Config.tier2Base ≤ pa ∧ pa < Config.tier2Base + Config.tier2Bytes := by
  rw [inTier2, Bool.and_eq_true, decide_eq_true_eq, decide_eq_true_eq]

/-- The frame of an entry of tier 0 or 1 lies in its tier's range (R128). -/
def InTier (w : Word) : Prop :=
  (w.extractLsb' 10 2 = 0 ∧ inHbm (entryPa w) = true) ∨ (w.extractLsb' 10 2 = 1 ∧ inTier2 (entryPa w) = true)

section Tier
variable {w : Word} (h : InTier w)
include h

theorem InTier.tier : bits w 11 10 < 2 ∧ frameInTier (bits w 11 10) (entryPa w) = true := by
  rw [bits_eq_extract]
  obtain ⟨ht, hf⟩ | ⟨ht, hf⟩ := h
  · rw [ht]
    exact ⟨by decide, hf⟩
  · rw [ht]
    exact ⟨by decide, hf⟩

theorem InTier.not_reserved : w.extractLsb' 10 2 ≠ 3 := by
  obtain ⟨ht, -⟩ | ⟨ht, -⟩ := h <;> rw [ht] <;> decide

/-- Frames are of 64 KiB, and both ranges are whole frames (R10, R126). -/
theorem InTier.backed {x : Nat} (hx : x < 2 ^ 16) : backed (entryPa w + x) = true := by
  have hw : entryPa w = 65536 * bits w 47 16 := Nat.mul_comm ..
  simp only [InTier, inHbm_iff, inTier2_iff, hw, Config.hbmBytes, Config.tier2Base, Config.tier2Bytes] at h
  simp only [Machine.backed, Bool.or_eq_true, inHbm_iff, inTier2_iff, hw, Config.hbmBytes, Config.tier2Base, Config.tier2Bytes]
  omega

end Tier

/-! ### One level of the walk (R129) -/

section Level
variable {s : State} {who : Who} {va node left : Nat} {k : AccKind} {w : Word} (hp : poisonAbout s = false)
variable (hw : readWord s (node + 16 * walkIndex (3 - left) va) = w)
include hp hw

theorem walkFrom_invalid (h : w.getLsbD 0 = false) : walkFrom s who va k node (left + 1) = .fault .notmapped := by
  simp [walkFrom, poisonFault_none hp, hw, bit_eq_getLsbD, -BitVec.getLsbD_eq_getElem, h]

variable (hv : w.getLsbD 0 = true)
include hv

theorem walkFrom_migrating (h : w.getLsbD 9 = true) :
    walkFrom s who va k node (left + 1) = .migrating (node + 16 * walkIndex (3 - left) va) := by
  simp [walkFrom, poisonFault_none hp, hw, bit_eq_getLsbD, -BitVec.getLsbD_eq_getElem, hv, h]

variable (hm : w.getLsbD 9 = false)
include hm

/-- No table lies below the last level (R129). -/
theorem walkFrom_bottom (hleft : left = 0) (h : w.getLsbD 1 = false) : walkFrom s who va k node (left + 1) = .fault .notmapped := by
  subst hleft
  simp [walkFrom, poisonFault_none hp, hw, bit_eq_getLsbD, -BitVec.getLsbD_eq_getElem, hv, hm, h]

variable (hb : w &&& entryMask = 0) (ht : w.extractLsb' 10 2 ≠ 3)
include hb ht

theorem walkFrom_nonresident (hleft : left ≠ 0) (hn : w.getLsbD 1 = false) (h : w.getLsbD 12 = true) :
    walkFrom s who va k node (left + 1) = .fault .walknonres := by
  simp [walkFrom, poisonFault_none hp, hw, bit_eq_getLsbD, -BitVec.getLsbD_eq_getElem, hv, hm, entryBad_masked hb ht, hleft, hn, h]

omit ht in
theorem walkFrom_remote (hleft : left ≠ 0) (hn : w.getLsbD 1 = false) (hr : w.getLsbD 12 = false) (h : w.extractLsb' 10 2 = 2) :
    walkFrom s who va k node (left + 1) = .fault .walkremote := by
  have htier : bits w 11 10 = 2 := by rw [bits_eq_extract, h]; rfl
  simp [walkFrom, poisonFault_none hp, hw, bit_eq_getLsbD, -BitVec.getLsbD_eq_getElem, hv, hm, entryBad_masked hb (by rw [h]; decide),
    hleft, hn, hr, htier]

omit ht in
/-- The walk goes on through a node. -/
theorem walkFrom_node (hleft : left ≠ 0) (hn : w.getLsbD 1 = false) (hr : w.getLsbD 12 = false) (ha : w.getLsbD 16 = false)
    (h : InTier w) : walkFrom s who va k node (left + 1) = walkFrom s who va k (entryPa w) left := by
  obtain ⟨hlt, hf⟩ := h.tier
  simp [walkFrom, poisonFault_none hp, hw, bit_eq_getLsbD, -BitVec.getLsbD_eq_getElem, hv, hm, entryBad_masked hb h.not_reserved,
    hleft, hn, hr, ha, hf, Nat.ne_of_lt hlt]

omit ht in
/-- A leaf of the last level decides the access (R131). -/
theorem walkFrom_leaf (hleft : left = 0) (hn : w.getLsbD 1 = true) (h : InTier w) : walkFrom s who va k node (left + 1) =
    leafRes s who ⟨who.asid, 3, va / 2 ^ 16, w, readWord s (node + 16 * walkIndex 3 va + 8), node + 16 * walkIndex 3 va⟩ va k := by
  subst hleft
  have hframe : entryPa w % 2 ^ leafBits 3 = 0 := Nat.mul_mod_left ..
  simp only [Nat.sub_zero] at hw
  simp [walkFrom, poisonFault_none hp, hw, bit_eq_getLsbD, -BitVec.getLsbD_eq_getElem, hv, hm, entryBad_masked hb h.not_reserved,
    hn, h.tier.2, hframe]
  rfl

end Level

/-! ### A leaf's checks (R130, R131) -/

section Leaf
variable {s : State} {who : Who} {va : Nat} {k : AccKind} {e : TlbEntry}

theorem leafRes_fault {c : Cause} (h : checkLeaf who e.w0 e.w1 k = some c) : leafRes s who e va k = .fault c := by
  simp only [leafRes, h]

theorem leafRes_ok (h : checkLeaf who e.w0 e.w1 k = none) (hlvl : e.lvl = 3) (ht : InTier e.w0) :
    leafRes s who e va k = .ok (entryPa e.w0 + va % 2 ^ 16) none e := by
  have hback : backed (entryPa e.w0 + va % 2 ^ 16) = true := ht.backed (Nat.mod_lt _ (by norm_num))
  have hbits : leafBits 3 = 16 := rfl
  simp only [leafRes, h, hlvl, hbits, if_neg (Nat.ne_of_lt ht.tier.1), if_pos hback]

end Leaf

section Check
variable {who : Who} {w0 w1 : Word} (k : AccKind)

theorem checkLeaf_priv (h : w0.getLsbD 6 = true) (hp : who.priv = false) : checkLeaf who w0 w1 k = some .priv := by
  simp [checkLeaf, bit_eq_getLsbD, -BitVec.getLsbD_eq_getElem, h, hp]

variable (hp : w0.getLsbD 6 = false ∨ who.priv = true)
include hp

theorem checkLeaf_group {g : Nat} (hg : who.group = some g) (h : w1.getLsbD g = false) : checkLeaf who w0 w1 k = some .group := by
  have hpriv : (w0.getLsbD 6 && !who.priv) = false := by rcases hp with hp | hp <;> simp [hp, -BitVec.getLsbD_eq_getElem]
  simp [checkLeaf, bit_eq_getLsbD, -BitVec.getLsbD_eq_getElem, hpriv, hg, h]

/-- The check of an access kind, once PRIV and GROUP have passed. -/
theorem checkLeaf_kind (hg : ∀ g, who.group = some g → w1.getLsbD g = true) : checkLeaf who w0 w1 k =
    match k with
    | .load => if w0.getLsbD 2 then none else some .read
    | .store => if w0.getLsbD 3 then none else some .write
    | .atomic => if w0.getLsbD 3 = false then some .write else if w0.getLsbD 5 = false then some .atomic
        else if w0.getLsbD 2 then none else some .read
    | .fetch => if w0.getLsbD 4 then none else some .exec
    | .prefetch => none := by
  have hpriv : (w0.getLsbD 6 && !who.priv) = false := by rcases hp with hp | hp <;> simp [hp, -BitVec.getLsbD_eq_getElem]
  cases h : who.group with
  | none => cases k <;> simp [checkLeaf, bit_eq_getLsbD, -BitVec.getLsbD_eq_getElem, hpriv, h]
  | some g => cases k <;> simp [checkLeaf, bit_eq_getLsbD, -BitVec.getLsbD_eq_getElem, hpriv, h, hg g h]

end Check

/-! ### A leaf's bits are set (R133) -/

/-- Word 0 of a leaf once an access of a kind has passed. -/
def passedWord (k : AccKind) (w : Word) : Word := w ||| BitVec.ofNat 64 (kindBits k)

theorem tlbPush_head (n : Nat) (e : TlbEntry) (l : List TlbEntry) : e ∈ tlbPush (n + 1) e l := by simp [tlbPush]

theorem mem_tlbFill (s : State) (h : TlbHome) (e : TlbEntry) : e ∈ tlbOf (tlbFill s h e) h := by
  cases h with
  | core c =>
    have hcore : e ∈ (coreOf (modCore s c (fun x => { x with tlb := tlbPush 64 e x.tlb })) c).tlb := by
      rw [coreOf_modCore_self]
      exact tlbPush_head ..
    simp only [tlbOf, tlbFill]
    split
    · exact List.mem_append_left _ hcore
    · exact List.mem_append_left _ hcore
  | clause c =>
    simp only [tlbOf, tlbFill, clauseOf_modClause_self]
    exact tlbPush_head ..
  | port p =>
    simp only [tlbOf, tlbFill, tmod, tgetD_tset_self]
    exact tlbPush_head ..

theorem tlbFill_undef (s : State) (h : TlbHome) (e : TlbEntry) : (tlbFill s h e).undef = s.undef := by
  cases h with
  | core c =>
    simp only [tlbFill]
    split <;> rfl
  | clause c => rfl
  | port p => rfl

theorem readByte_tlbFill (s : State) (h : TlbHome) (e : TlbEntry) (loc : Nat) : readByte (tlbFill s h e) loc = readByte s loc :=
  readByte_congr (tlbFill_mem ..) (tlbFill_undef ..) loc

theorem readWord_congr {s t : State} (h : ∀ loc, readByte t loc = readByte s loc) (loc : Nat) : readWord t loc = readWord s loc := by
  simp only [readWord, readNat, readBytes, h]

theorem readWord_writeWord {s : State} (hw : MemoryCanonical s) (ctx loc : Nat) (w : Word) : readWord (writeWord s ctx loc w) loc = w := by
  have hread := readBytes_writeBytes hw ctx loc (leBytes 8 w.toNat)
  rw [length_leBytes] at hread
  rw [readWord, readNat, writeWord, hread, leNat_leBytes, Nat.mod_eq_of_lt (by exact w.isLt), BitVec.ofNat_toNat, BitVec.setWidth_eq]

/-- An entry that still holds what the walk read gets the bits of the access, and no other byte changes. -/
theorem setLeafBits_held {s : State} (hw : MemoryCanonical s) (k : AccKind) {e : TlbEntry} (h : readWord s e.entryPa = e.w0) :
    readWord (setLeafBits s k e).1 e.entryPa = passedWord k e.w0 ∧ (setLeafBits s k e).2 = { e with w0 := passedWord k e.w0 } ∧
    ∀ loc, (loc < e.entryPa ∨ e.entryPa + 8 ≤ loc) → readByte (setLeafBits s k e).1 loc = readByte s loc := by
  by_cases hsame : passedWord k e.w0 = e.w0
  · have hset : setLeafBits s k e = (s, e) := if_pos hsame
    rw [hset, hsame]
    exact ⟨h, rfl, fun _ _ => rfl⟩
  · have hset : setLeafBits s k e = (writeWord s 0 e.entryPa (passedWord k e.w0), { e with w0 := passedWord k e.w0 }) :=
      (if_neg hsame).trans (if_pos h)
    rw [hset]
    exact ⟨readWord_writeWord hw .., rfl, fun loc hl => readByte_writeBytes_out s 0 _ (by rw [length_leBytes]; exact hl)⟩

/-- The leaf of an access that has passed, in its entry and in the agent's buffer. -/
theorem commitLeaves_leaf {s : State} (hw : MemoryCanonical s) (who : Who) (k : AccKind) {e : TlbEntry} (h : readWord s e.entryPa = e.w0) :
    readWord (commitLeaves s who k [e]) e.entryPa = passedWord k e.w0 ∧
    { e with w0 := passedWord k e.w0 } ∈ tlbOf (commitLeaves s who k [e]) who.tlb ∧
    ∀ loc, (loc < e.entryPa ∨ e.entryPa + 8 ≤ loc) → readByte (commitLeaves s who k [e]) loc = readByte s loc := by
  have hended : ∀ loc, readByte (endWalks s who) loc = readByte s loc := fun loc => by rw [endWalks_eq]; rfl
  have hcanon : MemoryCanonical (endWalks s who) := by rw [endWalks_eq]; exact hw
  obtain ⟨hword, hleaf, hrest⟩ := setLeafBits_held hcanon k ((readWord_congr hended _).trans h)
  have hcommit : commitLeaves s who k [e] = tlbFill (setLeafBits (endWalks s who) k e).1 who.tlb { e with w0 := passedWord k e.w0 } := by
    rw [← hleaf]
    rfl
  rw [hcommit]
  exact ⟨(readWord_congr (fun _ => readByte_tlbFill ..) _).trans hword, mem_tlbFill ..,
    fun loc hl => (readByte_tlbFill ..).trans ((hrest loc hl).trans (hended loc))⟩

theorem passedWord_eq (k : AccKind) (w : Word) :
    passedWord k w = w ||| (if k = .prefetch then 0#64 else if k = .store ∨ k = .atomic then 0x180#64 else 0x100#64) := by
  cases k <;> rfl

/-! ### The whole walk (R129) -/

section Walk
variable {s : State} {who : Who} {va : Nat} {k : AccKind} (hva : va < 2 ^ 55)
variable (htlb : (tlbOf s who.tlb).find? (tlbCovers who.asid va) = none)
include hva htlb

/-- An address that no buffered leaf covers is walked for, by a free walker. -/
theorem translate1_walks : translate1 s who va k = if walkerFree s who va then walkFrom s who va k who.root 3 else .busy := by
  simp only [translate1, if_neg (Nat.not_le.2 hva), htlb]

end Walk

end Sys2Proof.Machine

namespace Sys2Proof
open Machine

/-- Settles O57: each entry of the walk by its outcome (`walkFrom_node`, `walkFrom_leaf`), the leaf by its checks in order (`checkLeaf_priv`,
`checkLeaf_group`, `checkLeaf_kind`), and the bits of an access that has passed (`commitLeaves_leaf`). -/
theorem translation : Obligations.Translation := by
  intro s who k va w1 w2 w3 m3 walk frame inTier entry node at1 at3 hva htlb hp hw1
  have hframe : frame = entryPa := funext fun w => (entryPa_eq w).symm
  have hintier : inTier = InTier := by simp only [inTier, hframe]; rfl
  have hwalk : walk = _ := translate1_walks hva htlb
  refine ⟨fun hb => by rw [hwalk, hb]; rfl, fun hfree => ?_⟩
  rw [hfree, if_pos rfl] at hwalk
  change readWord s (who.root + 16 * walkIndex (3 - 2) va) = w1 at hw1
  refine ⟨fun h => hwalk.trans (walkFrom_invalid hp hw1 h), fun hv hm => hwalk.trans (walkFrom_migrating hp hw1 hv hm),
    fun ⟨hv, hm, hb⟩ hn ht hr => hwalk.trans (walkFrom_nonresident hp hw1 hv hm hb ht (by decide) hn hr),
    fun ⟨hv, hm, hb⟩ hn hr ht => hwalk.trans (walkFrom_remote hp hw1 hv hm hb (by decide) hn hr ht), ?_⟩
  rintro ⟨⟨hv1, hm1, hb1⟩, hn1, hr1, ha1, ht1⟩ hw2 ⟨⟨hv2, hm2, hb2⟩, hn2, hr2, ha2, ht2⟩ hw3 hm3
  rw [hintier] at ht1 ht2
  rw [hframe] at hw2
  have hat3 : at3 = entryPa w2 + 16 * walkIndex (3 - 0) va := by simp only [at3, hframe]; rfl
  clear_value at3
  subst hat3
  change readWord s (entryPa w1 + 16 * walkIndex (3 - 1) va) = w2 at hw2
  rw [walkFrom_node hp hw1 hv1 hm1 hb1 (by decide) hn1 hr1 ha1 ht1, walkFrom_node hp hw2 hv2 hm2 hb2 (by decide) hn2 hr2 ha2 ht2] at hwalk
  refine ⟨fun h => hwalk.trans (walkFrom_invalid hp hw3 h), fun ⟨hv, hm, _⟩ hn => hwalk.trans (walkFrom_bottom hp hw3 hv hm rfl hn), ?_⟩
  rintro ⟨hv3, hm3', hb3⟩ hn3 ht3 leaf found
  rw [hintier] at ht3
  change readWord s (entryPa w2 + 16 * walkIndex 3 va + 8) = m3 at hm3
  rw [walkFrom_leaf hp hw3 hv3 hm3' hb3 rfl hn3 ht3, hm3] at hwalk
  have hfound : checkLeaf who w3 m3 k = none → walk = found := fun h => by
    simp only [found, hframe]
    exact hwalk.trans (leafRes_ok h rfl ht3)
  have hfault : ∀ {c}, checkLeaf who w3 m3 k = some c → walk = .fault c := fun h => hwalk.trans (leafRes_fault h)
  refine ⟨fun h hpriv => hfault (checkLeaf_priv k h hpriv), fun hpriv => ⟨fun g hg h => hfault (checkLeaf_group k hpriv hg h), fun hg => ?_⟩,
    fun hcanon => ?_⟩
  · have hkind := checkLeaf_kind k hpriv hg
    have hdecided : walk = (checkLeaf who w3 m3 k).elim found .fault := by
      cases h : checkLeaf who w3 m3 k with
      | none => exact hfound h
      | some c => exact hfault h
    rw [hkind] at hdecided
    clear_value found
    refine ⟨?_, ?_, ?_, ?_, by rintro rfl; exact hdecided⟩ <;>
    · rintro rfl
      rw [hdecided]
      dsimp only
      split_ifs
      all_goals rfl
  · simp only [← passedWord_eq]
    exact commitLeaves_leaf hcanon who k hw3
end Sys2Proof
end

section
/-!
SUPPORT. Invalidations (R141, R373): what removing a buffered leaf leaves alone; and the line that a prefetch brings (R151, R374).
-/

namespace Sys2Proof.Machine

/-! ### What an invalidation removes (R141) -/

section Invalidate
variable (s : State) (sc : Scope) (x asid : Nat) (va : Option Nat)

theorem coreOf_invalidate (k : Nat) : coreOf (invalidate s sc x asid va) k =
    if coreInScope sc x k then { coreOf s k with tlb := tlbRemove asid va (coreOf s k).tlb } else coreOf s k := by
  have hget := tget_mapKeyed (fun j (c : Core) => if coreInScope sc x j then { c with tlb := tlbRemove asid va c.tlb } else c) s.cores k
  simp only [coreOf, tgetD, invalidate, hget]
  cases tget s.cores k with
  | some c => rfl
  | none =>
    split
    · rfl
    · rfl

/-- A field of a core that is not its buffer of leaves. -/
theorem invalidate_keeps {α : Type} (g : Core → α) (hg : ∀ (k : Core) (l : List TlbEntry), g { k with tlb := l } = g k) (k : Nat) :
    g (coreOf (invalidate s sc x asid va) k) = g (coreOf s k) := by
  rw [coreOf_invalidate]
  split
  · exact hg ..
  · rfl

theorem actAt_invalidate (c : Cur) : actAt (invalidate s sc x asid va) c = actAt s c := by
  simp only [actAt, invalidate_keeps s sc x asid va Core.active (fun _ _ => rfl), invalidate_keeps s sc x asid va Core.away (fun _ _ => rfl)]

theorem ctxAt_invalidate (c : Cur) : ctxAt (invalidate s sc x asid va) c = ctxAt s c := by
  simp only [ctxAt, invalidate_keeps s sc x asid va Core.active (fun _ _ => rfl)]

theorem tlb_invalidate {k : Nat} (hk : coreInScope sc x k = true) :
    ∀ e ∈ (coreOf (invalidate s sc x asid va) k).tlb, tlbNamed asid va e = false := by
  intro e he
  rw [coreOf_invalidate, if_pos hk] at he
  simpa using (List.mem_filter.1 he).2

end Invalidate

theorem tlbNamed_one {asid a : Nat} {e : TlbEntry} (h : tlbNamed asid (some a) e = false) : tlbCovers asid a e = false := h

theorem tlbNamed_all {asid : Nat} {e : TlbEntry} (h : tlbNamed asid none e = false) : e.asid ≠ asid := by simpa [tlbNamed] using h

/-! ### TLBINV and TLBINVA (R373) -/

theorem tlb_setAct (s : State) (a : Act) (c : Nat) : (coreOf (setAct s a) c).tlb = (coreOf s c).tlb := by
  unfold setAct setActAt
  by_cases h : c = s.cur.core
  · subst h
    cases s.cur.away <;> simp
  · cases s.cur.away <;> simp [coreOf_modCore_ne _ _ h]

/-- The agent of the current activation rests on its place, its context and its number. -/
theorem agentNow_congr {s t : State} (hcur : t.cur = s.cur) (hctx : ctxAt t t.cur = ctxAt s s.cur) (hact : actAt t t.cur = actAt s s.cur) :
    agentNow t = agentNow s := by
  simp only [agentNow, who, whoAt, hctx, hact]
  rw [hcur]

section Inv
variable {s : State} (h : Solo s) {g : Gate} (sc : Scope) (asid : Nat) (va : Option Nat)

theorem gated_privileged (i : Instr) (body : State → Res) (hp : (act s).priv = true) : gated (privGate i) body s = body s :=
  gated_pass body (by simp [privGate, baseGate]) rfl (by simp [privGate, baseGate, lacksExt]) (.inr hp)

/-- The state in which an invalidation has begun: its buffers are invalidated, and it is listed under the next id. -/
def invalidating (s : State) (sc : Scope) (asid : Nat) (va : Option Nat) : State :=
  let t := invalidate s sc (home s) asid va
  { t with invals := tset s.invals s.ids ⟨agentNow s, sc, asid, va, false, s.ids⟩, ids := s.ids + 1 }

theorem invBody_first (hf : FirstIssue s) :
    invBody sc asid va s = .stall (invalidating s sc asid va) { waiting s 0 0 with stage := 1, tags := [s.ids] } := by
  have hagent : agentNow (invalidate s sc (home s) asid va) = agentNow s :=
    agentNow_congr rfl (ctxAt_invalidate ..) (actAt_invalidate ..)
  have hstage : (waiting s 0 0).stage ≠ 1 := by simp [waiting]
  simp only [invBody, waitOr_first hf, if_neg hstage, hagent]
  rfl

/-- A first issue invalidates, and waits. -/
theorem invBody_begins (h : Solo s) (hf : FirstIssue s) : let t := finish g (invBody sc asid va s)
    (act t).pc = (act s).pc ∧ (act t).wait = some { waiting s 0 0 with stage := 1, tags := [s.ids] } ∧
    tget t.invals s.ids = some ⟨agentNow s, sc, asid, va, false, s.ids⟩ ∧
    ∀ k, coreInScope sc (home s) k = true → ∀ e ∈ (coreOf t k).tlb, tlbNamed asid va e = false := by
  intro t
  let u := invalidating s sc asid va
  have hact : actAt u u.cur = actAt s s.cur := actAt_invalidate ..
  have hu : act u = act s := by simp only [act, hact]
  have ht : t = setAct u { act u with wait := some { waiting s 0 0 with stage := 1, tags := [s.ids] } } := by
    simp only [t, invBody_first sc asid va hf]
    rfl
  have hset : act t = { act s with wait := some { waiting s 0 0 with stage := 1, tags := [s.ids] } } := by
    rw [ht, act_setAct (by rw [hact]; exact h.1), hu]
  refine ⟨by rw [hset], by rw [hset], ?_, fun k hk => ?_⟩
  · rw [ht, setAct_invals]
    exact tget_tset_self ..
  · rw [ht, tlb_setAct]
    exact tlb_invalidate s sc (home s) asid va hk

/-- The invalidation is complete: it is listed no more, and the instruction ends. -/
theorem invBody_ends {w : Wait} {v : Word} (hw : (act s).wait = some w) (hst : w.stage = 1) (hr : w.reply = some v) :
    invBody sc asid va s = .ok { s with invals := s.invals.filter (fun i => !(w.tags.contains i.1)) } := by
  have hwait : waitOr s 0 0 = w := by simp [waitOr, hw]
  simp only [invBody, hwait, hst, if_true, hr]

end Inv

/-! ### The line that a plain load brings (R151) -/

section Line
variable {s : State} (loc : Nat)

theorem loadAll_unsent (h : Unsent s) (fresh : Bool) (va : Nat → Word) (ps : List LPart) : loadAll s fresh va ps = runLoad s fresh 0 [] ps := by
  cases hw : (act s).wait with
  | none => simp only [loadAll, hw]
  | some w =>
    obtain ⟨htags, hreply, hbytes, -, -⟩ := h w hw
    simp [loadAll, hw, htags, hreply, hbytes]

theorem refusedOr_unsent {α : Type} (h : Unsent s) (x : α) : refusedOr s x = .val s x := by
  cases hw : (act s).wait with
  | none => simp [refusedOr, hw]
  | some w => simp [refusedOr, hw, (h w hw).2.2.2.1, bestBy]

theorem FirstIssue.unsent (h : FirstIssue s) : Unsent s := fun w hw => by
  rw [FirstIssue, hw] at h
  cases h

/-- A whole line is one line. -/
theorem linesOf_line : linesOf (loc / 64 * 64) 64 = [loc / 64] := by
  have h : (loc / 64 * 64 + 64 - 1) / 64 - loc / 64 * 64 / 64 + 1 = 1 := by omega
  rw [linesOf, h]
  simp

theorem runLoad_lineHeld (h : (rlbFind s (loc / 64)).isSome = true) :
    ∃ bs, runLoad s false 0 [] [.mem none (loc / 64 * 64) 64] = .val s bs := by
  obtain ⟨b, hb⟩ := Option.isSome_iff_exists.1 h
  simp [runLoad, LPart.size, linesOf_line, lineKey, hb]

theorem runLoad_lineFills (h : (rlbFind s (loc / 64)).isSome = false) (hp : s.heldPorts = false) :
    ∃ bs, runLoad s false 0 [] [.mem none (loc / 64 * 64) 64] = .val (rlbFill s (loc / 64)) bs := by
  have hnone : rlbFind s (loc / 64) = none := by simpa using h
  simp [runLoad, LPart.size, linesOf_line, lineKey, hnone, hp]

theorem runLoad_lineAsks (h : (rlbFind s (loc / 64)).isSome = false) (hp : s.heldPorts = true) :
    runLoad s false 0 [] [.mem none (loc / 64 * 64) 64] = .stall (sendReq s .load [(loc / 64 * 64, 64, [])]) (askWait s []) := by
  have hnone : rlbFind s (loc / 64) = none := by simpa using h
  simp [runLoad, LPart.size, linesOf_line, lineKey, hnone, hp]

/-- Filling a line leaves the activation's wait. -/
theorem Unsent.rlbFill (hs : Solo s) (h : Unsent s) (line : Nat) : Unsent (rlbFill s line) := by
  intro w hw
  rw [Machine.rlbFill, modAct, act_setAct hs.1] at hw
  exact h w hw

theorem loadParts_lineAtHand (hs : Solo s) (hu : Unsent s) (h : LineAtHand s loc) (va : Nat → Word) :
    ∃ bs, loadParts s false va [.mem none (loc / 64 * 64) 64] = .val (lineHeld s loc) bs := by
  by_cases hf : (rlbFind s (loc / 64)).isSome = true
  · obtain ⟨bs, hbs⟩ := runLoad_lineHeld loc hf
    exact ⟨bs, by rw [loadParts, loadAll_unsent hu, hbs, Got.bind, refusedOr_unsent hu, lineHeld, if_pos hf]⟩
  · obtain ⟨bs, hbs⟩ := runLoad_lineFills loc (Bool.eq_false_iff.2 hf) (h.resolve_right hf)
    exact ⟨bs, by rw [loadParts, loadAll_unsent hu, hbs, Got.bind, refusedOr_unsent (hu.rlbFill hs _), lineHeld, if_neg hf]⟩

theorem loadParts_lineAsks (hu : Unsent s) (h : ¬LineAtHand s loc) (va : Nat → Word) :
    loadParts s false va [.mem none (loc / 64 * 64) 64] = .stall (sendReq s .load [(loc / 64 * 64, 64, [])]) (askWait s []) := by
  obtain ⟨hp, hf⟩ := not_or.1 h
  rw [loadParts, loadAll_unsent hu, runLoad_lineAsks loc (Bool.eq_false_iff.2 hf) (Bool.eq_true_of_not_eq_false hp)]
  rfl

end Line

/-! ### XPREF (R374) -/

section Xpref
variable {s : State} {b : SReg} (h : Solo s)
include h

theorem exec_xpref_unpaged (hr : rangeOf (rS s b) ≠ .paged) : exec (.xpref b) s = .next (after 4 s) := by
  show execXpref b s = _
  rw [execXpref, issue_base h, if_pos hr]
  rfl

variable (hr : rangeOf (rS s b) = .paged)
include hr

theorem exec_xpref_untranslated (ht : ∀ ps ls, translateAll s (who s) .prefetch [((rS s b).toNat, 1)] ≠ .ok ps ls) :
    exec (.xpref b) s = .next (after 4 s) := by
  show execXpref b s = _
  rw [execXpref, issue_base h, if_neg (not_not.2 hr)]
  cases hx : translateAll s (who s) .prefetch [((rS s b).toNat, 1)] with
  | ok ps ls => exact absurd hx (ht ps ls)
  | fault f v => rfl
  | wait v x => rfl

variable {loc n : Nat} {ls : List TlbEntry} (ht : translateAll s (who s) .prefetch [((rS s b).toNat, 1)] = .ok [[(loc, none, n)]] ls)
include ht

theorem exec_xpref_brings (hu : Unsent s) (hl : LineAtHand s loc) : exec (.xpref b) s = .next (after 4 (lineHeld s loc)) := by
  obtain ⟨bs, hbs⟩ := loadParts_lineAtHand loc h hu hl (fun _ => rS s b)
  show execXpref b s = _
  rw [execXpref, issue_base h, if_neg (not_not.2 hr)]
  simp only [ht, List.flatten_cons, List.flatten_nil, List.append_nil, hbs]
  rfl

theorem exec_xpref_asks (hf : FirstIssue s) (hl : ¬LineAtHand s loc) :
    exec (.xpref b) s = .next (blocked (sendReq s .load [(loc / 64 * 64, 64, [])]) (askWait s [])) := by
  have hask := loadParts_lineAsks loc hf.unsent hl (fun _ => rS s b)
  show execXpref b s = _
  rw [execXpref, issue_base h, if_neg (not_not.2 hr)]
  simp only [ht, List.flatten_cons, List.flatten_nil, List.append_nil, hask]
  rfl

end Xpref

end Sys2Proof.Machine

namespace Sys2Proof
open Machine

/-- Settles O27: a privileged first issue invalidates and waits (`invBody_begins`), and ends once the answer has come (`invBody_ends`); XPREF
brings the line, or asks for it (`exec_xpref_brings`, `exec_xpref_asks`). -/
theorem invalidationAndPrefetch : Obligations.InvalidationAndPrefetch := by
  intro s sc b c h
  have hone (hp : (act s).priv = true) : exec (.tlbinv sc b c) s =
      .next (finish (privGate (.tlbinv sc b c)) (invBody sc ((rS s c).toNat % 65536) (some ((rS s b).toNat % 2 ^ 55)) s)) :=
    (issue_solo h _ _).trans (by rw [gated_privileged _ _ hp])
  have hall (hp : (act s).priv = true) : exec (.tlbinva sc b) s =
      .next (finish (privGate (.tlbinva sc b)) (invBody sc ((rS s b).toNat % 65536) none s)) :=
    (issue_solo h _ _).trans (by rw [gated_privileged _ _ hp])
  refine ⟨fun hp hf => ⟨?_, ?_⟩, fun w v hp hw hst hr => ?_, fun hp => ⟨exec_unprivileged h ⟨_, fun _ => rfl⟩ hp,
    exec_unprivileged h ⟨_, fun _ => rfl⟩ hp⟩, exec_xpref_unpaged h, fun f v hr ht => exec_xpref_untranslated h hr (by simp [ht]),
    fun v x hr ht => exec_xpref_untranslated h hr (by simp [ht]), fun loc n ls hr ht => ⟨exec_xpref_brings h hr ht, exec_xpref_asks h hr ht⟩⟩
  · obtain ⟨hpc, hwait, hlist, hgone⟩ := invBody_begins sc ((rS s c).toNat % 65536) (some ((rS s b).toNat % 2 ^ 55)) h hf
    exact ⟨_, s.ids, hone hp, hpc, hwait, hlist, fun k hk e he => tlbNamed_one (hgone k hk e he)⟩
  · obtain ⟨hpc, hwait, hlist, hgone⟩ := invBody_begins sc ((rS s b).toNat % 65536) none h hf
    exact ⟨_, s.ids, hall hp, hpc, hwait, hlist, fun k hk e he => tlbNamed_all (hgone k hk e he)⟩
  · rw [hone hp, hall hp, invBody_ends _ _ _ hw hst hr, invBody_ends _ _ _ hw hst hr]
    exact ⟨rfl, rfl⟩

end Sys2Proof
end

section
/-!
SUPPORT. Accesses held at home ports (R148-R151, R164, R165): what each does once it is its turn, its answer, walks ahead of any access and
the end of an invalidation.
-/

namespace Sys2Proof.Machine

section Events
variable (s : State) (n : Nat)

@[simp] theorem exec_atomicPerform : exec (.atomicPerform n) s = .next (atomicPerform s n) := rfl
@[simp] theorem exec_twoAddressAtomicPerform : exec (.twoAddressAtomicPerform n) s = .next (twoAddressAtomicPerform s n) := rfl

end Events

/-! ### A held request is performed (R148, R164, R165) -/

/-- A held request is performed, with what it read. -/
def reqDone (s : State) (n : Nat) (r : MemReq) (bs : List Byte) : State :=
  { s with reqs := tset s.reqs n { r with performed := true, result := bs } }

section Perform
variable {s : State} {n : Nat} {r : MemReq} (hr : tget s.reqs n = some r) (hready : reqReady s n r = true)

theorem performOr_sound (kind : Nat) (f : State) (h : r.pieces.findSome? (fun x => poisonedIn s x.1 x.2.1) = none) : performOr s n kind r f = f := by
  simp only [performOr, h]

/-- A line lost since the issue: the request is refused, and the context of the line's owner ends (R50, R51). -/
theorem performOr_lost (kind : Nat) (f : State) {x : Nat} (h : r.pieces.findSome? (fun x => poisonedIn s x.1 x.2.1) = some x) :
    performOr s n kind r f =
      lostLine (answerPorts { s with reqs := tset s.reqs n { r with performed := true, lost := true } } n kind (fun _ => 0)) r.ctx x := by
  simp only [performOr, h]

include hr

theorem exec_memoryAccess_request : exec (.memoryAccessPerform (.request n)) s = .next (performReq s n) := by
  show Host.Outcome.next (if (tget s.reqs n).isSome then performReq s n else performPkt s n) = _
  rw [hr]
  rfl

include hready

theorem performReq_store {loc k : Nat} {bs : List Byte} (hop : r.op = .store) (hp : r.pieces = [(loc, k, bs)]) :
    performReq s n = storeAt (answerPorts { s with reqs := tdel s.reqs n } n 9 (fun _ => 0)) r.ctx loc bs := by
  simp [performReq, hr, hready, hop, hp]

theorem performReq_load (hop : r.op = .load) : performReq s n =
    performOr s n 6 r (answerPorts (reqDone s n r (r.pieces.flatMap (fun p => readBytes s p.1 p.2.1))) n 6 id) := by
  simp [performReq, hr, hready, hop, reqDone]

theorem atomicPerform_request {op : AtomOp} {d : Bool} {b e : Word} {loc k : Nat} {bs : List Byte} (hop : r.op = .atomic op d b e)
    (hp : r.pieces = [(loc, k, bs)]) : atomicPerform s n =
    performOr s n 8 r (answerPorts (reqDone (atomAt s r.ctx loc op d b e).1 n r (leBytes k (atomAt s r.ctx loc op d b e).2)) n 8 id) := by
  simp [atomicPerform, hr, hready, hop, hp, reqDone]

theorem twoAddressAtomicPerform_adcas {d : Bool} {e1 e2 nx ny : Word} {x y : Nat × Nat × List Byte} (hop : r.op = .adcas d e1 e2 nx ny)
    (hp : r.pieces = [x, y]) : twoAddressAtomicPerform s n =
    let size := if d then 8 else 4
    let did := adcasAt s r.ctx x.1 y.1 size e1 e2 nx ny
    performOr s n 8 r (answerPorts (reqDone did.1 n r (leBytes size did.2.1 ++ leBytes size did.2.2)) n 8 id) := by
  simp [twoAddressAtomicPerform, hr, hready, hop, hp, reqDone]

theorem twoAddressAtomicPerform_amove {d : Bool} {v : Word} {x y : Nat × Nat × List Byte} (hop : r.op = .amove d v)
    (hp : r.pieces = [x, y]) : twoAddressAtomicPerform s n =
    let size := if d then 8 else 4
    let did := amoveAt s r.ctx x.1 y.1 size v
    performOr s n 8 r (answerPorts (reqDone did.1 n r (leBytes size did.2.1 ++ leBytes size did.2.2)) n 8 id) := by
  simp [twoAddressAtomicPerform, hr, hready, hop, hp, reqDone]

end Perform

theorem atomAt_writes {s : State} {ctx loc : Nat} {op : AtomOp} {d : Bool} {b e : Word} {x : Nat}
    (h : atomNew op d (readNat s loc (if d then 8 else 4)) b.toNat e.toNat = some x) : atomAt s ctx loc op d b e =
    (storeAt s ctx loc (leBytes (if d then 8 else 4) x), readNat s loc (if d then 8 else 4)) := by
  simp only [atomAt, h]

theorem atomAt_keeps {s : State} {ctx loc : Nat} {op : AtomOp} {d : Bool} {b e : Word}
    (h : atomNew op d (readNat s loc (if d then 8 else 4)) b.toNat e.toNat = none) : atomAt s ctx loc op d b e =
    (s, readNat s loc (if d then 8 else 4)) := by
  simp only [atomAt, h]

theorem adcasAt_eq (s : State) (ctx x y k : Nat) (e1 e2 nx ny : Word) : adcasAt s ctx x y k e1 e2 nx ny =
    (if readNat s x k = e1.toNat % 2 ^ (8 * k) ∧ readNat s y k = e2.toNat % 2 ^ (8 * k) then
      storeAt (storeAt s ctx x (leBytes k nx.toNat)) ctx y (leBytes k ny.toNat) else s, readNat s x k, readNat s y k) := by
  by_cases h : readNat s x k = e1.toNat % 2 ^ (8 * k) ∧ readNat s y k = e2.toNat % 2 ^ (8 * k)
  · rw [if_pos h]
    exact if_pos h
  · rw [if_neg h]
    exact if_neg h

/-! ### The answer of a held request leaves its ports (R442) -/

theorem answerPorts_none {s : State} {n : Nat} (h : ∀ m ∈ s.net, isPortOf n false m.2 = false) (kind : Nat) (len : Nat → Nat) :
    answerPorts s n kind len = s := by
  have hnone : s.net.filter (fun p => isPortOf n false p.2) = [] := List.filter_eq_nil_iff.2 fun m hm => by simp [h m hm]
  have hall : s.net.filter (fun p => !isPortOf n false p.2) = s.net := List.filter_eq_self.2 fun m hm => by simp [h m hm]
  rw [answerPorts, hnone, List.foldl_nil, takePorts, hall]

theorem answerPorts_one {s : State} {n i : Nat} {p : Packet} (h : s.net.filter (fun m => isPortOf n false m.2) = [(i, p)]) {kd pa k : Nat}
    (hp : p.payload = .port n kd pa k) (kind : Nat) (len : Nat → Nat) :
    answerPorts s n kind len = memoryAnswer (takePorts s n false) p pa (.portReply n kind pa (len k)) := by
  simp only [answerPorts, h, List.foldl_cons, List.foldl_nil, hp]

theorem tget_memoryAnswer (s : State) (p : Packet) (pa : Nat) (pl : Payload) : ∃ q, tget (memoryAnswer s p pa pl).net s.ids = some q ∧
    q.payload = pl ∧ q.dst = p.src ∧ q.pos = .inject (Config.dieStop (dieOfMemory pa)) :=
  ⟨_, tget_tset_self .., rfl, rfl, rfl⟩

/-! ### The answer reaches the instruction (R150, R151) -/

/-- A wait that has had the answer it had asked for under a tag. -/
def Wait.answered (w : Wait) (n : Nat) (bs : List Byte) : Wait :=
  { w with tags := w.tags.filter (fun i => i ≠ n), bytes := w.bytes ++ bs }

theorem Wait.answered_nil (w : Wait) (n : Nat) : w.answered n [] = { w with tags := w.tags.filter (fun i => i ≠ n) } := by
  rw [Wait.answered, List.append_nil]

section Answer
variable {s : State} {ag : AgentId} {n : Nat} {a : Act} {w : Wait} (ha : actAt s ⟨ag.core, none⟩ = some a)
variable (hx : ctxAt s ⟨ag.core, none⟩ = ag.ctx) (hw : a.wait = some w) (ht : n ∈ w.tags)
include ha hx hw ht

theorem actAt_deliver (bs : List Byte) : actAt (deliver s ag n bs) ⟨ag.core, none⟩ = some { a with wait := some (w.answered n bs) } := by
  rw [deliver, actAt_answer s ag _ ha hx hw]
  simp [ht, Wait.answered, bne, BEq.beq]

theorem refuseTag_asked {va : Word} (hm : s.memos = []) (hr : w.reply = none) (hv : w.vas = [(n, va)]) :
    (refuseTag s ag n).reqs = s.reqs ∧
    actAt (refuseTag s ag n) ⟨ag.core, none⟩ = some { a with wait := some { w.answered n [] with reply := some va } } := by
  have hasked : (dropAsked s n).memos = [] := hm
  simp only [refuseTag, hasked, List.any_nil, Bool.false_eq_true, if_false]
  refine ⟨rfl, ?_⟩
  rw [actAt_answer (dropAsked s n) ag _ ha hx hw, Wait.answered_nil]
  simp [ht, hr, hv, bne, BEq.beq]

omit hw ht in
/-- A whole line fills the read-line buffer (R151). -/
theorem actAt_fillLine (line : Nat) (bs : List Byte) (hb : a.rlb = []) :
    actAt (fillLine s ag line bs) ⟨ag.core, none⟩ = some { a with rlb := [⟨line, bs, s.cyc⟩] } ∧
    ctxAt (fillLine s ag line bs) ⟨ag.core, none⟩ = ag.ctx := by
  simp only [actAt, ctxAt] at ha hx
  cases hf : (coreOf s ag.core).active with
  | none => simp [hf] at ha
  | some f =>
    simp only [hf] at ha hx
    simp [actAt, ctxAt, fillLine, hf, ha, hx, hb]

end Answer

section Reply
variable {s : State} {n : Nat} {r : MemReq} (hr : tget s.reqs n = some r) (hp : r.performed = true) (hin : portsIn s n true = true)
include hr hp hin

/-- The answer is taken off the network, and the request off the list. -/
def replyTaken (s : State) (n : Nat) : State := takePorts { s with reqs := tdel s.reqs n } n true

theorem loadReplyArrival_refused (hl : r.lost = true) : loadReplyArrival s n = refuseTag (replyTaken s n) r.agent n := by
  simp [loadReplyArrival, hr, hp, hin, hl, replyTaken]

theorem loadReplyArrival_line (hl : r.lost = false) (hop : r.op = .load) {loc : Nat} {bs : List Byte} (hpc : r.pieces = [(loc, 64, bs)]) :
    loadReplyArrival s n = deliver (fillLine (replyTaken s n) r.agent (loc / 64) r.result) r.agent n [] := by
  simp [loadReplyArrival, hr, hp, hin, hl, hop, hpc, replyTaken]

theorem loadReplyArrival_bytes (hl : r.lost = false) (hop : r.op = .load) {loc k : Nat} {bs : List Byte} (hpc : r.pieces = [(loc, k, bs)])
    (hk : k ≠ 64) : loadReplyArrival s n = deliver (replyTaken s n) r.agent n r.result := by
  simp [loadReplyArrival, hr, hp, hin, hl, hop, hpc, hk, replyTaken]

end Reply

/-- Lines expire after 4,096 cycles (R151). -/
theorem actAt_readLineExpire {s : State} {c : Nat} {a : Act} (ha : actAt s ⟨c, none⟩ = some a) (n : Nat) :
    actAt (readLineExpire s c n) ⟨c, none⟩ = some { a with rlb := a.rlb.filter (fun b => ¬(b.line = n ∧ b.filled + 4096 ≤ s.cyc)) } := by
  have hexp : ∀ b : LineBuf, (!(b.line == n && b.filled + 4096 ≤ s.cyc)) = decide (¬(b.line = n ∧ b.filled + 4096 ≤ s.cyc)) := fun b => by
    rw [beq_eq_decide, ← Bool.decide_and, decide_not]
  simp only [actAt] at ha
  cases hf : (coreOf s c).active with
  | none => simp [hf] at ha
  | some f =>
    simp only [hf] at ha
    simp only [actAt, readLineExpire, coreOf_modCore_self, hf, Option.map_some, ha, hexp]

/-! ### Walks (R129, R135, R144) -/

section Walks
variable {s : State} {c : Nat} {a : Act} (ha : actAt s ⟨c, none⟩ = some a) (va : Word) (k : AccKind)
include ha

/-- A walk ahead of any access that passes is buffered. -/
theorem pageWalk_ok {ps : List (List (Nat × Option Nat × Nat))} {ls : List TlbEntry}
    (h : translateAll s (whoAt s ⟨c, none⟩) k [(va.toNat, 1)] = .ok ps ls) : let w := whoAt s ⟨c, none⟩
    pageWalk s c va k = ls.foldl (fun u e => tlbFill u w.tlb e)
      { s with walks := s.walks.filter (fun x => !(x.2.agent == w.agent && x.2.unit == w.unit && x.2.va == va.toNat)) } := by
  simp only [pageWalk, ha, h]

theorem pageWalk_fault {f : Cause} {v : Word} (h : translateAll s (whoAt s ⟨c, none⟩) k [(va.toNat, 1)] = .fault f v) :
    pageWalk s c va k = s := by
  simp only [pageWalk, ha, h]

theorem pageWalk_wait {x : Nat} {e : Hold} (h : translateAll s (whoAt s ⟨c, none⟩) k [(va.toNat, 1)] = .wait x e) :
    pageWalk s c va k = startWalk s (whoAt s ⟨c, none⟩) x e := by
  simp only [pageWalk, ha, h]

end Walks

/-- A walk that meets M = 1 takes a walker (R144). -/
theorem startWalk_migrating {s : State} {w : Who} {x : Nat} (h : walkState s w x = none) (e : Nat) : startWalk s w x (.migrating e) =
    { s with walks := tset s.walks s.ids ⟨w.agent, w.unit, x, e, s.cyc, 0, walkPool w⟩, ids := s.ids + 1 } := by
  simp only [startWalk, h]

/-- A walk that finds no walker free waits for one (R135). -/
theorem startWalk_walker {s : State} {w : Who} {x : Nat} (h : walkState s w x = none) : startWalk s w x .walker =
    { s with walks := tset s.walks s.ids ⟨w.agent, w.unit, x, 0, s.cyc, 3, walkPool w⟩, ids := s.ids + 1 } := by
  simp only [startWalk, h]

theorem movedOn_eq_false_iff (s : State) (w : Walk) :
    movedOn s w = false ↔ (readWord s w.entryPa).getLsbD 9 = true ∧ poisonedIn s w.entryPa 16 = none := by
  rw [movedOn, bit_eq_getLsbD, Bool.or_eq_false_iff, Bool.not_eq_false', Option.isSome_eq_false_iff, Option.isNone_iff_eq_none]

theorem walkReread_waiting {s : State} {n : Nat} {w : Walk} (h : tget s.walks n = some w) (hst : w.st = 0) : walkReread s n =
    if w.start + 4096 < s.cyc then walkGoes s n w 2
    else if (readWord s w.entryPa).getLsbD 9 = true ∧ poisonedIn s w.entryPa 16 = none then s else walkGoes s n w 1 := by
  simp only [walkReread, h, hst, ← movedOn_eq_false_iff]
  cases movedOn s w with
  | true => rfl
  | false => rfl

theorem walkTimeout_waiting {s : State} {n : Nat} {w : Walk} (h : tget s.walks n = some w) (hst : w.st = 0) :
    walkTimeout s n = if 4096 ≤ s.cyc - w.start then walkGoes s n w 2 else s := by
  simp only [walkTimeout, h, hst, true_and]

/-! ### An invalidation completes (R141, R146) -/

section Complete
variable (s : State) (i : Inval)

theorem coreOf_dropFunctions (k : Nat) : coreOf (dropFunctions s i) k = coreOf s k := by
  unfold dropFunctions
  split
  · rfl
  · rfl

theorem portFns_dropFunctions (hsc : i.scope = .package ∨ i.scope = .system) (hva : i.va = none) :
    ∀ f ∈ (dropFunctions s i).module.portFns, f.2.1.toNat / 2 ^ 32 % 65536 ≠ i.asid := by
  have hall : (i.va.isSome || (i.scope != .package && i.scope != .system)) = false := by
    rw [hva]
    obtain h | h := hsc <;> rw [h] <;> rfl
  intro f hf
  rw [dropFunctions, if_neg (by rw [hall]; decide)] at hf
  simpa [bits] using (List.mem_filter.1 hf).2

/-- The invalidation when it looks again: what came back is removed once more. -/
def invalAgain (s : State) (n : Nat) (i : Inval) (since : Nat) : State :=
  let t := dropFunctions (invalidate s i.scope i.agent.core i.asid i.va) i
  { t with invals := tset t.invals n { i with complete := i.complete || !accessLeft s i.agent.core since, since := since } }

variable (n since : Nat)

theorem coreOf_invalAgain (k : Nat) : coreOf (invalAgain s n i since) k = coreOf (invalidate s i.scope i.agent.core i.asid i.va) k :=
  coreOf_dropFunctions ..

theorem actAt_invalAgain (c : Cur) : actAt (invalAgain s n i since) c = actAt s c := by
  rw [← actAt_invalidate s i.scope i.agent.core i.asid i.va c]
  simp only [actAt, coreOf_invalAgain]

theorem ctxAt_invalAgain (c : Cur) : ctxAt (invalAgain s n i since) c = ctxAt s c := by
  rw [← ctxAt_invalidate s i.scope i.agent.core i.asid i.va c]
  simp only [ctxAt, coreOf_invalAgain]

theorem invalidationComplete_eq {s : State} {n : Nat} {i : Inval} (h : tget s.invals n = some i) :
    let since := if entriesLeft s i.scope i.agent.core i.asid i.va then s.ids else i.since
    invalidationComplete s n = if accessLeft s i.agent.core since = false then
      answer (invalAgain s n i since) i.agent (fun w => if w.tags.contains n then { w with reply := some 0 } else w)
    else invalAgain s n i since := by
  simp only [invalidationComplete, h, Bool.not_eq_true', invalAgain]

end Complete

/-- An answer keeps the buffers of leaves. -/
theorem tlb_answer (s : State) (ag : AgentId) (f : Wait → Wait) (k : Nat) : (coreOf (answer s ag f) k).tlb = (coreOf s k).tlb := by
  by_cases h : k = ag.core
  · subst h
    rw [answer, coreOf_modCore_self]
    rfl
  · rw [answer, coreOf_modCore_ne _ _ h]

/-- What an invalidation that looks again leaves, complete or not. -/
theorem invalidationComplete_leaves {s : State} {n : Nat} {i : Inval} (h : tget s.invals n = some i) :
    let since := if entriesLeft s i.scope i.agent.core i.asid i.va then s.ids else i.since
    let t := invalidationComplete s n
    t.invals = (invalAgain s n i since).invals ∧ t.module = (invalAgain s n i since).module ∧
    ∀ k, (coreOf t k).tlb = (coreOf (invalAgain s n i since) k).tlb := by
  intro since t
  have ht : t = _ := invalidationComplete_eq h
  by_cases hend : accessLeft s i.agent.core since = false
  · rw [ht, if_pos hend]
    exact ⟨rfl, rfl, tlb_answer _ _ _⟩
  · rw [ht, if_neg hend]
    exact ⟨rfl, rfl, fun _ => rfl⟩

end Sys2Proof.Machine

namespace Sys2Proof
open Machine

/-- Settles O43: each request by what it does at its turn (`performReq_load`, `atomicPerform_request`, `twoAddressAtomicPerform_adcas`), sound or
refused (`performOr_sound`, `performOr_lost`), its answer (`answerPorts_one`, `actAt_deliver`), and the walks and invalidations. -/
theorem homePortEvents : Obligations.HomePortEvents := by
  intro s n c
  refine ⟨fun r hr hready => ⟨?_, ?_, ?_, ?_, ?_, ?_, fun h kind len => answerPorts_none h kind len, ?_⟩, ?_, ?_, ?_, ?_, ?_⟩
  · intro loc k bs hop hp
    rw [exec_memoryAccess_request hr, performReq_store hr hready hop hp]
  · intro loc k bs sound hop hp
    have hread : r.pieces.flatMap (fun p => readBytes s p.1 p.2.1) = readBytes s loc k := by rw [hp, List.flatMap_singleton]
    rw [exec_memoryAccess_request hr, performReq_load hr hready hop, performOr_sound _ _ sound, hread]
    rfl
  · intro loc bs op d b e sound hop hp size old
    have hdone := atomicPerform_request hr hready hop hp
    rw [performOr_sound _ _ sound] at hdone
    refine ⟨fun x hx => ?_, fun hx => ?_⟩
    · rw [exec_atomicPerform, hdone, atomAt_writes hx]
      rfl
    · rw [exec_atomicPerform, hdone, atomAt_keeps hx]
      rfl
  · intro x y kx ky bx by_ d e1 e2 nx ny sound hop hp size ox oy
    rw [exec_twoAddressAtomicPerform, twoAddressAtomicPerform_adcas hr hready hop hp, performOr_sound _ _ sound, adcasAt_eq]
    rfl
  · intro x y kx ky bx by_ d v sound hop hp size
    rw [exec_twoAddressAtomicPerform, twoAddressAtomicPerform_amove hr hready hop hp, performOr_sound _ _ sound]
    rfl
  · intro x lost refused
    refine ⟨fun hop => ?_, fun op d b e y hop hp => ?_, fun d e1 e2 nx ny y z hop hp => ?_, fun d v y z hop hp => ?_⟩
    · rw [exec_memoryAccess_request hr, performReq_load hr hready hop, performOr_lost _ _ lost]
      rfl
    · rw [exec_atomicPerform, atomicPerform_request (loc := y.1) (k := y.2.1) (bs := y.2.2) hr hready hop hp, performOr_lost _ _ lost]
      rfl
    · rw [exec_twoAddressAtomicPerform, twoAddressAtomicPerform_adcas hr hready hop hp, performOr_lost _ _ lost]
      rfl
    · rw [exec_twoAddressAtomicPerform, twoAddressAtomicPerform_amove hr hready hop hp, performOr_lost _ _ lost]
      rfl
  · intro i p kd pa k hf hp kind len
    rw [answerPorts_one hf hp]
    exact tget_memoryAnswer (takePorts s n false) p pa _
  · intro r a w hr hp hin ha hx hw ht got
    refine ⟨fun loc k bs hl hop hpc hk => ?_, fun loc bs hl hop hpc hb => ?_, fun va hl hm hrep hv => ?_⟩
    · refine ⟨_, rfl, ?_⟩
      rw [loadReplyArrival_bytes hr hp hin hl hop hpc hk]
      exact ⟨rfl, actAt_deliver (s := replyTaken s n) ha hx hw ht r.result⟩
    · obtain ⟨hfill, hctx⟩ := actAt_fillLine (s := replyTaken s n) ha hx (loc / 64) r.result hb
      refine ⟨_, rfl, ?_⟩
      rw [loadReplyArrival_line hr hp hin hl hop hpc]
      exact ⟨rfl, actAt_deliver hfill hctx hw ht []⟩
    · refine ⟨_, rfl, ?_⟩
      rw [loadReplyArrival_refused hr hp hin hl]
      exact refuseTag_asked (s := replyTaken s n) ha hx hw ht hm hrep hv
  · intro a ha
    exact ⟨_, rfl, actAt_readLineExpire ha n⟩
  · intro a va k ha w
    exact ⟨fun ps ls h => congrArg _ (pageWalk_ok ha va k h), fun f v h => congrArg _ (pageWalk_fault ha va k h),
      fun x e h hnone => congrArg _ ((pageWalk_wait ha va k h).trans (startWalk_migrating hnone e)),
      fun x h hnone => congrArg _ ((pageWalk_wait ha va k h).trans (startWalk_walker hnone))⟩
  · intro w h hst ended
    exact ⟨congrArg _ (walkReread_waiting h hst), congrArg _ (walkTimeout_waiting h hst)⟩
  · intro i h since ended
    obtain ⟨hinvals, hmodule, htlb⟩ := invalidationComplete_leaves h
    refine ⟨_, rfl, ?_, fun k hk e he => ?_, fun hsc hva => ?_, fun hend a w ha hx hw ht => ?_⟩
    · rw [hinvals]
      exact tget_tset_self ..
    · rw [htlb, coreOf_invalAgain] at he
      have hnamed := tlb_invalidate s i.scope i.agent.core i.asid i.va hk e he
      cases hva : i.va with
      | some v => rwa [hva] at hnamed
      | none => exact tlbNamed_all (by rwa [hva] at hnamed)
    · rw [hmodule]
      exact portFns_dropFunctions _ i hsc hva
    · rw [invalidationComplete_eq h, if_pos hend,
        actAt_answer _ i.agent _ ((actAt_invalAgain ..).trans ha) ((ctxAt_invalAgain ..).trans hx) hw]
      simp [ht]

end Sys2Proof
end

section
/-!
SUPPORT. Accesses of an engine job to its core's scratchpad (R108, R225): when they are made at once, what a store leaves, and what it does
not let its agent wait for.
-/

namespace Sys2Proof.Machine

/-! ### Bytes rest on memory alone -/

theorem readBytes_congr {s t : State} (hm : t.mem = s.mem) (hu : t.undef = s.undef) (loc n : Nat) : readBytes t loc n = readBytes s loc n := by
  simp only [readBytes, readByte_congr hm hu]

theorem readNat_congr {s t : State} (hm : t.mem = s.mem) (hu : t.undef = s.undef) (loc n : Nat) : readNat t loc n = readNat s loc n := by
  rw [readNat, readNat, readBytes_congr hm hu]

/-! ### Where an access to window 0 goes at once -/

/-- The location of an address in window 0 of a job's core. -/
def jobLoc (s : State) (w : Who) (a : Word) : Nat := scratchBase w.agent.core (ctxOf s w.agent.core w.agent.ctx).regs.part + windowOff a

/-- Some bytes of window 0 that a job reads or stores at once. -/
structure PadFree (s : State) (w : Who) (a : Word) (n : Nat) : Prop where
  range : rangeOf a = .window 0
  fits : windowOff a + n ≤ scratchSize (ctxOf s w.agent.core w.agent.ctx).regs.part
  own : ownPending s w.agent (jobLoc s w a) n = false
  sound : poisonAbout s = false

section Pad
variable {s : State} {w : Who} {a : Word}

/-- What an agent waits for at some bytes are its requests, and the packets that reach them. -/
theorem ownPending_moves {ag : AgentId} {loc n : Nat} (h : ownPending s ag loc n = false) {net : List (Nat × Packet)}
    (hnet : ∀ m ∈ net, m ∈ s.net ∨ packetSpan s m.2 = none) (clauses : Tab Clause) (walks : Tab Walk) (memos : List Memo) (ids : Nat) :
    ownPending { s with net := net, clauses := clauses, walks := walks, memos := memos, ids := ids } ag loc n = false := by
  rw [ownPending_eq, Bool.or_eq_false_iff, Bool.and_eq_false_imp] at h ⊢
  obtain ⟨hreqs, hpkts⟩ := h
  refine ⟨hreqs, fun hloc => ?_⟩
  obtain ⟨hs, hflags⟩ := Bool.or_eq_false_iff.1 (hpkts hloc)
  refine Bool.or_eq_false_iff.2 ⟨List.any_eq_false.2 fun m hm => ?_, hflags⟩
  obtain hold | hnew := hnet m hm
  · exact List.any_eq_false.1 hs m hold
  · show ¬((packetSpan s m.2).map (touches ag loc n)).getD false = true
    rw [hnew]
    exact Bool.false_ne_true

theorem PadFree.moves {n : Nat} (h : PadFree s w a n) {net : List (Nat × Packet)} (hnet : ∀ m ∈ net, m ∈ s.net ∨ packetSpan s m.2 = none)
    (clauses : Tab Clause) (walks : Tab Walk) (memos : List Memo) (ids : Nat) :
    PadFree { s with net := net, clauses := clauses, walks := walks, memos := memos, ids := ids } w a n :=
  ⟨h.range, h.fits, ownPending_moves h.own hnet clauses walks memos ids, h.sound⟩

theorem PadFree.keeps {n : Nat} (h : PadFree s w a n) (clauses : Tab Clause) (walks : Tab Walk) (memos : List Memo) :
    PadFree { s with clauses := clauses, walks := walks, memos := memos } w a n :=
  h.moves (fun _ => .inl) clauses walks memos s.ids

/-- A job has read window 0. -/
def padRead (s : State) (w : Who) (a : Word) (n : Nat) : State :=
  addMemo (endWalks s w) w false a.toNat n 0 (some (readBytes s (jobLoc s w a) n))

theorem PadFree.engLoad {n : Nat} (h : PadFree s w a n) (hm : memoOf s w false a.toNat n = none) :
    engLoad s w a n = .ok (padRead s w a n) (readBytes s (jobLoc s w a) n) := engLoad_window0 hm h.range h.sound h.fits h.own

/-- A read changes walks and notes alone. -/
theorem padRead_eq (s : State) (w : Who) (a : Word) (n : Nat) : ∃ walks memos, padRead s w a n = { s with walks := walks, memos := memos } := by
  rw [padRead, endWalks_eq]
  exact ⟨_, _, rfl⟩

theorem PadFree.padRead {b : Word} {m : Nat} (h : PadFree s w b m) (a : Word) (n : Nat) : PadFree (padRead s w a n) w b m := by
  obtain ⟨walks, memos, heq⟩ := padRead_eq s w a n
  rw [heq]
  exact h.keeps s.clauses walks memos

section Read
variable (s w a) (n : Nat)

@[simp] theorem clauseOf_padRead (c : Nat) : clauseOf (Machine.padRead s w a n) c = clauseOf s c := by
  obtain ⟨walks, memos, heq⟩ := padRead_eq s w a n
  rw [heq]
  rfl

@[simp] theorem jobLoc_padRead (b : Word) : jobLoc (Machine.padRead s w a n) w b = jobLoc s w b := by
  obtain ⟨walks, memos, heq⟩ := padRead_eq s w a n
  rw [heq]
  rfl

theorem readByte_padRead (l : Nat) : readByte (Machine.padRead s w a n) l = readByte s l := by
  obtain ⟨walks, memos, heq⟩ := padRead_eq s w a n
  rw [heq]
  rfl

variable {s} in
theorem MemoryCanonical.padRead (h : MemoryCanonical s) : MemoryCanonical (Machine.padRead s w a n) := by
  obtain ⟨walks, memos, heq⟩ := padRead_eq s w a n
  rw [heq]
  exact h

end Read

/-- A read is no note of a store. -/
theorem memoOf_padRead (hm : s.memos = []) (b : Word) (m : Nat) (n : Nat) : memoOf (Machine.padRead s w a n) w true b.toNat m = none := by
  rw [Machine.padRead, endWalks_eq]
  simp [memoOf, addMemo, hm]

/-! ### A store to window 0 (R225) -/

/-- A job has stored to window 0. -/
def padStored (s : State) (w : Who) (a : Word) (bs : List Byte) : State :=
  addMemo (storeAt (endWalks s w) w.ctx (jobLoc s w a) bs) w true a.toNat bs.length 0 (some [])

theorem PadFree.writeMem {bs : List Byte} (h : PadFree s w a bs.length) :
    writeMem s w a bs = .ok (storeAt (endWalks s w) w.ctx (jobLoc s w a) bs) () := by
  have hpool : byPacket (endWalks s w) none (jobLoc s w a) = none := by
    rw [jobLoc, scratchBase, poolLoc, Nat.add_assoc]
    exact byPacket_pool _ _ _
  have hown : ownPending (endWalks s w) w.agent (jobLoc s w a) bs.length = false := by
    rw [endWalks_eq]
    exact h.own
  have hresolve : resolve s w .store a bs.length = .ok [[(jobLoc s w a, none, bs.length)]] [] := resolve_window0 h.range .store h.sound h.fits
  simp [Machine.writeMem, hresolve, commitLeaves, setLeaves, writeParts, hown, hpool]

theorem PadFree.engStore {bs : List Byte} (h : PadFree s w a bs.length) (hm : memoOf s w true a.toNat bs.length = none) :
    engStore s w a bs = .ok (padStored s w a bs) () := by
  simp only [Machine.engStore, hm, h.range, h.writeMem, Eng.bind, padStored]

section Stored
variable (s w a) (bs : List Byte)

@[simp] theorem clauseOf_padStored (c : Nat) : clauseOf (padStored s w a bs) c = clauseOf s c := by
  show clauseOf (storeAt (endWalks s w) w.ctx (jobLoc s w a) bs) c = _
  rw [clauseOf_storeAt, endWalks_eq]
  rfl

@[simp] theorem padStored_net : (padStored s w a bs).net = s.net := by
  show (storeAt (endWalks s w) w.ctx (jobLoc s w a) bs).net = _
  rw [storeAt_net, endWalks_eq]

omit w a in
theorem readByte_writeBytes_walks (walks : Tab Walk) (ctx loc l : Nat) :
    readByte (writeBytes { s with walks := walks } ctx loc bs) l = readByte (writeBytes s ctx loc bs) l := by
  induction bs generalizing s loc with
  | nil => rfl
  | cons b r ih => exact ih (writeByte s ctx loc b) (loc + 1)

theorem readByte_padStored (l : Nat) : readByte (padStored s w a bs) l = readByte (storeAt s w.ctx (jobLoc s w a) bs) l := by
  show readByte (storeAt (endWalks s w) w.ctx (jobLoc s w a) bs) l = _
  rw [readByte_storeAt, readByte_storeAt, endWalks_eq, readByte_writeBytes_walks]

variable {s bs}

theorem readBytes_padStored (hw : MemoryCanonical s) : readBytes (padStored s w a bs) (jobLoc s w a) bs.length = bs := by
  have hread : readBytes (padStored s w a bs) (jobLoc s w a) bs.length =
      readBytes (storeAt s w.ctx (jobLoc s w a) bs) (jobLoc s w a + 0) bs.length := by
    simp only [readBytes, readByte_padStored, Nat.add_zero]
  rw [hread, readBytes_storeAt _ _ hw (Nat.le_of_eq (Nat.zero_add _)), List.drop_zero, List.take_length]

theorem readByte_padStored_out {l : Nat} (h : l < jobLoc s w a ∨ jobLoc s w a + bs.length ≤ l) :
    readByte (padStored s w a bs) l = readByte s l := by
  rw [readByte_padStored, readByte_storeAt, readByte_writeBytes_out s w.ctx bs h]

theorem readNat_padStored (hw : MemoryCanonical s) (v : Nat) : readNat (padStored s w a (leBytes 8 v)) (jobLoc s w a) 8 = v % 2 ^ 64 := by
  have hread := readBytes_padStored w a (bs := leBytes 8 v) hw
  rw [length_leBytes] at hread
  rw [readNat, hread, leNat_leBytes]
  norm_num

end Stored

/-! ### A mailbox store (R154, R225) -/

/-- Storing to a mailbox in window 0 makes its word known as one, besides. -/
theorem PadFree.mailStore (h : PadFree s w a 8) (hm : memoOf s w true a.toNat 8 = none) (v : Nat) :
    ∃ boxes, mailStore s w a v = .ok { padStored s w a (leBytes 8 v) with mailboxes := boxes } () := by
  have hlen : (leBytes 8 v).length = 8 := length_leBytes 8 v
  have hstore : Machine.engStore s w a (leBytes 8 v) = .ok (padStored s w a (leBytes 8 v)) () := by
    rw [← hlen] at h hm
    exact h.engStore hm
  simp only [Machine.mailStore, hstore, Eng.bind]
  cases mailboxKey s w a with
  | none => exact ⟨_, rfl⟩
  | some k =>
    dsimp only
    split
    · exact ⟨_, rfl⟩
    · exact ⟨_, rfl⟩

end Pad

/-! ### What an engine waits for before it ends (R152, R153) -/

/-- A packet that lets no agent wait: neither an access nor an answer. -/
def idlePacket (ag : AgentId) (p : Packet) : Bool := !remotePending ag p && !unackedPkt ag p

/-- The accesses of an agent are its requests, its packets and its held flags. -/
theorem jobQuiet_moves {s t : State} {ag : AgentId} (h : jobQuiet s ag = true) (hreqs : t.reqs = s.reqs)
    (hctxs : t.cores.map (fun k => k.2.ctxs) = s.cores.map (fun k => k.2.ctxs)) (hnet : ∀ m ∈ t.net, m ∈ s.net ∨ idlePacket ag m.2 = true) :
    jobQuiet t ag = true := by
  have hflags : flagsHeld t ag = flagsHeld s ag := by
    have heq : ∀ u : State, flagsHeld u ag =
        (u.cores.map (fun k => k.2.ctxs)).any (fun l => l.any (fun x => x.2.heldFlags.any (fun h => remotePending ag h.packet))) := fun u => by
      rw [List.any_map]
      rfl
    rw [heq, heq, hctxs]
  simp only [jobQuiet, performed, performedBut, unackedAny, countedIn, Bool.and_eq_true, Bool.not_eq_true', Bool.or_eq_false_iff,
    List.any_eq_false, Bool.not_false, and_true, hflags, hreqs] at h ⊢
  obtain ⟨⟨⟨hr, hp⟩, hf⟩, -, hu⟩ := h
  refine ⟨⟨⟨hr, fun m hm => ?_⟩, hf⟩, hf, fun m hm => ?_⟩
  · obtain hold | hidle := hnet m hm
    · exact hp m hold
    · simp only [idlePacket, Bool.and_eq_true, Bool.not_eq_true'] at hidle
      simp [hidle.1]
  · obtain hold | hidle := hnet m hm
    · exact hu m hold
    · simp only [idlePacket, Bool.and_eq_true, Bool.not_eq_true'] at hidle
      simp [hidle.2]

theorem storeAt_ctxs (s : State) (ctx loc : Nat) (bs : List Byte) :
    (storeAt s ctx loc bs).cores.map (fun k => k.2.ctxs) = s.cores.map (fun k => k.2.ctxs) := by
  unfold storeAt
  split
  · rfl
  · rw [wakeLines_map, writeBytes_cores]
    split
    · rw [writeBytes_cores]
    · rw [List.map_map]
      rfl

theorem storeAt_reqs (s : State) (ctx loc : Nat) (bs : List Byte) : (storeAt s ctx loc bs).reqs = s.reqs := by
  obtain ⟨_, h⟩ := storeAt_eq s ctx loc bs
  rw [h]
  exact writeBytes_reqs ..

/-- A store to window 0 is performed at once: its agent has nothing more to wait for. -/
theorem jobQuiet_padStored {s : State} {ag : AgentId} (h : jobQuiet s ag = true) (w : Who) (a : Word) (bs : List Byte) :
    jobQuiet (padStored s w a bs) ag = true := by
  refine jobQuiet_moves h ?_ ?_ (fun m hm => .inl ?_)
  · show (storeAt (endWalks s w) w.ctx (jobLoc s w a) bs).reqs = _
    rw [storeAt_reqs, endWalks_eq]
  · show (storeAt (endWalks s w) w.ctx (jobLoc s w a) bs).cores.map (fun k => k.2.ctxs) = _
    rw [storeAt_ctxs, endWalks_eq]
  · rwa [padStored_net] at hm

end Sys2Proof.Machine
end

section
/-!
SUPPORT. The copy unit's events (R138, R224-R226, R363), for the only transfer of a clause.
-/

namespace Sys2Proof.Machine

section Events
variable (s : State) (cl id : Nat)

@[simp] theorem exec_copyTransferComplete : exec (.copyTransferComplete cl id) s = .next (copyComplete s cl id) := rfl
@[simp] theorem exec_copyPromiseExpire : exec (.copyPromiseExpire cl id) s = .next (copyPromiseExpire s cl id) := rfl

end Events

section Piece
variable {s : State} {j : CopyJob}

/-! ### The next piece (R224) -/

theorem copySwizzle_eq (w : Word) (a : Word) : swizzle (bit w 8) (bits w 4 0) a = swizzle (w.getLsbD 8) (w.toNat % 32) a := by
  rw [bit_eq_getLsbD, bits_low]
  rfl

/-- A piece of an unfinished copy is not empty, and lies within one grain of its destination. -/
theorem copyPiece_size (hsort : j.sort = none) (h : j.progress < copyTotal j) (hr : rangeOf (copyPiece j).1 = .window 0) :
    0 < (copyPiece j).2.2 ∧ (copyPiece j).2.2 ≤ copyGrain j - (copyPiece j).2.1.toNat % copyGrain j := by
  have hgrain : 0 < copyGrain j := by
    unfold copyGrain
    split <;> decide
  have hrow : 0 < (copyShape j).1 := by
    refine Nat.pos_of_ne_zero fun h0 => ?_
    simp [copyTotal, hsort, h0] at h
  have hsize : (copyPiece j).2.2 = Nat.min ((copyShape j).1 - j.progress % (copyShape j).1)
      (if rangeOf (copyPiece j).1 = .gather then 4 else copyGrain j - (copyPiece j).2.1.toNat % copyGrain j) := rfl
  rw [hsize, hr, if_neg (by decide)]
  have hleft := Nat.mod_lt j.progress hrow
  have hroom := Nat.mod_lt (copyPiece j).2.1.toNat hgrain
  exact ⟨Nat.lt_min.2 ⟨by omega, by omega⟩, Nat.min_le_right ..⟩

/-- Bytes that lie within one grain are stored by one access. -/
theorem copyPut_grain {w : Who} {dst : Word} {bs : List Byte} (hne : bs ≠ [])
    (hfit : bs.length ≤ copyGrain j - dst.toNat % copyGrain j) (fuel : Nat) {u : State}
    (h : engStore s w (swizzle (bit (j.regs.getD 6 0) 8) (bits (j.regs.getD 6 0) 4 0) dst) bs = .ok u ()) :
    copyPut s w j dst bs (fuel + 2) = .ok u () := by
  have hmin : bs.length.min (copyGrain j - dst.toNat % copyGrain j) = bs.length := Nat.min_eq_left hfit
  simp only [copyPut, List.isEmpty_iff, hne, if_false, hmin, List.take_length, h, Eng.bind, List.drop_length, if_true]

theorem copyAccess_piece (hsort : j.sort = none) {u v : State} {bs : List Byte} (hr : rangeOf (copyPiece j).1 ≠ .gather)
    (hlen : bs.length = (copyPiece j).2.2)
    (hload : engLoad s (copyWho s j.core j.ctx j.id) (copyPiece j).1 (copyPiece j).2.2 = .ok u bs)
    (hput : copyPut u (copyWho s j.core j.ctx j.id) j (copyPiece j).2.1 bs (bs.length + 1) = .ok v ()) :
    copyAccess s j = .ok (forget v j.core j.ctx (jobUnit 1 j.id)) (j.progress + (copyPiece j).2.2) := by
  have htake : bs.take (copyPiece j).2.2 = bs := by rw [← hlen, List.take_length]
  rw [hlen] at hput
  simp only [copyAccess, hsort, if_neg hr, hload, Eng.bind, htake, hput]
  rfl

/-- The state once a piece within window 0 has been moved. -/
def pieceMoved (s : State) (j : CopyJob) (dst : Word) : State :=
  let w := copyWho s j.core j.ctx j.id
  padStored (padRead s w (copyPiece j).1 (copyPiece j).2.2) w dst (readBytes s (jobLoc s w (copyPiece j).1) (copyPiece j).2.2)

theorem copyAccess_pad (hsort : j.sort = none) (h : j.progress < copyTotal j) (hmemos : s.memos = []) {dst : Word}
    (hdst : swizzle (bit (j.regs.getD 6 0) 8) (bits (j.regs.getD 6 0) 4 0) (copyPiece j).2.1 = dst)
    (hsrc : PadFree s (copyWho s j.core j.ctx j.id) (copyPiece j).1 (copyPiece j).2.2)
    (hput : PadFree s (copyWho s j.core j.ctx j.id) dst (copyPiece j).2.2) :
    copyAccess s j = .ok (forget (pieceMoved s j dst) j.core j.ctx (jobUnit 1 j.id)) (j.progress + (copyPiece j).2.2) := by
  obtain ⟨hpos, hgrain⟩ := copyPiece_size hsort h hsrc.range
  have hread := hsrc.engLoad (by simp [memoOf, hmemos])
  rw [pieceMoved]
  generalize hbs : readBytes s (jobLoc s (copyWho s j.core j.ctx j.id) (copyPiece j).1) (copyPiece j).2.2 = bs at hread
  have hlen : bs.length = (copyPiece j).2.2 := by simp [← hbs, readBytes]
  obtain ⟨fuel, hfuel⟩ : ∃ fuel, bs.length = fuel + 1 := ⟨bs.length - 1, by omega⟩
  rw [← hlen] at hput hgrain
  have hstored := (hput.padRead (copyPiece j).1 (copyPiece j).2.2).engStore (memoOf_padRead hmemos ..)
  refine copyAccess_piece hsort (by rw [hsrc.range]; decide) hlen hread ?_
  rw [hfuel]
  exact copyPut_grain (List.ne_nil_of_length_pos (by omega)) hgrain fuel (hdst ▸ hstored)

/-- What a moved piece leaves of the clause and of memory. -/
theorem pieceMoved_leaves (hw : MemoryCanonical s) (dst : Word) :
    let w := copyWho s j.core j.ctx j.id
    let t := pieceMoved s j dst
    (∀ c, clauseOf t c = clauseOf s c) ∧
    readBytes t (jobLoc s w dst) (copyPiece j).2.2 = readBytes s (jobLoc s w (copyPiece j).1) (copyPiece j).2.2 ∧
    ∀ l, (l < jobLoc s w dst ∨ jobLoc s w dst + (copyPiece j).2.2 ≤ l) → readByte t l = readByte s l := by
  intro w t
  have hlen : (readBytes s (jobLoc s w (copyPiece j).1) (copyPiece j).2.2).length = (copyPiece j).2.2 := by simp [readBytes]
  have hread := readBytes_padStored w dst (bs := readBytes s (jobLoc s w (copyPiece j).1) (copyPiece j).2.2)
    (hw.padRead w (copyPiece j).1 (copyPiece j).2.2)
  rw [hlen, jobLoc_padRead] at hread
  refine ⟨fun c => (clauseOf_padStored ..).trans (clauseOf_padRead ..), hread, fun l hl => ?_⟩
  refine (readByte_padStored_out w dst ?_).trans (readByte_padRead ..)
  rwa [hlen, jobLoc_padRead]

end Piece

/-! ### A transfer's end (R225, R363) -/

section End
variable {s : State} {cl : Nat} {j : CopyJob}

/-- A finished transfer that has no event bit leaves. -/
theorem copyEnd_plain (h2 : bit (j.regs.getD 4 0) 2 = false) (cancelled : Bool) : copyEnd s cl j cancelled =
    modClause (forget s j.core j.ctx (jobUnit 1 j.id)) cl (fun c => { c with
      copies := c.copies.filter (fun x => x.id != j.id)
      copyDone := c.copyDone ++ [(j.id, c.copySeq)]
      cancelled := if cancelled then c.cancelled ++ [(j.id, j.core * 4096 + j.ctx)] else c.cancelled }) := by
  simp only [copyEnd, h2, Bool.false_eq_true, if_false]

/-- What the end of a transfer leaves: it is listed no more, memory is as it was, and the upcall that its flags ask for waits. -/
theorem copyFinish_leaves (hq : jobQuiet s (copyWho s j.core j.ctx j.id).agent = true) (h2 : bit (j.regs.getD 4 0) 2 = false) :
    let t := copyFinish s cl j
    (clauseOf t cl).copies = (clauseOf s cl).copies.filter (fun x => x.id != j.id) ∧ (clauseOf t cl).cancelled = (clauseOf s cl).cancelled ∧
    t.mem = s.mem ∧ t.undef = s.undef ∧
    (bit (j.regs.getD 4 0) 0 = true → ∃ m, (coreOf t j.core).waiting = (coreOf s j.core).waiting ++ [m] ∧ m.ctx = j.ctx ∧
      m.start = .copyDone (j.regs.getD 5 0) j.id ∧ m.mprio = 3) := by
  intro t
  have ht : t = if bit (j.regs.getD 4 0) 0 then
      arrivalWakes (enqueueMsg (copyEnd s cl j false) j.core (engineMsg (copyEnd s cl j false) j.ctx [] 3 3 (.copyDone (j.regs.getD 5 0) j.id)))
        j.core j.ctx 3
    else copyEnd s cl j false := by simp only [t, copyFinish, hq, Bool.not_true, Bool.false_eq_true, if_false]
  rw [ht, copyEnd_plain h2]
  split
  · refine ⟨by simp, by simp, by simp, forget_undef .., fun _ => ?_⟩
    rw [arrivalWakes_waiting, enqueueMsg_waiting, coreOf_modClause, coreOf_forget]
    exact ⟨_, rfl, rfl, rfl, rfl⟩
  · next h0 => exact ⟨by simp, by simp, by simp, by simp, fun h => absurd h h0⟩

/-- A transfer that is neither held nor cancelled, is finished, and waits for nothing, may end. -/
theorem copyMayEnd (hheld : j.held = none) (hc : j.cancel = false) (hdone : copyTotal j ≤ j.progress)
    (hq : jobQuiet s (copyWho s j.core j.ctx j.id).agent = true) :
    (j.held.isSome || j.cancel || decide (j.progress < copyTotal j) || !jobQuiet s (copyWho s j.core j.ctx j.id).agent) = false := by
  simp [hheld, hc, hq, hdone]

end End

/-! ### The only transfer of a clause -/

section Only
variable {s : State} {cl : Nat} {j : CopyJob} (hj : (clauseOf s cl).copies = [j])
include hj

theorem copyOf_only : copyOf s cl j.id = some j := by simp [copyOf, hj]

theorem copies_modCopy (f : CopyJob → CopyJob) : (clauseOf (modCopy s cl j.id f) cl).copies = [f j] := by
  simp [modCopy, hj, replaceFirst]

/-- A step of a copy whose piece is read and stored at once. -/
theorem copyStep_moves (hheld : j.held = none) (hcancel : j.cancel = false) (h : j.progress < copyTotal j) {u : State} {p : Nat}
    (ha : copyAccess s j = .ok u p) : copyStep s cl j.id = modCopy u cl j.id (fun j => { j with progress := p }) := by
  simp [copyStep, copyOf_only hj, hheld, hcancel, Nat.not_le.2 h, ha]

theorem copyCancelStop_plain (hc : j.cancel = true) (hq : jobQuiet s (copyWho s j.core j.ctx j.id).agent = true)
    (h1 : bit (j.regs.getD 4 0) 1 = false) :
    copyCancelStop s cl j.id = copyEnd (endWalks s (copyWho s j.core j.ctx j.id)) cl j true := by
  simp only [copyCancelStop, copyOf_only hj, hc, hq, h1, Bool.not_true, Bool.or_self, Bool.false_and, Bool.false_eq_true, if_false, if_true]

theorem copyComplete_early (h : j.progress < copyTotal j) : copyComplete s cl j.id = s := by
  simp [copyComplete, copyOf_only hj, h]

section Complete
variable (hheld : j.held = none) (hc : j.cancel = false) (hdone : copyTotal j ≤ j.progress)
variable (hq : jobQuiet s (copyWho s j.core j.ctx j.id).agent = true)
include hheld hc hdone hq

theorem copyComplete_plain (h1 : bit (j.regs.getD 4 0) 1 = false) : copyComplete s cl j.id = copyFinish s cl j := by
  simp only [copyComplete, copyOf_only hj, copyMayEnd hheld hc hdone hq, h1, Bool.false_and, Bool.false_eq_true, if_false]

theorem copyComplete_mails (h1 : bit (j.regs.getD 4 0) 1 = true) (hm : j.mailed = false) {u : State}
    (hmail : mailStore s (copyWho s j.core j.ctx j.id) (j.regs.getD 5 0) (2 ^ 63 + j.id) = .ok u ()) :
    copyComplete s cl j.id = copyFinish (modCopy u cl j.id (fun j => { j with mailed := true })) cl j := by
  simp only [copyComplete, copyOf_only hj, copyMayEnd hheld hc hdone hq, h1, hm, hmail, Bool.not_false, Bool.and_self,
    Bool.false_eq_true, if_false, if_true]

end Complete

/-- A moved piece of the only transfer of a clause. -/
theorem copyStep_pad (hheld : j.held = none) (hcancel : j.cancel = false)
    (hsort : j.sort = none) (h : j.progress < copyTotal j) (hmemos : s.memos = []) (hw : MemoryCanonical s) {dst : Word}
    (hdst : swizzle (bit (j.regs.getD 6 0) 8) (bits (j.regs.getD 6 0) 4 0) (copyPiece j).2.1 = dst)
    (hsrc : PadFree s (copyWho s j.core j.ctx j.id) (copyPiece j).1 (copyPiece j).2.2)
    (hput : PadFree s (copyWho s j.core j.ctx j.id) dst (copyPiece j).2.2) :
    let w := copyWho s j.core j.ctx j.id
    let t := copyStep s cl j.id
    (clauseOf t cl).copies = [{ j with progress := j.progress + (copyPiece j).2.2 }] ∧
    readBytes t (jobLoc s w dst) (copyPiece j).2.2 = readBytes s (jobLoc s w (copyPiece j).1) (copyPiece j).2.2 ∧
    ∀ l, (l < jobLoc s w dst ∨ jobLoc s w dst + (copyPiece j).2.2 ≤ l) → readByte t l = readByte s l := by
  intro w t
  obtain ⟨hclause, hread, hrest⟩ := pieceMoved_leaves (j := j) hw dst
  have ht : t = _ := copyStep_moves hj hheld hcancel h (copyAccess_pad hsort h hmemos hdst hsrc hput)
  have hmem : t.mem = (pieceMoved s j dst).mem := by rw [ht]; exact forget_mem ..
  have hundef : t.undef = (pieceMoved s j dst).undef := by rw [ht]; exact forget_undef ..
  refine ⟨?_, (readBytes_congr hmem hundef ..).trans hread, fun l hl => (readByte_congr hmem hundef l).trans (hrest l hl)⟩
  rw [ht]
  exact copies_modCopy (by rw [clauseOf_forget, hclause, hj]) _

/-- A finished transfer whose mailbox lies in window 0. -/
theorem copyComplete_pad (hheld : j.held = none) (hc : j.cancel = false)
    (hdone : copyTotal j ≤ j.progress) (hq : jobQuiet s (copyWho s j.core j.ctx j.id).agent = true) (h1 : bit (j.regs.getD 4 0) 1 = true)
    (h2 : bit (j.regs.getD 4 0) 2 = false) (hm : j.mailed = false) (hmemos : s.memos = []) (hw : MemoryCanonical s)
    (hfree : PadFree s (copyWho s j.core j.ctx j.id) (j.regs.getD 5 0) 8) : let t := copyComplete s cl j.id
    (clauseOf t cl).copies = [] ∧
    readNat t (jobLoc s (copyWho s j.core j.ctx j.id) (j.regs.getD 5 0)) 8 = (2 ^ 63 + j.id) % 2 ^ 64 := by
  intro t
  obtain ⟨v, hv⟩ : ∃ v, 2 ^ 63 + j.id = v := ⟨_, rfl⟩
  obtain ⟨boxes, hmail⟩ := hfree.mailStore (by simp [memoOf, hmemos]) v
  have hquiet := jobQuiet_padStored hq (copyWho s j.core j.ctx j.id) (j.regs.getD 5 0) (leBytes 8 v)
  have hread := readNat_padStored (copyWho s j.core j.ctx j.id) (j.regs.getD 5 0) hw v
  have hlist : (clauseOf (padStored s (copyWho s j.core j.ctx j.id) (j.regs.getD 5 0) (leBytes 8 v)) cl).copies = [j] := by
    rw [clauseOf_padStored, hj]
  generalize padStored s (copyWho s j.core j.ctx j.id) (j.regs.getD 5 0) (leBytes 8 v) = u at hmail hquiet hread hlist
  have ht : t = _ := copyComplete_mails (u := { u with mailboxes := boxes }) hj hheld hc hdone hq h1 hm (by rw [hv]; exact hmail)
  have hleft := copies_modCopy (s := { u with mailboxes := boxes }) hlist (fun j => { j with mailed := true })
  have hquiet' : jobQuiet (modCopy { u with mailboxes := boxes } cl j.id (fun j => { j with mailed := true }))
      (unitAgent j.core j.ctx (jobUnit 1 j.id)) = true := jobQuiet_moves hquiet rfl rfl (fun _ hm => .inl hm)
  obtain ⟨hcopies, -, hmem, hundef, -⟩ := copyFinish_leaves (cl := cl) hquiet' h2
  rw [ht, hv]
  refine ⟨hcopies.trans ?_, (readNat_congr hmem hundef ..).trans hread⟩
  rw [hleft]
  simp

theorem copyPromiseExpire_early (h : s.cyc < j.promise) : copyPromiseExpire s cl j.id = s := by
  simp [copyPromiseExpire, copyOf_only hj, h]

/-- A sleep to a promise ends (R226). -/
theorem actAt_copyPromiseExpire {a : Act} {w : Wait} (ha : actAt s ⟨j.core, none⟩ = some a) (hx : ctxAt s ⟨j.core, none⟩ = j.ctx)
    (hw : a.wait = some w) (hk : w.kind = 4) (hop : w.operand.toNat = j.id) (h : j.promise ≤ s.cyc) :
    actAt (copyPromiseExpire s cl j.id) ⟨j.core, none⟩ = some { a with wait := some { w with woke := true } } := by
  simp only [copyPromiseExpire, copyOf_only hj, if_neg (Nat.not_lt.2 h)]
  refine (actAt_answer s (copyWho s j.core j.ctx j.id).agent _ ha hx hw).trans ?_
  simp [hk, hop]

end Only

end Sys2Proof.Machine
end

section
/-!
SUPPORT. Collective programs (R229-R233), for the only program of a clause: its steps, its end with the mailbox store, the packets that
reach it, and an abort.
-/

namespace Sys2Proof.Machine

section Events
variable (s : State) (cl n : Nat)

@[simp] theorem exec_collectiveStepRun : exec (.collectiveStepRun cl n) s = .next (collStep s cl n) := rfl
@[simp] theorem exec_collectiveStepArrival : exec (.collectiveStepArrival n) s = .next (stepArrival s n) := rfl
@[simp] theorem exec_collectiveAbortNotice : exec (.collectiveAbortNotice n) s = .next (abortArrival s n) := rfl

end Events

section Only
variable {s : State} {cl : Nat} {c : Coll} (hc : (clauseOf s cl).colls = [c])
include hc

theorem collOf_only : collOf s cl c.handle = some c := by simp [collOf, hc]

theorem modColl_only (f : Coll → Coll) : modColl s cl c.handle f = modClause s cl (fun k => { k with colls := [f c] }) := by
  simp [modColl, modClause, hc, replaceFirst]

theorem colls_modColl {n : Nat} (hn : c.handle = n) (f : Coll → Coll) : (clauseOf (modColl s cl n f) cl).colls = [f c] := by
  rw [← hn, modColl_only hc, clauseOf_modClause_self]

/-! ### The next step (R230, R231) -/

theorem colls_goToStep {d : Coll} (hd : d.handle = c.handle) (step b : Nat) : (clauseOf (goToStep s cl d step b) cl).colls =
    [{ c with step := step, sentStep := false, awaits := none, undo := [], status := c.status ||| b }] := by
  rw [goToStep, colls_modColl (by rw [clauseOf_forget]; exact hc) hd.symm]

omit hc in
theorem goToStep_memory (d : Coll) (step b : Nat) : SameMemory s (goToStep s cl d step b) :=
  readByte_congr (forget_mem ..) (forget_undef ..)

omit hc in
theorem ofNat_leNat_leBytes (w : Word) : BitVec.ofNat 64 (leNat (leBytes 8 w.toNat)) = w := by
  rw [leNat_leBytes, Nat.mod_eq_of_lt (by exact w.isLt), BitVec.ofNat_toNat, BitVec.setWidth_eq]

/-- A legal step is run once its word has been read. -/
theorem collStep_runs (hheld : c.held = none) (hend : c.ending = none) {w : Word} {u v : State}
    (hload : engLoad s (c.engine s) (c.words.getD 0 0 + BitVec.ofNat 64 (8 * c.step)) 8 = .ok u (leBytes 8 w.toNat))
    (hlegal : stepIllegal c c.step w = false) (hrun : runStep u cl c w = .ok v ()) : collStep s cl c.handle = v := by
  simp only [collStep, collOf_only hc, hheld, hend, Option.isSome_none, Bool.false_eq_true, if_false, hload, ofNat_leNat_leBytes, hlegal, hrun]

end Only

section Run
variable {s : State} {cl : Nat} {c : Coll} {w : Word}

/-- A step's operation. -/
theorem stepOp_eq (w : Word) : bits w 63 60 = w.toNat / 2 ^ 60 := by
  have h := w.isLt
  rw [bits]
  omega

theorem runStep_loop (h : bits w 63 60 = 6) : runStep s cl c w =
    let i := c.counters.getD (bits w 59 58) 0
    let set : Nat → List Nat := fun v => (List.range 4).map (fun j => if j = bits w 59 58 then v else c.counters.getD j 0)
    if i < bits w 57 42 then .ok (goToStep (modColl s cl c.handle (fun c => { c with counters := set (i + 1) })) cl c (bits w 23 0) 0) ()
    else .ok (nextStep (modColl s cl c.handle (fun c => { c with counters := set 0 })) cl c 0) () := by
  simp only [runStep, h]

theorem runStep_send (h : bits w 63 60 = 1) {u v : State} {bs : List Byte} {d : Node} (hload : stepLoad s c w (bits w 48 47) = .ok u bs)
    (hnode : rankNode u c (peerOf c.rank c.n (bits w 59 58) (stepK w)) = .ok v d) : runStep s cl c w =
    .ok (nextStep (sendStep v cl c (peerOf c.rank c.n (bits w 59 58) (stepK w)) d (stepCount w) bs) cl c 0) () := by
  simp only [runStep, h, hload, Eng.bind, hnode]

theorem runStep_copy (h : bits w 63 60 = 4) {u v : State} {bs : List Byte} (hload : stepLoad s c w (bits w 48 47) = .ok u bs)
    (hstore : stepStore u cl c w (bits w 59 58) bs = .ok v ()) : runStep s cl c w = .ok (nextStep v cl c 0) () := by
  simp only [runStep, h, hload, Eng.bind, hstore]

theorem runStep_end (h : bits w 63 60 = 0) : runStep s cl c w =
    .ok (collEnding (modColl (forget s c.core c.ctx (jobUnit 2 c.handle)) cl c.handle (fun c => { c with ending := some c.status })) cl
      c.handle) () := by
  simp only [runStep, h]

end Run

/-! ### The end of a program (R232, R233) -/

/-- The first thing that an ended program does: an aborted one tells every other rank. -/
def tellRanks (s : State) (cl : Nat) (c : Coll) : Eng Unit :=
  if !(c.ending.getD 0 % 2 == 1) || c.sentStep then .ok s ()
  else (otherRanks s c (List.range c.n)).bind (fun s ds =>
    .ok (modColl (ds.foldl (fun s d => sendPkt s (nodeOf s c.core) d c.ctx 4 0 (.abort c.cid (c.blame == some d))) s) cl c.handle
      (fun c => { c with sentStep := true })) ())

theorem collGone_plain {s : State} {cl : Nat} {c d : Coll} (hc : (clauseOf s cl).colls = [d]) (hd : d.handle = c.handle)
    (h8 : bit (c.words.getD 3 0) 8 = false) : (clauseOf (collGone s cl c) cl).colls = [] ∧
    (collGone s cl c).mem = s.mem ∧ (collGone s cl c).undef = s.undef ∧ (collGone s cl c).net = s.net := by
  simp only [collGone, h8, Bool.false_eq_true, if_false]
  refine ⟨?_, forget_mem .., forget_undef .., forget_net ..⟩
  rw [clauseOf_modClause_self, clauseOf_forget, hc]
  simp [hd]

section Ending
variable {s v : State} {cl : Nat} {c d : Coll} (hc : (clauseOf s cl).colls = [c]) (htold : tellRanks s cl c = .ok v ())
variable (hq : jobQuiet v c.agent = true) (hmailed : c.mailed = false)
include hc htold hq hmailed

/-- Once the ranks have been told, the mailbox is stored; that store performed, the program goes. -/
theorem collEnding_mails {u : State} (hmail : mailStore v (c.engine v) c.mbox (collStatus c (c.ending.getD 0)) = .ok u ())
    (hu : jobQuiet (modColl u cl c.handle (fun c => { c with mailed := true })) c.agent = true) :
    collEnding s cl c.handle = collGone (modColl u cl c.handle (fun c => { c with mailed := true })) cl c := by
  have heq : collEnding s cl c.handle = match (tellRanks s cl c).bind (fun s _ =>
      if !jobQuiet s c.agent then .wait s
      else if c.mailed then .ok s ()
      else (mailStore s (c.engine s) c.mbox (collStatus c (c.ending.getD 0))).bind (fun s _ =>
        .ok (modColl s cl c.handle (fun c => { c with mailed := true })) ())) with
    | .wait s => s
    | .fault s cause va =>
      if cause = .uncorrectable then contextEnd s c.ctx
      else if c.ending.getD 0 % 2 == 1 then collGone s cl c
      else collFault s cl c cause va
    | .ok s _ => if jobQuiet s c.agent then collGone s cl c else s := by
    simp only [collEnding, collOf_only hc]
    rfl
  rw [heq, htold]
  simp only [Eng.bind, hq, hmailed, hmail, hu, Bool.not_true, Bool.false_eq_true, if_false, if_true]

/-- A program whose mailbox lies in window 0 goes at once, and leaves its status there. -/
theorem collEnding_leaves (hv : (clauseOf v cl).colls = [d]) (hd : d.handle = c.handle)
    (hmemo : memoOf v (c.engine v) true c.mbox.toNat 8 = none) (hfree : PadFree v (c.engine v) c.mbox 8) (hw : MemoryCanonical v)
    (h8 : bit (c.words.getD 3 0) 8 = false) : let t := collEnding s cl c.handle
    (clauseOf t cl).colls = [] ∧ readNat t (jobLoc v (c.engine v) c.mbox) 8 = collStatus c (c.ending.getD 0) % 2 ^ 64 ∧ t.net = v.net := by
  intro t
  obtain ⟨st, hst⟩ : ∃ st, collStatus c (c.ending.getD 0) = st := ⟨_, rfl⟩
  obtain ⟨boxes, hmail⟩ := hfree.mailStore hmemo st
  have hquiet := jobQuiet_padStored hq (c.engine v) c.mbox (leBytes 8 st)
  have hlist : (clauseOf (padStored v (c.engine v) c.mbox (leBytes 8 st)) cl).colls = [d] := by rw [clauseOf_padStored, hv]
  have hread := readNat_padStored (c.engine v) c.mbox hw st
  have hnet := padStored_net v (c.engine v) c.mbox (leBytes 8 st)
  generalize padStored v (c.engine v) c.mbox (leBytes 8 st) = u at hmail hquiet hlist hread hnet
  have ht : t = _ := collEnding_mails (u := { u with mailboxes := boxes }) hc htold hq hmailed (by rw [hst]; exact hmail)
    (jobQuiet_moves hquiet rfl rfl (fun _ hm => .inl hm))
  have hleft := colls_modColl (s := { u with mailboxes := boxes }) hlist hd (fun c => { c with mailed := true })
  obtain ⟨hgone, hmem, hundef, hsame⟩ := collGone_plain (d := { d with mailed := true }) hleft hd h8
  rw [ht, hst]
  exact ⟨hgone, (readNat_congr hmem hundef ..).trans hread, hsame.trans hnet⟩

end Ending

/-! ### Abort notices (R232) -/

/-- The abort notice of a program to a rank's node. -/
def abortNotice (s : State) (c : Coll) (d : Node) : Packet := mkPacket (nodeOf s c.core) d c.ctx 4 0 0 (.abort c.cid (c.blame == some d))

/-- Notices let no agent wait, and reach no memory. -/
theorem idlePacket_abortNotice (s : State) (c : Coll) (d : Node) (ag : AgentId) : idlePacket ag (abortNotice s c d) = true := rfl
theorem packetSpan_abortNotice (s t : State) (c : Coll) (d : Node) : packetSpan t (abortNotice s c d) = none := by
  simp only [packetSpan, abortNotice, mkPacket]

theorem mem_launchAll {s : State} {p : Nat → Packet} {m : Nat × Packet} :
    ∀ {n : Nat}, m ∈ (launchAll s p n).net → m ∈ s.net ∨ ∃ j, m.2 = p j
  | 0, h => .inl h
  | n + 1, h => by
    rw [launchAll_succ] at h
    obtain heq | hold := mem_tset h
    · exact .inr ⟨n, by rw [heq]⟩
    · exact mem_launchAll hold

/-- Notices leave in the order of the ranks. -/
theorem foldl_abort (u : State) (c : Coll) (d0 : Node) (ds : List Node) :
    ds.foldl (fun s d => sendPkt s (nodeOf s c.core) d c.ctx 4 0 (.abort c.cid (c.blame == some d))) u =
      launchAll u (fun j => abortNotice u c (ds.getD j d0)) ds.length := by
  have hfrom : ∀ (l : List Node) (s : State), s.module = u.module →
      l.foldl (fun s d => sendPkt s (nodeOf s c.core) d c.ctx 4 0 (.abort c.cid (c.blame == some d))) s =
        l.foldl (fun s d => launchPacket s (abortNotice u c d)) s := by
    intro l
    induction l with
    | nil =>
      intro s _
      rw [List.foldl_nil, List.foldl_nil]
    | cons d l ih =>
      intro s hs
      rw [List.foldl_cons, List.foldl_cons, sendPkt, nodeOf_congr hs]
      exact ih _ hs
  have hlist : (List.range ds.length).map (fun j => ds.getD j d0) = ds :=
    List.ext_getElem (by simp) (fun i _ h => by simp [h])
  rw [hfrom ds u rfl, launchAll]
  conv_lhs => rw [← hlist, List.foldl_map]

/-- What telling the ranks of an abort leaves. -/
theorem tellRanks_aborting {s u : State} {cl : Nat} {c : Coll} {ds : List Node} (hst : c.ending.getD 0 % 2 = 1) (hs : c.sentStep = false)
    (hranks : otherRanks s c (List.range c.n) = .ok u ds) (hu : (clauseOf u cl).colls = [c]) :
    ∃ net ids clauses, let v : State := { u with net := net, ids := ids, clauses := clauses }
      tellRanks s cl c = .ok v () ∧ (clauseOf v cl).colls = [{ c with sentStep := true }] ∧
      (∀ m ∈ net, m ∈ u.net ∨ ∃ d, m.2 = abortNotice u c d) ∧
      ∀ i (h : i < ds.length), tget net (u.ids + i) = some (abortNotice u c ds[i]) := by
  have hfold := foldl_abort u c (nodeOf u c.core) ds
  generalize hp : (fun j => abortNotice u c (ds.getD j (nodeOf u c.core))) = p at hfold
  obtain ⟨net, ids, heq⟩ := launchAll_eq u p ds.length
  have hnet : (launchAll u p ds.length).net = net := by rw [heq]
  refine ⟨net, ids, (modColl { u with net := net, ids := ids } cl c.handle (fun c => { c with sentStep := true })).clauses, ?_, ?_,
    fun m hm => ?_, fun i h => ?_⟩
  · simp only [tellRanks, hst, hs, beq_self_eq_true, Bool.not_true, Bool.or_self, Bool.false_eq_true, if_false, hranks, Eng.bind, hfold, heq]
    rfl
  · exact colls_modColl (s := { u with net := net, ids := ids }) hu rfl _
  · rw [← hnet] at hm
    obtain hold | ⟨j, hj⟩ := mem_launchAll hm
    · exact .inl hold
    · exact .inr ⟨_, by rw [hj, ← hp]⟩
  · rw [← hnet, tget_launchAll _ _ h, ← hp]
    simp [h]

/-! ### Packets that reach a program (R231, R232) -/

section Arrival
variable {s : State} {n core : Nat} {cl : Nat} {p : Packet} {c : Coll} (ha : arrivedAt s n = some (p, core)) (hcl : core / 8 = cl)
variable (hc : (clauseOf s cl).colls = [c]) (hcore : c.core = core) (hctx : c.ctx = p.ctx)
include ha hcl hc hcore hctx

omit ha in
theorem collNamed : (clauseOf s (clauseOfCore core)).colls.find? (fun x => x.core == core && x.ctx == p.ctx && x.cid == c.cid) = some c := by
  rw [clauseOfCore, hcl, hc]
  simp [hcore, hctx]

theorem stepArrival_eq {sender chk : Nat} {bs : List Byte} (hp : p.payload = .step c.cid sender chk bs) : stepArrival s n =
    if 65536 < c.ahead + bs.length ∧ c.wants sender = false then s
    else modClause (takePkt s n) cl (fun k => { k with colls := [{ c with inbox := c.inbox ++ [(sender, chk, bs)] }] }) := by
  have hnamed := collNamed hcl hc hcore hctx
  simp only [stepArrival, ha, hp, hnamed, Bool.and_eq_true, decide_eq_true_eq, Bool.not_eq_true']
  rw [clauseOfCore, hcl, modColl_only (s := takePkt s n) hc]

theorem abortArrival_eq (hp : p.payload = .abort c.cid false) (hend : c.ending = none) : abortArrival s n = collAbort (takePkt s n) cl c := by
  have hnamed : (clauseOf (takePkt s n) (clauseOfCore core)).colls.find? _ = some c := collNamed hcl hc hcore hctx
  simp only [abortArrival, ha, hp, hnamed, hend, Option.isSome_none, Bool.false_eq_true, if_false]
  rw [clauseOfCore, hcl]

end Arrival

/-- A step is wanted where the step being taken comes from its sender, and is not yet all there. -/
theorem Coll.wants_iff (c : Coll) (sender : Nat) : c.wants sender = true ↔ ∃ k, c.awaits = some (sender, k) ∧ c.buffered sender < k := by
  unfold Coll.wants Coll.wanted
  cases h : c.awaits with
  | none => simp
  | some x =>
    obtain ⟨d, k⟩ := x
    by_cases hd : d = sender
    · simp [hd]
    · simp [hd]

/-! ### A step in progress is undone (R232) -/

/-- The one store of a step in progress is undone. -/
theorem undoStores_one {s : State} {c : Coll} {a : Word} {old : List Byte} (hu : c.undo = [(a, old)]) (hm : s.memos = [])
    (hfree : PadFree s (c.engine s) a old.length) : undoStores s c = padStored s (c.engine s) a old := by
  have hstore := hfree.engStore (by simp [memoOf, hm])
  simp only [undoStores, hu, List.reverse_singleton, List.foldl_cons, List.foldl_nil, hstore]

theorem undoStores_none {s : State} {c : Coll} (hu : c.undo = []) : undoStores s c = s := by
  simp only [undoStores, hu, List.reverse_nil, List.foldl_nil]

/-! ### A program's LOOP and END steps -/

/-- A LOOP goes back while its counter is below its bound, else starts it anew and goes on. -/
theorem runStep_loops {u : State} {cl : Nat} {c : Coll} {w : Word} (hc : (clauseOf u cl).colls = [c]) (h : bits w 63 60 = 6) :
    let i := c.counters.getD (bits w 59 58) 0
    let set : Nat → List Nat := fun v => (List.range 4).map (fun j => if j = bits w 59 58 then v else c.counters.getD j 0)
    ∃ t, runStep u cl c w = .ok t () ∧ (clauseOf t cl).colls =
      [if i < bits w 57 42 then { c with counters := set (i + 1), step := bits w 23 0, sentStep := false, awaits := none, undo := [] }
        else { c with counters := set 0, step := c.step + 1, sentStep := false, awaits := none, undo := [] }] ∧ SameMemory u t := by
  intro i set
  by_cases hi : i < bits w 57 42
  · have hset := colls_modColl hc rfl (fun c => { c with counters := set (i + 1) })
    refine ⟨_, (runStep_loop h).trans (if_pos hi), (colls_goToStep hset (d := c) rfl ..).trans ?_, fun loc => goToStep_memory _ _ _ loc⟩
    rw [if_pos hi, Nat.or_zero]
  · have hset := colls_modColl hc rfl (fun c => { c with counters := set 0 })
    refine ⟨_, (runStep_loop h).trans (if_neg hi), (colls_goToStep hset (d := c) rfl ..).trans ?_, fun loc => goToStep_memory _ _ _ loc⟩
    rw [if_neg hi, Nat.or_zero]

theorem memoOf_forget (s : State) (w : Who) (write : Bool) (va n : Nat) : memoOf (forget s w.agent.core w.ctx w.unit) w write va n = none := by
  rw [forget_eq]
  simp only [memoOf]
  split
  · rfl
  · refine List.find?_eq_none.2 fun m hm hkey => ?_
    simp only [List.mem_filter, Bool.not_eq_true', Bool.and_eq_true] at hm hkey
    obtain ⟨⟨⟨⟨⟨hcore, hctx⟩, hunit⟩, -⟩, -⟩, -⟩ := hkey
    simp [hcore, hctx, hunit] at hm

theorem tellRanks_ended (s : State) (cl : Nat) {c : Coll} (h : c.ending.getD 0 % 2 = 0) : tellRanks s cl c = .ok s () :=
  if_pos (by simp [h])

theorem collEnding_ended {u : State} {cl : Nat} {c : Coll} (hc : (clauseOf u cl).colls = [c]) (hst : c.status % 2 = 0)
    (hq : jobQuiet u c.agent = true) (hmailed : c.mailed = false) (hfree : PadFree u (c.engine u) c.mbox 8)
    (h8 : bit (c.words.getD 3 0) 8 = false) (hw : MemoryCanonical u) :
    let t := collEnding (modColl (forget u c.core c.ctx (jobUnit 2 c.handle)) cl c.handle (fun c => { c with ending := some c.status })) cl c.handle
    (clauseOf t cl).colls = [] ∧ readNat t (jobLoc u (c.engine u) c.mbox) 8 = collStatus c c.status % 2 ^ 64 := by
  intro t
  let d : Coll := { c with ending := some c.status }
  have hlist : (clauseOf (forget u c.core c.ctx (jobUnit 2 c.handle)) cl).colls = [c] := by rw [clauseOf_forget, hc]
  have hd := colls_modColl hlist rfl (fun c => { c with ending := some c.status })
  have hforgot : memoOf (forget u c.core c.ctx (jobUnit 2 c.handle)) (c.engine u) true c.mbox.toNat 8 = none :=
    memoOf_forget u (c.engine u) true _ _
  simp only [t]
  rw [forget_eq] at hd hforgot ⊢
  obtain ⟨hgone, hread, -⟩ := collEnding_leaves (c := d) (d := d) hd (tellRanks_ended _ cl hst)
    (jobQuiet_moves hq rfl rfl (fun _ hm => .inl hm)) hmailed hd rfl hforgot (hfree.keeps ..) hw h8
  exact ⟨hgone, hread⟩

/-! ### A program's end at an abort -/

theorem collEnding_aborted {s u : State} {cl : Nat} {d : Coll} {ds : List Node} (hd : (clauseOf s cl).colls = [d])
    (hst : d.ending.getD 0 % 2 = 1) (hs : d.sentStep = false) (hmailed : d.mailed = false)
    (hranks : otherRanks s d (List.range d.n) = .ok u ds) (hu : (clauseOf u cl).colls = [d]) (hq : jobQuiet u d.agent = true)
    (hmemo : memoOf u (d.engine u) true d.mbox.toNat 8 = none) (hfree : PadFree u (d.engine u) d.mbox 8)
    (h8 : bit (d.words.getD 3 0) 8 = false) (hw : MemoryCanonical u) : let t := collEnding s cl d.handle
    (clauseOf t cl).colls = [] ∧ readNat t (jobLoc u (d.engine u) d.mbox) 8 = collStatus d (d.ending.getD 0) % 2 ^ 64 ∧
    ∀ i (h : i < ds.length), tget t.net (u.ids + i) = some (abortNotice u d ds[i]) := by
  intro t
  obtain ⟨net, ids, clauses, htold, hlist, hnet, hsent⟩ := tellRanks_aborting hst hs hranks hu
  have hquiet : jobQuiet { u with net := net, ids := ids, clauses := clauses } d.agent = true := by
    refine jobQuiet_moves hq rfl rfl (fun m hm => (hnet m hm).imp id ?_)
    rintro ⟨x, hx⟩
    rw [hx]
    exact idlePacket_abortNotice ..
  have hfree' := hfree.moves (net := net) (fun m hm => (hnet m hm).imp id fun ⟨x, hx⟩ => by rw [hx, packetSpan_abortNotice])
    clauses u.walks u.memos ids
  obtain ⟨hgone, hread, hsame⟩ := collEnding_leaves hd htold hquiet hmailed hlist rfl hmemo hfree' hw h8
  exact ⟨hgone, hread, fun i h => by rw [show t.net = net from hsame]; exact hsent i h⟩

/-- An abort of a program whose step in progress has stored nothing. -/
theorem collAbort_nothingStored {s : State} {cl : Nat} {c : Coll} (hc : (clauseOf s cl).colls = [c]) (hu : c.undo = []) : collAbort s cl c =
    collEnding (modClause (dropSteps (forget (endWalks s (c.engine s)) c.core c.ctx (jobUnit 2 c.handle)) c) cl (fun k => { k with
      colls := [{ c with ending := some (c.status ||| 1), held := none, sentStep := false, mailed := false }] })) cl c.handle := by
  have hv : (clauseOf (dropSteps (forget (endWalks s (c.engine s)) c.core c.ctx (jobUnit 2 c.handle)) c) cl).colls = [c] := by
    show (clauseOf (forget (endWalks s (c.engine s)) c.core c.ctx (jobUnit 2 c.handle)) cl).colls = [c]
    rw [clauseOf_forget, endWalks_eq]
    exact hc
  simp only [collAbort, undoStores_none hu, modColl_only hv, hu]

theorem or_one_odd (x : Nat) : (x ||| 1) % 2 = 1 := by
  have h := Nat.testBit_or x 1 0
  rwa [Nat.testBit_zero, Nat.testBit_zero, Nat.testBit_zero, decide_eq_true (p := 1 % 2 = 1) rfl, Bool.or_true, decide_eq_true_eq] at h

end Sys2Proof.Machine

namespace Sys2Proof
open Machine

/-- Settles O50: the copy unit's next piece (`copyStep_pad`) and ends (`copyFinish_leaves`, `copyComplete_pad`); a program's steps (`collStep_runs`
with `runStep_loop`, `runStep_send`, `runStep_copy`), its end (`collEnding_ended`) and its abort (`undoStores_one`, `collEnding_aborted`). -/
theorem copyAndCollectiveEvents : Obligations.CopyAndCollectiveEvents := by
  intro s cl
  refine ⟨fun j hj hheld => ?_, fun c hc hheld hend hst w u hload hu hlegal => ?_, fun n p core c ha hcl hc hcore hctx => ⟨?_, ?_, ?_⟩⟩
  · intro part flags hnd moved swz dst ag pad free
    have hdst : swizzle (bit (j.regs.getD 6 0) 8) (bits (j.regs.getD 6 0) 4 0) (copyPiece j).2.1 = dst := copySwizzle_eq ..
    have hfree : ∀ a n, free a n → PadFree s (copyWho s j.core j.ctx j.id) a n ∧ s.memos = [] :=
      fun a n ⟨hr, hfit, hown, hsound, hmemos⟩ => ⟨⟨hr, hfit, hown, hsound⟩, hmemos⟩
    refine ⟨fun hcancel hsort h hsrc hput hw => ?_, fun _ h => ?_, fun hcancel hdone hq h2 => ⟨fun h1 => ?_, fun h1 hm hf hw => ?_⟩,
      fun hcancel hq h1 h2 => ?_, fun a w hact hx hw hk hop => ⟨fun h => ?_, fun h => ?_⟩⟩
    · obtain ⟨hread, hmemos⟩ := hfree _ _ hsrc
      obtain ⟨hwrite, -⟩ := hfree _ _ hput
      exact ⟨_, rfl, copyStep_pad hj hheld hcancel hsort h hmemos hw hdst hread hwrite⟩
    · rw [exec_copyTransferComplete, copyComplete_early hj h]
    · rw [← bit_eq_getLsbD] at h1 h2
      obtain ⟨hcopies, hcancelled, hmem, hundef, hupcall⟩ := copyFinish_leaves (cl := cl) hq h2
      refine ⟨copyFinish s cl j, ?_, hcopies.trans ?_, hcancelled, readByte_congr hmem hundef, fun h0 => hupcall (by rwa [bit_eq_getLsbD])⟩
      · rw [exec_copyTransferComplete, copyComplete_plain hj hheld hcancel hdone hq h1]
      · rw [hj]
        simp
    · rw [← bit_eq_getLsbD] at h1 h2
      obtain ⟨hwrite, hmemos⟩ := hfree _ _ hf
      exact ⟨_, rfl, copyComplete_pad hj hheld hcancel hdone hq h1 h2 hm hmemos hw hwrite⟩
    · rw [← bit_eq_getLsbD] at h1 h2
      refine ⟨_, rfl, ?_⟩
      rw [copyCancelStop_plain hj hcancel hq h1, copyEnd_plain h2, clauseOf_modClause_self, clauseOf_forget, endWalks_eq]
      refine ⟨?_, rfl⟩
      show (clauseOf s cl).copies.filter (fun x => x.id != j.id) = []
      rw [hj]
      simp
    · rw [exec_copyPromiseExpire, copyPromiseExpire_early hj h]
    · exact ⟨_, rfl, actAt_copyPromiseExpire hj hact hx hw hk hop h⟩
  · intro op pm buf count i set
    have hop : bits w 63 60 = op := stepOp_eq w
    have hcount : stepCount w = count := bits_low w 23
    refine ⟨fun h6 => ?_, fun bs d u1 u2 h1 hb hd => ?_, fun bs u1 u2 h4 hb hstore => ?_, ?_⟩
    · obtain ⟨t, hrun, hcolls, hmem⟩ := runStep_loops hu (hop.trans h6)
      refine ⟨t, ?_, ?_, hmem⟩
      · rw [exec_collectiveStepRun, collStep_runs hc hheld hend hload hlegal hrun]
      · rw [hcolls, show bits w 23 0 = count from hcount]
        rfl
    · rw [exec_collectiveStepRun, collStep_runs hc hheld hend hload hlegal (runStep_send (hop.trans h1) hb hd), hcount]
      rfl
    · rw [exec_collectiveStepRun, collStep_runs hc hheld hend hload hlegal (runStep_copy (hop.trans h4) hb hstore)]
    · intro part mail h0 hq hmailed hr hfit hown hsound h8 hw
      rw [← bit_eq_getLsbD] at h8
      refine ⟨_, rfl, ?_⟩
      rw [collStep_runs hc hheld hend hload hlegal (runStep_end (hop.trans h0))]
      exact collEnding_ended hu hst hq hmailed ⟨hr, hfit, hown, hsound⟩ h8 hw
  · intro sender chk bs hp held all ahead wanted
    have hheld' : ∀ d, held d = c.buffered d := fun d => by simp only [held, Coll.buffered, beq_eq_decide]
    have hahead : ahead = c.ahead := by
      simp only [ahead, Coll.ahead, hheld']
      rfl
    have hwanted : wanted ↔ c.wants sender = true := by rw [c.wants_iff, ← hheld']
    have harr := stepArrival_eq ha hcl hc hcore hctx hp
    rw [← hahead] at harr
    rw [exec_collectiveStepArrival, harr, hwanted]
    refine ⟨fun h => congrArg _ (if_neg ?_), fun hno hfull => congrArg _ (if_pos ⟨hfull, Bool.eq_false_iff.2 hno⟩)⟩
    · rintro ⟨hfull, hno⟩
      obtain hyes | hroom := h
      · rw [hyes] at hno
        cases hno
      · omega
  · intro hp hending a old v loc
    refine ⟨?_, fun hundo hr hfit hmemos hown hsound hw => ?_⟩
    · rw [exec_collectiveAbortNotice, abortArrival_eq ha hcl hc hcore hctx hp hending]
      rfl
    · rw [undoStores_one hundo hmemos ⟨hr, hfit, hown, hsound⟩]
      exact ⟨readBytes_padStored _ _ hw, fun l hl => readByte_padStored_out _ _ hl⟩
  · intro hp hending hundo d u u1 ds hranks hu1 part mail hq hmemo hr hfit hown hsound h8 hw
    rw [← bit_eq_getLsbD] at h8
    have hgone := collEnding_aborted (d := d) (by rw [clauseOf_modClause_self]) (or_one_odd c.status) rfl rfl hranks hu1 hq hmemo
      ⟨hr, hfit, hown, hsound⟩ h8 hw
    obtain ⟨hcolls, hread, hsent⟩ := hgone
    refine ⟨_, rfl, ?_⟩
    rw [abortArrival_eq ha hcl hc hcore hctx hp hending, collAbort_nothingStored (s := takePkt s n) hc hundo]
    exact ⟨hcolls, hread, fun i h => ⟨_, hsent i h, rfl, rfl, rfl⟩⟩

end Sys2Proof
end

section
/-!
SUPPORT. Canonical memory (R148). Memory changes by `writeByte`, `makeUndef` and `zeroMemory` alone, which keep it canonical, and every
operation of the model is built of these three and of updates of other fields. One lemma per operation says so, in the order of the
model's files: where the definition branches, `grind` takes the branches apart, and each ends in an operation of its list. This part:
memory, translation, packets, and the issue of an instruction.
-/

namespace Sys2Proof.Machine

/-- The canonical form of a byte list, as a proposition. -/
def Memory.Canonical (m : List Host.Cell) : Prop := Memory.wf m = true

/-- The state an instruction's effect leaves, whatever it comes to, has canonical memory. -/
def Res.Canonical : Res → Prop
  | .ok s | .jump s _ | .leave s _ | .stall s _ | .trap s _ _ | .gone s | .migrate s => Memory.Canonical s.mem

/-- The state an access leaves, whatever it comes to, has canonical memory. -/
def Got.Canonical {α : Type} : Got α → Prop
  | .val s _ | .stall s _ | .trap s _ _ => Memory.Canonical s.mem

/-- The state a run of an engine's accesses leaves has canonical memory. -/
def Eng.Canonical {α : Type} : Eng α → Prop
  | .ok s _ | .fault s _ _ | .wait s => Memory.Canonical s.mem

/-- The state a trap's delivery leaves has canonical memory. -/
def Delivery.Canonical : Delivery → Prop
  | .done s | .wait s => Memory.Canonical s.mem

/-- The state a fetch leaves has canonical memory. -/
def Fetched.Canonical : Fetched → Prop
  | .instr s _ | .bad s _ | .fault s _ _ | .wait s => Memory.Canonical s.mem

/-- The next state, where an outcome gives one, has canonical memory. -/
def NextCanonical : Host.Outcome State Fault Refusal → Prop
  | .next s => Memory.Canonical s.mem
  | .fault _ | .refused _ => True

/-- A fold over what holds a state keeps the state's memory canonical where each of its steps does. -/
theorem foldl_state_canonical {α β : Type} {st : α → State} {f : α → β → α} {l : List β} {a : α} (ha : Memory.Canonical (st a).mem)
    (hf : ∀ a x, Memory.Canonical (st a).mem → Memory.Canonical (st (f a x)).mem) : Memory.Canonical (st (l.foldl f a)).mem := by
  induction l generalizing a with
  | nil => exact ha
  | cons x l ih => exact ih (hf a x ha)

theorem foldl_canonical {β : Type} {f : State → β → State} {l : List β} {s : State} (hw : Memory.Canonical s.mem)
    (hf : ∀ s x, Memory.Canonical s.mem → Memory.Canonical (f s x).mem) : Memory.Canonical (l.foldl f s).mem :=
  foldl_state_canonical (st := id) hw hf

section Operations
variable {s : State} (hw : Memory.Canonical s.mem)
include hw

/-! ### Memory and the parts of the state -/

theorem writeByte_canonical (ctx loc b) : Memory.Canonical (writeByte s ctx loc b).mem := wf_writeByte hw ctx loc b
theorem writeBytes_canonical (ctx loc bs) : Memory.Canonical (writeBytes s ctx loc bs).mem := wf_writeBytes hw ctx loc bs
theorem writeWord_canonical (ctx loc w) : Memory.Canonical (writeWord s ctx loc w).mem := wf_writeWord hw ctx loc w
theorem makeUndef_canonical (lo hi) : Memory.Canonical (makeUndef s lo hi).mem := wf_makeUndef hw lo hi
theorem setCore_canonical (c x) : Memory.Canonical (setCore s c x).mem := hw
theorem modCore_canonical (c f) : Memory.Canonical (modCore s c f).mem := hw
theorem modClause_canonical (c f) : Memory.Canonical (modClause s c f).mem := hw
theorem modDie_canonical (d f) : Memory.Canonical (modDie s d f).mem := hw
theorem modCtx_canonical (core ctx f) : Memory.Canonical (modCtx s core ctx f).mem := hw
theorem nextFree_canonical : Memory.Canonical (nextFree s).mem := hw

/-! ### Translation -/

theorem passWalks_canonical (n) : Memory.Canonical (passWalks s n).mem := by
  unfold passWalks
  split <;> exact hw

theorem tlbFill_canonical (h e) : Memory.Canonical (tlbFill s h e).mem := by
  unfold tlbFill
  grind [modCore_canonical, modClause_canonical]

theorem setLeafBits_canonical (k e) : Memory.Canonical (setLeafBits s k e).1.mem := canonical_setLeafBits hw k e

theorem endWalks_canonical (who) : Memory.Canonical (endWalks s who).mem := by
  unfold endWalks
  split <;> exact hw

theorem setLeaves_canonical (who k ls) : Memory.Canonical (setLeaves s who k ls).mem := canonical_setLeaves who k ls hw

theorem commitLeaves_canonical (who k ls) : Memory.Canonical (commitLeaves s who k ls).mem :=
  setLeaves_canonical (endWalks_canonical hw ..) ..

theorem startWalk_canonical (who va h) : Memory.Canonical (startWalk s who va h).mem := by
  unfold startWalk
  grind

theorem invalidate_canonical (sc core asid va) : Memory.Canonical (invalidate s sc core asid va).mem := hw

/-! ### Packets, and accesses by packet -/

theorem launchPacket_canonical (p) : Memory.Canonical (launchPacket s p).mem := hw
theorem takePkt_canonical (n) : Memory.Canonical (takePkt s n).mem := hw
theorem movePkt_canonical (n p pos) : Memory.Canonical (movePkt s n p pos).mem := hw
theorem restart_canonical (n p) : Memory.Canonical (restart s n p).mem := hw
theorem sendPkt_canonical (src dst ctx scope mprio pl) : Memory.Canonical (sendPkt s src dst ctx scope mprio pl).mem := hw
theorem addMemo_canonical (w write va size tag bytes) : Memory.Canonical (addMemo s w write va size tag bytes).mem := hw

theorem forget_canonical (core ctx unit) : Memory.Canonical (forget s core ctx unit).mem := by
  unfold forget
  split <;> exact hw

theorem answerMemo_canonical (tag bytes bad) : Memory.Canonical (answerMemo s tag bytes bad).mem := by
  unfold answerMemo
  split <;> exact hw

theorem askMemory_canonical (w write va m pa size bs) : Memory.Canonical (askMemory s w write va m pa size bs).mem := hw

omit hw in
theorem Eng.Canonical.bind {α β : Type} {g : Eng α} {f : State → α → Eng β} (hg : g.Canonical)
    (hf : ∀ s x, Memory.Canonical s.mem → (f s x).Canonical) : (Eng.bind g f).Canonical := by
  cases g with
  | ok s x => exact hf s x hg
  | fault s c va => exact hg
  | wait s => exact hg

theorem farRead_canonical (w va m ps) : (farRead s w va m ps).Canonical := by
  fun_induction farRead s w va m ps
  all_goals grind [Eng.Canonical.bind, askMemory_canonical, Eng.Canonical]

theorem farWrite_canonical (w va m ps bs) : (farWrite s w va m ps bs).Canonical := by
  fun_induction farWrite s w va m ps bs
  all_goals grind [askMemory_canonical, Eng.Canonical]

/-! ### Registers, accesses, traps and the issue of an instruction -/

theorem setActAt_canonical (c a) : Memory.Canonical (setActAt s c a).mem := by
  unfold setActAt
  split <;> exact hw

theorem setAct_canonical (a) : Memory.Canonical (setAct s a).mem := setActAt_canonical hw ..
theorem modAct_canonical (f) : Memory.Canonical (modAct s f).mem := setAct_canonical hw ..
theorem modRegs_canonical (f) : Memory.Canonical (modRegs s f).mem := hw
theorem wS_canonical (i w) : Memory.Canonical (wS s i w).mem := setAct_canonical hw ..
theorem wV_canonical (i x) : Memory.Canonical (wV s i x).mem := setAct_canonical hw ..
theorem wP_canonical (i x) : Memory.Canonical (wP s i x).mem := setAct_canonical hw ..
theorem wE_canonical (i w) : Memory.Canonical (wE s i w).mem := setAct_canonical hw ..
theorem raiseFlags_canonical (f) : Memory.Canonical (raiseFlags s f).mem := modAct_canonical hw ..

theorem readParts_canonical (w va ps) : (readParts s w va ps).Canonical := by
  fun_induction readParts s w va ps
  all_goals grind [Eng.Canonical.bind, farRead_canonical, Eng.Canonical]

theorem readMem_canonical (w a n) : (readMem s w a n).Canonical := by
  unfold readMem
  grind [readParts_canonical, commitLeaves_canonical, endWalks_canonical, startWalk_canonical, Eng.Canonical]

theorem wakeLines_canonical (loc n) : Memory.Canonical (wakeLines s loc n).mem := by
  unfold wakeLines
  split <;> exact hw

theorem storeAt_canonical (ctx loc bs) : Memory.Canonical (storeAt s ctx loc bs).mem := by
  unfold storeAt
  grind [wakeLines_canonical, writeBytes_canonical]

theorem writeParts_canonical (w va ps bs) : (writeParts s w va ps bs).Canonical := by
  fun_induction writeParts s w va ps bs
  all_goals grind [Eng.Canonical.bind, farWrite_canonical, storeAt_canonical, Eng.Canonical]

theorem writeMem_canonical (w a bs) : (writeMem s w a bs).Canonical := by
  unfold writeMem
  grind [writeParts_canonical, commitLeaves_canonical, endWalks_canonical, startWalk_canonical, Eng.Canonical]

theorem newId_canonical : Memory.Canonical (newId s).mem := hw

theorem contextEnd_canonical (ctx) : Memory.Canonical (contextEnd s ctx).mem := by
  unfold contextEnd
  grind [writeWord_canonical]

theorem errorRecord_canonical (core ctx ws) : Memory.Canonical (errorRecord s core ctx ws).mem := by
  unfold errorRecord
  grind [contextEnd_canonical, writeMem_canonical, forget_canonical, Eng.Canonical]

theorem flushRecords_canonical : Memory.Canonical (flushRecords s).mem := by
  unfold flushRecords
  grind [foldl_canonical, errorRecord_canonical]

theorem loadEntry_canonical (core ctx) : Memory.Canonical (loadEntry s core ctx).mem := by
  unfold loadEntry
  split <;> exact hw

/-- The scratchpad base is taken as any number: with the base itself, which holds large numerals, the kernel recurses too deep. -/
theorem clearScratch_canonical (core ctx) : Memory.Canonical (clearScratch s core ctx).mem := by
  have h (l : List (Nat × Nat)) (b : Nat) : Memory.Canonical (l.foldl (fun s i => makeUndef s (b + i.1) (b + i.2)) s).mem :=
    foldl_canonical hw (fun _ _ hw => makeUndef_canonical hw ..)
  exact h ..

theorem beginAct_canonical (core ctx f) : Memory.Canonical (beginAct s core ctx f).mem :=
  modCore_canonical (nextFree_canonical (clearScratch_canonical hw ..)) ..

theorem privTrap_canonical (escalated phrase c tval) : Memory.Canonical (privTrap s escalated phrase c tval).mem := modAct_canonical hw ..

theorem saveFrame_canonical (core f) : Memory.Canonical (saveFrame s core f).mem := by
  unfold saveFrame
  grind [storeAt_canonical, modCtx_canonical]

theorem dropWatch_canonical : Memory.Canonical (dropWatch s).mem := by
  unfold dropWatch
  grind [modCore_canonical, modCtx_canonical]

theorem dropAct_canonical : Memory.Canonical (dropAct s).mem := by
  unfold dropAct
  grind [dropWatch_canonical, forget_canonical, endWalks_canonical, setActAt_canonical, modCore_canonical, saveFrame_canonical]

theorem recordFault_canonical (phrase c tval met) : Memory.Canonical (recordFault s phrase c tval met).mem := by
  unfold recordFault
  grind [contextEnd_canonical, privTrap_canonical]

theorem userUpcall_canonical (phrase c tval) : (userUpcall s phrase c tval).Canonical := by
  unfold userUpcall
  grind [privTrap_canonical, Eng.Canonical.bind, readParts_canonical, commitLeaves_canonical, writeParts_canonical, recordFault_canonical,
    modRegs_canonical, dropAct_canonical, loadEntry_canonical, beginAct_canonical, modCore_canonical, newId_canonical, endWalks_canonical,
    startWalk_canonical, Eng.Canonical, Delivery.Canonical]

theorem takeTrap_canonical (phrase c tval) : (takeTrap s phrase c tval).Canonical := by
  unfold takeTrap
  split
  · exact contextEnd_canonical hw ..
  · split
    · exact privTrap_canonical hw ..
    · exact userUpcall_canonical hw ..

theorem returnTrap_canonical : ∀ o, returnTrap s = .ok o → Memory.Canonical o.mem := by
  unfold returnTrap
  grind [setAct_canonical]

theorem gated_canonical {g} {body : State → Res} (hbody : ∀ s, Memory.Canonical s.mem → (body s).Canonical) :
    (gated g body s).Canonical := by
  unfold gated
  split
  · exact hw
  · split
    · exact hw
    · split
      · split <;> exact hw
      · split
        · split
          · exact hbody s hw
          · exact hw
        · exact hbody s hw

theorem deliverTrap_canonical (phrase c tval) : Memory.Canonical (deliverTrap s phrase c tval).mem := by
  have h := takeTrap_canonical hw phrase c tval
  unfold deliverTrap
  cases heq : takeTrap s phrase c tval with
  | done t =>
    rw [heq] at h
    exact h
  | wait t =>
    rw [heq] at h
    exact modAct_canonical h ..

theorem dissolve_canonical (p) : Memory.Canonical (dissolve s p).mem := by
  unfold dissolve
  grind [foldl_canonical, modCore_canonical, setActAt_canonical]

omit hw in
theorem finish_canonical {g} {r : Res} (hr : r.Canonical) : Memory.Canonical (finish g r).mem := by
  cases r with
  | ok s => exact modAct_canonical hr ..
  | jump s t => exact modAct_canonical hr ..
  | leave s t => exact modAct_canonical hr ..
  | stall s w => exact modAct_canonical hr ..
  | trap s c tval => exact deliverTrap_canonical hr ..
  | gone s => exact hr
  | migrate s => exact modCore_canonical (modAct_canonical hr ..) ..

theorem setPhrase_canonical (p) : Memory.Canonical (setPhrase s p).mem := foldl_canonical hw fun _ _ hw => modCore_canonical hw ..

theorem memberStep_canonical {g} {body : State → Res} {p c} (hbody : ∀ s, Memory.Canonical s.mem → (body s).Canonical) :
    Memory.Canonical (memberStep g body s p c).1.mem := by
  unfold memberStep
  grind [setPhrase_canonical, modAct_canonical, gated_canonical, modCore_canonical, dissolve_canonical, deliverTrap_canonical,
    foldl_canonical, Res.Canonical]

/-- The members take the instruction in turn; once the phrase has split, each other member finishes it alone (R85). -/
theorem phraseStep_canonical {g} {body : State → Res} {p cs} (hbody : ∀ s, Memory.Canonical s.mem → (body s).Canonical) :
    Memory.Canonical (phraseStep g body s p cs).1.mem := by
  induction cs generalizing s p with
  | nil => exact hw
  | cons c r ih =>
    have hm := memberStep_canonical hw (g := g) (p := p) (c := c) hbody
    unfold phraseStep
    split
    · exact ih hw
    · split
      · next heq =>
        rw [heq] at hm
        exact ih hm
      · next heq =>
        rw [heq] at hm
        refine foldl_canonical hm fun s m hw => ?_
        dsimp only
        split
        · split
          · exact hw
          · exact finish_canonical (gated_canonical (by exact hw) hbody)
        · exact hw

theorem issuePhrase_canonical {g} {body : State → Res} {p} (hbody : ∀ s, Memory.Canonical s.mem → (body s).Canonical) :
    Memory.Canonical (issuePhrase g body s p).mem := by
  unfold issuePhrase
  grind [dissolve_canonical, finish_canonical, gated_canonical, phraseStep_canonical, foldl_canonical, modCore_canonical,
    setPhrase_canonical, setActAt_canonical, Res.Canonical]

theorem issue_canonical {g} {body : State → Res} (hbody : ∀ s, Memory.Canonical s.mem → (body s).Canonical) :
    NextCanonical (issue g body s) := by
  unfold issue
  split
  · trivial
  · split
    · exact issuePhrase_canonical hw hbody
    · exact finish_canonical (gated_canonical hw hbody)

/-! ### Scalar arithmetic -/

theorem alu2_canonical (i w a b c f) : NextCanonical (alu2 i w a b c f s) := issue_canonical hw fun _ hw => wS_canonical hw ..
theorem alu1_canonical (i a b f) : NextCanonical (alu1 i a b f s) := issue_canonical hw fun _ hw => wS_canonical hw ..

end Operations

end Sys2Proof.Machine
end

section
/-!
SUPPORT. Canonical memory: stores and messages to other parts, launches, the scheduling of contexts, control instructions.
-/

namespace Sys2Proof.Machine

section Operations
variable {s : State} (hw : Memory.Canonical s.mem)
include hw

/-! ### Stores and messages to other parts -/

theorem sendCount_canonical (core e agent) : Memory.Canonical (sendCount s core e agent).mem := hw

theorem countSend_canonical (core dst ctx path agent num) : Memory.Canonical (countSend s core dst ctx path agent num).mem := by
  unfold countSend
  grind [modCore_canonical, sendCount_canonical]

theorem remoteStore_canonical (core dst ctx scope off bs holes agent) :
    Memory.Canonical (remoteStore s core dst ctx scope off bs holes agent).mem :=
  countSend_canonical (launchPacket_canonical hw ..) ..

theorem remoteFlag_canonical (core dst ctx scope off bs agent) : Memory.Canonical (remoteFlag s core dst ctx scope off bs agent).1.mem := hw
theorem acquire_canonical : Memory.Canonical (acquire s).mem := modAct_canonical hw ..

theorem sendMsg_canonical (core dst ctx scope mprio ws code nosrc src) :
    Memory.Canonical (sendMsg s core dst ctx scope mprio ws code nosrc src).mem :=
  hw

theorem acceptMsg_canonical (core m status) : Memory.Canonical (acceptMsg s core m status).mem := by
  unfold acceptMsg
  split <;> exact hw

theorem enqueueMsg_canonical (core m) : Memory.Canonical (enqueueMsg s core m).mem := hw
theorem arrivalWakes_canonical (core ctx prio) : Memory.Canonical (arrivalWakes s core ctx prio).mem := hw

theorem notice_canonical (kind ws) : Memory.Canonical (notice s kind ws).mem := by
  unfold notice
  split <;> exact hw

theorem dropCopy_canonical (core seq) : Memory.Canonical (dropCopy s core seq).mem := hw

theorem discardMsg_canonical (header m dst) : Memory.Canonical (discardMsg s header m dst).mem := by
  unfold discardMsg
  grind [notice_canonical, dropCopy_canonical]

/-! ### Launches and event vectors -/

theorem needSweep_canonical (core ctx t) : Memory.Canonical (needSweep s core ctx t).mem := hw

theorem parserWakes_canonical (ctx die v) : Memory.Canonical (parserWakes s ctx die v).mem :=
  foldl_canonical hw fun _ _ hw => needSweep_canonical hw ..

theorem vectorWakes_canonical (ctx die) : Memory.Canonical (vectorWakes s ctx die).mem := by
  unfold vectorWakes
  grind [parserWakes_canonical]

theorem modLaunch_canonical (die seq f) : Memory.Canonical (modLaunch s die seq f).mem := hw

theorem homeMoved_canonical (ctx) : Memory.Canonical (homeMoved s ctx).mem := by
  unfold homeMoved
  grind [modDie_canonical, vectorWakes_canonical]

theorem ensureMirror_canonical (ctx die) : Memory.Canonical (ensureMirror s ctx die).mem := by
  unfold ensureMirror
  grind [homeMoved_canonical, modDie_canonical]

theorem mirrorFor_canonical (ctx core) : Memory.Canonical (mirrorFor s ctx core).mem := by
  unfold mirrorFor
  grind [ensureMirror_canonical]

theorem putVector_canonical (ctx v) : Memory.Canonical (putVector s ctx v).mem := by
  unfold putVector
  grind [homeMoved_canonical, vectorWakes_canonical]

theorem evalLaunches_canonical (ctx die) : Memory.Canonical (evalLaunches s ctx die).mem := by
  unfold evalLaunches
  grind [foldl_canonical, modLaunch_canonical, putVector_canonical]

theorem changeVector_canonical (ctx v) : Memory.Canonical (changeVector s ctx v).mem := by
  unfold changeVector
  grind [putVector_canonical, evalLaunches_canonical]

theorem disarm_canonical (ctx bs) : Memory.Canonical (disarm s ctx bs).mem := by
  unfold disarm
  grind

theorem completionEvent_canonical (ctx b) : Memory.Canonical (completionEvent s ctx b).mem := by
  unfold completionEvent
  grind [changeVector_canonical, disarm_canonical]

theorem setWorkState_canonical (w st) : Memory.Canonical (setWorkState s w st).mem := hw

theorem retireIf_canonical (die seq) : Memory.Canonical (retireIf s die seq).mem := by
  unfold retireIf
  split
  · exact hw
  · dsimp only
    split
    · refine disarm_canonical ?_ ..
      split
      · exact modLaunch_canonical hw ..
      · exact changeVector_canonical (modLaunch_canonical hw ..) ..
    · exact hw

theorem triggerWork_canonical (w) : Memory.Canonical (triggerWork s w).mem := by
  unfold triggerWork
  grind [retireIf_canonical, modLaunch_canonical]

theorem triggerNow_canonical : Memory.Canonical (triggerNow s).mem := by
  unfold triggerNow
  grind [triggerWork_canonical, setWorkState_canonical, modAct_canonical]

theorem answer_canonical (ag f) : Memory.Canonical (answer s ag f).mem := hw
theorem answerStatus_canonical (ag v) : Memory.Canonical (answerStatus s ag v).mem := hw

theorem launchRequest_canonical (die) : Memory.Canonical (launchRequest s die).mem := by
  unfold launchRequest
  grind [modDie_canonical, answerStatus_canonical, homeMoved_canonical]

theorem launchJournaled_canonical (die) : Memory.Canonical (launchJournaled s die).mem := by
  unfold launchJournaled
  grind [answerStatus_canonical, modLaunch_canonical, evalLaunches_canonical, ensureMirror_canonical]

theorem consumed_canonical (ctx die m) : Memory.Canonical (consumed s ctx die m).mem := hw

theorem consumeConfirm_canonical (die seq) : Memory.Canonical (consumeConfirm s die seq).mem := by
  unfold consumeConfirm
  grind [modLaunch_canonical, consumed_canonical, putVector_canonical]

theorem mirrorUpdate_canonical (ctx die) : Memory.Canonical (mirrorUpdate s ctx die).mem := by
  unfold mirrorUpdate
  grind [modDie_canonical, evalLaunches_canonical, vectorWakes_canonical]

theorem homeMove_canonical (ctx) : Memory.Canonical (homeMove s ctx).mem := by
  unfold homeMove
  grind [homeMoved_canonical, evalLaunches_canonical]

theorem generateMessage_canonical (die seq) : Memory.Canonical (generateMessage s die seq).mem := by
  unfold generateMessage
  grind [launchPacket_canonical, modLaunch_canonical]

/-! ### Scheduling of contexts -/

theorem startUpcall_canonical (core ctx s1 cause va s30 wid wshape tpc tstat) :
    Memory.Canonical (startUpcall s core ctx s1 cause va s30 wid wshape tpc tstat).mem := by
  unfold startUpcall
  grind [modCore_canonical, beginAct_canonical]

theorem bareUpcall_canonical (core ctx s1 cause va tpc s30) : Memory.Canonical (bareUpcall s core ctx s1 cause va tpc s30).mem :=
  startUpcall_canonical hw ..

theorem startAtHandler_canonical (core m ws s1 xfer up) : Memory.Canonical (startAtHandler s core m ws s1 xfer up).mem := by
  unfold startAtHandler
  grind [acceptMsg_canonical, setWorkState_canonical, beginAct_canonical, errorRecord_canonical, triggerWork_canonical,
    bareUpcall_canonical]

theorem returnRecord_canonical (core ctx agent rec_ rmod loc) : Memory.Canonical (returnRecord s core ctx agent rec_ rmod loc).mem := by
  unfold returnRecord
  grind [storeAt_canonical, launchPacket_canonical, modCtx_canonical]

theorem resumeRecord_canonical (core ctx rec_ rmod loc bs) : Memory.Canonical (resumeRecord s core ctx rec_ rmod loc bs).mem := by
  unfold resumeRecord
  grind [nextFree_canonical, returnRecord_canonical, modCore_canonical]

theorem startMsg_canonical (core m) : Memory.Canonical (startMsg s core m).mem := by
  unfold startMsg
  grind [modCore_canonical, loadEntry_canonical, startAtHandler_canonical, modCtx_canonical, bareUpcall_canonical, resumeRecord_canonical,
    acceptMsg_canonical, startUpcall_canonical]

theorem engage_canonical (core ctx) : Memory.Canonical (engage s core ctx).mem := hw
theorem guestsOut_canonical (core) : Memory.Canonical (guestsOut s core).mem := foldl_canonical hw fun _ _ hw => setActAt_canonical hw ..

theorem activationStart_canonical (core) : Memory.Canonical (activationStart s core).mem := by
  unfold activationStart
  grind [modCore_canonical, engage_canonical, startMsg_canonical, guestsOut_canonical]

theorem leaveActive_canonical (core ctx) : Memory.Canonical (leaveActive s core ctx).mem := by
  unfold leaveActive
  split <;> exact hw

theorem switchComplete_canonical (core) : Memory.Canonical (switchComplete s core).mem := by
  unfold switchComplete
  grind [modCore_canonical, leaveActive_canonical, loadEntry_canonical]

theorem streamInComplete_canonical (core) : Memory.Canonical (streamInComplete s core).mem := by
  unfold streamInComplete
  grind [modCore_canonical, notice_canonical, modCtx_canonical, nextFree_canonical]

theorem streamOutComplete_canonical (core) : Memory.Canonical (streamOutComplete s core).mem := by
  unfold streamOutComplete
  grind [storeAt_canonical, modCtx_canonical, modCore_canonical, engage_canonical]

theorem preempt_canonical (core) : Memory.Canonical (preempt s core).mem := by
  unfold preempt
  grind [dissolve_canonical, engage_canonical, modCore_canonical]

theorem endDonation_canonical (core) : Memory.Canonical (endDonation s core).mem := by
  unfold endDonation
  split <;> exact hw

theorem donationLimit_canonical (core) : Memory.Canonical (donationLimit s core).mem := by
  unfold donationLimit
  grind [endDonation_canonical]

theorem donationOver_canonical (core ctx ph) : Memory.Canonical (donationOver s core ctx ph).mem := by
  unfold donationOver
  grind [endDonation_canonical]

theorem endAct_canonical : Memory.Canonical (endAct s).mem := by
  unfold endAct
  grind [triggerNow_canonical, setWorkState_canonical, donationOver_canonical, dropAct_canonical]

theorem migrationComplete_canonical (core ctx) : Memory.Canonical (migrationComplete s core ctx).mem := by
  unfold migrationComplete
  grind [modCore_canonical]

theorem endFuse_canonical (core status to_) : Memory.Canonical (endFuse s core status to_).mem := by
  unfold endFuse
  grind [modCore_canonical, setActAt_canonical]

theorem fuseTimeout_canonical (core) : Memory.Canonical (fuseTimeout s core).mem := by
  unfold fuseTimeout
  grind [endFuse_canonical]

/-! ### Control instructions -/

theorem branchBody_canonical {n : Nat} (imm : BitVec n) (cond) : (branchBody imm cond s).Canonical := by
  unfold branchBody
  split <;> exact hw

theorem branchOp_canonical (i a b imm cond) : NextCanonical (branchOp i a b imm cond s) :=
  issue_canonical hw fun _ hw => branchBody_canonical hw ..

theorem jumpBody_canonical (link len target) : (jumpBody link len target s).Canonical := by
  unfold jumpBody
  grind [wS_canonical, Res.Canonical]

theorem execEret_canonical : NextCanonical (execEret s) := by
  refine issue_canonical hw fun s hw => ?_
  grind [returnTrap_canonical, Res.Canonical]

theorem execHalt_canonical : NextCanonical (execHalt s) := by
  refine issue_canonical hw fun s hw => ?_
  grind [Res.Canonical]

theorem execSleep_canonical (b) : NextCanonical (execSleep b s) := by
  refine issue_canonical hw fun s hw => ?_
  grind [Res.Canonical]

theorem execWfe_canonical : NextCanonical (execWfe s) := by
  refine issue_canonical hw fun s hw => ?_
  grind [mirrorFor_canonical, Res.Canonical]

theorem fuseBody_canonical (a nf) : (fuseBody a nf s).Canonical := by
  unfold fuseBody
  grind [wS_canonical, foldl_canonical, endFuse_canonical, setPhrase_canonical, modCore_canonical, Res.Canonical]

theorem execSplit_canonical (b) : NextCanonical (execSplit b s) := by
  refine issue_canonical hw fun s hw => ?_
  grind [Res.Canonical]

theorem splitBefore_canonical (test) : Memory.Canonical (splitBefore test s).mem := by
  unfold splitBefore
  grind [dissolve_canonical]

theorem execMigr_canonical : NextCanonical (execMigr s) := by
  unfold execMigr
  grind [issue_canonical, splitBefore_canonical, NextCanonical, Res.Canonical]

theorem execYield_canonical : NextCanonical (execYield s) := by
  unfold execYield
  grind [issue_canonical, engage_canonical, splitBefore_canonical, NextCanonical, Res.Canonical]

end Operations

end Sys2Proof.Machine
end

section
/-!
SUPPORT. Canonical memory: memory operands, loads, stores and atomics, queues, messages, events and phasers.
-/

namespace Sys2Proof.Machine

section Operations
variable {s : State} (hw : Memory.Canonical s.mem)
include hw

/-! ### Memory operands -/

omit hw in
theorem Got.Canonical.bind {α β : Type} {g : Got α} {f : State → α → Got β} (hg : g.Canonical)
    (hf : ∀ s x, Memory.Canonical s.mem → (f s x).Canonical) : (Got.bind g f).Canonical := by
  cases g with
  | val s x => exact hf s x hg
  | stall s w => exact hg
  | trap s c tval => exact hg

omit hw in
theorem Got.Canonical.res {α : Type} {g : Got α} {f : State → α → Res} (hg : g.Canonical)
    (hf : ∀ s x, Memory.Canonical s.mem → (f s x).Canonical) : (Got.res g f).Canonical := by
  cases g with
  | val s x => exact hf s x hg
  | stall s w => exact hg
  | trap s c tval => exact hg

theorem fmtPut_canonical (w i c) : Memory.Canonical (fmtPut s w i c).mem := by
  unfold fmtPut
  grind [storeAt_canonical]

theorem fmtStore_canonical (w size fixed carry es) : Memory.Canonical (fmtStore s w size fixed carry es).mem := by
  fun_induction fmtStore s w size fixed carry es
  all_goals grind [raiseFlags_canonical, fmtPut_canonical]

theorem rlbFill_canonical (line) : Memory.Canonical (rlbFill s line).mem := modAct_canonical hw ..

theorem rlbStore_canonical (rmod loc bs) : Memory.Canonical (rlbStore s rmod loc bs).mem := by
  unfold rlbStore
  grind [modAct_canonical]

theorem poolReady_canonical (size es) : (poolReady s size es).Canonical := by
  unfold poolReady
  grind [Got.Canonical]

theorem sendReq_canonical (op pieces) : Memory.Canonical (sendReq s op pieces).mem := by
  unfold sendReq
  grind [foldl_canonical, launchPacket_canonical]

theorem askRemote_canonical (m pa n) : Memory.Canonical (askRemote s m pa n).mem := hw

theorem runLoad_canonical (fresh skip got ps) : (runLoad s fresh skip got ps).Canonical := by
  fun_induction runLoad s fresh skip got ps
  all_goals grind [askRemote_canonical, sendReq_canonical, foldl_canonical, rlbFill_canonical, launchPacket_canonical, Got.Canonical]

theorem loadAll_canonical (fresh va parts) : (loadAll s fresh va parts).Canonical := by
  unfold loadAll
  grind [runLoad_canonical, modAct_canonical, Got.Canonical]

theorem refusedOr_canonical {α : Type} (x : α) : (refusedOr s x).Canonical := by
  unfold refusedOr
  split <;> exact hw

theorem loadParts_canonical (fresh va parts) : (loadParts s fresh va parts).Canonical :=
  (loadAll_canonical hw ..).bind fun _ _ hw => refusedOr_canonical hw ..

theorem mailAcquire_canonical (ps) : Memory.Canonical (mailAcquire s ps).mem := by
  unfold mailAcquire
  grind [acquire_canonical]

theorem translated_canonical (k pieces) : (translated s k pieces).Canonical := by
  unfold translated
  grind [commitLeaves_canonical, endWalks_canonical, startWalk_canonical, Got.Canonical]

omit hw in
theorem Got_begun_canonical {α : Type} {order} {g : Got α} (hg : g.Canonical) : (Got.begun order g).Canonical := by
  unfold Got.begun
  grind [Got.Canonical]

theorem gatherElems_canonical (g is) : (gatherElems s g is).Canonical := by
  unfold gatherElems
  grind [loadAll_canonical, Got.Canonical.bind, Got_begun_canonical, endWalks_canonical, startWalk_canonical, commitLeaves_canonical,
    refusedOr_canonical, mailAcquire_canonical, Got.Canonical]

theorem loadVal_canonical (a size fresh) : (loadVal s a size fresh).Canonical := by
  unfold loadVal
  grind [Got.Canonical.bind, translated_canonical, loadParts_canonical, mailAcquire_canonical, poolReady_canonical, raiseFlags_canonical,
    gatherElems_canonical, Got.Canonical]

theorem storePaged_canonical (va sent ps bs) : Memory.Canonical (storePaged s va sent ps bs).1.mem := by
  fun_induction storePaged s va sent ps bs
  all_goals grind [rlbStore_canonical, sendReq_canonical, storeAt_canonical, launchPacket_canonical]

theorem storeAnswer_canonical : (storeAnswer s).Canonical := by
  unfold storeAnswer
  grind [Got.Canonical]

omit hw in
theorem storeMade_canonical {x : State × List (Nat × Word)} (hx : Memory.Canonical x.1.mem) : (storeMade x).Canonical := by
  unfold storeMade
  grind [Got.Canonical]

theorem askParts_canonical (ids ps) : Memory.Canonical (askParts s ids ps).1.mem := by
  fun_induction askParts s ids ps
  all_goals grind [askRemote_canonical]

theorem allBacked_canonical (ps) : (allBacked s ps).Canonical := by
  unfold allBacked
  grind [askParts_canonical, Got.Canonical]

theorem storeVal_canonical (a size v scope) : (storeVal s a size v scope).Canonical := by
  unfold storeVal
  grind [storeAnswer_canonical, Got.Canonical.bind, translated_canonical, storeMade_canonical, storePaged_canonical, poolReady_canonical,
    storeAt_canonical, fmtStore_canonical, remoteStore_canonical, Got.Canonical]

theorem atomAt_canonical (ctx loc op wide b e0) : Memory.Canonical (atomAt s ctx loc op wide b e0).1.mem := by
  unfold atomAt
  grind [storeAt_canonical]

theorem atomVal_atomGo_canonical (a op wide scope b tgt size) : (atomVal.atomGo a op wide scope b s tgt size).Canonical := by
  unfold atomVal.atomGo
  grind [Got.Canonical.bind, translated_canonical, sendReq_canonical, atomAt_canonical, acquire_canonical, launchPacket_canonical,
    poolReady_canonical, Got.Canonical]

theorem atomVal_canonical (a op wide scope b) : (atomVal s a op wide scope b).Canonical := by
  unfold atomVal
  grind [acquire_canonical, atomVal_atomGo_canonical, Got.Canonical]

theorem loadLanes_canonical (f lanes) : (loadLanes s f lanes).Canonical := by
  unfold loadLanes
  grind [Got.Canonical.bind, translated_canonical, loadParts_canonical, mailAcquire_canonical, poolReady_canonical, raiseFlags_canonical,
    foldl_canonical, gatherElems_canonical, Got.Canonical]

theorem storeLanes_lanePieces_canonical (f vs ps) : Memory.Canonical (storeLanes.lanePieces s f vs ps).1.mem :=
  foldl_state_canonical (st := Prod.fst) hw fun _ _ hw => storePaged_canonical hw ..

theorem storeLanes_canonical (f lanes) : (storeLanes s f lanes).Canonical := by
  unfold storeLanes
  split
  · exact storeAnswer_canonical hw
  · split
    · exact hw
    · exact hw
    · dsimp only
      split
      · refine (translated_canonical hw ..).bind fun s ps hw => ?_
        have hl (vs : List (Word × Tgt × Nat)) (xs) :
            ((allBacked s xs).bind fun s _ => storeMade (storeLanes.lanePieces s f vs ps)).Canonical :=
          (allBacked_canonical hw ..).bind fun _ _ hw => storeMade_canonical (storeLanes_lanePieces_canonical hw ..)
        split
        · split
          · exact storeMade_canonical (storePaged_canonical hw ..)
          · exact hl ..
        · exact hl ..
      · refine (poolReady_canonical hw ..).bind fun s _ hw => foldl_canonical hw fun s x hw => ?_
        split
        · exact storeAt_canonical hw ..
        · exact hw
      · exact (poolReady_canonical hw ..).bind fun s _ hw =>
          fmtStore_canonical (foldl_canonical hw fun _ _ hw => storeAt_canonical hw ..) ..
      · exact foldl_canonical hw fun _ _ hw => remoteStore_canonical hw ..
      · exact hw

/-! ### Loads, stores and atomics -/

theorem loadRaw_canonical (size as) : (loadRaw s size as).Canonical := by
  unfold loadRaw
  grind [Got.Canonical.bind, translated_canonical, poolReady_canonical, foldl_canonical, loadParts_canonical, mailAcquire_canonical,
    Got.Canonical]

theorem storeRaw_canonical (size xs) : (storeRaw s size xs).Canonical := by
  unfold storeRaw
  split
  · exact storeAnswer_canonical hw
  · split
    · exact hw
    · refine (translated_canonical hw ..).bind fun s ps hw => (poolReady_canonical hw ..).bind fun s _ hw =>
        (allBacked_canonical hw ..).bind fun s _ hw => storeMade_canonical ?_
      refine foldl_state_canonical (st := fun x : (State × List (Nat × Word)) × List (List (Nat × Option Nat × Nat)) => x.1.1) hw
        fun x t hx => ?_
      dsimp only
      split
      · exact storePaged_canonical hx ..
      · exact storeAt_canonical hx ..
      · exact remoteStore_canonical hx ..
      · exact hx

theorem setEs_canonical (first vs) : Memory.Canonical (setEs s first vs).mem := by
  fun_induction setEs s first vs
  all_goals grind [wE_canonical]

theorem execOxldm_canonical (a b m) : NextCanonical (execOxldm a b m s) := by
  refine issue_canonical hw fun s hw => ?_
  grind [Got.Canonical.res, loadRaw_canonical, setEs_canonical, Res.Canonical, Got.Canonical]

theorem execOxstm_canonical (a b m) : NextCanonical (execOxstm a b m s) := by
  refine issue_canonical hw fun s hw => ?_
  grind [Got.Canonical.res, storeRaw_canonical, Res.Canonical, Got.Canonical]

theorem loadBody_canonical (a signed size addr) : (loadBody a signed size addr s).Canonical :=
  (loadVal_canonical hw ..).res fun _ _ hw => wS_canonical hw ..

theorem storeBody_canonical (a size addr) : (storeBody a size addr s).Canonical := (storeVal_canonical hw ..).res fun _ _ hw => hw

theorem loadOp_canonical (i a b imm signed size) : NextCanonical (loadOp i a b imm signed size s) :=
  issue_canonical hw fun _ hw => loadBody_canonical hw ..

theorem storeOp_canonical (i a b imm size) : NextCanonical (storeOp i a b imm size s) :=
  issue_canonical hw fun _ hw => storeBody_canonical hw ..

theorem orderAddr_canonical (a size) : ∀ o, orderAddr s a size = some o → o.Canonical := by
  unfold orderAddr
  grind [Res.Canonical]

theorem execLda_canonical (d sc a b) : NextCanonical (execLda d sc a b s) := by
  refine issue_canonical hw fun s hw => ?_
  grind [orderAddr_canonical, Got.Canonical.res, loadVal_canonical, wS_canonical, acquire_canonical, Res.Canonical, Got.Canonical]

theorem stlBody_canonical (d sc a b) : (stlBody d sc a b s).Canonical := by
  unfold stlBody
  grind [Got.Canonical.res, storeVal_canonical, Res.Canonical, Got.Canonical]

theorem execStl_canonical (d sc a b) : NextCanonical (execStl d sc a b s) := by
  refine issue_canonical hw fun s hw => ?_
  grind [orderAddr_canonical, stlBody_canonical, Res.Canonical]

theorem execStlf_canonical (d sc a b) : NextCanonical (execStlf d sc a b s) := by
  refine issue_canonical hw fun s hw => ?_
  grind [orderAddr_canonical, remoteFlag_canonical, modAct_canonical, stlBody_canonical, Res.Canonical]

theorem execFence_canonical (sc) : NextCanonical (execFence sc s) := by
  refine issue_canonical hw fun s hw => ?_
  grind [modAct_canonical, acquire_canonical, Res.Canonical]

theorem execFencea_canonical : NextCanonical (execFencea s) := by
  refine issue_canonical hw fun s hw => ?_
  split <;> exact hw

theorem atomOp_canonical (i op d sc a b c) : NextCanonical (atomOp i op d sc a b c s) :=
  issue_canonical hw fun _ hw => (atomVal_canonical hw ..).res fun _ _ hw => wS_canonical hw ..

theorem adcasAt_canonical (ctx x y n e1 e2 nx ny) : Memory.Canonical (adcasAt s ctx x y n e1 e2 nx ny).1.mem := by
  unfold adcasAt
  grind [storeAt_canonical]

theorem amoveAt_canonical (ctx x y n vacated) : Memory.Canonical (amoveAt s ctx x y n vacated).1.mem :=
  storeAt_canonical (storeAt_canonical hw ..) ..

theorem lockNext_canonical (n w l) : Memory.Canonical (lockNext s n w l).1.mem := by
  unfold lockNext
  split <;> exact hw

theorem unlock_canonical (l bs) : Memory.Canonical (unlock s l bs).mem := by
  unfold unlock
  grind [storeAt_canonical, launchPacket_canonical]

theorem twoVal_go_canonical {x y} {n op} {perform : State → Nat → Nat → State × Nat × Nat}
    (hperform : ∀ s i j, Memory.Canonical s.mem → Memory.Canonical (perform s i j).1.mem) :
    (twoVal.go x y n op perform s).Canonical := by
  unfold twoVal.go
  grind [Got.Canonical.bind, translated_canonical, sendReq_canonical, acquire_canonical, Got.Canonical]

theorem twoVal_locked_canonical (x n op w) : (twoVal.locked x n op s w).Canonical := by
  unfold twoVal.locked
  grind [lockNext_canonical, unlock_canonical, acquire_canonical, Got.Canonical]

theorem twoVal_canonical {x y n op} {perform : State → ℕ → ℕ → State × ℕ × ℕ}
    (hperform : ∀ s x1 x2, Memory.Canonical s.mem → Memory.Canonical (perform s x1 x2).1.mem) : (twoVal s x y n op perform).Canonical := by
  have hgo (t : State) (ht : Memory.Canonical t.mem) : (twoVal.go x y n op perform t).Canonical := twoVal_go_canonical ht hperform
  unfold twoVal
  grind [Got.Canonical, twoVal_locked_canonical, acquire_canonical, modAct_canonical]

/-! ### Queues, messages, events and phasers -/

theorem popQ3_canonical : Memory.Canonical (popQ3 s).mem := hw

theorem popBody_canonical (take a q) : (popBody take a q s).Canonical := by
  unfold popBody
  grind [wS_canonical, modAct_canonical, popQ3_canonical, Res.Canonical]

theorem pushBody_canonical (q b) : (pushBody q b s).Canonical := by
  unfold pushBody
  grind [modAct_canonical, sendPkt_canonical, Res.Canonical]

theorem execQdrop_canonical (q b) : NextCanonical (execQdrop q b s) := by
  refine issue_canonical hw fun s hw => ?_
  grind [modAct_canonical, modCtx_canonical, Res.Canonical]

theorem sendWords_canonical (dst scope mprio code ws) : Memory.Canonical (sendWords s dst scope mprio code ws).mem := by
  unfold sendWords
  split <;> exact hw

theorem sendSteps_canonical {sc l} {mprio code} {k : State → Res} (hk : ∀ s, Memory.Canonical s.mem → (k s).Canonical) :
    (sendSteps sc l mprio code s k).Canonical := by
  unfold sendSteps
  grind [modAct_canonical, sendWords_canonical, Res.Canonical]

theorem execSend_canonical (sc b) : NextCanonical (execSend sc b s) := by
  refine issue_canonical hw fun s hw => ?_
  grind [sendSteps_canonical, Res.Canonical]

theorem execSendw_canonical (sc a b) : NextCanonical (execSendw sc a b s) := by
  refine issue_canonical hw fun s hw => ?_
  grind [wS_canonical, sendSteps_canonical, Res.Canonical]

theorem execReply_canonical (sc) : NextCanonical (execReply sc s) := by
  refine issue_canonical hw fun s hw => ?_
  grind [sendSteps_canonical, Res.Canonical]

theorem endhBody_canonical : (endhBody s).Canonical := by
  unfold endhBody
  grind [endAct_canonical, Res.Canonical]

theorem execLaunch_canonical (a b) : NextCanonical (execLaunch a b s) := by
  refine issue_canonical hw fun s hw => ?_
  grind [wS_canonical, Got.Canonical.res, loadRaw_canonical, modDie_canonical, Res.Canonical, Got.Canonical]

theorem execTrig_canonical : NextCanonical (execTrig s) := by
  refine issue_canonical hw fun s hw => ?_
  grind [triggerNow_canonical, Res.Canonical]

theorem execEvwait_canonical (a b) : NextCanonical (execEvwait a b s) := by
  unfold execEvwait
  refine issue_canonical hw fun s hw => ?_
  extract_lets m v
  split
  · exact hw
  · split
    · exact wS_canonical (acquire_canonical hw) ..
    · split
      · exact hw
      · split
        · exact wS_canonical hw ..
        · exact mirrorFor_canonical hw ..

theorem execEvset_canonical (b) : NextCanonical (execEvset b s) := by
  unfold execEvset
  refine issue_canonical hw fun s hw => ?_
  extract_lets m
  split
  · exact hw
  · split
    · exact hw
    · split
      · exact hw
      · exact changeVector_canonical hw ..

theorem execEvclr_canonical (b) : NextCanonical (execEvclr b s) := by
  refine issue_canonical hw fun s hw => ?_
  grind [changeVector_canonical, Res.Canonical]

theorem execEvtest_canonical (a b) : NextCanonical (execEvtest a b s) := by
  refine issue_canonical hw fun s hw => ?_
  grind [wS_canonical, acquire_canonical, Res.Canonical]

theorem setPhaser_canonical (d i p) : Memory.Canonical (setPhaser s d i p).mem := hw

theorem withPhaser_canonical {i b} {f : Nat → Nat → Phaser → Res} (hf : ∀ x0 x1 x2, (f x0 x1 x2).Canonical) :
    (withPhaser i b s f).Canonical := by
  unfold withPhaser
  grind [Res.Canonical]

theorem execPhnew_canonical (a) : NextCanonical (execPhnew a s) := by
  refine issue_canonical hw fun s hw => ?_
  grind [wS_canonical, setPhaser_canonical, Res.Canonical]

theorem execPhreg_canonical (b m) : NextCanonical (execPhreg b m s) := by
  refine issue_canonical hw fun s hw => ?_
  grind [withPhaser_canonical, setPhaser_canonical, Res.Canonical]

theorem execPhdrop_canonical (b) : NextCanonical (execPhdrop b s) := by
  refine issue_canonical hw fun s hw => ?_
  grind [withPhaser_canonical, setPhaser_canonical, Res.Canonical]

theorem execPhsig_canonical (b) : NextCanonical (execPhsig b s) := by
  refine issue_canonical hw fun s hw => ?_
  grind [withPhaser_canonical, donationOver_canonical, setPhaser_canonical, Res.Canonical]

theorem donate_canonical (p h) : Memory.Canonical (donate s p h).mem := by
  unfold donate
  grind [engage_canonical, modCore_canonical]

theorem phaserWait_canonical (a h d i p target) : (phaserWait a h s d i p target).Canonical := by
  unfold phaserWait
  grind [wS_canonical, acquire_canonical, setPhaser_canonical, donate_canonical, Res.Canonical]

theorem phaserResume_canonical (a w) : (phaserResume a s w).Canonical := by
  unfold phaserResume
  grind [wS_canonical, acquire_canonical, setPhaser_canonical, donate_canonical, Res.Canonical]

theorem execPhwait_canonical (a b) : NextCanonical (execPhwait a b s) := by
  refine issue_canonical hw fun s hw => ?_
  grind [phaserResume_canonical, withPhaser_canonical, phaserWait_canonical, Res.Canonical]

theorem execPhsw_canonical (a b) : NextCanonical (execPhsw a b s) := by
  refine issue_canonical hw fun s hw => ?_
  grind [phaserResume_canonical, withPhaser_canonical, setPhaser_canonical, phaserWait_canonical, donationOver_canonical, Res.Canonical]

theorem releaseWaiters_canonical (h p) : Memory.Canonical (releaseWaiters s h p).mem := hw

theorem execPhreset_canonical (b) : NextCanonical (execPhreset b s) := by
  refine issue_canonical hw fun s hw => ?_
  grind [withPhaser_canonical, setPhaser_canonical, releaseWaiters_canonical, Res.Canonical]

theorem armWatch_canonical (line) : Memory.Canonical (armWatch s line).mem := by
  unfold armWatch
  grind [modCore_canonical, modCtx_canonical]

theorem execMon_canonical (b) : NextCanonical (execMon b s) := by
  refine issue_canonical hw fun s hw => ?_
  grind [Got.Canonical.res, translated_canonical, armWatch_canonical, Res.Canonical, Got.Canonical]

theorem execMwait_canonical (a b) : NextCanonical (execMwait a b s) := by
  refine issue_canonical hw fun s hw => ?_
  grind [wS_canonical, dropWatch_canonical, acquire_canonical, Res.Canonical]

end Operations

end Sys2Proof.Machine
end

section
/-!
SUPPORT. Canonical memory: the accesses of engines, copies, collectives, fetch, control registers and fibres.
-/

namespace Sys2Proof.Machine

section Operations
variable {s : State} (hw : Memory.Canonical s.mem)
include hw

/-! ### Accesses of the engines -/

theorem engFar_canonical (w va d ps) : (engFar s w va d ps).Canonical := by
  fun_induction engFar s w va d ps
  all_goals grind [Eng.Canonical.bind, launchPacket_canonical, addMemo_canonical, Eng.Canonical]

theorem engGather_canonical (w a n) : (engGather s w a n).Canonical := by
  unfold engGather
  extract_lets b i
  clear_value b i
  split
  · exact hw
  · split
    · exact hw
    · split
      · exact hw
      · extract_lets idx
        split
        · exact endWalks_canonical hw ..
        · exact startWalk_canonical hw ..
        · refine (readParts_canonical hw ..).bind fun s ib hw => ?_
          extract_lets e
          split
          · exact endWalks_canonical hw ..
          · exact startWalk_canonical hw ..
          · exact (readParts_canonical (commitLeaves_canonical hw ..) ..).bind fun _ _ hw => hw

theorem engLoad_canonical (w a n) : (engLoad s w a n).Canonical := by
  unfold engLoad
  grind [Eng.Canonical.bind, engFar_canonical, engGather_canonical, readMem_canonical, addMemo_canonical, Eng.Canonical]

theorem engLoadMany_canonical (w a n fuel) : (engLoadMany s w a n fuel).Canonical := by
  fun_induction engLoadMany s w a n fuel
  all_goals grind [Eng.Canonical.bind, engLoad_canonical, Eng.Canonical]

theorem engStore_canonical (w a bs) : (engStore s w a bs).Canonical := by
  unfold engStore
  grind [Eng.Canonical.bind, foldl_canonical, remoteStore_canonical, writeMem_canonical, addMemo_canonical, Eng.Canonical]

theorem engStoreMany_canonical (w a bs fuel) : (engStoreMany s w a bs fuel).Canonical := by
  fun_induction engStoreMany s w a bs fuel
  all_goals grind [Eng.Canonical.bind, engStore_canonical, Eng.Canonical]

theorem engOld_canonical (w a n) : (engOld s w a n).Canonical := by
  unfold engOld
  grind [Eng.Canonical.bind, engFar_canonical, endWalks_canonical, startWalk_canonical, readParts_canonical, addMemo_canonical,
    Eng.Canonical]

theorem mailStore_canonical (w a v) : (mailStore s w a v).Canonical := by
  unfold mailStore
  grind [Eng.Canonical.bind, engStore_canonical, Eng.Canonical]

theorem engineUpcall_canonical (core ctx unit xfer c va) : Memory.Canonical (engineUpcall s core ctx unit xfer c va).mem := hw

theorem engineFault_canonical {core ctx} {unit xfer} {c va} {hold : State → State}
    (hhold : ∀ s, Memory.Canonical s.mem → Memory.Canonical (hold s).mem) :
    Memory.Canonical (engineFault s core ctx unit xfer c va hold).mem := by
  unfold engineFault
  grind [contextEnd_canonical, engineUpcall_canonical]

/-! ### The copy unit -/

theorem copyGo_canonical (sort a) : (copyGo sort a s).Canonical := by
  unfold copyGo
  grind [wS_canonical, modClause_canonical, nextFree_canonical, Res.Canonical]

theorem modCopy_canonical (cl id f) : Memory.Canonical (modCopy s cl id f).mem := hw

theorem copyPut_canonical (w j dst bs fuel) : (copyPut s w j dst bs fuel).Canonical := by
  fun_induction copyPut s w j dst bs fuel
  all_goals grind [Eng.Canonical.bind, engStore_canonical, Eng.Canonical]

theorem copyAccess_canonical (j) : (copyAccess s j).Canonical := by
  unfold copyAccess
  grind [Eng.Canonical.bind, engLoad_canonical, copyPut_canonical, forget_canonical, engLoadMany_canonical, engStoreMany_canonical,
    Eng.Canonical]

theorem copyFault_canonical (cl j c va) : Memory.Canonical (copyFault s cl j c va).mem :=
  engineFault_canonical hw fun _ hw => modCopy_canonical hw ..

theorem copyStep_canonical (cl id) : Memory.Canonical (copyStep s cl id).mem := by
  unfold copyStep
  grind [copyAccess_canonical, modCopy_canonical, copyFault_canonical, Eng.Canonical]

theorem copyEnd_canonical (cl j cancelled) : Memory.Canonical (copyEnd s cl j cancelled).mem := by
  unfold copyEnd
  grind [modClause_canonical, forget_canonical, disarm_canonical, completionEvent_canonical]

theorem copyFinish_canonical (cl j) : Memory.Canonical (copyFinish s cl j).mem := by
  unfold copyFinish
  grind [copyEnd_canonical, arrivalWakes_canonical, enqueueMsg_canonical]

theorem copyComplete_canonical (cl id) : Memory.Canonical (copyComplete s cl id).mem := by
  unfold copyComplete
  grind [mailStore_canonical, copyFinish_canonical, modCopy_canonical, copyFault_canonical, Eng.Canonical]

theorem copyCancelStop_canonical (cl id) : Memory.Canonical (copyCancelStop s cl id).mem := by
  unfold copyCancelStop
  grind [copyEnd_canonical, endWalks_canonical, modCopy_canonical, mailStore_canonical, forget_canonical, contextEnd_canonical,
    Eng.Canonical]

theorem copyPromiseExpire_canonical (cl id) : Memory.Canonical (copyPromiseExpire s cl id).mem := by
  unfold copyPromiseExpire
  grind [answer_canonical]

theorem execCpwait_canonical (b) : NextCanonical (execCpwait b s) := by
  refine issue_canonical hw fun s hw => ?_
  grind [acquire_canonical, modCopy_canonical, nextFree_canonical, Res.Canonical]

theorem execCpstat_canonical (a b) : NextCanonical (execCpstat a b s) := by
  refine issue_canonical hw fun s hw => ?_
  grind [wS_canonical, acquire_canonical, Res.Canonical]

theorem execCpcancel_canonical (b) : NextCanonical (execCpcancel b s) := by
  refine issue_canonical hw fun s hw => ?_
  split <;> exact hw

theorem execGbind_canonical (sz w b) : NextCanonical (execGbind sz w b s) := by
  refine issue_canonical hw fun s hw => ?_
  grind [modCtx_canonical, Res.Canonical]

/-! ### Collectives -/

theorem modColl_canonical (cl h f) : Memory.Canonical (modColl s cl h f).mem := hw

theorem collFault_canonical (cl c cause va) : Memory.Canonical (collFault s cl c cause va).mem :=
  engineFault_canonical hw fun _ hw => modColl_canonical hw ..

theorem collGone_canonical (cl c) : Memory.Canonical (collGone s cl c).mem := by
  unfold collGone
  grind [modClause_canonical, forget_canonical, completionEvent_canonical]

theorem rankCore_canonical (c r) : (rankCore s c r).Canonical := (engLoad_canonical hw ..).bind fun _ _ hw => hw

theorem otherRanks_canonical (c rs) : (otherRanks s c rs).Canonical := by
  fun_induction otherRanks s c rs
  all_goals grind [rankCore_canonical, Eng.Canonical.bind, Eng.Canonical]

theorem dropSteps_canonical (c) : Memory.Canonical (dropSteps s c).mem := hw

theorem collEnding_canonical (cl h) : Memory.Canonical (collEnding s cl h).mem := by
  unfold collEnding
  grind [Eng.Canonical.bind, otherRanks_canonical, foldl_canonical, sendPkt_canonical, modColl_canonical, mailStore_canonical,
    contextEnd_canonical, collGone_canonical, collFault_canonical, Eng.Canonical]

theorem undoStores_canonical (c) : Memory.Canonical (undoStores s c).mem := by
  unfold undoStores
  grind [foldl_canonical, engStore_canonical, Eng.Canonical]

theorem collAbort_canonical (cl c) : Memory.Canonical (collAbort s cl c).mem :=
  collEnding_canonical (modColl_canonical (undoStores_canonical (dropSteps_canonical (forget_canonical (endWalks_canonical hw ..) ..) ..)
    ..) ..) ..

theorem collTrap_canonical (cl c cause va) : Memory.Canonical (collTrap s cl c cause va).mem :=
  collAbort_canonical (engineUpcall_canonical hw ..) ..

theorem sendStep_canonical (cl c peer d count bs) : Memory.Canonical (sendStep s cl c peer d count bs).mem :=
  modColl_canonical (foldl_canonical hw fun _ _ hw => sendPkt_canonical hw ..) ..

theorem collMismatch_canonical (cl c src) : Memory.Canonical (collMismatch s cl c src).mem := by
  unfold collMismatch
  grind [collTrap_canonical]

theorem goToStep_canonical (cl c step bits_) : Memory.Canonical (goToStep s cl c step bits_).mem :=
  modColl_canonical (forget_canonical hw ..) ..

theorem nextStep_canonical (cl c bits_) : Memory.Canonical (nextStep s cl c bits_).mem := goToStep_canonical hw ..
theorem tookStep_canonical (cl h from_ addr n) : Memory.Canonical (tookStep s cl h from_ addr n).mem := hw
theorem stepLoad_canonical (c w buf) : (stepLoad s c w buf).Canonical := engLoadMany_canonical hw ..

theorem stepStoreMany_canonical (cl c a bs fuel) : (stepStoreMany s cl c a bs fuel).Canonical := by
  fun_induction stepStoreMany s cl c a bs fuel
  all_goals grind [modColl_canonical, Eng.Canonical.bind, engOld_canonical, engStore_canonical, Eng.Canonical]

theorem stepStore_canonical (cl c w buf bs) : (stepStore s cl c w buf bs).Canonical := stepStoreMany_canonical hw ..

theorem rankNode_canonical (c r) : (rankNode s c r).Canonical := by
  unfold rankNode
  grind [Eng.Canonical.bind, rankCore_canonical, Eng.Canonical]

theorem receive_canonical {cl c} {from_ w} {k : State → List Byte → Nat → Nat → Eng Unit}
    (hk : ∀ s bs i j, Memory.Canonical s.mem → (k s bs i j).Canonical) :
    (receive s cl c from_ w k).Canonical := by
  unfold receive
  grind [Eng.Canonical.bind, rankNode_canonical, collMismatch_canonical, modColl_canonical, Eng.Canonical]

theorem runStep_canonical (cl c w) : (runStep s cl c w).Canonical := by
  unfold runStep
  grind [Eng.Canonical.bind, stepLoad_canonical, rankNode_canonical, nextStep_canonical, sendStep_canonical, receive_canonical,
    stepStore_canonical, tookStep_canonical, modColl_canonical, goToStep_canonical, collEnding_canonical, forget_canonical, Eng.Canonical]

theorem collStep_canonical (cl h) : Memory.Canonical (collStep s cl h).mem := by
  unfold collStep
  grind [collEnding_canonical, engLoad_canonical, collFault_canonical, collTrap_canonical, runStep_canonical, Eng.Canonical]

theorem stepArrival_canonical (n) : Memory.Canonical (stepArrival s n).mem := by
  unfold stepArrival
  grind [modColl_canonical, takePkt_canonical]

theorem abortArrival_canonical (n) : Memory.Canonical (abortArrival s n).mem := by
  unfold abortArrival
  grind [takePkt_canonical, collTrap_canonical, collAbort_canonical]

theorem execCollgo_canonical (b) : NextCanonical (execCollgo b s) := by
  refine issue_canonical hw fun s hw => ?_
  grind [Got.Canonical.res, loadRaw_canonical, modClause_canonical, Res.Canonical, Got.Canonical]

theorem execCollwait_canonical (a b) : NextCanonical (execCollwait a b s) := by
  refine issue_canonical hw fun s hw => ?_
  grind [Got.Canonical.res, loadVal_canonical, wS_canonical, acquire_canonical, Res.Canonical, Got.Canonical]

/-! ### Fetch -/

theorem pushLine_canonical (l) : Memory.Canonical (pushLine s l).mem := modAct_canonical hw ..

theorem takeLines_canonical (ls) : (takeLines s ls).Canonical := by
  fun_induction takeLines s ls
  all_goals grind [Eng.Canonical.bind, pushLine_canonical, farRead_canonical, Eng.Canonical]

/-- The state a part of a fetch leaves has canonical memory. -/
def PartCanonical {α : Type} : Except Fetched (State × α) → Prop
  | .error f => f.Canonical
  | .ok (t, _) => Memory.Canonical t.mem

theorem fetchPart_canonical (va n) : PartCanonical (fetchPart s va n) := by
  unfold fetchPart
  have ht (ls) := takeLines_canonical hw ls
  grind [PartCanonical, Fetched.Canonical, Eng.Canonical, endWalks_canonical, startWalk_canonical]

theorem fetched_canonical (ls) : Memory.Canonical (fetched s ls).mem := forget_canonical (commitLeaves_canonical hw ..) ..

theorem fetchBytes_canonical (va) : PartCanonical (fetchBytes s va) := by
  have h2 := fetchPart_canonical hw va 2
  unfold fetchBytes
  generalize fetchPart s va 2 = r at h2
  rcases r with f | ⟨t, lo, ls⟩
  · exact h2
  · have h4 := fetchPart_canonical h2 va 4
    dsimp only
    split
    · exact fetched_canonical h2 ls
    · generalize fetchPart t va 4 = r at h4
      rcases r with f | ⟨u, bs, ls⟩
      · exact h4
      · exact fetched_canonical h4 ls

theorem fetch_canonical : (fetch s).Canonical := by
  have h := fetchBytes_canonical hw (act s).pc
  unfold fetch
  generalize fetchBytes s (act s).pc = r at h
  rcases r with f | ⟨t, bs⟩
  · exact h
  · dsimp only
    generalize decodeBytes bs = d
    cases d <;> exact h

/-! ### Control registers -/

theorem faccWrite_canonical (high v) : Memory.Canonical (faccWrite s high v).mem := hw
theorem modnumWrite_canonical (v) : Memory.Canonical (modnumWrite s v).mem := hw

theorem ctxtabWrite_canonical (v) : Memory.Canonical (ctxtabWrite s v).mem := by
  unfold ctxtabWrite
  split <;> exact hw

theorem writeCr_canonical (n w) : ∀ o, writeCr s n w = some o → Memory.Canonical o.mem := by
  unfold writeCr
  grind [modRegs_canonical, modAct_canonical, modCore_canonical, faccWrite_canonical, ctxtabWrite_canonical, modnumWrite_canonical]

theorem crdBody_canonical (word a n) : (crdBody word a n s).Canonical := by
  unfold crdBody
  grind [copyGo_canonical, wS_canonical, Res.Canonical]

theorem execCwr_canonical (a cr) : NextCanonical (execCwr a cr s) := by
  refine issue_canonical hw fun s hw => ?_
  grind [writeCr_canonical, Res.Canonical]

/-! ### Fibres -/

theorem modLease_canonical (cl core ctx f) : Memory.Canonical (modLease s cl core ctx f).mem := hw
theorem retry_canonical (core ctx unit) : Memory.Canonical (retry s core ctx unit).mem := hw

theorem restartJob_canonical (j) : Memory.Canonical (restartJob s j).mem := by
  unfold restartJob
  grind [retry_canonical, modCopy_canonical, nextFree_canonical, modColl_canonical, modLease_canonical]

theorem abandonJob_canonical (j) : Memory.Canonical (abandonJob s j).mem := by
  unfold abandonJob
  grind [copyCancelStop_canonical, modCopy_canonical, forget_canonical, collAbort_canonical, modLease_canonical, answer_canonical]

omit hw in
theorem Eng.Canonical.got {α : Type} {g : Eng α} (hg : g.Canonical) : (Eng.got g).Canonical := by
  unfold Eng.got
  grind [Got.Canonical, Eng.Canonical]

theorem checkRecord_canonical (word rec_) : (checkRecord word rec_ s).Canonical := by
  unfold checkRecord
  grind [Got.Canonical.bind, Eng.Canonical.got, readMem_canonical, acquire_canonical, endWalks_canonical, startWalk_canonical,
    commitLeaves_canonical, Got.Canonical, Eng.Canonical]

theorem sendFibre_canonical (core ctx rec_ c) : Memory.Canonical (sendFibre s core ctx rec_ c).mem := hw

theorem resume_canonical (rec_ c) : Memory.Canonical (resume s rec_ c).mem := by
  unfold resume
  grind [endAct_canonical, sendFibre_canonical, resumeRecord_canonical, modCore_canonical, newId_canonical]

theorem execFresume_canonical (b) : NextCanonical (execFresume b s) := by
  refine issue_canonical hw fun s hw => ?_
  grind [endAct_canonical, restartJob_canonical, Got.Canonical.res, checkRecord_canonical, resume_canonical, Res.Canonical, Got.Canonical]

theorem execFstat_canonical (a b) : NextCanonical (execFstat a b s) := by
  refine issue_canonical hw fun s hw => ?_
  grind [wS_canonical, Got.Canonical.res, Eng.Canonical.got, readMem_canonical, acquire_canonical, Res.Canonical, Got.Canonical,
    Eng.Canonical]

theorem dropRecord_canonical (rec_ c) : Memory.Canonical (dropRecord s rec_ c).mem := by
  unfold dropRecord
  grind [returnRecord_canonical, setWorkState_canonical, triggerWork_canonical, errorRecord_canonical]

theorem stillHere_canonical : (stillHere s).Canonical := by
  unfold stillHere
  split <;> exact hw

theorem execFdrop_canonical (b) : NextCanonical (execFdrop b s) := by
  refine issue_canonical hw fun s hw => ?_
  grind [stillHere_canonical, abandonJob_canonical, Got.Canonical.res, checkRecord_canonical, dropRecord_canonical, Res.Canonical,
    Got.Canonical]

theorem invBody_canonical (sc asid va) : (invBody sc asid va s).Canonical := by
  unfold invBody
  grind [invalidate_canonical, Res.Canonical]

theorem dropFunctions_canonical (i) : Memory.Canonical (dropFunctions s i).mem := by
  unfold dropFunctions
  split <;> exact hw

theorem invalidationComplete_canonical (n) : Memory.Canonical (invalidationComplete s n).mem := by
  unfold invalidationComplete
  grind [dropFunctions_canonical, invalidate_canonical, answer_canonical]

theorem execXpref_canonical (b) : NextCanonical (execXpref b s) := by
  refine issue_canonical hw fun s hw => ?_
  grind [loadParts_canonical, Res.Canonical, Got.Canonical]

end Operations

end Sys2Proof.Machine
end

section
/-!
SUPPORT. Canonical memory: the lexicon, the parser, and packets that arrive.
-/

namespace Sys2Proof.Machine

section Operations
variable {s : State} (hw : Memory.Canonical s.mem)
include hw

/-! ### The lexicon -/

theorem scratchWrite_canonical (off bs) : Memory.Canonical (scratchWrite s off bs).mem := storeAt_canonical hw ..

theorem withWin_canonical {a n} {f : Nat → Res} (hf : ∀ x, (f x).Canonical) : (withWin s a n f).Canonical := by
  unfold withWin
  grind [Got.Canonical.res, poolReady_canonical, Res.Canonical, Got.Canonical]

theorem orTrap_canonical {α : Type*} {e : Except (Cause × Word) α} {f : α → Res} (hf : ∀ x, (f x).Canonical) :
    (orTrap s e f).Canonical := by
  unfold orTrap
  grind [Res.Canonical]

theorem kick_canonical {r : Res} (hr : r.Canonical) : (kick s r).Canonical := by
  unfold kick
  grind [Res.Canonical]

theorem modSlot_canonical (cl ctx id f) : Memory.Canonical (modSlot s cl ctx id f).mem := hw

theorem slotReady_canonical {cl l} {spans} {f : Res} (hf : f.Canonical) : (slotReady s cl l spans f).Canonical := by
  unfold slotReady
  grind [Res.Canonical]

theorem execLxcfg_canonical (a b c) : NextCanonical (execLxcfg a b c s) := by
  refine issue_canonical hw fun s hw => ?_
  dsimp only
  split
  · exact wS_canonical hw ..
  · split
    · exact wS_canonical hw ..
    · split
      · exact wS_canonical hw ..
      · exact wS_canonical (modClause_canonical hw ..) ..

theorem execLxput_canonical (a b c) : NextCanonical (execLxput a b c s) := by
  refine issue_canonical hw fun s hw => ?_
  grind [orTrap_canonical, kick_canonical, wS_canonical, withWin_canonical, slotReady_canonical, modSlot_canonical, modClause_canonical,
    Res.Canonical]

theorem execLxget_canonical (a b c) : NextCanonical (execLxget a b c s) := by
  refine issue_canonical hw fun s hw => ?_
  grind [orTrap_canonical, wS_canonical, withWin_canonical, slotReady_canonical, scratchWrite_canonical, Res.Canonical]

theorem execLxenc_canonical (a b c) : NextCanonical (execLxenc a b c s) := by
  refine issue_canonical hw fun s hw => ?_
  dsimp only
  split
  · exact hw
  · refine orTrap_canonical hw fun _ => orTrap_canonical hw fun _ => ?_
    split
    · exact kick_canonical hw (wS_canonical hw ..)
    · refine withWin_canonical hw fun o => slotReady_canonical hw ?_
      split
      · exact kick_canonical hw (wS_canonical hw ..)
      · exact withWin_canonical hw fun p => kick_canonical hw (wS_canonical (scratchWrite_canonical hw ..) ..)

theorem execLxsend_canonical (sc a b c) : NextCanonical (execLxsend sc a b c s) := by
  refine issue_canonical hw fun s hw => ?_
  grind [withWin_canonical, kick_canonical, wS_canonical, slotReady_canonical, sendWords_canonical, Res.Canonical]

theorem execLxdec_canonical (a b c) : NextCanonical (execLxdec a b c s) := by
  refine issue_canonical hw fun s hw => ?_
  dsimp only
  split
  · exact hw
  · refine withWin_canonical hw fun o => orTrap_canonical hw fun _ => ?_
    split
    · exact wS_canonical hw ..
    · split
      · exact wS_canonical hw ..
      · split
        · exact wS_canonical hw ..
        · refine withWin_canonical hw fun o => ?_
          split
          · exact wS_canonical hw ..
          · exact withWin_canonical hw fun q => slotReady_canonical hw (wS_canonical (scratchWrite_canonical hw ..) ..)

theorem missFree_canonical (cl n) : Memory.Canonical (missFree s cl n).mem := hw
theorem missPark_canonical (cl core m header) : Memory.Canonical (missPark s cl core m header).mem := hw
theorem missFailed_canonical (cl n e) : Memory.Canonical (missFailed s cl n e).mem := hw
theorem missDiscard_canonical (cl n e) : Memory.Canonical (missDiscard s cl n e).mem := discardMsg_canonical (missFree_canonical hw ..) ..
theorem missPass_canonical (core m) : Memory.Canonical (missPass s core m).mem := hw

theorem missRecheck_canonical (cl core ctx id fuel) : Memory.Canonical (missRecheck cl core ctx id fuel s).mem := by
  fun_induction missRecheck cl core ctx id fuel s
  all_goals grind [missDiscard_canonical, missPass_canonical, missFree_canonical, missFailed_canonical]

theorem missArrive_canonical (cl core m header) : Memory.Canonical (missArrive s cl core m header).mem := by
  unfold missArrive
  grind [missPark_canonical, missRecheck_canonical]

theorem execLxmiss_canonical (take a b) : NextCanonical (execLxmiss take a b s) := by
  refine issue_canonical hw fun s hw => ?_
  grind [wS_canonical, withWin_canonical, scratchWrite_canonical, acceptMsg_canonical, missFree_canonical, missRecheck_canonical,
    Res.Canonical]

theorem execLxretry_canonical (b) : NextCanonical (execLxretry b s) := by
  refine issue_canonical hw fun s hw => ?_
  grind [missRecheck_canonical, Res.Canonical]

theorem glossSource_canonical (a m) : (glossSource s a m).Canonical := by
  unfold glossSource
  grind [Got.Canonical.bind, poolReady_canonical, Got.Canonical]

theorem execGlset_canonical (a b c) : NextCanonical (execGlset a b c s) := by
  refine issue_canonical hw fun s hw => ?_
  grind [Got.Canonical.res, glossSource_canonical, kick_canonical, wS_canonical, slotReady_canonical, foldl_canonical, storeAt_canonical,
    modClause_canonical, Res.Canonical, Got.Canonical]

theorem execGlinv_canonical (b c) : NextCanonical (execGlinv b c s) := by
  refine issue_canonical hw fun s hw => ?_
  grind [modClause_canonical, Res.Canonical]

/-! ### The parser -/

theorem modDesc_canonical (core ctx t f) : Memory.Canonical (modDesc s core ctx t f).mem := hw

theorem setSkip_canonical (core ctx d i on) : Memory.Canonical (setSkip s core ctx d i on).mem := by
  unfold setSkip
  grind [storeAt_canonical]

theorem putElem_canonical (core ctx d i w) : Memory.Canonical (putElem s core ctx d i w).mem := storeAt_canonical hw ..
theorem putValue_canonical (core ctx d i v) : Memory.Canonical (putValue s core ctx d i v).mem := storeAt_canonical hw ..

theorem applyChange_canonical (core ctx t d i op) : Memory.Canonical (applyChange s core ctx t d i op).mem := by
  unfold applyChange
  grind [putElem_canonical, setSkip_canonical, modDesc_canonical]

theorem dropChange_canonical (core ctx t) : Memory.Canonical (dropChange s core ctx t).mem := by
  unfold dropChange
  grind [modCtx_canonical]

theorem outsideChange_canonical (core ctx t i op) : Memory.Canonical (outsideChange s core ctx t i op).mem := by
  unfold outsideChange
  grind [dropChange_canonical, applyChange_canonical, needSweep_canonical, modDesc_canonical]

theorem outsideValue_canonical (core ctx t i v) : Memory.Canonical (outsideValue s core ctx t i v).mem := by
  unfold outsideValue
  grind [putValue_canonical]

theorem sweepFinish_canonical (core ctx t d) : Memory.Canonical (sweepFinish s core ctx t d).mem := by
  unfold sweepFinish
  grind [modDesc_canonical, completionEvent_canonical]

theorem sweepEnd_canonical (core ctx t d code) : Memory.Canonical (sweepEnd s core ctx t d code).mem := by
  unfold sweepEnd
  grind [modDesc_canonical, modCore_canonical, sweepFinish_canonical]

theorem sweepEnds_canonical (core) : Memory.Canonical (sweepEnds s core).mem := foldl_canonical hw fun _ _ hw => sweepFinish_canonical hw ..

theorem sweepTurn_canonical (core ctx t) : Memory.Canonical (sweepTurn s core ctx t).mem := by
  unfold sweepTurn
  grind [modDesc_canonical, needSweep_canonical, modCore_canonical, sweepEnd_canonical, mirrorFor_canonical]

theorem sendChange_canonical (core ctx dst pl) : Memory.Canonical (sendChange s core ctx dst pl).mem := hw

theorem ownNotes_canonical (core ctx t d ns) : Memory.Canonical (ownNotes s core ctx t d ns).mem := by
  unfold ownNotes
  grind [foldl_canonical, applyChange_canonical]

theorem otherNotes_canonical (core ctx t ns) : Memory.Canonical (otherNotes s core ctx t ns).mem := by
  unfold otherNotes
  grind [foldl_canonical, outsideChange_canonical]

theorem farNotes_canonical (core ctx ns) : Memory.Canonical (farNotes s core ctx ns).mem := by
  unfold farNotes
  grind [foldl_canonical, sendChange_canonical]

theorem runBeat_canonical (core ctx t d b) : Memory.Canonical (runBeat s core ctx t d b).mem := by
  unfold runBeat
  extract_lets lost v is vals outs runs
  split
  · exact engineUpcall_canonical (sweepEnd_canonical hw ..) ..
  · split
    · exact engineUpcall_canonical (sweepEnd_canonical hw ..) ..
    · next s1 s2 ns s3 s4 _ _ _ =>
      have h1 : Memory.Canonical s1.mem := by
        refine foldl_canonical hw fun s r hw => ?_
        split
        · exact putElem_canonical (putValue_canonical hw ..) ..
        · exact putElem_canonical hw ..
      have h2 : Memory.Canonical s2.mem := by
        refine foldl_canonical h1 fun s i hw => ?_
        extract_lets w k
        split
        · exact setSkip_canonical hw ..
        · exact hw
      exact farNotes_canonical (otherNotes_canonical (modDesc_canonical (ownNotes_canonical h2 ..) ..) ..) ..

theorem sweepBeat_canonical (core) : Memory.Canonical (sweepBeat s core).mem := by
  have he := sweepEnds_canonical hw core
  unfold sweepBeat
  extract_lets t k
  split
  · exact he
  · split
    · exact he
    · split
      · exact modCore_canonical he ..
      · split
        · exact sweepEnd_canonical he ..
        · split
          · extract_lets u
            have hu : Memory.Canonical u.mem := runBeat_canonical he ..
            split
            · split
              · exact sweepTurn_canonical hu ..
              · exact hu
            · exact hu
          · exact sweepTurn_canonical he ..

theorem execEcdecl_canonical (t) : NextCanonical (execEcdecl t s) := by
  refine issue_canonical hw fun s hw => ?_
  grind [withWin_canonical, sweepEnd_canonical, modCtx_canonical, Res.Canonical]

theorem withDesc_canonical {i t} {f : Desc → Res} (hf : ∀ x, (f x).Canonical) : (withDesc i t s f).Canonical := by
  unfold withDesc
  grind [Res.Canonical]

theorem execEcsweep_canonical (t) : NextCanonical (execEcsweep t s) := by
  refine issue_canonical hw fun s hw => ?_
  grind [withDesc_canonical, kick_canonical, needSweep_canonical, modDesc_canonical, Res.Canonical]

theorem execEcstop_canonical (t) : NextCanonical (execEcstop t s) := by
  refine issue_canonical hw fun s hw => ?_
  grind [withDesc_canonical, modDesc_canonical, sweepEnd_canonical, Res.Canonical]

theorem execEcwake_canonical (t b c) : NextCanonical (execEcwake t b c s) := by
  refine issue_canonical hw fun s hw => ?_
  grind [kick_canonical, sendChange_canonical, Res.Canonical]

theorem execEcstat_canonical (a t) : NextCanonical (execEcstat a t s) := by
  refine issue_canonical hw fun s hw => ?_
  grind [withDesc_canonical, wS_canonical, acquire_canonical, Res.Canonical]

theorem execEcread_canonical (a b t) : NextCanonical (execEcread a b t s) := by
  refine issue_canonical hw fun s hw => ?_
  grind [withDesc_canonical, wS_canonical, Res.Canonical]

/-! ### Packets that arrive -/

theorem ringFault_canonical (n p by_ code) : Memory.Canonical (ringFault s n p by_ code).mem := by
  unfold ringFault
  grind [takePkt_canonical, notice_canonical]

theorem ringExit_canonical (n p stop) : Memory.Canonical (ringExit s n p stop).mem := by
  unfold ringExit
  grind [movePkt_canonical, takePkt_canonical]

theorem ringHop_canonical (n p from_ inj) : Memory.Canonical (ringHop s n p from_ inj).mem := by
  unfold ringHop
  grind [newId_canonical]

theorem ringDrain_canonical (n p stop) : Memory.Canonical (ringDrain s n p stop).mem := by
  unfold ringDrain
  grind [ringExit_canonical]

theorem ringInject_canonical (n p stop) : Memory.Canonical (ringInject s n p stop).mem := by
  unfold ringInject
  grind [ringFault_canonical, ringExit_canonical, ringHop_canonical]

theorem ringPacketArrival_canonical (n) : Memory.Canonical (ringPacketArrival s n).mem := by
  unfold ringPacketArrival
  grind [ringInject_canonical, ringFault_canonical, ringDrain_canonical, ringHop_canonical]

theorem meshPacketArrival_canonical (n) : Memory.Canonical (meshPacketArrival s n).mem := by
  unfold meshPacketArrival
  grind [movePkt_canonical]

theorem damageFlit_canonical (n) : Memory.Canonical (damageFlit s n).mem := by
  unfold damageFlit
  split <;> exact hw

theorem moduleLinkReceive_canonical (link ok p) : Memory.Canonical (moduleLinkReceive s link ok p).mem := by
  unfold moduleLinkReceive
  grind [notice_canonical, launchPacket_canonical]

theorem linkGroupResend_canonical (_link) : Memory.Canonical (linkGroupResend s _link).mem := hw

theorem takeWhole_canonical (n p) : Memory.Canonical (takeWhole s n p).mem :=
  foldl_canonical (takePkt_canonical hw ..) fun _ _ hw => takePkt_canonical hw ..

theorem undeliverable_canonical (n p m) : Memory.Canonical (undeliverable s n p m).mem :=
  discardMsg_canonical (takeWhole_canonical hw ..) ..

theorem takeMsg_canonical (n core p) : Memory.Canonical (takeMsg s n core p).mem := by
  unfold takeMsg
  grind [takeWhole_canonical, modCore_canonical]

theorem codeArrival_canonical (n core p m) : Memory.Canonical (codeArrival s n core p m).mem := by
  unfold codeArrival
  grind [missPass_canonical, takeMsg_canonical, movePkt_canonical, missArrive_canonical]

theorem messageArrival_canonical (n) : Memory.Canonical (messageArrival s n).mem := by
  unfold messageArrival
  grind [takeWhole_canonical, undeliverable_canonical, codeArrival_canonical, missPass_canonical, takeMsg_canonical]

theorem hostEnqueue_canonical (core m) : Memory.Canonical (hostEnqueue s core m).mem := hw

theorem hostMessageArrival_canonical (n) : Memory.Canonical (hostMessageArrival s n).mem := by
  unfold hostMessageArrival
  grind [takePkt_canonical, undeliverable_canonical, acceptMsg_canonical, hostEnqueue_canonical, takeMsg_canonical]

theorem messageAcceptanceNotice_canonical (n) : Memory.Canonical (messageAcceptanceNotice s n).mem := by
  unfold messageAcceptanceNotice
  grind [dropCopy_canonical, takePkt_canonical, answer_canonical]

theorem missQueueResend_canonical (n) : Memory.Canonical (missQueueResend s n).mem := by
  unfold missQueueResend
  grind [restart_canonical]

theorem messageCopyResend_canonical (n) : Memory.Canonical (messageCopyResend s n).mem := by
  unfold messageCopyResend
  grind [restart_canonical]

theorem messageAging_canonical (core n) : Memory.Canonical (messageAging s core n).mem := hw

theorem setTracePtr_canonical (core ctx w) : Memory.Canonical (setTracePtr s core ctx w).mem := by
  unfold setTracePtr
  grind [modCtx_canonical, writeWord_canonical]

theorem traceLog_canonical (core p size atomic ord path off) : Memory.Canonical (traceLog s core p size atomic ord path off).mem := by
  unfold traceLog
  grind [setTracePtr_canonical, storeAt_canonical]

theorem portStore_canonical (core ctx off bs holes) : Memory.Canonical (portStore s core ctx off bs holes).mem := by
  unfold portStore
  grind [foldl_canonical, storeAt_canonical]

theorem sendAck_canonical (core p agent off) : Memory.Canonical (sendAck s core p agent off).mem := hw

theorem performFlag_canonical (core p counts) : Memory.Canonical (performFlag s core p counts).mem := by
  unfold performFlag
  grind [modCtx_canonical, portStore_canonical, sendAck_canonical, traceLog_canonical]

theorem releaseHeld_canonical (core ctx fuel) : Memory.Canonical (releaseHeld core ctx fuel s).mem := by
  fun_induction releaseHeld core ctx fuel s
  all_goals grind [modCtx_canonical, performFlag_canonical]

theorem remoteStoreArrival_canonical (n) : Memory.Canonical (remoteStoreArrival s n).mem := by
  unfold remoteStoreArrival
  grind [movePkt_canonical, portStore_canonical, takePkt_canonical, traceLog_canonical, modCtx_canonical, sendAck_canonical,
    releaseHeld_canonical]

theorem orderedFlagArrival_canonical (n) : Memory.Canonical (orderedFlagArrival s n).mem := by
  unfold orderedFlagArrival
  grind [movePkt_canonical, performFlag_canonical, takePkt_canonical, releaseHeld_canonical, modCtx_canonical]

theorem countPacketSend_canonical (core n) : Memory.Canonical (countPacketSend s core n).mem := by
  unfold countPacketSend
  grind [modCore_canonical, sendCount_canonical]

theorem remoteNackResend_canonical (n) : Memory.Canonical (remoteNackResend s n).mem := by
  unfold remoteNackResend
  grind [restart_canonical]

theorem takePorts_canonical (n reply) : Memory.Canonical (takePorts s n reply).mem := hw
theorem memoryAnswer_canonical (p pa pl) : Memory.Canonical (memoryAnswer s p pa pl).mem := hw

theorem answerPorts_canonical (n kind len) : Memory.Canonical (answerPorts s n kind len).mem := by
  unfold answerPorts
  grind [foldl_canonical, memoryAnswer_canonical, takePorts_canonical]

theorem lostLine_canonical (ctx loc) : Memory.Canonical (lostLine s ctx loc).mem := by
  unfold lostLine
  grind [contextEnd_canonical]

theorem performOr_canonical {n kind r} {t : State} (ht : Memory.Canonical t.mem) : Memory.Canonical (performOr s n kind r t).mem := by
  unfold performOr
  grind [lostLine_canonical, answerPorts_canonical]

theorem performReq_canonical (n) : Memory.Canonical (performReq s n).mem := by
  unfold performReq
  grind [answerPorts_canonical, performOr_canonical, foldl_canonical, storeAt_canonical]

theorem atHome_canonical {p pa} {size kind} {tag agent} {f : State → State}
    (hf : ∀ s, Memory.Canonical s.mem → Memory.Canonical (f s).mem) :
    Memory.Canonical (atHome s p pa size kind tag agent f).mem := by
  unfold atHome
  grind [memoryAnswer_canonical, lostLine_canonical]

theorem performPkt_canonical (n) : Memory.Canonical (performPkt s n).mem := by
  unfold performPkt
  split <;> grind [atHome_canonical, takePkt_canonical, memoryAnswer_canonical, storeAt_canonical, sendPkt_canonical, lostLine_canonical]

theorem memoryAccessPerform_canonical (a) : Memory.Canonical (memoryAccessPerform s a).mem := by
  unfold memoryAccessPerform
  grind [copyStep_canonical, performReq_canonical, performPkt_canonical]

theorem atomicPerform_coreAtomic_canonical (n) : Memory.Canonical (atomicPerform.coreAtomic s n).mem := by
  unfold atomicPerform.coreAtomic
  grind [sendPkt_canonical, lostLine_canonical, takePkt_canonical, atomAt_canonical, traceLog_canonical]

theorem atomicPerform_canonical (n) : Memory.Canonical (atomicPerform s n).mem := by
  unfold atomicPerform
  grind [answerPorts_canonical, performOr_canonical, atomAt_canonical, atHome_canonical, takePkt_canonical,
    memoryAnswer_canonical, atomicPerform_coreAtomic_canonical]

theorem lockPkt_canonical (n) : Memory.Canonical (lockPkt s n).mem := by
  unfold lockPkt
  grind [atHome_canonical, takePkt_canonical, memoryAnswer_canonical, storeAt_canonical]

theorem twoAddressAtomicPerform_canonical (n) : Memory.Canonical (twoAddressAtomicPerform s n).mem := by
  unfold twoAddressAtomicPerform
  grind [answerPorts_canonical, performOr_canonical, adcasAt_canonical, amoveAt_canonical, lockPkt_canonical]

theorem deliver_canonical (ag tag bs) : Memory.Canonical (deliver s ag tag bs).mem := hw
theorem fillLine_canonical (ag line bs) : Memory.Canonical (fillLine s ag line bs).mem := hw
theorem dropAsked_canonical (tag) : Memory.Canonical (dropAsked s tag).mem := hw

theorem wakeAway_canonical (p bs) : Memory.Canonical (wakeAway s p bs).mem := by
  unfold wakeAway
  grind [wakeLines_canonical]

theorem answerTag_canonical (agent tag bs) : Memory.Canonical (answerTag s agent tag bs).mem := by
  unfold answerTag
  grind [wakeAway_canonical, dropAsked_canonical, answerMemo_canonical, deliver_canonical]

theorem refuseTag_canonical (agent tag) : Memory.Canonical (refuseTag s agent tag).mem := by
  unfold refuseTag
  grind [dropAsked_canonical, answerMemo_canonical, answer_canonical]

theorem loadReplyArrival_canonical (n) : Memory.Canonical (loadReplyArrival s n).mem := by
  unfold loadReplyArrival
  grind [takePorts_canonical, refuseTag_canonical, deliver_canonical, fillLine_canonical, dropAsked_canonical, takePkt_canonical,
    answerTag_canonical]

theorem storeAcknowledgement_canonical (n) : Memory.Canonical (storeAcknowledgement s n).mem := by
  unfold storeAcknowledgement
  grind [takePkt_canonical, wakeAway_canonical, answerTag_canonical]

theorem readLineExpire_canonical (core n) : Memory.Canonical (readLineExpire s core n).mem := hw

theorem channelWordArrival_canonical (n) : Memory.Canonical (channelWordArrival s n).mem := by
  unfold channelWordArrival
  grind [modCtx_canonical, takePkt_canonical]

theorem drainWriteArrival_canonical (n) : Memory.Canonical (drainWriteArrival s n).mem := by
  unfold drainWriteArrival
  grind [foldl_canonical, storeAt_canonical, takePkt_canonical]

theorem remoteChangeArrival_canonical (n) : Memory.Canonical (remoteChangeArrival s n).mem := by
  unfold remoteChangeArrival
  grind [outsideChange_canonical, takePkt_canonical]

theorem valueWriteArrival_canonical (n) : Memory.Canonical (valueWriteArrival s n).mem := by
  unfold valueWriteArrival
  grind [outsideValue_canonical, takePkt_canonical]

end Operations

end Sys2Proof.Machine
end

section
/-!
SUPPORT. Canonical memory: vectors, and the matrix and signature engines.
-/

namespace Sys2Proof.Machine

section Operations
variable {s : State} (hw : Memory.Canonical s.mem)
include hw

/-! ### Vectors -/

theorem vint_canonical (i pr a b c f) : NextCanonical (vint i pr a b c f s) := issue_canonical hw fun _ hw => wV_canonical hw ..
theorem vcmp_canonical (i pr a b c f) : NextCanonical (vcmp i pr a b c f s) := issue_canonical hw fun _ hw => wP_canonical hw ..
theorem putResults_canonical (t pr a r) : Memory.Canonical (putResults t s pr a r).mem := raiseFlags_canonical (wV_canonical hw ..) ..
theorem vflt_canonical (i t pr a b c f) : NextCanonical (vflt i t pr a b c f s) := issue_canonical hw fun _ hw => putResults_canonical hw ..

theorem vfcmp_canonical (i t pr a b c quiet f) : NextCanonical (vfcmp i t pr a b c quiet f s) :=
  issue_canonical hw fun _ hw => raiseFlags_canonical (wP_canonical hw ..) ..

theorem vmove_canonical (i pr a f) : NextCanonical (vmove i pr a f s) := issue_canonical hw fun _ hw => wV_canonical hw ..

theorem vreduce_canonical (i t pr a codes term) : NextCanonical (vreduce i t pr a codes term s) :=
  issue_canonical hw fun _ hw => raiseFlags_canonical (wS_canonical hw ..) ..

theorem vload_canonical (i f pr a b c idx) : NextCanonical (vload i f pr a b c idx s) :=
  issue_canonical hw fun _ hw => (loadLanes_canonical hw ..).res fun _ _ hw => wV_canonical hw ..

theorem vstore_canonical (i f pr a b c idx) : NextCanonical (vstore i f pr a b c idx s) :=
  issue_canonical hw fun _ hw => (storeLanes_canonical hw ..).res fun _ _ hw => hw

/-! ### The matrix engine -/

theorem parkTile_canonical (cl core ctx i) : Memory.Canonical (parkTile s cl core ctx i).mem := by
  unfold parkTile
  grind [storeAt_canonical, modCtx_canonical, modLease_canonical, modClause_canonical]

theorem giveTile_canonical (cl core ctx i) : Memory.Canonical (giveTile s cl core ctx i).mem := by
  unfold giveTile
  grind [contextEnd_canonical, modCtx_canonical, modLease_canonical, modClause_canonical]

theorem startTurn_canonical (cl core ctx) : Memory.Canonical (startTurn s cl core ctx).mem := by
  unfold startTurn
  grind [foldl_canonical, parkTile_canonical, giveTile_canonical, modLease_canonical, modClause_canonical]

theorem leaseTurn_canonical (cl) : Memory.Canonical (leaseTurn s cl).mem := by
  unfold leaseTurn
  grind [modLease_canonical, startTurn_canonical]

theorem tileMoveComplete_canonical (cl) : Memory.Canonical (tileMoveComplete s cl).mem := hw

theorem leaseForfeit_canonical (cl) : Memory.Canonical (leaseForfeit s cl).mem := by
  unfold leaseForfeit
  grind [foldl_canonical, parkTile_canonical, modLease_canonical, modClause_canonical]

theorem enterLease_canonical (core ctx tiles) : Memory.Canonical (enterLease s core ctx tiles).mem := by
  unfold enterLease
  grind [modClause_canonical, startTurn_canonical]

theorem mleaseGrant_canonical (cl) : Memory.Canonical (mleaseGrant s cl).mem := by
  unfold mleaseGrant
  grind [enterLease_canonical, modClause_canonical]

theorem execMlease_canonical (nw a n) : NextCanonical (execMlease nw a n s) := by
  refine issue_canonical hw fun s hw => ?_
  grind [wS_canonical, enterLease_canonical, modClause_canonical, Res.Canonical]

theorem execMrelease_canonical : NextCanonical (execMrelease s) := by
  refine issue_canonical hw fun s hw => ?_
  grind [modCtx_canonical, modClause_canonical, Res.Canonical]

theorem execMstat_canonical (a) : NextCanonical (execMstat a s) := by
  refine issue_canonical hw fun s hw => ?_
  grind [wS_canonical, acquire_canonical, Res.Canonical]

theorem pushCmd_canonical (c) : Memory.Canonical (pushCmd s c).mem := hw

theorem queueCmd_canonical {l c} {k : State → Res} (hk : ∀ s, Memory.Canonical s.mem → (k s).Canonical) : (queueCmd s l c k).Canonical := by
  unfold queueCmd
  grind [pushCmd_canonical, Res.Canonical]

theorem checkedCmd_canonical {check c} {done : State → Word → Res} (hdone : ∀ s x, Memory.Canonical s.mem → (done s x).Canonical) :
    (checkedCmd s check c done).Canonical := by
  unfold checkedCmd
  grind [orTrap_canonical, kick_canonical, queueCmd_canonical, Res.Canonical]

theorem checkedReply_canonical (core ctx stage v) : Memory.Canonical (checkedReply s core ctx stage v).mem := hw

theorem matrixFault_canonical (cl core ctx c va) : Memory.Canonical (matrixFault s cl core ctx c va).mem :=
  engineFault_canonical hw fun _ hw => modLease_canonical hw ..

theorem popCmd_canonical (cl core ctx) : Memory.Canonical (popCmd s cl core ctx).mem := modLease_canonical (forget_canonical hw ..) ..

theorem execMldb_canonical (b) : NextCanonical (execMldb b s) := by
  refine issue_canonical hw fun s hw => ?_
  grind [orTrap_canonical, kick_canonical, queueCmd_canonical, Res.Canonical]

theorem mldbRead_canonical (w swz sh a n fuel) : (mldbRead s w swz sh a n fuel).Canonical := by
  fun_induction mldbRead s w swz sh a n fuel
  all_goals grind [Eng.Canonical.bind, engLoad_canonical, Eng.Canonical]

theorem mldbBlock_canonical (cl core ctx src e0 i) : (mldbBlock s cl core ctx src e0 i).Canonical :=
  (mldbRead_canonical hw ..).bind fun _ _ hw => modLease_canonical (forget_canonical (storeAt_canonical hw ..) ..) ..

theorem mldbFrom_canonical (cl core ctx src e0 i fuel) : (mldbFrom s cl core ctx src e0 i fuel).Canonical := by
  fun_induction mldbFrom s cl core ctx src e0 i fuel
  all_goals grind [Eng.Canonical.bind, mldbBlock_canonical, Eng.Canonical]

theorem runMldb_canonical (cl l src e0) : Memory.Canonical (runMldb s cl l src e0).mem := by
  unfold runMldb
  grind [mldbFrom_canonical, popCmd_canonical, matrixFault_canonical, Eng.Canonical]

theorem clearTile_canonical (cl l t) : Memory.Canonical (clearTile s cl l t).mem := hw

theorem execMma_canonical (g t b) : NextCanonical (execMma g t b s) := by
  refine issue_canonical hw fun s hw => ?_
  grind [orTrap_canonical, kick_canonical, queueCmd_canonical, checkedCmd_canonical, Res.Canonical]

theorem runMma_canonical (cl l t x) : Memory.Canonical (runMma s cl l t x).mem := by
  unfold runMma
  grind [popCmd_canonical, checkedReply_canonical, matrixFault_canonical, foldl_canonical, modClause_canonical, modLease_canonical]

theorem execMmacode_canonical (t b) : NextCanonical (execMmacode t b s) := by
  refine issue_canonical hw fun s hw => ?_
  grind [checkedCmd_canonical, wE_canonical, wS_canonical, Res.Canonical]

theorem runMmacode_canonical (cl l t addr e0) : Memory.Canonical (runMmacode s cl l t addr e0).mem := by
  unfold runMmacode
  grind [modClause_canonical, modLease_canonical, matrixFault_canonical, checkedReply_canonical, popCmd_canonical]

theorem execMdrain_canonical (t b) : NextCanonical (execMdrain t b s) := by
  refine issue_canonical hw fun s hw => ?_
  grind [checkedCmd_canonical, Res.Canonical]

theorem drainArea_canonical (ctx d) : Memory.Canonical (drainArea s ctx d).1.mem := by
  unfold drainArea
  split <;> exact hw

theorem sendWake_canonical (core d ctx ws src) : Memory.Canonical (sendWake s core d ctx ws src).mem := hw

theorem sendDrain_canonical (cl l t d e0 e1 e2) : Memory.Canonical (sendDrain s cl l t d e0 e1 e2).mem :=
  clearTile_canonical (sendWake_canonical (foldl_canonical hw fun _ _ hw => sendPkt_canonical hw ..) ..) ..

theorem drainReply_canonical (cl l t dest e0 e1 e2) : Memory.Canonical (drainReply s cl l t dest e0 e1 e2).mem := by
  unfold drainReply
  grind [checkedReply_canonical, popCmd_canonical, drainArea_canonical, sendDrain_canonical]

theorem drainSizeReply_canonical (cl) : Memory.Canonical (drainSizeReply s cl).mem := by
  unfold drainSizeReply
  grind [drainReply_canonical]

theorem matrixCommandRun_canonical (cl) : Memory.Canonical (matrixCommandRun s cl).mem := by
  unfold matrixCommandRun
  grind [runMldb_canonical, popCmd_canonical, modLease_canonical, clearTile_canonical, runMma_canonical, runMmacode_canonical]

/-! ### The signature engine -/

theorem modSigLease_canonical (core ctx f) : Memory.Canonical (modSigLease s core ctx f).mem := hw
theorem sigEnter_canonical (core ctx d n k) : Memory.Canonical (sigEnter s core ctx d n k).mem := hw
theorem sigEnd_canonical (core ctx) : Memory.Canonical (sigEnd s core ctx).mem := hw

theorem sigGrant_canonical (cl) : Memory.Canonical (sigGrant s cl).mem := by
  unfold sigGrant
  grind [sigEnter_canonical, modClause_canonical]

theorem execSgcfg_canonical (a b) : NextCanonical (execSgcfg a b s) := by
  refine issue_canonical hw fun s hw => ?_
  grind [wS_canonical, kick_canonical, sigEnd_canonical, sigEnter_canonical, modClause_canonical, Res.Canonical]

theorem sigPush_canonical {l c} {k : State → Res} (hk : ∀ s, Memory.Canonical s.mem → (k s).Canonical) : (sigPush s l c k).Canonical := by
  unfold sigPush
  grind [modSigLease_canonical, Res.Canonical]

theorem sigQueued_canonical (is c) : (sigQueued is c s).Canonical :=
  orTrap_canonical hw fun _ => kick_canonical hw (sigPush_canonical hw fun _ hw => hw)

theorem execSgjoin_canonical (i j k) : NextCanonical (execSgjoin i j k s) := by
  refine issue_canonical hw fun s hw => ?_
  grind [orTrap_canonical, kick_canonical, sigPush_canonical, Res.Canonical]

theorem sigCommandRun_canonical (cl) : Memory.Canonical (sigCommandRun s cl).mem := by
  unfold sigCommandRun
  grind [modSigLease_canonical, modClause_canonical, checkedReply_canonical]

theorem execSgst_canonical (i b) : NextCanonical (execSgst i b s) := by
  refine issue_canonical hw fun s hw => ?_
  grind [orTrap_canonical, withWin_canonical, kick_canonical, scratchWrite_canonical, Res.Canonical]

theorem execSgld_canonical (i b) : NextCanonical (execSgld i b s) := by
  refine issue_canonical hw fun s hw => ?_
  grind [orTrap_canonical, withWin_canonical, kick_canonical, foldl_canonical, modClause_canonical, Res.Canonical]

end Operations

end Sys2Proof.Machine
end

section
/-!
SUPPORT. Canonical memory: the management controller, the removal of a core, time-outs, and short forms.
-/

namespace Sys2Proof.Machine

section Operations
variable {s : State} (hw : Memory.Canonical s.mem)
include hw

/-! ### The management controller -/

theorem powerOn_canonical : Memory.Canonical (powerOn s).mem := by
  unfold powerOn
  split <;> exact hw

theorem fenceParts_canonical (ps) : Memory.Canonical (fenceParts s ps).mem := by
  unfold fenceParts
  grind

omit hw in
/-- Stage 5 of start-up leaves the empty list (R32). -/
theorem zeroMemory_canonical : Memory.Canonical (zeroMemory s).mem := rfl

theorem startKernel_canonical : Memory.Canonical (startKernel s).mem := by
  rw [startKernel_eq]
  refine foldl_canonical (writeBytes_canonical hw ..) fun s i hw => ?_
  unfold bootCore
  split
  · exact hw
  · exact modCore_canonical hw ..

theorem stopStartup_canonical : Memory.Canonical (stopStartup s).mem := hw

theorem startupStageComplete_canonical (failed ok) : Memory.Canonical (startupStageComplete s failed ok).mem := by
  unfold startupStageComplete
  split
  · exact hw
  · dsimp only
    split
    · split
      · exact hw
      · exact stopStartup_canonical hw
    · exact fenceParts_canonical (by exact hw) ..
    · exact fenceParts_canonical zeroMemory_canonical ..
    · split
      · exact fenceParts_canonical (by exact hw) ..
      · exact stopStartup_canonical (fenceParts_canonical (by exact hw) ..)
    · exact startKernel_canonical hw
    · exact hw

theorem passWithhold_canonical : Memory.Canonical (passWithhold s).mem := hw
theorem withheldPassesIssued_canonical : Memory.Canonical (withheldPassesIssued s).mem := hw

theorem hostTrap_canonical (c tval) : Memory.Canonical (hostTrap s c tval).mem := by
  unfold hostTrap
  grind [privTrap_canonical]

theorem scrubLine_canonical (line uncorrectable) : Memory.Canonical (scrubLine s line uncorrectable).mem := by
  unfold scrubLine
  grind [contextEnd_canonical, hostTrap_canonical]

theorem failStarted_canonical (core kind x) : Memory.Canonical (failStarted s core kind x).mem := by
  unfold failStarted
  grind [errorRecord_canonical, enqueueMsg_canonical, setWorkState_canonical, triggerWork_canonical]

theorem stopCore_canonical (c) : Memory.Canonical (stopCore s c).mem := by
  unfold stopCore
  grind [dissolve_canonical, foldl_canonical, writeWord_canonical, modCore_canonical]

theorem endLeases_canonical (c) : Memory.Canonical (endLeases s c).mem := by
  unfold endLeases
  grind [foldl_canonical, sigEnd_canonical, modClause_canonical]

theorem failCore_canonical (kind c) : Memory.Canonical (failCore s kind c).mem :=
  foldl_canonical (foldl_canonical (foldl_canonical (endLeases_canonical (stopCore_canonical hw ..) ..) fun _ _ hw => disarm_canonical hw
    ..) fun _ _ hw => failStarted_canonical hw ..) fun _ _ hw => failStarted_canonical (modCore_canonical hw ..) ..

theorem failClause_canonical (cl) : Memory.Canonical (failClause s cl).mem := by
  unfold failClause
  grind [modClause_canonical, foldl_canonical, disarm_canonical]

theorem refuseLaunches_canonical : Memory.Canonical (refuseLaunches s).mem := by
  unfold refuseLaunches
  grind [foldl_canonical, answerStatus_canonical, modDie_canonical]

theorem loseMessages_canonical (ls) : Memory.Canonical (loseMessages s ls).mem := hw

theorem partFailure_canonical (p) : Memory.Canonical (partFailure s p).mem := by
  unfold partFailure
  grind [refuseLaunches_canonical, fenceParts_canonical, foldl_canonical, failCore_canonical, modCore_canonical, loseMessages_canonical,
    failClause_canonical, evalLaunches_canonical, ensureMirror_canonical, notice_canonical]

theorem noticeRefused_canonical (h ws) : Memory.Canonical (noticeRefused s h ws).mem := hostTrap_canonical (errorRecord_canonical hw ..) ..

theorem noticeDelivery_canonical : Memory.Canonical (noticeDelivery s).mem := by
  unfold noticeDelivery
  grind [noticeRefused_canonical, hostEnqueue_canonical]

theorem msixVector_canonical (port vector) : Memory.Canonical (msixVector s port vector).mem := by
  unfold msixVector
  grind [hostEnqueue_canonical]

theorem functionEntry_canonical (r) : Memory.Canonical (functionEntry s r).1.mem := by
  unfold functionEntry
  split <;> exact hw

theorem portReply_canonical (r status bs) : Memory.Canonical (portReply s r status bs).mem := by
  unfold portReply
  split <;> exact hw

theorem portRefuse_canonical (r cause status) : Memory.Canonical (portRefuse s r cause status).mem :=
  notice_canonical (portReply_canonical hw ..) ..

theorem portAccess_canonical (w r) : (portAccess s w r).Canonical := by
  unfold portAccess
  grind [Eng.Canonical.bind, writeMem_canonical, readMem_canonical, Eng.Canonical]

theorem portServe_canonical (n r) : Memory.Canonical (portServe s n r).1.mem := by
  unfold portServe
  grind [functionEntry_canonical, portRefuse_canonical, portAccess_canonical, portReply_canonical, forget_canonical, endWalks_canonical,
    contextEnd_canonical, Eng.Canonical]

theorem dropHeldPort_canonical (n) : Memory.Canonical (dropHeldPort s n).mem := hw

theorem portsAgain_canonical : Memory.Canonical (portsAgain s).mem := by
  unfold portsAgain
  grind [foldl_canonical, dropHeldPort_canonical, portServe_canonical]

theorem portRequest_canonical (r) : Memory.Canonical (portRequest s r).mem := by
  unfold portRequest
  grind [portServe_canonical, newId_canonical]

theorem retryHeld_canonical : Memory.Canonical (retryHeld s).mem := by
  unfold retryHeld
  grind [portsAgain_canonical, flushRecords_canonical]

theorem forgetContext_canonical (ctx) : Memory.Canonical (forgetContext s ctx).mem := hw
theorem settleContexts_canonical : Memory.Canonical (settleContexts s).mem := foldl_canonical hw fun _ _ hw => forgetContext_canonical hw ..
theorem walkGoes_canonical (n w st) : Memory.Canonical (walkGoes s n w st).mem := hw

theorem walkReread_canonical (n) : Memory.Canonical (walkReread s n).mem := by
  unfold walkReread
  grind [walkGoes_canonical]

theorem walkTimeout_canonical (n) : Memory.Canonical (walkTimeout s n).mem := by
  unfold walkTimeout
  grind [walkGoes_canonical]

theorem pageWalk_canonical (core va k) : Memory.Canonical (pageWalk s core va k).mem := by
  unfold pageWalk
  grind [foldl_canonical, tlbFill_canonical, startWalk_canonical]

/-! ### The removal of a core -/

theorem copyBytes_canonical (from_ to_ fuel) : Memory.Canonical (copyBytes s from_ to_ fuel).mem := by
  fun_induction copyBytes s from_ to_ fuel
  all_goals grind [writeByte_canonical]

theorem copyPool_canonical (c d ctx) : Memory.Canonical (copyPool s c d ctx).mem := by
  unfold copyPool
  grind [copyBytes_canonical]

theorem moveGuests_canonical (c d) : Memory.Canonical (moveGuests s c d).mem := hw

theorem saveIdle_canonical (core cs) : Memory.Canonical (saveIdle s core cs).mem := by
  unfold saveIdle
  grind [foldl_canonical, saveFrame_canonical]

theorem giveArea_canonical (c d) : Memory.Canonical (giveArea s c d).mem := by
  unfold giveArea
  grind [saveIdle_canonical, modCore_canonical]

theorem copyFrames_canonical (c d cs) : Memory.Canonical (copyFrames s c d cs).mem := by
  unfold copyFrames
  grind [foldl_canonical, saveFrame_canonical, copyBytes_canonical]

theorem moveSlots_canonical (c d) : Memory.Canonical (moveSlots s c d).mem := by
  unfold moveSlots
  grind [foldl_canonical, saveFrame_canonical, modCore_canonical]

theorem moveEngines_canonical (c d) : Memory.Canonical (moveEngines s c d).mem := by
  unfold moveEngines
  grind [foldl_canonical, parkTile_canonical, modClause_canonical]

theorem moveArrivals_canonical (d x) : Memory.Canonical (moveArrivals s d x).mem := by
  unfold moveArrivals
  split <;> exact hw

theorem renameCore_canonical (c d) : Memory.Canonical (renameCore s c d).mem := hw

theorem moveCore_canonical (c d places) : Memory.Canonical (moveCore s c d places).mem :=
  modCore_canonical (moveGuests_canonical (modCore_canonical (moveSlots_canonical (copyFrames_canonical (foldl_canonical (modCore_canonical
    (foldl_canonical (giveArea_canonical hw ..) fun _ _ hw => copyPool_canonical hw ..) ..) fun _ _ hw => moveArrivals_canonical hw ..) ..)
    ..) ..) ..) ..

theorem remapCtx_canonical (c d ctx) : Memory.Canonical (remapCtx s c d ctx).mem := by
  unfold remapCtx
  grind [foldl_canonical, writeBytes_canonical, writeWord_canonical]

theorem forwardMessages_canonical (d) : Memory.Canonical (forwardMessages s d).mem := by
  unfold forwardMessages
  grind [foldl_canonical, messageArrival_canonical, movePkt_canonical]

theorem moveMisses_canonical (c d places) : Memory.Canonical (moveMisses s c d places).mem := by
  unfold moveMisses
  split <;> exact hw

theorem quiesce_canonical (c) : Memory.Canonical (quiesce s c).mem := by
  unfold quiesce
  grind [dissolve_canonical, modCore_canonical]

theorem coreRemoval_canonical (c d) : Memory.Canonical (coreRemoval s c d).mem := by
  unfold coreRemoval
  grind [quiesce_canonical, renameCore_canonical, moveCore_canonical, moveMisses_canonical, moveEngines_canonical, foldl_canonical,
    remapCtx_canonical, forwardMessages_canonical]

/-! ### Time-outs and starts -/

theorem reissue_canonical {c} {run : Instr → State → Option (Host.Outcome State Fault Refusal)}
    (hrun : ∀ i t o, Memory.Canonical t.mem → run i t = some o → NextCanonical o) : Memory.Canonical (reissue s c run).mem := by
  have hf := fetchBytes_canonical (s := { s with cur := c }) hw (act { s with cur := c }).pc
  unfold reissue
  dsimp only
  generalize fetchBytes { s with cur := c } (act { s with cur := c }).pc = r at hf
  rcases r with f | ⟨t, bs⟩
  · exact hw
  · dsimp only
    split
    · exact hw
    · split
      · next heq => exact hrun _ _ _ hf heq
      · exact hw

theorem evwaitTimeout_canonical (core) : Memory.Canonical (evwaitTimeout s core).mem := by
  unfold evwaitTimeout
  grind [reissue_canonical, execEvwait_canonical, NextCanonical]

theorem mwaitTimeout_canonical (core) : Memory.Canonical (mwaitTimeout s core).mem := by
  unfold mwaitTimeout
  grind [reissue_canonical, execMwait_canonical, NextCanonical]

theorem wfeTimeout_canonical (core) : Memory.Canonical (wfeTimeout s core).mem := by
  unfold wfeTimeout
  grind [reissue_canonical, execWfe_canonical, NextCanonical]

theorem sleepExpire_canonical (core) : Memory.Canonical (sleepExpire s core).mem := by
  unfold sleepExpire
  grind [reissue_canonical, execSleep_canonical, NextCanonical]

theorem startKindOf_canonical (core is) : Memory.Canonical (startKindOf s core is).mem := by
  unfold startKindOf
  grind [activationStart_canonical]

theorem engineUpcallStart_canonical (core) : Memory.Canonical (engineUpcallStart s core).mem := startKindOf_canonical hw ..
theorem versionMissStart_canonical (core) : Memory.Canonical (versionMissStart s core).mem := startKindOf_canonical hw ..
theorem execCtxtabWrite_canonical (v) : NextCanonical (execCtxtabWrite v s) := ctxtabWrite_canonical hw ..

/-! ### Short forms -/

theorem shortSet_canonical (a f) : NextCanonical (shortSet a f s) := issue_canonical hw fun _ hw => wS_canonical hw ..

theorem shortOp_canonical {body : State → Res} (hbody : ∀ s, Memory.Canonical s.mem → (body s).Canonical) :
    NextCanonical (shortOp body s) :=
  issue_canonical hw fun _ hw => hbody _ hw

end Operations

end Sys2Proof.Machine
end

section
/-!
SUPPORT. Canonical memory: every row of the opcode table, the agents of the agenda, and a step.
-/

namespace Sys2Proof.Machine

section Operations
variable {s : State} (hw : Memory.Canonical s.mem)
include hw

/-! ### Every row of the opcode table -/

/-- Every row issues a body that keeps memory canonical, or is an event that does. -/
theorem exec_canonical (i) : NextCanonical (exec i s) := by
  cases i <;> dsimp only [exec]
  case add | sub | and | or | xor | andn | shl | shr | sar | rotl | mul | mulh | mulhu | div | divu | rem | remu | min | max | minu
    | maxu | slt | sltu | seq =>
    exact alu2_canonical hw ..
  case clz | ctz | popc | brev | sextb | sexth | sextw | zextw | addi | andi | ori | xori | slti | shli | shri | sari | rotli =>
    exact alu1_canonical hw ..
  case lui | auipc | jal | cyc | oxget | qlen | wid | srcid | lxver | glstat | vmovs | vredadd | pget | pcnt | pfirst =>
    exact issue_canonical hw fun _ hw => wS_canonical hw ..
  case beq | bne | blt | bge | bltu | bgeu => exact branchOp_canonical hw ..
  case jalr => exact issue_canonical hw fun _ hw => jumpBody_canonical hw ..
  case nop | trap | bkpt | reservedEncoding | instructionFetchFault => exact issue_canonical hw fun _ hw => hw
  case eret => exact execEret_canonical hw
  case halt => exact execHalt_canonical hw
  case sleep => exact execSleep_canonical hw ..
  case wfe => exact execWfe_canonical hw
  case fuse => exact issue_canonical hw fun _ hw => fuseBody_canonical hw ..
  case split => exact execSplit_canonical hw ..
  case migr => exact execMigr_canonical hw
  case yield => exact execYield_canonical hw
  case oxset | oxclr => exact issue_canonical hw fun _ hw => wE_canonical hw ..
  case oxldm => exact execOxldm_canonical hw ..
  case oxstm => exact execOxstm_canonical hw ..
  case ldb | ldbu | ldh | ldhu | ldw | ldwu | ldd => exact loadOp_canonical hw ..
  case stb | sth | stw | std => exact storeOp_canonical hw ..
  case lda => exact execLda_canonical hw ..
  case stl => exact execStl_canonical hw ..
  case stlf => exact execStlf_canonical hw ..
  case fence => exact execFence_canonical hw ..
  case fencea => exact execFencea_canonical hw
  case aadd | aand | aor | axor | amin | amax | aminu | amaxu | aswp | acas => exact atomOp_canonical hw ..
  case adcas =>
    exact issue_canonical hw fun _ hw => (twoVal_canonical hw fun _ _ _ hw => adcasAt_canonical hw ..).res fun _ _ hw =>
      wE_canonical (wE_canonical (wS_canonical hw ..) ..) ..
  case amove =>
    exact issue_canonical hw fun _ hw => (twoVal_canonical hw fun _ _ _ hw => amoveAt_canonical hw ..).res fun _ _ hw =>
      wS_canonical hw ..
  case qpop | qpeek => exact issue_canonical hw fun _ hw => popBody_canonical hw ..
  case qpush => exact issue_canonical hw fun _ hw => pushBody_canonical hw ..
  case qdrop => exact execQdrop_canonical hw ..
  case send => exact execSend_canonical hw ..
  case sendw => exact execSendw_canonical hw ..
  case reply => exact execReply_canonical hw ..
  case endh => exact issue_canonical hw fun _ hw => endhBody_canonical hw
  case launch => exact execLaunch_canonical hw ..
  case trig => exact execTrig_canonical hw
  case evwait => exact execEvwait_canonical hw ..
  case evset => exact execEvset_canonical hw ..
  case evclr => exact execEvclr_canonical hw ..
  case evtest => exact execEvtest_canonical hw ..
  case phnew => exact execPhnew_canonical hw ..
  case phreg => exact execPhreg_canonical hw ..
  case phdrop => exact execPhdrop_canonical hw ..
  case phsig => exact execPhsig_canonical hw ..
  case phwait => exact execPhwait_canonical hw ..
  case phsw => exact execPhsw_canonical hw ..
  case phread => exact issue_canonical hw fun _ hw => withPhaser_canonical hw (fun _ _ _ => wS_canonical hw ..)
  case phreset => exact execPhreset_canonical hw ..
  case mon => exact execMon_canonical hw ..
  case mwait => exact execMwait_canonical hw ..
  case cpwait => exact execCpwait_canonical hw ..
  case cpstat => exact execCpstat_canonical hw ..
  case cpcancel => exact execCpcancel_canonical hw ..
  case cpsort => exact issue_canonical hw fun _ hw => copyGo_canonical hw ..
  case gbind => exact execGbind_canonical hw ..
  case gunbind => exact issue_canonical hw fun _ hw => modCtx_canonical hw ..
  case collgo => exact execCollgo_canonical hw ..
  case collwait => exact execCollwait_canonical hw ..
  case crd | cpgoRead => exact issue_canonical hw fun _ hw => crdBody_canonical hw ..
  case cwr => exact execCwr_canonical hw ..
  case fresume => exact execFresume_canonical hw ..
  case fstat => exact execFstat_canonical hw ..
  case fdrop => exact execFdrop_canonical hw ..
  case tlbinv | tlbinva => exact issue_canonical hw fun _ hw => invBody_canonical hw ..
  case xpref => exact execXpref_canonical hw ..
  case lxcfg => exact execLxcfg_canonical hw ..
  case lxput => exact execLxput_canonical hw ..
  case lxget => exact execLxget_canonical hw ..
  case lxenc => exact execLxenc_canonical hw ..
  case lxsend => exact execLxsend_canonical hw ..
  case lxdec => exact execLxdec_canonical hw ..
  case lxmiss => exact execLxmiss_canonical hw ..
  case lxretry => exact execLxretry_canonical hw ..
  case glset => exact execGlset_canonical hw ..
  case glinv => exact execGlinv_canonical hw ..
  case ecdecl => exact execEcdecl_canonical hw ..
  case ecsweep => exact execEcsweep_canonical hw ..
  case ecstop => exact execEcstop_canonical hw ..
  case ecwake => exact execEcwake_canonical hw ..
  case ecstat => exact execEcstat_canonical hw ..
  case ecread => exact execEcread_canonical hw ..
  case vadd | vsub | vmul | vmulh | vand | vor | vxor | vshl | vshr | vsar | vmin | vmax | vminu | vmaxu | vadds | vmuls =>
    exact vint_canonical hw ..
  case vceq | vclt | vcltu => exact vcmp_canonical hw ..
  case viota | vins | vsel | vcompress | vprune => exact issue_canonical hw fun _ hw => wV_canonical hw ..
  case vfadd | vfsub | vfmul | vfma | vfms | vfnma | vfdiv | vfsqrt | vfmin | vfmax | vfabs | vfneg | vfadds | vfmuls | vcvtwf |
    vcvtfw =>
    exact vflt_canonical hw ..
  case vfceq | vfclt | vfcle => exact vfcmp_canonical hw ..
  case vmov | vsplat | vperm | vslideup | vslidedn | vexpand => exact vmove_canonical hw ..
  case vfredsum | vfdot => exact vreduce_canonical hw ..
  case vfredmax => exact issue_canonical hw fun _ hw => raiseFlags_canonical (wS_canonical hw ..) ..
  case vld | vldk | vgath => exact vload_canonical hw ..
  case vst | vstk | vscat | vstb => exact vstore_canonical hw ..
  case vcvtfd => exact issue_canonical hw fun _ hw => putResults_canonical hw ..
  case vcvtdf | vxacc | vxrnd => exact issue_canonical hw fun _ hw => raiseFlags_canonical (wV_canonical hw ..) ..
  case pand | por | pxor | pnot | pset | pmov => exact issue_canonical hw fun _ hw => wP_canonical hw ..
  case mlease => exact execMlease_canonical hw ..
  case mrelease => exact execMrelease_canonical hw
  case mstat => exact execMstat_canonical hw ..
  case mldb => exact execMldb_canonical hw ..
  case mbmeta | mzero => exact issue_canonical hw fun _ hw => orTrap_canonical hw (fun _ => queueCmd_canonical hw (fun _ hw => hw))
  case mma => exact execMma_canonical hw ..
  case mmacode => exact execMmacode_canonical hw ..
  case mdrain => exact execMdrain_canonical hw ..
  case sgcfg => exact execSgcfg_canonical hw ..
  case sgzero | sgtag | sgstep | sglog => exact issue_canonical hw fun _ hw => sigQueued_canonical hw ..
  case sgjoin => exact execSgjoin_canonical hw ..
  case sgst => exact execSgst_canonical hw ..
  case sgld => exact execSgld_canonical hw ..
  case powerOn => exact powerOn_canonical hw
  case startupStageComplete => exact startupStageComplete_canonical hw ..
  case faccWrite | modnumWrite | linkGroupResend | passWithhold | messageAging | readLineExpire | tileMoveComplete |
    withheldPassesIssued =>
    exact hw
  case ctxtabWrite => exact execCtxtabWrite_canonical hw ..
  case ringPacketArrival => exact ringPacketArrival_canonical hw ..
  case moduleLinkReceive => exact moduleLinkReceive_canonical hw ..
  case partFailure => exact partFailure_canonical hw ..
  case scrubLine => exact scrubLine_canonical hw ..
  case noticeDelivery => exact noticeDelivery_canonical hw
  case msixVector => exact msixVector_canonical hw ..
  case portRequest => exact portRequest_canonical hw ..
  case hostMessageArrival => exact hostMessageArrival_canonical hw ..
  case launchRequest => exact launchRequest_canonical hw ..
  case launchJournaled => exact launchJournaled_canonical hw ..
  case consumeConfirmation => exact consumeConfirm_canonical hw ..
  case activationMessageGenerate => exact generateMessage_canonical hw ..
  case eventMirrorUpdate => exact mirrorUpdate_canonical hw ..
  case messageArrival => exact messageArrival_canonical hw ..
  case missQueueResend => exact missQueueResend_canonical hw ..
  case versionMissStart => exact versionMissStart_canonical hw ..
  case messageAcceptanceNotice => exact messageAcceptanceNotice_canonical hw ..
  case messageCopyResend => exact messageCopyResend_canonical hw ..
  case activationStart => exact activationStart_canonical hw ..
  case preemption => exact preempt_canonical hw ..
  case switchComplete => exact switchComplete_canonical hw ..
  case streamInComplete => exact streamInComplete_canonical hw ..
  case streamOutComplete => exact streamOutComplete_canonical hw ..
  case fuseTimeout => exact fuseTimeout_canonical hw ..
  case migrationComplete => exact migrationComplete_canonical hw ..
  case donationLimit => exact donationLimit_canonical hw ..
  case engineUpcallStart => exact engineUpcallStart_canonical hw ..
  case pageWalk => exact pageWalk_canonical hw ..
  case walkMigratingReread => exact walkReread_canonical hw ..
  case walkMigratingTimeout => exact walkTimeout_canonical hw ..
  case memoryAccessPerform => exact memoryAccessPerform_canonical hw ..
  case loadReplyArrival => exact loadReplyArrival_canonical hw ..
  case remoteStoreArrival => exact remoteStoreArrival_canonical hw ..
  case orderedFlagArrival => exact orderedFlagArrival_canonical hw ..
  case countPacketSend => exact countPacketSend_canonical hw ..
  case remoteNackResend => exact remoteNackResend_canonical hw ..
  case storeAcknowledgement => exact storeAcknowledgement_canonical hw ..
  case atomicPerform => exact atomicPerform_canonical hw ..
  case twoAddressAtomicPerform => exact twoAddressAtomicPerform_canonical hw ..
  case channelWordArrival => exact channelWordArrival_canonical hw ..
  case mleaseGrant => exact mleaseGrant_canonical hw ..
  case leaseTurn => exact leaseTurn_canonical hw ..
  case leaseForfeit => exact leaseForfeit_canonical hw ..
  case matrixCommandRun => exact matrixCommandRun_canonical hw ..
  case drainSizeReply => exact drainSizeReply_canonical hw ..
  case drainWriteArrival => exact drainWriteArrival_canonical hw ..
  case copyTransferComplete => exact copyComplete_canonical hw ..
  case copyPromiseExpire => exact copyPromiseExpire_canonical hw ..
  case copyCancelStop => exact copyCancelStop_canonical hw ..
  case collectiveStepRun => exact collStep_canonical hw ..
  case collectiveStepArrival => exact stepArrival_canonical hw ..
  case collectiveAbortNotice => exact abortArrival_canonical hw ..
  case sweepBeat => exact sweepBeat_canonical hw ..
  case remoteChangeArrival => exact remoteChangeArrival_canonical hw ..
  case valueWriteArrival => exact valueWriteArrival_canonical hw ..
  case signatureLeaseGrant => exact sigGrant_canonical hw ..
  case signatureCommandRun => exact sigCommandRun_canonical hw ..
  case evwaitTimeout => exact evwaitTimeout_canonical hw ..
  case mwaitTimeout => exact mwaitTimeout_canonical hw ..
  case wfeTimeout => exact wfeTimeout_canonical hw ..
  case sleepExpire => exact sleepExpire_canonical hw ..
  case meshPacketArrival => exact meshPacketArrival_canonical hw ..
  case invalidationComplete => exact invalidationComplete_canonical hw ..
  case eventVectorHomeMove => exact homeMove_canonical hw ..
  case coreRemoval => exact coreRemoval_canonical hw ..
  case cMov | cAdd | cSub | cAnd | cOr | cXor | cAddi | cLi | cShli | cShri | cSari => exact shortSet_canonical hw ..
  case cNop | cJ => exact shortOp_canonical hw fun _ hw => hw
  case cEndh => exact shortOp_canonical hw fun _ hw => endhBody_canonical hw
  case cQpop => exact shortOp_canonical hw fun _ hw => popBody_canonical hw ..
  case cQpush => exact shortOp_canonical hw fun _ hw => pushBody_canonical hw ..
  case cLdd | cLdw | cLddr => exact shortOp_canonical hw fun _ hw => loadBody_canonical hw ..
  case cStd | cStw | cStdr => exact shortOp_canonical hw fun _ hw => storeBody_canonical hw ..
  case cBeqz | cBnez => exact shortOp_canonical hw fun _ hw => branchBody_canonical hw ..
  case cJr | cJalr => exact shortOp_canonical hw fun _ hw => jumpBody_canonical hw ..
  case cVmov => exact shortOp_canonical hw fun _ hw => wV_canonical hw ..

/-! ### The agents of the agenda -/

theorem clearBoot_canonical : Memory.Canonical (clearBoot s).mem := modAct_canonical hw ..

theorem forgetIssued_canonical (cores away ctx) : Memory.Canonical (forgetIssued s cores away ctx).mem := by
  unfold forgetIssued
  split
  · exact hw
  · refine foldl_canonical hw fun s c hw => ?_
    split
    · exact hw
    · exact forget_canonical hw ..

theorem execThen_canonical (i cores away ctx) : NextCanonical (execThen s i cores away ctx) := by
  have h := exec_canonical hw i
  unfold execThen
  cases heq : exec i s with
  | next t =>
    rw [heq] at h
    exact forgetIssued_canonical h ..
  | fault f => trivial
  | refused r => trivial

theorem issueFetched_canonical : NextCanonical (issueFetched s) := by
  have h := fetch_canonical hw
  unfold issueFetched
  cases heq : fetch s with rw [heq] at h
  | instr t i => exact execThen_canonical h ..
  | bad t w => exact execThen_canonical h ..
  | fault t c va => exact execThen_canonical h ..
  | wait t => exact h

theorem issueAt_canonical (c) : NextCanonical (issueAt s c) := by
  unfold issueAt
  split
  · have hb : Memory.Canonical (clearBoot { s with cur := c }).mem := clearBoot_canonical (by exact hw)
    dsimp only
    split
    · exact forgetIssued_canonical (deliverTrap_canonical hb ..) ..
    · exact issueFetched_canonical hb
  · exact hw

theorem runEvent_canonical (i) : NextCanonical (runEvent s i) := by
  have h := exec_canonical hw i
  unfold runEvent
  split
  · exact hw
  · cases heq : exec i s with
    | next t =>
      rw [heq] at h
      exact h
    | fault f => exact hw
    | refused r => exact hw

theorem eventTurn_canonical : ∀ o, eventTurn s = some o → NextCanonical o := by
  intro o ho
  obtain ⟨i, -, rfl⟩ := Option.map_eq_some_iff.1 ho
  exact runEvent_canonical hw i

theorem issueTurn_canonical : ∀ o, issueTurn s = some o → NextCanonical o := by
  intro o ho
  obtain ⟨c, -, rfl⟩ := Option.map_eq_some_iff.1 ho
  exact issueAt_canonical hw c

theorem ownTurn_canonical : NextCanonical (ownTurn s) := by
  have turns (x y : Option (Host.Outcome State Fault Refusal)) (hx : ∀ o, x = some o → NextCanonical o)
      (hy : ∀ o, y = some o → NextCanonical o) : NextCanonical ((x.orElse fun _ => y).getD (.next s)) := by
    cases x with
    | some o => exact hx o rfl
    | none => cases y with
      | some o => exact hy o rfl
      | none => exact hw
  unfold ownTurn
  split
  · exact turns _ _ (eventTurn_canonical hw) (issueTurn_canonical hw)
  · exact turns _ _ (issueTurn_canonical hw) (eventTurn_canonical hw)

/-! ### A step -/

omit hw in
theorem tick_canonical {o : Host.Outcome State Fault Refusal} (ho : NextCanonical o) : NextCanonical (tick o) := by
  cases o with
  | next t => exact settleContexts_canonical (passWalks_canonical (retryHeld_canonical ho) 1)
  | fault f => trivial
  | refused r => trivial
include hw

theorem loadLinks_canonical (m links) : Memory.Canonical (loadLinks s m links).mem := hw
theorem loadMsix_canonical (port vector core) : Memory.Canonical (loadMsix s port vector core).mem := hw

theorem stepAgenda_canonical : NextCanonical (stepAgenda s) := by
  unfold stepAgenda
  split
  · exact tick_canonical (ownTurn_canonical hw)
  · exact tick_canonical (issueAt_canonical (by exact hw) _)
  · exact tick_canonical (issueAt_canonical (by exact hw) _)
  · exact tick_canonical (runEvent_canonical (by exact hw) _)
  · exact passWalks_canonical hw _
  · exact tick_canonical (loadLinks_canonical (by exact hw) ..)
  · exact tick_canonical (loadMsix_canonical (by exact hw) ..)
  · exact tick_canonical (damageFlit_canonical (by exact hw) _)

/-- Every step keeps memory canonical. -/
theorem step_canonical : NextCanonical (step s) := by
  unfold step
  split
  · trivial
  · split
    · exact tick_canonical (partFailure_canonical (by exact hw) _)
    · exact stepAgenda_canonical hw

end Operations

end Sys2Proof.Machine

namespace Sys2Proof
open Machine

/-- Settles O60: memory changes by `writeByte`, `makeUndef` and `zeroMemory` alone, and each keeps the byte list canonical
(`writeByte_canonical`, `makeUndef_canonical`, `zeroMemory_canonical`); so does every operation built of them, every row of the opcode table
(`exec_canonical`), and so every step (`step_canonical`). -/
theorem stepKeepsMemoryCanonical : Obligations.StepKeepsMemoryCanonical := by
  intro s t hw hstep
  have h : NextCanonical (step s) := step_canonical hw
  rw [hstep] at h
  exact h

end Sys2Proof
end

section
/-!
SUPPORT. The floating vector forms (R320-R324): what they write and raise, lane by lane, and their issue on a core that has extension D.
-/

namespace Sys2Proof.Machine

/-! ### Lanes of a width (R93) -/

/-- The element of width t that 32-bit lane i is part of. -/
def elemOf (t : Bool) (i : Nat) : Nat := if t then i / 2 else i

/-- What 32-bit lane i holds of its element's code. -/
def laneCode (t : Bool) (x i : Nat) : Lane := BitVec.ofNat 32 (if t then (if i % 2 = 0 then x else x / 2 ^ 32) else x)

theorem elemOf_lt {t : Bool} {i : Nat} (h : i < 16) : elemOf t i < countT t := by
  cases t <;> simp [elemOf, countT] <;> omega

theorem onT_eq (t : Bool) (p : BitVec 16) (j : Nat) : onT t p j = floatOn t p j := by
  cases t <;> simp [onT, floatOn, bit_eq_getLsbD]

theorem laneT_lt (t : Bool) (v : VReg) (j : Nat) : laneT t v j < 2 * (fmtT t).signBit := by
  have low := (lane v (2 * j)).isLt
  have high := (lane v (2 * j + 1)).isLt
  have single := (lane v j).isLt
  cases t <;> simp only [laneT, fmtT, Fmt.signBit, f32, f64] <;> simp <;> omega

/-- `putT` writes the elements that have a result. -/
theorem putT_eq (t : Bool) (old : VReg) (xs : List (Option Nat)) :
    putT t old xs = Vector.ofFn (fun i => ((xs.getD (elemOf t i) none).map (laneCode t · i)).getD old[i]) := by
  cases t <;> unfold putT <;> congr 1 <;> funext i <;> simp only [elemOf, laneCode] <;> simp <;> split <;> simp [*]

/-- The elements below n that `on` names receive their codes. -/
theorem putT_range (t : Bool) (old : VReg) (n : Nat) (on : Nat → Bool) (r : Nat → Nat) :
    putT t old ((List.range n).map (fun j => if on j then some (r j) else none)) =
      Vector.ofFn (fun i => if elemOf t i < n ∧ on (elemOf t i) = true then laneCode t (r (elemOf t i)) i else old[i]) := by
  rw [putT_eq]
  congr 1
  funext i
  by_cases hn : elemOf t i < n
  · cases ho : on (elemOf t i) <;> simp [List.getD_eq_getElem?_getD, hn, ho]
  · simp [List.getD_eq_getElem?_getD, hn]

/-- Where every enabled element lies below n, writing the n elements is writing the enabled ones. -/
theorem putT_range_floatCodes (t : Bool) (old : VReg) {n : Nat} {on : Nat → Bool} {p : BitVec 16} (r : Nat → Nat)
    (hp : ∀ j < countT t, floatOn t p j = (decide (j < n) && on j)) :
    putT t old ((List.range n).map (fun j => if on j then some (r j) else none)) = floatCodes t p old r := by
  rw [putT_range, floatCodes]
  congr 1
  funext i
  have hi := hp (elemOf t i) (elemOf_lt i.isLt)
  have he : (if t then i.val / 2 else i.val) = elemOf t i := rfl
  rw [he, hi]
  cases t <;> simp [elemOf, laneCode]

/-- Flags of the elements below n that `on` names, in one fold. -/
theorem foldl_range_flags {n m : Nat} (hn : n ≤ m) {on on' : Nat → Bool} (h : ∀ j < m, on' j = (decide (j < n) && on j)) (r : Nat → Nat) :
    (List.range n).foldl (fun acc j => if on j then acc ||| r j else acc) 0 = ((List.range m).filter on').foldl (fun acc j => acc ||| r j) 0 := by
  obtain ⟨k, rfl⟩ := Nat.exists_eq_add_of_le hn
  have low : (List.range n).filter on' = (List.range n).filter on :=
    List.filter_congr fun j hj => by simp [h j (by have := List.mem_range.1 hj; omega), List.mem_range.1 hj]
  have high : ((List.range k).map (n + ·)).filter on' = [] := List.filter_eq_nil_iff.2 fun j hj => by
    obtain ⟨i, hi, rfl⟩ := List.mem_map.1 hj
    simp [h (n + i) (by have := List.mem_range.1 hi; omega)]
  rw [List.range_add, List.filter_append, low, high, List.append_nil, List.foldl_filter]

theorem foldl_onT_flags (t : Bool) (p : BitVec 16) (r : Nat → Nat) :
    (List.range (countT t)).foldl (fun acc j => if onT t p j then acc ||| r j else acc) 0 = floatFlags t p r := by
  rw [floatFlags, List.foldl_filter]
  simp only [onT_eq]
  rfl

/-- The results of the enabled lanes are written, and their flags raised (R320, R324). -/
theorem putResults_eq (t : Bool) (s : State) (p : PReg) (a : VRegN) (r : Nat → Nat × Nat) : putResults t s p a r = floatLanes t s p a r := by
  have hcodes := putT_range_floatCodes t (rV s a) (n := countT t) (on := onT t (rP s p)) (p := rP s p) (fun j => (r j).1)
    (fun j hj => by simp [hj, onT_eq])
  have hopt (o : Bool) (x : Nat × Nat) : (if o then some x else none).map (·.1) = if o then some x.1 else none := by cases o <;> rfl
  simp only [putResults, floatLanes, List.map_map, Function.comp_def, hopt, hcodes, List.foldl_map]
  congr 1
  rw [← foldl_onT_flags]
  congr 1
  funext acc j
  cases onT t (rP s p) j <;> rfl

/-! ### Issue (R39, R279) -/

section Issue
variable {s : State} (h : Solo s) {t : Bool} (hd : DoubleReady s t)
include hd

theorem lacksExt_gateD (i : Instr) : lacksExt s (gateD i t) = false := by
  cases t
  · simp [lacksExt, gateD, baseGate]
  · simp [lacksExt, gateD, baseGate, (hd rfl).2]

theorem gateD_feats (i : Instr) : (gateD i t).feats.any (fun b => !featureFor s (ctxId s) b) = false := by
  cases t
  · rfl
  · simp [gateD, (hd rfl).1]

include h

/-- A form of either width issues where binary64 may. -/
theorem issue_gateD (i : Instr) {body : State → Res} {u : State} (hb : body s = .ok u) : issue (gateD i t) body s = .next (after 4 u) := by
  have hpass := gated_pass body (g := gateD i t) (by cases t <;> simp [gateD, baseGate]) (gateD_feats hd i) (lacksExt_gateD hd i)
    (.inl (by cases t <;> rfl))
  rw [issue_solo h, hpass, hb, finish_ok]
  cases t <;> rfl

/-- The X128 forms need feature bit 5 besides (R39). -/
theorem issue_gateX (h5 : featureFor s (ctxId s) 5 = true) (i : Instr) {body : State → Res} {u : State} (hb : body s = .ok u) :
    issue (gateX i t) body s = .next (after 4 u) := by
  have hfeats : (gateX i t).feats.any (fun b => !featureFor s (ctxId s) b) = false := by
    cases t
    · simp [gateX, h5]
    · simp [gateX, h5, (hd rfl).1]
  have hpass := gated_pass body (g := gateX i t) (by cases t <;> simp [gateX, gateD, baseGate]) hfeats (lacksExt_gateD hd i)
    (.inl (by cases t <;> rfl))
  rw [issue_solo h, hpass, hb, finish_ok]
  cases t <;> rfl

/-- A floating operation: each enabled lane receives the operation's code, and raises its flags. -/
theorem vflt_lanes (i : Instr) (p : PReg) (a b : VRegN) (c : State → Nat → Nat) (f : Fmt → Nat → Nat → Nat → Nat × Nat) :
    vflt i t p a b c f s =
      .next (after 4 (floatLanes t s p a (fun j => f (fmtT t) (laneT t (rV s b) j) (c s j) (laneT t (rV s a) j)))) :=
  issue_gateD h hd i (congrArg Res.ok (putResults_eq ..))

end Issue

end Sys2Proof.Machine
end

section
/-!
SUPPORT. Bits of a predicate and the sign bit of a code (R320, R324): compares of floats, and VFNEG.
-/

namespace Sys2Proof.Machine

/-- A fold of distinct powers of two has the bits that it was given. -/
theorem foldl_bits (f : Nat → Bool) (n : Nat) :
    (List.range n).foldl (fun acc i => acc + (if f i then 2 ^ i else 0)) 0 < 2 ^ n ∧
      ∀ l, ((List.range n).foldl (fun acc i => acc + (if f i then 2 ^ i else 0)) 0).testBit l = (decide (l < n) && f l) := by
  induction n with
  | zero => simp
  | succ n ih =>
    obtain ⟨hlt, hbits⟩ := ih
    rw [List.range_succ, List.foldl_append]
    simp only [List.foldl_cons, List.foldl_nil]
    generalize (List.range n).foldl _ 0 = x at *
    cases hf : f n with
    | false =>
      refine ⟨by simp [pow_succ]; omega, fun l => ?_⟩
      rcases Nat.lt_trichotomy l n with hl | rfl | hl
      · simp [hbits, hl, Nat.lt_succ_of_lt hl]
      · simp [hbits, hf]
      · simp [hbits, Nat.not_lt.2 hl.le, Nat.not_lt.2 hl]
    | true =>
      refine ⟨by simp [pow_succ]; omega, fun l => ?_⟩
      rw [if_pos rfl, Nat.add_comm]
      rcases Nat.lt_trichotomy l n with hl | rfl | hl
      · simp [Nat.testBit_two_pow_add_gt hl, hbits, hl, Nat.lt_succ_of_lt hl]
      · simp [Nat.testBit_two_pow_add_eq, hbits, hf]
      · have hle : 2 ^ n + x < 2 ^ l := lt_of_lt_of_le (by rw [pow_succ]; omega) (Nat.pow_le_pow_right two_pos hl)
        simp [Nat.testBit_lt_two_pow hle, Nat.not_lt.2 hl]

/-- The predicate's bits are those that it is made of. -/
theorem predOf_getLsbD (f : Nat → Bool) {l : Nat} (hl : l < 16) : (predOf f).getLsbD l = f l := by
  rw [predOf, BitVec.getLsbD_ofNat, (foldl_bits f 16).2 l]
  simp [hl]

/-- Changing the top bit of a code takes it away or adds it. -/
theorem xor_top {x k : Nat} (hx : x < 2 * 2 ^ k) : x ^^^ 2 ^ k = if x / 2 ^ k % 2 = 1 then x - 2 ^ k else x + 2 ^ k := by
  have add (y : Nat) (hy : y < 2 ^ k) : y ^^^ 2 ^ k = y + 2 ^ k := by
    refine Nat.eq_of_testBit_eq fun i => ?_
    rw [Nat.testBit_xor, Nat.testBit_two_pow, Nat.add_comm]
    rcases Nat.lt_trichotomy i k with hi | rfl | hi
    · simp [Nat.testBit_two_pow_add_gt hi, Nat.ne_of_gt hi]
    · simp [Nat.testBit_two_pow_add_eq]
    · have hle : 2 ^ k + y < 2 ^ i := lt_of_lt_of_le (by rw [pow_succ]; omega) (Nat.pow_le_pow_right two_pos hi)
      simp [Nat.testBit_lt_two_pow hle, Nat.testBit_lt_two_pow (show y < 2 ^ i by omega), Nat.ne_of_lt hi]
  rcases Nat.lt_or_ge x (2 ^ k) with h | h
  · simp [add x h, Nat.div_eq_of_lt h]
  · have hq : x / 2 ^ k = 1 := Nat.div_eq_of_lt_le (by omega) (by omega)
    have hback := add (x - 2 ^ k) (by omega)
    rw [Nat.sub_add_cancel h] at hback
    rw [hq, if_pos rfl]
    calc x ^^^ 2 ^ k = x - 2 ^ k ^^^ 2 ^ k ^^^ 2 ^ k := by rw [hback]
      _ = x - 2 ^ k := by rw [Nat.xor_assoc, Nat.xor_self, Nat.xor_zero]

theorem predOf_congr {f g : Nat → Bool} (h : ∀ l < 16, f l = g l) : predOf f = predOf g :=
  BitVec.eq_of_getLsbD_eq fun l hl => by rw [predOf_getLsbD f hl, predOf_getLsbD g hl, h l hl]

/-- A compare of two codes answers 0 where one is NaN, with invalid but for quiet NaNs where `equal` says so (R324). -/
theorem compare_lane (f : Fmt) (x y : Nat) (equal : Bool) (g : Ordering → Bool) :
    (if f.decode x = .nan || f.decode y = .nan then (false, if equal then sigFlag f [x, y] else fInvalid)
      else (g (xcmp (f.decode x) (f.decode y)), 0)) =
    (!(f.decode x == .nan || f.decode y == .nan) && g (xcmp (f.decode x) (f.decode y)),
      if (f.decode x == .nan || f.decode y == .nan) && (!equal || f.signalling x || f.signalling y) then 16 else 0) := by
  have hno : (f.decode x == .nan || f.decode y == .nan) = (decide (f.decode x = .nan) || decide (f.decode y = .nan)) := by
    rw [beq_eq_decide, beq_eq_decide]
  rw [hno]
  cases decide (f.decode x = .nan) || decide (f.decode y = .nan)
  · rfl
  · cases equal <;> simp [sigFlag, fInvalid]

section Compare
variable {s : State} (h : Solo s) {t : Bool} (hd : DoubleReady s t)
include h hd

/-- A floating compare: an enabled lane of two numbers has the answer, an unordered one 0; an unordered one raises invalid, but for quiet
NaNs where `equal` says so. -/
theorem vfcmp_tests (i : Instr) (p q : PReg) (b c : VRegN) (equal : Bool) (g : Ordering → Bool) :
    let f := fmtT t
    let x : Nat → Nat := laneT t (rV s b)
    let y : Nat → Nat := laneT t (rV s c)
    let no : Nat → Bool := fun j => f.decode (x j) == .nan || f.decode (y j) == .nan
    ∃ r, vfcmp i t p q b c equal g s = .next (after 4 (raiseFlags (wP s q r) (floatFlags t (rP s p) (fun j =>
        if no j && (!equal || f.signalling (x j) || f.signalling (y j)) then 16 else 0)))) ∧
      ∀ l < 16, r.getLsbD l = (floatOn t (rP s p) (elemOf t l) && !no (elemOf t l) &&
        g (xcmp (f.decode (x (elemOf t l))) (f.decode (y (elemOf t l))))) := by
  intro f x y no
  refine ⟨_, issue_gateD h hd i (congrArg Res.ok ?_), fun l hl => predOf_getLsbD _ hl⟩
  simp only [compare_lane]
  congr 1
  · congr 1
    refine predOf_congr fun l hl => ?_
    have hj : (if t then l / 2 else l) < countT t := elemOf_lt hl
    simp only [List.getD_eq_getElem?_getD, List.getElem?_map, List.getElem?_range hj, Option.map_some, Option.getD_some, onT_eq]
    change _ = (floatOn t (rP s p) (if t then l / 2 else l) && _ && _)
    cases floatOn t (rP s p) (if t then l / 2 else l) <;> rfl
  · rw [List.foldl_map, ← foldl_onT_flags]
    congr 1
    funext acc j
    cases onT t (rP s p) j
    · simp
    · rfl

end Compare

/-! ### The operations by name -/

section Named
variable (s : State) (t : Bool) (p q : PReg) (a b c : VRegN) (k : SReg)

theorem exec_vfadd : exec (.vfadd t p a b c) s =
    vflt (.vfadd t p a b c) t p a b (fun s => laneT t (rV s c)) (fun f x y _ => addF f x y) s := rfl
theorem exec_vfsub : exec (.vfsub t p a b c) s = vflt (.vfsub t p a b c) t p a b (fun s => laneT t (rV s c))
    (fun f x y _ => withSig f [x, y] (f.sum [f.decode x, (f.decode y).neg])) s := rfl
theorem exec_vfmul : exec (.vfmul t p a b c) s =
    vflt (.vfmul t p a b c) t p a b (fun s => laneT t (rV s c)) (fun f x y _ => mulF f x y) s := rfl
theorem exec_vfma : exec (.vfma t p a b c) s =
    vflt (.vfma t p a b c) t p a b (fun s => laneT t (rV s c)) (fun f x y z => fmaF false false f x y z) s := rfl
theorem exec_vfms : exec (.vfms t p a b c) s =
    vflt (.vfms t p a b c) t p a b (fun s => laneT t (rV s c)) (fun f x y z => fmaF false true f x y z) s := rfl
theorem exec_vfnma : exec (.vfnma t p a b c) s =
    vflt (.vfnma t p a b c) t p a b (fun s => laneT t (rV s c)) (fun f x y z => fmaF true false f x y z) s := rfl
theorem exec_vfdiv : exec (.vfdiv t p a b c) s = vflt (.vfdiv t p a b c) t p a b (fun s => laneT t (rV s c))
    (fun f x y _ => withSig f [x, y] (f.div (f.decode x) (f.decode y))) s := rfl
theorem exec_vfsqrt : exec (.vfsqrt t p a b) s =
    vflt (.vfsqrt t p a b) t p a b (fun _ _ => 0) (fun f x _ _ => withSig f [x] (f.sqrt (f.decode x))) s := rfl
theorem exec_vfmin : exec (.vfmin t p a b c) s =
    vflt (.vfmin t p a b c) t p a b (fun s => laneT t (rV s c)) (fun f x y _ => pickF false f x y) s := rfl
theorem exec_vfmax : exec (.vfmax t p a b c) s =
    vflt (.vfmax t p a b c) t p a b (fun s => laneT t (rV s c)) (fun f x y _ => pickF true f x y) s := rfl
theorem exec_vfabs : exec (.vfabs t p a b) s =
    vflt (.vfabs t p a b) t p a b (fun _ _ => 0) (fun f x _ _ => (x % f.signBit, 0)) s := rfl
theorem exec_vfneg : exec (.vfneg t p a b) s =
    vflt (.vfneg t p a b) t p a b (fun _ _ => 0) (fun f x _ _ => (x ^^^ f.signBit, 0)) s := rfl
theorem exec_vfadds : exec (.vfadds t p a b k) s =
    vflt (.vfadds t p a b k) t p a b (fun s _ => scalarT t (rS s k)) (fun f x y _ => addF f x y) s := rfl
theorem exec_vfmuls : exec (.vfmuls t p a b k) s =
    vflt (.vfmuls t p a b k) t p a b (fun s _ => scalarT t (rS s k)) (fun f x y _ => mulF f x y) s := rfl
theorem exec_vfceq : exec (.vfceq t p q b c) s = vfcmp (.vfceq t p q b c) t p q b c true (fun o => o == .eq) s := rfl
theorem exec_vfclt : exec (.vfclt t p q b c) s = vfcmp (.vfclt t p q b c) t p q b c false (fun o => o == .lt) s := rfl
theorem exec_vfcle : exec (.vfcle t p q b c) s = vfcmp (.vfcle t p q b c) t p q b c false (fun o => o != .gt) s := rfl

end Named

end Sys2Proof.Machine

namespace Sys2Proof
open Machine

/-- Settles O29: every operation is one use of `vflt_lanes`, every compare one of `vfcmp_tests`; VFNEG's bit operation is `xor_top`. -/
theorem vectorFloats : Obligations.VectorFloats := by
  intro s t p q a b c k h hd f x y z w top into quiet tests
  have htop : top = (fmtT t).signBit := by cases t <;> rfl
  have operation (i : Instr) (d : State → Nat → Nat) (g : Fmt → Nat → Nat → Nat → Nat × Nat) :
      vflt i t p a b d g s = into (fun j => g f (x j) (d s j) (z j)) := vflt_lanes h hd i p a b d g
  have compared {i : Instr} {equal : Bool} {g : Ordering → Bool} (hi : exec i s = vfcmp i t p q b c equal g s) : tests i equal g := by
    obtain ⟨r, hr, hl⟩ := vfcmp_tests h hd i p q b c equal g
    exact ⟨r, hi.trans hr, hl⟩
  have hneg (j : Nat) : x j ^^^ (fmtT t).signBit = if x j / top % 2 = 1 then x j - top else x j + top := by
    rw [htop]
    exact xor_top (laneT_lt t (rV s b) j)
  refine ⟨(exec_vfadd ..).trans (operation ..), (exec_vfsub ..).trans (operation ..), (exec_vfmul ..).trans (operation ..),
    (exec_vfma ..).trans (operation ..), (exec_vfms ..).trans (operation ..), (exec_vfnma ..).trans (operation ..),
    (exec_vfdiv ..).trans (operation ..), (exec_vfsqrt ..).trans (operation ..), (exec_vfmin ..).trans (operation ..),
    (exec_vfmax ..).trans (operation ..), ?_, ?_, (exec_vfadds ..).trans (operation ..), (exec_vfmuls ..).trans (operation ..),
    compared (exec_vfceq ..), compared (exec_vfclt ..), compared (exec_vfcle ..)⟩
  · rw [htop]
    exact (exec_vfabs ..).trans (operation ..)
  · exact (exec_vfneg ..).trans ((operation ..).trans (congrArg into (funext fun j => congrArg (·, 0) (hneg j))))

end Sys2Proof
end

section
/-!
SUPPORT. The conversions of the vector forms, and X128 (R208-R210, R335-R338).
-/

namespace Sys2Proof.Machine

/-! ### Integers of a lane (R335, R336) -/

/-- The value of two's complement bits. -/
theorem toInt_ofNat_of_lt {n v : Nat} (hn : 0 < n) (hv : v < 2 ^ n) :
    (BitVec.ofNat n v).toInt = if v < 2 ^ (n - 1) then (v : Int) else v - 2 ^ n := by
  have hp : 2 ^ n = 2 * 2 ^ (n - 1) := by rw [← pow_succ', Nat.sub_add_cancel hn]
  rw [BitVec.toInt_eq_toNat_cond, BitVec.toNat_ofNat, Nat.mod_eq_of_lt hv]
  by_cases h : v < 2 ^ (n - 1)
  · rw [if_pos h, if_pos (by omega)]
  · rw [if_neg h, if_neg (by omega)]
    push_cast
    rfl

theorem laneInt_eq (t : Bool) (v : VReg) (j : Nat) :
    let n : Nat := if t then 64 else 32
    laneInt t (laneT t v j) = if laneT t v j < 2 ^ (n - 1) then (laneT t v j : Int) else laneT t v j - 2 ^ n := by
  have hlt := laneT_lt t v j
  cases t
  · exact toInt_ofNat_of_lt (by norm_num) hlt
  · exact toInt_ofNat_of_lt (by norm_num) hlt

/-- A number goes to the nearest integer, ties to even, and saturates with invalid where a lane cannot hold it (R336). -/
theorem toIntT_fin (t : Bool) (m : Bool) (c d : Nat) (e : Int) :
    let n : Nat := if t then 64 else 32
    let r := roundInt m c d e
    toIntT t (.fin m c d e) = if r.1 < -2 ^ (n - 1) then (2 ^ (n - 1), 16) else if 2 ^ (n - 1) ≤ r.1 then (2 ^ (n - 1) - 1, 16)
      else ((r.1 % 2 ^ n).toNat, if r.2 then 1 else 0) := by
  intro n r
  have hn : (((2 ^ (n - 1) - 1 : Nat)) : Int) = 2 ^ (n - 1) - 1 := by push_cast [Nat.one_le_two_pow]; rfl
  have hunfold : toIntT t (.fin m c d e) = if r.1 > ((2 ^ (n - 1) - 1 : Nat) : Int) then (2 ^ (n - 1) - 1, 16)
      else if r.1 < -((2 ^ (n - 1) - 1 : Nat) : Int) - 1 then (2 ^ (n - 1) - 1 + 1, 16)
      else ((r.1 % 2 ^ n).toNat, if r.2 then 1 else 0) := rfl
  rw [hunfold, hn, Nat.sub_add_cancel Nat.one_le_two_pow]
  generalize hz : (2 : Int) ^ (n - 1) = z
  have hz0 : 0 < z := by rw [← hz]; positivity
  by_cases hlo : r.1 < -z
  · rw [if_neg (by omega), if_pos (by omega), if_pos hlo]
  · by_cases hhi : z ≤ r.1
    · rw [if_pos (by omega), if_neg hlo, if_pos hhi]
    · rw [if_neg (by omega), if_neg (by omega), if_neg hlo, if_neg hhi]

/-- Infinities saturate with invalid (R336). -/
theorem toIntT_inf (t m : Bool) :
    let n : Nat := if t then 64 else 32
    toIntT t (.inf m) = (if m then 2 ^ (n - 1) else 2 ^ (n - 1) - 1, 16) := by
  cases t <;> rfl

/-! ### Results of the first elements -/

section Results
variable (n : Nat) (on : Nat → Bool) (r : Nat → Nat × Nat)

theorem map_codes : ((List.range n).map (fun j => if on j then some (r j) else none)).map (fun x => x.map (·.1)) =
    (List.range n).map (fun j => if on j then some (r j).1 else none) := by
  rw [List.map_map]
  congr 1
  funext j
  cases h : on j <;> simp [h]

theorem foldl_flags : ((List.range n).map (fun j => if on j then some (r j) else none)).foldl (fun fl x => fl ||| (x.map (·.2)).getD 0) 0 =
    (List.range n).foldl (fun acc j => if on j then acc ||| (r j).2 else acc) 0 := by
  rw [List.foldl_map]
  congr 1
  funext acc j
  cases on j <;> simp

end Results

/-! ### X128 (R208-R210) -/

theorem foldl_add_map {α : Type} (f : α → Int) (l : List α) (b : Int) : l.foldl (fun acc c => acc + f c) b = b + (l.map f).sum := by
  induction l generalizing b with
  | nil => simp
  | cons x l ih => rw [List.foldl_cons, ih, List.map_cons, List.sum_cons, add_assoc]

/-- VXACC adds the converted terms exactly, wraps, and raises the terms' flags, and xsat where the sum leaves the range (R210, R337). -/
theorem xaccStep_eq (l : Int) (old : Nat) (ts : List Xv) :
    let cs := ts.map (fun x => toX128 x l)
    let sum := x128Int old + (cs.map (fun c => x128Int c.1)).sum
    xaccStep l old ts =
      ((sum % 2 ^ 128).toNat, cs.foldl (fun g c => g ||| c.2) (if sum < -2 ^ 127 ∨ 2 ^ 127 ≤ sum then 32 else 0)) := by
  intro cs sum
  have hsum : cs.foldl (fun acc c => acc + x128Int c.1) (x128Int old) = sum := foldl_add_map _ cs _
  have hrange : (sum > 2 ^ 127 - 1 || sum < -(2 ^ 127)) = decide (sum < -2 ^ 127 ∨ 2 ^ 127 ≤ sum) := by
    rw [← Bool.decide_or]
    exact decide_eq_decide.2 (by omega)
  unfold xaccStep
  change (Prod.mk _ (cs.foldl _ (if (decide _ || decide _) = true then _ else _))) = _
  rw [hsum, hrange]
  simp only [decide_eq_true_eq]
  rfl

theorem xaccStep_lt (l : Int) (old : Nat) (ts : List Xv) : (xaccStep l old ts).1 < 2 ^ 128 := by
  have hmod (z : Int) : (z % 2 ^ 128).toNat < 2 ^ 128 := by omega
  exact hmod _

/-- A binary64 lane that has a result holds it. -/
theorem laneT_putT {old : VReg} {xs : List (Option Nat)} {k x : Nat} (hk : k < 8) (hx : xs.getD k none = some x) (hlt : x < 2 ^ 64) :
    laneT true (putT true old xs) k = x := by
  have part (i : Nat) (hi : i < 16) (he : elemOf true i = k) : lane (putT true old xs) i = laneCode true x i := by
    rw [putT_eq, lane, Vector.getElem?_eq_getElem hi, Option.getD_some, Vector.getElem_ofFn]
    change (Option.map (laneCode true · i) (xs.getD (elemOf true i) none)).getD old[i] = _
    rw [he, hx]
    rfl
  have low := part (2 * k) (by omega) (by simp [elemOf])
  have high := part (2 * k + 1) (by omega) (by simp [elemOf]; omega)
  simp only [laneT, low, high, laneCode, if_true, BitVec.toNat_ofNat]
  rw [if_pos (by omega), if_neg (by omega)]
  omega

/-- The X128 values written are those that the four groups give. -/
theorem xLane_putT (old : VReg) {r : Nat → Nat × Nat} (hr : ∀ j, (r j).1 < 2 ^ 128) {j : Nat} (hj : j < 4) :
    xLane (putT true old (((List.range 4).map r).flatMap (fun r => [some (r.1 % 2 ^ 64), some (r.1 / 2 ^ 64)]))) j = (r j).1 := by
  have hlt := hr j
  have low : (((List.range 4).map r).flatMap (fun r => [some (r.1 % 2 ^ 64), some (r.1 / 2 ^ 64)])).getD (2 * j) none =
      some ((r j).1 % 2 ^ 64) := by interval_cases j <;> rfl
  have high : (((List.range 4).map r).flatMap (fun r => [some (r.1 % 2 ^ 64), some (r.1 / 2 ^ 64)])).getD (2 * j + 1) none =
      some ((r j).1 / 2 ^ 64) := by interval_cases j <;> rfl
  rw [xLane, laneT_putT (by omega) low (by omega), laneT_putT (by omega) high (by omega)]
  omega

/-- The predicate bits of the elements that X128 values round to. -/
theorem floatOn_first (t : Bool) (p : BitVec 16) : ∀ j < countT t,
    floatOn t (if t then p &&& 0xFF else p &&& 0xF) j = (decide (j < 4) && onT t p j) := by
  intro j hj
  rw [onT_eq]
  cases t
  · have hmask : ∀ j < 16, (0xF#16).getLsbD j = decide (j < 4) := by decide
    simp [floatOn, hmask j hj, Bool.and_comm]
  · have hmask : ∀ j < 8, (0xFF#16).getLsbD (2 * j) = decide (j < 4) := by decide
    simp [floatOn, hmask j hj, Bool.and_comm]

end Sys2Proof.Machine
end

section
/-!
SUPPORT. What the number operations make of infinities, NaN and zeros (R188, R189, R199, R203), and the five IEEE-style formats.
-/

namespace Sys2Proof.Laws

open Sys2Proof Sys2Proof.Machine

/-- The widths of the five formats. -/
theorem format_widths : ∀ f ∈ [f64, f32, f16, bf16, a48], 2 ≤ f.ebits ∧ 0 < f.fbits ∧ f.fbits ≤ 60 := by decide

section Formats
variable (f : Fmt)

theorem div_zero (m : Bool) (a b : Nat) (e : Int) (n : Bool) (d : Nat) (g : Int) : f.div (.fin m a b e) (.fin n 0 d g) =
    if a = 0 then (f.nanCode, 16) else (f.infCode + if m != n then f.signBit else 0, 8) := by
  by_cases ha : a = 0 <;> simp [Fmt.div, Fmt.round, fInvalid, fDivide, ha]

theorem div_nan (x : Xv) : f.div .nan x = (f.nanCode, 0) ∧ f.div x .nan = (f.nanCode, 0) := by
  cases x <;> exact ⟨rfl, rfl⟩

theorem sqrt_negative (a : Nat) (e : Int) : f.sqrt (.fin true a 1 e) = if a = 0 then (f.signBit, 0) else (f.nanCode, 16) := by
  by_cases ha : a = 0 <;> simp [Fmt.sqrt, Fmt.round, fInvalid, ha]

end Formats

theorem xcmp_fin_inf (m : Bool) (a b : Nat) (e : Int) (n : Bool) :
    xcmp (.fin m a b e) (.inf n) = (if n then .gt else .lt) ∧ xcmp (.inf n) (.fin m a b e) = if n then .lt else .gt := by
  cases n <;> exact ⟨rfl, rfl⟩

theorem toX128_inf (m : Bool) (l : Int) : toX128 (.inf m) l = (if m then 2 ^ 127 else 2 ^ 127 - 1, 32) := by cases m <;> rfl

end Sys2Proof.Laws
end

section
/-!
SUPPORT. The conversions and the X128 forms as instructions (R335-R338).
-/

namespace Sys2Proof.Machine

section Named
variable (s : State) (t : Bool) (p : PReg) (a b : VRegN)

theorem exec_vcvtwf : exec (.vcvtwf t p a b) s =
    vflt (.vcvtwf t p a b) t p a b (fun _ _ => 0) (fun f x _ _ => f.round (Xv.ofInt (laneInt t x) 0)) s := rfl
theorem exec_vcvtfw : exec (.vcvtfw t p a b) s =
    vflt (.vcvtfw t p a b) t p a b (fun _ _ => 0) (fun f x _ _ => toIntT t (f.decode x)) s := rfl
theorem exec_vcvtfd : exec (.vcvtfd p a b) s = execVcvtfd p a b s := rfl
theorem exec_vcvtdf : exec (.vcvtdf p a b) s = execVcvtdf p a b s := rfl
theorem exec_vxacc : exec (.vxacc t p a b) s = execVxacc t p a b s := rfl
theorem exec_vxrnd : exec (.vxrnd t p a b) s = execVxrnd t p a b s := rfl

end Named

/-- The one operand of a conversion raises invalid where it is a signalling NaN (R188). -/
theorem withSig_one (f : Fmt) (c : Nat) (r : Nat × Nat) : withSig f [c] r = (r.1, r.2 ||| if f.signalling c then 16 else 0) := by
  simp [withSig, sigFlag, fInvalid]

section Conversions
variable {s : State} (h : Solo s) (p : PReg) (a b : VRegN)
include h

/-- VCVTFD rounds the binary32 code of each enabled lane once. -/
theorem execVcvtfd_lanes (hd : DoubleReady s true) : execVcvtfd p a b s = .next (after 4 (floatLanes true s p a (fun j =>
    withSig f32 [laneT false (rV s b) j] (f64.round (f32.decode (laneT false (rV s b) j)))))) :=
  issue_gateD h hd _ (congrArg Res.ok (putResults_eq ..))

/-- VCVTDF rounds the eight binary64 lanes into lanes 0 to 7, by predicate bits 0 to 7. -/
theorem execVcvtdf_lanes (hd : DoubleReady s true) :
    let r : Nat → Nat × Nat := fun j => withSig f64 [laneT true (rV s b) j] (f32.round (f64.decode (laneT true (rV s b) j)))
    execVcvtdf p a b s = .next (after 4 (raiseFlags (wV s a (Vector.ofFn (fun i =>
        if i.val < 8 ∧ (rP s p).getLsbD i.val then BitVec.ofNat 32 (r i.val).1 else (rV s a)[i])))
      (((List.range 8).filter (fun j => (rP s p).getLsbD j)).foldl (fun acc j => acc ||| (r j).2) 0))) := by
  intro r
  refine issue_gateD h hd _ (congrArg Res.ok ?_)
  simp only [bit_eq_getLsbD]
  rw [map_codes 8 (rP s p).getLsbD r, foldl_flags 8 (rP s p).getLsbD r, putT_range, List.foldl_filter]
  rfl

variable {t : Bool} (hd : DoubleReady s t) (h5 : featureFor s (ctxId s) 5 = true)
include hd h5

/-- VXACC adds to each X128 value the enabled lanes of its group (R337). -/
theorem execVxacc_sums :
    let l := x128L (regs s).x128l
    let per : Nat := if t then 2 else 4
    let terms : Nat → List (Nat × Nat) := fun j => ((List.range per).filter (fun k => floatOn t (rP s p) (per * j + k))).map
      (fun k => toX128 ((fmtT t).decode (laneT t (rV s b) (per * j + k))) l)
    let sum : Nat → Int := fun j => x128Int (xLane (rV s a) j) + ((terms j).map (fun c => x128Int c.1)).sum
    ∃ v, execVxacc t p a b s = .next (after 4 (raiseFlags (wV s a v) ((List.range 4).foldl (fun acc j => acc |||
        ((terms j).foldl (fun g c => g ||| c.2) (if sum j < -2 ^ 127 ∨ 2 ^ 127 ≤ sum j then 32 else 0))) 0))) ∧
      ∀ j < 4, xLane v j = (sum j % 2 ^ 128).toNat := by
  intro l per terms sum
  let group : Nat → Nat × Nat := fun j => xaccStep l (xLane (rV s a) j)
    (((List.range per).filter (fun k => onT t (rP s p) (per * j + k))).map (fun k => (fmtT t).decode (laneT t (rV s b) (per * j + k))))
  have hgroup (j : Nat) : group j = ((sum j % 2 ^ 128).toNat,
      (terms j).foldl (fun g c => g ||| c.2) (if sum j < -2 ^ 127 ∨ 2 ^ 127 ≤ sum j then 32 else 0)) := by
    simp only [group, xaccStep_eq, List.map_map, Function.comp_def, onT_eq, sum, terms]
  have hflags : ((List.range 4).map group).foldl (fun acc r => acc ||| r.2) 0 = (List.range 4).foldl (fun acc j => acc |||
      ((terms j).foldl (fun g c => g ||| c.2) (if sum j < -2 ^ 127 ∨ 2 ^ 127 ≤ sum j then 32 else 0))) 0 := by
    rw [List.foldl_map]
    simp only [hgroup]
  rw [← hflags]
  exact ⟨_, issue_gateX h hd h5 _ rfl,
    fun j hj => (xLane_putT (rV s a) (fun _ => xaccStep_lt ..) hj).trans (congrArg Prod.fst (hgroup j))⟩

/-- VXRND rounds each enabled X128 value once, into the first four lanes (R338). -/
theorem execVxrnd_lanes :
    let q : BitVec 16 := if t then rP s p &&& 0xFF else rP s p &&& 0xF
    let r : Nat → Nat × Nat := fun j => (fmtT t).round (x128Value (xLane (rV s b) j) (x128L (regs s).x128l))
    execVxrnd t p a b s = .next (after 4 (raiseFlags (wV s a (floatCodes t q (rV s a) (fun j => (r j).1)))
      (floatFlags t q (fun j => (r j).2)))) := by
  intro q r
  have hq := floatOn_first t (rP s p)
  refine issue_gateX h hd h5 _ (congrArg Res.ok ?_)
  have hcodes := putT_range_floatCodes t (rV s a) (fun j => (r j).1) hq
  have hflags := foldl_range_flags (show 4 ≤ countT t by cases t <;> decide) hq (fun j => (r j).2)
  change raiseFlags (wV s a (putT t (rV s a) (((List.range 4).map (fun j => if onT t (rP s p) j then some (r j) else none)).map _)))
    (((List.range 4).map (fun j => if onT t (rP s p) j then some (r j) else none)).foldl _ 0) = _
  rw [map_codes 4 (onT t (rP s p)) r, foldl_flags 4 (onT t (rP s p)) r, hcodes, hflags]
  rfl

end Conversions

end Sys2Proof.Machine

namespace Sys2Proof
open Machine Laws

/-- Settles O32: the numbers by what Laws/Numbers.lean says of decoding, rounding, sums, products, quotients, roots and comparisons, format
by format; the conversions by `vflt_lanes`, and the X128 forms by `execVxacc_sums` and `execVxrnd_lanes`. -/
theorem vectorConversions : Obligations.VectorConversions := by
  refine ⟨fun f hf => ?_, rfl, fun ts => ?_, fun m a b e n c d g hb hd => ?_, fun s t p a b h hd => ?_⟩
  · obtain ⟨he, hf0, hf60⟩ := format_widths f hf
    refine ⟨fun c hc => decode_real f hf0 c hc, rfl, rfl, fun _ => rfl, fun n a b e hb => round_rounded f he hf0 n a b e hb, fun _ => rfl,
      fun m a b e n c d g hb hd => ⟨div_rounded f he hf0 m a b e n c d g hb hd, ?_, rfl, rfl, rfl⟩, div_nan f,
      fun a e => ⟨sqrt_rounded f he hf0 hf60 a e, sqrt_negative f a e⟩, rfl, rfl, rfl⟩
    rintro rfl
    exact div_zero f m a b e n d g
  · obtain ⟨hnan, hbad, hinf⟩ := xsum_special ts
    exact ⟨hnan, hbad, hinf, xsum_finite ts⟩
  · obtain ⟨hlt, heq, hgt⟩ := xcmp_real (m := m) (a := a) (e := e) (n := n) (c := c) (g := g) hb hd
    obtain ⟨hless, hmore, hneg, hpos⟩ := pickNum_real (m := m) (a := a) (e := e) (n := n) (c := c) (g := g) hb hd
    exact ⟨⟨_, rfl⟩, real_mul m a b e n c d g, rfl, rfl, rfl, real_neg _, hlt, heq, hgt, (xcmp_fin_inf m a b e n).1,
      (xcmp_fin_inf n c d g m).2, hless, hmore, hneg, hpos, roundInt_spec m e hb, toX128_fin m a b e, fun l => ⟨toX128_inf m l, rfl⟩⟩
  · intro f n x sg quiet
    have hquiet (g : Fmt) (c : Nat) (r : Nat × Nat) : withSig g [c] r = quiet g c r := withSig_one g c r
    refine ⟨?_, ?_, fun hd => ⟨?_, ?_⟩, fun h5 => ⟨?_, (exec_vxrnd ..).trans (execVxrnd_lanes h p a b hd h5)⟩⟩
    · have hint (j : Nat) : laneInt t (x j) = sg (x j) := laneInt_eq t (rV s b) j
      rw [exec_vcvtwf, vflt_lanes h hd]
      simp only [← hint]
      rfl
    · rw [exec_vcvtfw, vflt_lanes h hd]
      refine congrArg (fun r => Host.Outcome.next (after 4 (floatLanes t s p a r))) (funext fun j => ?_)
      change toIntT t (f.decode (x j)) = _
      cases f.decode (x j) with
      | fin m c d e => exact toIntT_fin t m c d e
      | inf m => exact toIntT_inf t m
      | nan => rfl
      | bad => rfl
    · rw [exec_vcvtfd, execVcvtfd_lanes h p a b hd]
      simp only [hquiet]
      rfl
    · rw [exec_vcvtdf]
      exact (execVcvtdf_lanes h p a b hd).trans (by simp only [hquiet])
    · rw [exec_vxacc]
      exact execVxacc_sums h p a b hd h5

end Sys2Proof
end

section
/-!
SUPPORT. Instructions of the units that a clause's cores share (R29, R280): their issue on a compute core, and the activation once one has
changed a clause, completed or been blocked.
-/

namespace Sys2Proof.Machine

/-! ### Issue (R280) -/

/-- An instruction that names a shared unit runs its body on a compute core. -/
theorem issue_engine {s : State} (h : Solo s) (ha : isApp (runCore s) = false) (i : Instr) (body : State → Res) :
    issue (copyGate i) body s = .next (finish (copyGate i) (body s)) := by
  rw [issue_solo h, gated_pass body (by simp [ha]) rfl (by simp [lacksExt, copyGate, baseGate]) (.inl rfl)]

/-! ### The activation afterwards -/

section Ends
variable {s t : State} (h : Solo s) (hact : actAt t t.cur = actAt s s.cur)
include h hact

/-- A scalar register written, and pc moved on, past what leaves the activation alone. -/
theorem act_after_wS (n : Nat) (i : SReg) (w : Word) :
    act (after n (wS t i w)) = { (act s).setS i w with pc := (act s).pc + BitVec.ofNat 64 n, wait := none } := by
  have hsome : (actAt t t.cur).isSome = true := hact ▸ h.1
  have hs : act t = act s := by simp only [act, hact]
  rw [after, wS, modAct_setAct hsome, act_setAct hsome, hs, ((act s).setS_rest i w).1]

/-- An instruction that is blocked keeps its activation, with the wait. -/
theorem act_blocked (w : Wait) : act (blocked t w) = { act s with wait := some w } := by
  have hsome : (actAt t t.cur).isSome = true := hact ▸ h.1
  have hs : act t = act s := by simp only [act, hact]
  rw [blocked, modAct, act_setAct hsome, hs]

end Ends

theorem clauseOf_congr {s t : State} (h : t.clauses = s.clauses) (c : Nat) : clauseOf t c = clauseOf s c := by rw [clauseOf, clauseOf, h]

@[simp] theorem clauseOf_after (n : Nat) (s : State) (c : Nat) : clauseOf (after n s) c = clauseOf s c := clauseOf_congr (modAct_clauses s _) c
@[simp] theorem clauseOf_wS (s : State) (i : SReg) (w : Word) (c : Nat) : clauseOf (wS s i w) c = clauseOf s c := clauseOf_congr (wS_clauses s i w) c
@[simp] theorem clauseOf_blocked (s : State) (w : Wait) (c : Nat) : clauseOf (blocked s w) c = clauseOf s c := clauseOf_congr (modAct_clauses s _) c

/-- A change of a clause leaves the activations alone. -/
theorem actAt_modClause (s : State) (c : Nat) (f : Clause → Clause) (d : Cur) : actAt (modClause s c f) d = actAt s d := actAt_congr rfl d

/-- What the first element that meets another test is once an element is replaced. -/
theorem find_replaceFirst_ne {α : Type} {p q : α → Bool} {f : α → α} (hf : ∀ x, p x = true → q x = false ∧ q (f x) = false) (l : List α) :
    (replaceFirst p f l).find? q = l.find? q := by
  induction l with
  | nil => rfl
  | cons x r ih =>
    by_cases hp : p x = true
    · simp [replaceFirst, hp, hf x hp]
    · simp only [replaceFirst, hp, Bool.false_eq_true, if_false, List.find?_cons, ih]

end Sys2Proof.Machine
end

section
/-!
SUPPORT. The copy unit's instructions (R223, R224, R226-R228, R362-R365).
-/

namespace Sys2Proof.Machine

/-! ### A kick of the copy unit (R224, R364) -/

/-- Why a copy, or a sort, of a shadow set is refused. -/
def kickRefusal (r : List Word) : Option Nat → Nat
  | none => copyRefusal r
  | some b => sortRefusal r b

/-- The transfer of the shadow set that a kick starts, under an id and with a promise (R224). -/
def newCopy (s : State) (sort : Option Nat) (id p : Nat) : CopyJob :=
  ⟨id, home s, ctxId s, copyRegs s, sort, p, 0, none, false, false⟩

/-- The state once a transfer is queued: its id is no longer known as a past one's (R363). -/
def copyQueued (s : State) (j : CopyJob) : State :=
  modClause (nextFree s) (clauseOfCore (home s)) (fun c => { c with
    copies := c.copies ++ [j]
    copySeq := c.copySeq + 1
    copyDone := c.copyDone.filter (fun d => d.1 != j.id)
    cancelled := c.cancelled.filter (fun d => d.1 != j.id) })

/-- What a kick of the copy unit comes to. -/
theorem copyGo_eq (sort : Option Nat) (a : SReg) (s : State) :
    copyGo sort a s =
      if !released s then .stall s (waitOr s 0 0)
      else if kickRefusal (copyRegs s) sort ≠ 0 then .ok (wS s a (BitVec.ofNat 64 (kickRefusal (copyRegs s) sort * 2 ^ 16)))
      else if 64 ≤ (clauseOf s (clauseOfCore (home s))).copies.length then .stall s (waitOr s 0 0)
      else
        let id := freeId (clauseOf s (clauseOfCore (home s)))
        .ok (wS (copyQueued s (newCopy s sort id (newPromise s))) a (BitVec.ofNat 64 (newPromise s % 2 ^ 48 * 2 ^ 16 + id))) := by
  cases sort <;> simp only [copyGo, kickRefusal, newCopy, copyQueued] <;> rfl

section Kick
variable {s : State} {sort : Option Nat} (a : SReg) (hr : released s = true)
include hr

theorem copyGo_queues (hk : kickRefusal (copyRegs s) sort = 0) (hroom : (clauseOf s (clauseOfCore (home s))).copies.length < 64) :
    ∃ id p, copyGo sort a s = .ok (wS (copyQueued s (newCopy s sort id p)) a (BitVec.ofNat 64 (p % 2 ^ 48 * 2 ^ 16 + id))) := by
  refine ⟨freeId (clauseOf s (clauseOfCore (home s))), newPromise s, (copyGo_eq sort a s).trans ?_⟩
  rw [hr, if_neg (by decide), if_neg (by simp [hk]), if_neg (Nat.not_le.2 hroom)]

theorem copyGo_refuses (hk : kickRefusal (copyRegs s) sort ≠ 0) :
    copyGo sort a s = .ok (wS s a (BitVec.ofNat 64 (kickRefusal (copyRegs s) sort * 2 ^ 16))) := by
  simp [copyGo_eq, hr, hk]

end Kick

/-- The clause's transfers, and the activation, once a kick has completed. -/
theorem copyQueued_completes {s : State} (h : Solo s) (a : SReg) (w : Word) (j : CopyJob) :
    (clauseOf (after 4 (wS (copyQueued s j) a w)) (clauseOfCore (home s))).copies = (clauseOf s (clauseOfCore (home s))).copies ++ [j] ∧
      act (after 4 (wS (copyQueued s j) a w)) = { (act s).setS a w with pc := (act s).pc + 4, wait := none } := by
  refine ⟨?_, act_after_wS (t := copyQueued s j) h (actAt_congr rfl _) 4 a w⟩
  simp only [copyQueued, clauseOf_after, clauseOf_wS, clauseOf_modClause_self]
  rfl

/-- A read of CR.CPGO on a compute core kicks the copy unit. -/
theorem exec_crd_cpgo {s u : State} (h : Solo s) (ha : isApp (runCore s) = false) {a : SReg} (hk : copyGo none a s = .ok u) :
    exec (.crd a 0x01F) s = .next (after 4 u) := by
  have hbody (w : Word) : crdBody w a 0x01F s = .ok u := by simp [crdBody, crPrivileged, ha, hk]
  have hexec : exec (.crd a 0x01F) s = .next (finish (baseGate (.crd a 0x01F)) (crdBody _ a 0x01F s)) := issue_base h _ _
  rw [hexec, hbody]
  rfl

/-- The event reads CR.CPGO as CRD does. -/
theorem exec_cpgoRead (a : SReg) (s : State) : exec (.cpgoRead a) s = exec (.crd a 0x01F) s := rfl

/-! ### The transfer that an instruction names (R363) -/

/-- The named transfer is in flight, under its own id. -/
theorem copyOf_named {s : State} {x : Word} {j : CopyJob} (hj : namedCopy s x = some j) : copyOf s (clauseOfCore (home s)) j.id = some j := by
  unfold namedCopy at hj
  split at hj
  next k hk =>
    obtain rfl : k = j := Option.some.inj (Option.ite_none_right_eq_some.1 hj).2
    have hid : k.id = bits x 15 0 := by simpa using List.find?_some hk
    rw [hid, hk]
  next => cases hj

theorem copyOf_modCopy_self (s : State) (cl id : Nat) (f : CopyJob → CopyJob) (hf : ∀ j, (f j).id = j.id) :
    copyOf (modCopy s cl id f) cl id = (copyOf s cl id).map f := by
  simp only [copyOf, modCopy, clauseOf_modClause_self]
  exact find_replaceFirst _ f (fun j hj => by simpa [hf] using hj) _

theorem copyOf_modCopy_ne (s : State) (cl : Nat) {id i : Nat} (f : CopyJob → CopyJob) (hf : ∀ j, (f j).id = j.id) (hi : i ≠ id) :
    copyOf (modCopy s cl id f) cl i = copyOf s cl i := by
  simp only [copyOf, modCopy, clauseOf_modClause_self]
  refine find_replaceFirst_ne (fun j hj => ?_) _
  have hid : j.id = id := by simpa using hj
  simp [hf, hid, Ne.symm hi]

/-- A transfer once CPCANCEL has named it: too late if its mailbox store has been made (R363). -/
def CopyJob.marked (j : CopyJob) : CopyJob := { j with cancel := j.cancel || !j.mailed }

@[simp] theorem copyOf_blocked (s : State) (w : Wait) (cl id : Nat) : copyOf (blocked s w) cl id = copyOf s cl id := by simp [copyOf]

/-! ### The instructions -/

section Instructions
variable {s : State} (h : Solo s) (ha : isApp (runCore s) = false) {a b : SReg}
include h ha

theorem exec_cpsort {u : State} {k : BitVec 4} (hk : copyGo (some (k.toNat + 1)) a s = .ok u) : exec (.cpsort a k) s = .next (after 4 u) :=
  (issue_engine h ha _ _).trans (by rw [hk]; rfl)

section Unnamed
variable (hj : namedCopy s (rS s b) = none)
include hj

theorem exec_cpwait_past : exec (.cpwait b) s = .next (after 4 (acquire s)) :=
  (issue_engine h ha _ _).trans (by simp only [hj]; rfl)

theorem exec_cpcancel_past : exec (.cpcancel b) s = .next (after 4 s) :=
  (issue_engine h ha _ _).trans (by simp only [hj]; rfl)

theorem exec_cpstat_past : exec (.cpstat a b) s = .next (after 4
    (if (clauseOf s (clauseOfCore (home s))).cancelled.contains ((rS s b).toNat % 65536, home s * 4096 + ctxId s) then wS s a 3
      else wS (acquire s) a 1)) := by
  refine (issue_engine h ha _ _).trans ?_
  simp only [hj, bits_low, Nat.reduceAdd, Nat.reducePow]
  by_cases hc : (clauseOf s (clauseOfCore (home s))).cancelled.contains ((rS s b).toNat % 65536, home s * 4096 + ctxId s) = true
  · rw [if_pos hc, if_pos hc]
    rfl
  · rw [if_neg hc, if_neg hc]
    rfl

end Unnamed

section Active
variable {j : CopyJob} (hj : namedCopy s (rS s b) = some j)
include hj

theorem exec_cpstat_active : exec (.cpstat a b) s =
    .next (after 4 (wS s a (BitVec.ofNat 64 (j.promise % 2 ^ 48 * 2 ^ 16 + if j.held.isSome then 2 else 0)))) :=
  (issue_engine h ha _ _).trans (by simp only [hj]; rfl)

theorem exec_cpwait_early (hf : FirstIssue s) (hp : s.cyc < j.promise) :
    exec (.cpwait b) s = .next (blocked s (waiting s 4 (BitVec.ofNat 64 j.id))) :=
  (issue_engine h ha _ _).trans (by simp only [hj, Nat.not_le.2 hp, if_false, waitOr_first hf]; rfl)

theorem exec_cpwait_held (hp : j.promise ≤ s.cyc) (hh : j.held.isSome = true) :
    exec (.cpwait b) s = .next (trapped s .promise (BitVec.ofNat 64 j.id)) :=
  (issue_engine h ha _ _).trans (by simp only [hj, hp, hh, if_true]; rfl)

theorem exec_cpcancel_active (hf : FirstIssue s) : exec (.cpcancel b) s =
    .next (blocked (modCopy s (clauseOfCore (home s)) j.id CopyJob.marked) (waiting s 4 (BitVec.ofNat 64 j.id))) :=
  (issue_engine h ha _ _).trans (by simp only [hj, waitOr_first hf]; rfl)

end Active

theorem exec_gbind (sz : BitVec 2) (w : BitVec 4) (hx : (rS s b).toNat % 4 = 0) (hn : (rE s 1).toNat < 2 ^ 32) :
    exec (.gbind sz w b) s = .next (after 4 (modCtx s (home s) (ctxId s) (fun c => { c with
      binds := tset c.binds w.toNat ⟨rS s b, rE s 0, 2 ^ sz.toNat, (rE s 1).toNat⟩ }))) := by
  have hb : bits (rE s 1) 63 32 = 0 := by rw [bits_high]; exact Nat.div_eq_of_lt hn
  exact (issue_engine h ha _ _).trans (by simp only [hx, hb, ne_eq, not_true_eq_false, if_false]; rfl)

theorem exec_gunbind (w : BitVec 4) : exec (.gunbind w) s =
    .next (after 4 (modCtx s (home s) (ctxId s) (fun c => { c with binds := tdel c.binds w.toNat }))) := issue_engine h ha _ _

end Instructions

/-- A length field past its 56 bits is the first refusal (R224). -/
theorem copyRefusal_long {src dst len str flags hnd swz : Word} (hl : 2 ^ 56 ≤ len.toNat) :
    copyRefusal [src, dst, len, str, flags, hnd, swz] = 1 := by
  have hb : bits len 63 56 ≠ 0 := by rw [bits_high]; omega
  exact if_pos (.inl hb)

end Sys2Proof.Machine

namespace Sys2Proof
open Machine

/-- Settles O24: a kick queues its transfer (`copyQueued_completes`) or is refused; the others by the transfer that they name. -/
theorem copyInstructions : Obligations.CopyInstructions := by
  intro s a b h ha cl r shadow went
  have queues (i : Instr) (sort : Option Nat) (hexec : ∀ u, copyGo sort a s = .ok u → exec i s = .next (after 4 u))
      (hr : released s = true) (hk : kickRefusal shadow sort = 0) (hroom : (clauseOf s cl).copies.length < 64) :
      ∃ t, exec i s = .next t ∧ went sort t := by
    obtain ⟨id, p, hgo⟩ := copyGo_queues a hr hk hroom
    exact ⟨_, hexec _ hgo, id, p, copyQueued_completes h a _ _⟩
  have cpgo (u : State) (hk : copyGo none a s = .ok u) : exec (.cpgoRead a) s = .next (after 4 u) :=
    (exec_cpgoRead a s).trans (exec_crd_cpgo h ha hk)
  refine ⟨fun hr hk hroom => ⟨queues _ none (fun _ => exec_crd_cpgo h ha) hr hk hroom, queues _ none cpgo hr hk hroom⟩,
    fun k hr hk hroom => queues _ (some (k.toNat + 1)) (fun _ => exec_cpsort h ha) hr hk hroom,
    fun hr hk => cpgo _ (copyGo_refuses (sort := none) a hr hk),
    copyRefusal_long, fun hj => ⟨exec_cpwait_past h ha hj, exec_cpcancel_past h ha hj, fun hc => ?_, fun hc => ?_⟩,
    fun j hj => ⟨exec_cpstat_active h ha hj, exec_cpwait_early h ha hj, exec_cpwait_held h ha hj, fun hf => ?_⟩,
    fun sz w => exec_gbind h ha sz w, exec_gunbind h ha⟩
  · rw [exec_cpstat_past h ha hj, hc]
    rfl
  · rw [exec_cpstat_past h ha hj, hc]
    rfl
  · refine ⟨_, exec_cpcancel_active h ha hj hf, act_blocked h (actAt_modClause ..) _, ?_, fun i hi => ?_⟩
    · rw [copyOf_blocked, copyOf_modCopy_self _ _ _ CopyJob.marked (fun _ => rfl), copyOf_named hj]
      rfl
    · rw [copyOf_blocked, copyOf_modCopy_ne _ _ CopyJob.marked (fun _ => rfl) hi]

end Sys2Proof
end

section
/-!
SUPPORT. The lease table (R217-R219, R377): a lease that has just been entered, through the tile moves of its first turn; the release of one.
-/

namespace Sys2Proof.Machine

/-! ### The first element that meets a test -/

/-- A property of the first element that meets a test outlasts a change of any element that keeps both. -/
theorem find_replaceFirst_kept {α : Type} {p q : α → Bool} {f : α → α} {P : α → Prop} (hq : ∀ x, q (f x) = q x) (hP : ∀ x, P x → P (f x)) :
    ∀ l : List α, (∃ x, l.find? q = some x ∧ P x) → ∃ x, (replaceFirst p f l).find? q = some x ∧ P x
  | [], h => h
  | x :: r, ⟨y, hy, hPy⟩ => by
    by_cases hp : p x = true
    · rw [replaceFirst, if_pos hp]
      by_cases hx : q x = true
      · obtain rfl : x = y := by simpa [hx] using hy
        exact ⟨f x, List.find?_cons_of_pos (by rw [hq, hx]), hP x hPy⟩
      · rw [List.find?_cons_of_neg hx] at hy
        exact ⟨y, by rw [List.find?_cons_of_neg (by rwa [hq]), hy], hPy⟩
    · rw [replaceFirst, if_neg hp]
      by_cases hx : q x = true
      · obtain rfl : x = y := by simpa [hx] using hy
        exact ⟨x, List.find?_cons_of_pos hx, hPy⟩
      · rw [List.find?_cons_of_neg hx] at hy
        rw [List.find?_cons_of_neg hx]
        exact find_replaceFirst_kept hq hP r ⟨y, hy, hPy⟩

theorem length_removeFirst {α : Type} {p : α → Bool} {x : α} : ∀ {l : List α}, l.find? p = some x → (removeFirst p l).length + 1 = l.length
  | [], h => nomatch h
  | y :: r, h => by
    by_cases hp : p y = true
    · rw [removeFirst, if_pos hp, List.length_cons]
    · rw [List.find?_cons_of_neg hp] at h
      rw [removeFirst, if_neg hp, List.length_cons, List.length_cons, length_removeFirst h]

@[simp] theorem length_setAt {α : Type} (l : List α) (i : Nat) (x : α) : (setAt l i x).length = l.length := by simp [setAt]

/-- A store leaves the activations alone. -/
theorem actAt_storeAt (s : State) (ctx loc : Nat) (bs : List Byte) (d : Cur) : actAt (storeAt s ctx loc bs) d = actAt s d := by
  simp only [actAt, storeAt_keeps s ctx loc bs Core.active (fun _ _ => rfl), storeAt_keeps s ctx loc bs Core.away (fun _ _ => rfl)]

theorem leaseOf_congr {s t : State} (h : t.clauses = s.clauses) (core ctx : Nat) : leaseOf t core ctx = leaseOf s core ctx := by
  rw [leaseOf, leaseOf, clauseOf_congr h]

/-- The lease of a core and a context names both. -/
theorem leaseOf_names {s : State} {core ctx : Nat} {l : Lease} (h : leaseOf s core ctx = some l) : l.core = core ∧ l.ctx = ctx := by
  simpa using List.find?_some h

/-! ### A lease is entered (R217, R219, R377) -/

/-- A lease of n tiles with no pass and nothing queued. -/
structure Lease.Fresh (l : Lease) (n : Nat) : Prop where
  places : l.places.length = n
  passes : ∀ i, l.passes.getD i 0 = 0
  queue : l.queue = []
  held : l.held = none

/-- The lease of a core and a context is a fresh one of n tiles, and every activation is as it was in s. -/
structure LeaseEntered (s : State) (core ctx n : Nat) (t : State) : Prop where
  cur : t.cur = s.cur
  acts : ∀ d, actAt t d = actAt s d
  lease : ∃ l, leaseOf t core ctx = some l ∧ l.Fresh n

section Entered
variable {s t : State} {core ctx n : Nat} (h : LeaseEntered s core ctx n t)
include h

theorem LeaseEntered.modCtx (c x : Nat) (f : CtxCore → CtxCore) : LeaseEntered s core ctx n (modCtx t c x f) :=
  ⟨h.cur, fun d => (actAt_modCtx t c x f d).trans (h.acts d), h.lease⟩

theorem LeaseEntered.storeAt (x loc : Nat) (bs : List Byte) : LeaseEntered s core ctx n (storeAt t x loc bs) :=
  ⟨(storeAt_cur ..).trans h.cur, fun d => (actAt_storeAt t x loc bs d).trans (h.acts d),
    by rw [leaseOf_congr (storeAt_clauses ..)]; exact h.lease⟩

theorem LeaseEntered.modClause {f : Clause → Clause} (hf : ∀ c, (f c).leases = c.leases) :
    LeaseEntered s core ctx n (modClause t (clauseOfCore core) f) :=
  ⟨h.cur, h.acts, by rw [leaseOf, clauseOf_modClause_self, hf]; exact h.lease⟩

theorem LeaseEntered.modLease (c x : Nat) {f : Lease → Lease} (hf : ∀ l, (f l).core = l.core ∧ (f l).ctx = l.ctx)
    (hfresh : ∀ l, l.Fresh n → (f l).Fresh n) : LeaseEntered s core ctx n (modLease t (clauseOfCore core) c x f) := by
  refine ⟨h.cur, h.acts, ?_⟩
  rw [leaseOf, clauseOf_modLease]
  exact find_replaceFirst_kept (fun l => by rw [(hf l).1, (hf l).2]) hfresh _ h.lease

/-- A tile of any lease is given another place. -/
theorem LeaseEntered.place (c x i : Nat) (p : TilePlace) :
    LeaseEntered s core ctx n (Machine.modLease t (clauseOfCore core) c x (fun l => { l with places := setAt l.places i p })) :=
  h.modLease c x (fun _ => ⟨rfl, rfl⟩) (fun _ hl => ⟨(length_setAt ..).trans hl.places, hl.passes, hl.queue, hl.held⟩)

theorem LeaseEntered.parkTile (c x i : Nat) : LeaseEntered s core ctx n (parkTile t (clauseOfCore core) c x i) := by
  unfold Machine.parkTile
  split
  · exact h
  next l _ =>
    split
    next y _ =>
      have hdata (p : Nat) : LeaseEntered s core ctx n (if l.passes.getD i 0 = 0 then t
          else Machine.storeAt t x (parkLoc t c x p) (tileBytes (tgetD (clauseOf t (clauseOfCore core)).tiles y []))) := by
        split
        · exact h
        · exact h.storeAt ..
      exact (((hdata _).modCtx c x _).place c x i (.parked _)).modClause (fun _ => rfl)
    · exact h

/-- A tile of the lease itself, which has no pass, moves no data. -/
theorem LeaseEntered.giveTile (i : Nat) : LeaseEntered s core ctx n (giveTile t (clauseOfCore core) core ctx i) := by
  obtain ⟨l, hl, hfresh⟩ := h.lease
  simp only [Machine.giveTile, hl, hfresh.passes i]
  split
  · rw [if_neg (by simp)]
    exact ((h.modCtx core ctx _).place core ctx i _).modClause (fun _ => rfl)
  · exact (h.place core ctx i _).modClause (fun _ => rfl)
  · exact h

theorem LeaseEntered.parkAll (out : List (Nat × Nat × Nat)) :
    LeaseEntered s core ctx n (out.foldl (fun u v => Machine.parkTile u (clauseOfCore core) v.1 v.2.1 v.2.2) t) :=
  List.foldlRecOn out _ h (fun _ hu v _ => hu.parkTile v.1 v.2.1 v.2.2)

theorem LeaseEntered.giveAll (is : List Nat) :
    LeaseEntered s core ctx n (is.foldl (fun u i => Machine.giveTile u (clauseOfCore core) core ctx i) t) :=
  List.foldlRecOn is _ h (fun _ hu i _ => hu.giveTile i)

theorem LeaseEntered.startTurn : LeaseEntered s core ctx n (startTurn t (clauseOfCore core) core ctx) := by
  obtain ⟨l, hl, -⟩ := h.lease
  rw [startTurn_eq hl]
  refine LeaseEntered.modClause ?_ (fun _ => rfl)
  exact ((h.parkAll _).giveAll _).modLease core ctx (fun _ => ⟨rfl, rfl⟩) (fun _ hl => ⟨hl.places, hl.passes, hl.queue, hl.held⟩)

end Entered

section Enter
variable {s : State} {core ctx : Nat} (hmine : leaseOf s core ctx = none) (n : Nat)
include hmine

/-- The lease as it is entered. -/
def freshLease (s : State) (core ctx n : Nat) : Lease :=
  ⟨core, ctx, List.replicate n .unassigned, List.replicate n 0, Vector.replicate 16 0, [], 0, s.cyc, 0, false, none, none, false, 0⟩

omit hmine in
theorem enterLease_eq : enterLease s core ctx n =
    let t := modClause s (clauseOfCore core) (fun c => { c with leases := c.leases ++ [freshLease s core ctx n] })
    if (clauseOf s (clauseOfCore core)).current.isNone then startTurn t (clauseOfCore core) core ctx else t := by
  simp only [enterLease, clauseOf_modClause_self]
  rfl

theorem leaseEntered_append :
    LeaseEntered s core ctx n (modClause s (clauseOfCore core) (fun c => { c with leases := c.leases ++ [freshLease s core ctx n] })) := by
  refine ⟨rfl, fun _ => rfl, freshLease s core ctx n, ?_, ⟨List.length_replicate, fun i => ?_, rfl, rfl⟩⟩
  · unfold leaseOf at hmine ⊢
    rw [clauseOf_modClause_self, List.find?_append, hmine]
    simp [freshLease]
  · rw [List.getD_eq_getElem?_getD, freshLease, List.getElem?_replicate]
    split <;> rfl

/-- A lease is entered, and its first turn begins where no lease is current. -/
theorem enterLease_enters : LeaseEntered s core ctx n (enterLease s core ctx n) ∧
    ((clauseOf s (clauseOfCore core)).current = none →
      (clauseOf (enterLease s core ctx n) (clauseOfCore core)).current = some (core, ctx)) := by
  have happ := leaseEntered_append hmine n
  obtain ⟨l, hl, -⟩ := happ.lease
  rw [enterLease_eq]
  refine ⟨?_, fun hcur => ?_⟩
  · dsimp only
    split
    · exact happ.startTurn
    · exact happ
  · rw [hcur]
    exact startTurn_current hl

end Enter

/-! ### The instructions that act on the table (R377, R378) -/

section Instructions
variable {s : State} (h : Solo s) (ha : isApp (runCore s) = false)
include h ha

section Mlease
variable (hf : FirstIssue s) (nw : Bool) (a : SReg) (n : BitVec 3)
include hf

/-- MLEASE at its first issue. -/
theorem exec_mlease :
    exec (.mlease nw a n) s = .next (finish (matrixGate (.mlease nw a n))
      (if (leaseOf s (home s) (ctxId s)).isSome then .trap s .lease 1
      else if partPark (partNow s) < n.toNat then .trap s .lease 3
      else if (clauseOf s (clauseOfCore (home s))).leases.length < 16 ∧ (clauseOf s (clauseOfCore (home s))).leaseReqs.isEmpty then
        .ok (wS (enterLease s (home s) (ctxId s) n.toNat) a 0)
      else if nw then .ok (wS s a 1)
      else .stall (modClause s (clauseOfCore (home s)) (fun c => { c with leaseReqs := c.leaseReqs ++ [⟨home s, ctxId s, n.toNat⟩] }))
        { waiting s 11 0 with stage := 1 })) := by
  have hstage : (waiting s 11 0).stage ≠ 1 := nofun
  refine (issue_engine h ha _ _).trans ?_
  simp only [waitOr_first hf, hstage, if_false]
  rfl

theorem exec_mlease_again (hm : (leaseOf s (home s) (ctxId s)).isSome = true) :
    exec (.mlease nw a n) s = .next (trapped s .lease 1) := by
  rw [exec_mlease h ha hf, hm]
  rfl

variable (hm : leaseOf s (home s) (ctxId s) = none)
include hm

theorem exec_mlease_tooMany (hn : partPark (partNow s) < n.toNat) : exec (.mlease nw a n) s = .next (trapped s .lease 3) := by
  rw [exec_mlease h ha hf, hm, if_neg (by decide), if_pos hn]
  rfl

variable (hn : n.toNat ≤ partPark (partNow s))
include hn

theorem exec_mlease_enters (hroom : (clauseOf s (clauseOfCore (home s))).leases.length < 16)
    (hreqs : (clauseOf s (clauseOfCore (home s))).leaseReqs = []) :
    exec (.mlease nw a n) s = .next (after 4 (wS (enterLease s (home s) (ctxId s) n.toNat) a 0)) := by
  rw [exec_mlease h ha hf, hm, if_neg (by decide), if_neg (Nat.not_lt.2 hn), if_pos ⟨hroom, List.isEmpty_iff.2 hreqs⟩]
  rfl

variable (hfull : 16 ≤ (clauseOf s (clauseOfCore (home s))).leases.length)
include hfull

theorem exec_mlease_full : exec (.mlease true a n) s = .next (after 4 (wS s a 1)) := by
  rw [exec_mlease h ha hf, hm, if_neg (by decide), if_neg (Nat.not_lt.2 hn), if_neg (fun hroom => Nat.not_lt.2 hfull hroom.1)]
  rfl

theorem exec_mlease_asks : exec (.mlease false a n) s = .next (blocked
    (modClause s (clauseOfCore (home s)) (fun c => { c with leaseReqs := c.leaseReqs ++ [⟨home s, ctxId s, n.toNat⟩] }))
    { waiting s 11 0 with stage := 1 }) := by
  rw [exec_mlease h ha hf, hm, if_neg (by decide), if_neg (Nat.not_lt.2 hn), if_neg (fun hroom => Nat.not_lt.2 hfull hroom.1)]
  rfl

end Mlease

theorem exec_mstat {l : Lease} (hl : leaseOf s (home s) (ctxId s) = some l) (a : SReg) :
    exec (.mstat a) s = .next (after 4 (wS (if l.queue = [] then acquire s else s) a (mstatWord s l))) := by
  refine (issue_engine h ha _ _).trans ?_
  simp only [hl, List.isEmpty_iff]
  rfl

theorem exec_no_lease (hl : leaseOf s (home s) (ctxId s) = none) (a : SReg) :
    exec .mrelease s = .next (trapped s .lease 0) ∧ exec (.mstat a) s = .next (after 4 (wS s a 0)) :=
  ⟨(issue_engine h ha _ _).trans (by simp only [hl]; rfl), (issue_engine h ha _ _).trans (by simp only [hl]; rfl)⟩

/-- The state once a lease has left the table, its park map and its physical tiles (R217). -/
def leaseReleased (s : State) (l : Lease) : State :=
  let gone := l.places.filterMap (fun p => match p with
    | .phys t => some t
    | _ => none)
  modClause (modCtx s (home s) (ctxId s) (fun x => { x with parkMap := [] })) (clauseNow s) (fun c => { c with
    leases := removeFirst (fun l => l.core == home s && l.ctx == ctxId s) c.leases
    tiles := c.tiles.filter (fun t => !gone.contains t.1)
    current := if c.current = some (home s, ctxId s) then none else c.current })

theorem exec_mrelease {l : Lease} (hl : leaseOf s (home s) (ctxId s) = some l) (hq : l.queue = [])
    (hd : drainsOut s (home s) (ctxId s) = false) : exec .mrelease s = .next (after 4 (leaseReleased s l)) := by
  refine (issue_engine h ha _ _).trans ?_
  simp only [hl, hq, hd]
  rfl

end Instructions

section Released
variable {s : State} (l : Lease)

theorem actAt_leaseReleased (d : Cur) : actAt (leaseReleased s l) d = actAt s d :=
  actAt_modCtx s (home s) (ctxId s) (fun x => { x with parkMap := [] }) d

theorem leases_leaseReleased : (clauseOf (leaseReleased s l) (clauseOfCore (home s))).leases =
    removeFirst (fun l => l.core == home s && l.ctx == ctxId s) (clauseOf s (clauseOfCore (home s))).leases :=
  congrArg Clause.leases (clauseOf_modClause_self ..)

theorem parkMap_leaseReleased : (ctxOf (leaseReleased s l) (home s) (ctxId s)).parkMap = [] :=
  congrArg CtxCore.parkMap (ctxOf_modCtx_self s (home s) (ctxId s) (fun x => { x with parkMap := [] }))

end Released

/-! ### MSTAT's word (R378) -/

/-- A place is a park tile. -/
def TilePlace.isParked : TilePlace → Bool
  | .parked _ => true
  | _ => false

theorem TilePlace.isParked_iff (p : TilePlace) : p.isParked = true ↔ ∃ k, p = .parked k := by cases p <;> simp [isParked]

/-- A bit for each parked tile of a lease. -/
def parkedBits (ps : List TilePlace) : Nat :=
  (List.range ps.length).foldl (fun acc i => acc + if (ps.getD i .unassigned).isParked then 2 ^ i else 0) 0

/-- The tiles with their indices, by index. -/
theorem zipIdx_eq_range (ps : List TilePlace) : ps.zipIdx = (List.range ps.length).map (fun i => (ps.getD i .unassigned, i)) := by
  apply List.ext_getElem
  · simp
  · intro i h1 h2
    simp [List.getD_eq_getElem?_getD, List.getElem?_eq_getElem (show i < ps.length by simpa using h1)]

theorem foldl_parked {f : TilePlace × Nat → Bool} (hf : ∀ p, f p = p.1.isParked) (ps : List TilePlace) :
    (ps.zipIdx.filter f).foldl (fun n p => n + 2 ^ p.2) 0 = parkedBits ps := by
  rw [List.foldl_filter, zipIdx_eq_range, List.foldl_map, parkedBits]
  congr 1
  funext acc i
  rw [hf]
  split <;> rfl

theorem mstatWord_eq (s : State) (l : Lease) : mstatWord s l =
    BitVec.ofNat 64 (parkedBits l.places * 2 ^ 10 + (l.places.length - 1) * 2 ^ 8 + l.queue.length * 2 ^ 3 + (if l.out then 4 else 0) +
      (if (clauseOf s (clauseOfCore l.core)).current = some (l.core, l.ctx) then 2 else 0) + 1) := by
  unfold mstatWord
  rw [foldl_parked (hf := ?_)]
  rintro ⟨p, i⟩
  cases p <;> rfl

section Fields
variable (s : State) {l : Lease} (h1 : 1 ≤ l.places.length) (h4 : l.places.length ≤ 4) (hq : l.queue.length ≤ 16)
include h1 h4 hq

/-- The fields of MSTAT's word do not meet. -/
theorem mstatWord_fields : (mstatWord s l).getLsbD 0 = true ∧
    ((mstatWord s l).getLsbD 1 = true ↔ (clauseOf s (clauseOfCore l.core)).current = some (l.core, l.ctx)) ∧
    (mstatWord s l).getLsbD 2 = l.out ∧ (mstatWord s l).toNat / 8 % 32 = l.queue.length ∧
    (mstatWord s l).toNat / 256 % 4 = l.places.length - 1 ∧
    ∀ i, i < l.places.length → ((mstatWord s l).getLsbD (10 + i) = true ↔ ∃ p, l.places.getD i .unassigned = .parked p) := by
  obtain ⟨hlt, hbits⟩ := foldl_bits (fun i => (l.places.getD i .unassigned).isParked) l.places.length
  have hpow : 2 ^ l.places.length ≤ 2 ^ 4 := Nat.pow_le_pow_right (by decide) h4
  change parkedBits l.places < _ at hlt
  change ∀ i, (parkedBits l.places).testBit i = _ at hbits
  rw [mstatWord_eq]
  generalize parkedBits l.places = parked at *
  generalize hcur : (if (clauseOf s (clauseOfCore l.core)).current = some (l.core, l.ctx) then 2 else 0) = cur
  generalize hout : (if l.out then 4 else 0) = out
  have hcur2 : cur = 0 ∨ cur = 2 := by split at hcur <;> omega
  have hout4 : out = 0 ∨ out = 4 := by split at hout <;> omega
  have hnat : (BitVec.ofNat 64 (parked * 2 ^ 10 + (l.places.length - 1) * 2 ^ 8 + l.queue.length * 2 ^ 3 + out + cur + 1)).toNat =
      parked * 1024 + (l.places.length - 1) * 256 + l.queue.length * 8 + out + cur + 1 := by
    rw [BitVec.toNat_ofNat]
    omega
  generalize BitVec.ofNat 64 _ = w at hnat
  have hbit (i : Nat) : w.getLsbD i = decide (w.toNat / 2 ^ i % 2 = 1) := Nat.testBit_eq_decide_div_mod_eq
  refine ⟨?_, ?_, ?_, by omega, by omega, fun i hi => ?_⟩
  · rw [hbit, decide_eq_true_eq]
    omega
  · rw [hbit, decide_eq_true_eq]
    by_cases hc : (clauseOf s (clauseOfCore l.core)).current = some (l.core, l.ctx)
    · rw [if_pos hc] at hcur
      simp only [hc, iff_true]
      omega
    · rw [if_neg hc] at hcur
      simp only [hc, iff_false]
      omega
  · rw [hbit]
    cases ho : l.out with
    | false =>
      rw [ho, if_neg Bool.false_ne_true] at hout
      exact decide_eq_false (by omega)
    | true =>
      rw [ho, if_pos rfl] at hout
      exact decide_eq_true (by omega)
  · have hdiv : w.toNat / 2 ^ 10 = parked := by omega
    rw [BitVec.getLsbD, Nat.add_comm, ← Nat.testBit_div_two_pow, hdiv, hbits, decide_eq_true hi, Bool.true_and,
      TilePlace.isParked_iff]

end Fields

end Sys2Proof.Machine

namespace Sys2Proof
open Machine

/-- Settles O34: a lease that is entered is a fresh one through the tile moves of its first turn (`enterLease_enters`); the release and
the report of one by `leases_leaseReleased` and `mstatWord_fields`. -/
theorem matrixLeases : Obligations.MatrixLeases := by
  intro s nw a n h ha hf cl mine
  refine ⟨fun hm hn hroom hreqs => ?_, fun hm hn hfull => ⟨exec_mlease_full h ha hf a n hm hn hfull, ?_⟩, exec_mlease_again h ha hf nw a n,
    exec_mlease_tooMany h ha hf nw a n, fun hm => exec_no_lease h ha hm a, fun l hl => ⟨fun hq hd => ?_, fun h1 h4 hq => ?_⟩⟩
  · obtain ⟨hent, hcur⟩ := enterLease_enters hm n.toNat
    obtain ⟨l, hl, hfresh⟩ := hent.lease
    refine ⟨_, l, exec_mlease_enters h ha hf nw a n hm hn hroom hreqs,
      act_after_wS h ((congrArg _ hent.cur).trans (hent.acts _)) 4 a 0, ?_, hfresh.places, hfresh.queue, hfresh.held, fun hc => ?_⟩
    · exact (leaseOf_congr ((modAct_clauses ..).trans (wS_clauses ..)) _ _).trans hl
    · rw [clauseOf_after, clauseOf_wS]
      exact hcur hc
  · have hact := act_blocked h (actAt_modClause s cl (fun c => { c with leaseReqs := c.leaseReqs ++ [⟨home s, ctxId s, n.toNat⟩] }) s.cur)
      { waiting s 11 0 with stage := 1 }
    refine ⟨_, exec_mlease_asks h ha hf a n hm hn hfull, by rw [hact], by rw [hact], ?_⟩
    rw [clauseOf_blocked, clauseOf_modClause_self]
  · refine ⟨_, exec_mrelease h ha hl hq hd, act_after h 4 (actAt_leaseReleased l _), ?_, ?_⟩
    · rw [clauseOf_after, leases_leaseReleased]
      exact length_removeFirst hl
    · exact (congrArg CtxCore.parkMap (ctxOf_setAct ..)).trans (parkMap_leaseReleased l)
  · have hcl : clauseOfCore l.core = cl := congrArg clauseOfCore (leaseOf_names hl).1
    refine ⟨_, exec_mstat h ha hl a, ?_⟩
    rw [← hcl]
    exact mstatWord_fields s h1 h4 hq

end Sys2Proof
end

section
/-!
SUPPORT. Commands of the matrix engine as an instruction issues them (R218, R375, R376, R379-R384): checked, queued, and answered.
-/

namespace Sys2Proof.Machine

/-! ### A command in the queue (R218) -/

/-- The lease of a core and a context, changed. -/
theorem leaseOf_modLease (s : State) (core ctx : Nat) (f : Lease → Lease) (hf : ∀ l, (f l).core = l.core ∧ (f l).ctx = l.ctx) :
    leaseOf (modLease s (clauseOfCore core) core ctx f) core ctx = (leaseOf s core ctx).map f := by
  rw [leaseOf, clauseOf_modLease]
  exact find_replaceFirst _ f (fun l hl => by rwa [(hf l).1, (hf l).2]) _

section Queue
variable {s : State} {l : Lease} (hl : leaseOf s (home s) (ctxId s) = some l) (c : MatCmd)
include hl

/-- The activation's lease once a command of it is queued. -/
theorem leaseOf_pushCmd : ∃ k, leaseOf (pushCmd s c) (home s) (ctxId s) = some k ∧ k.queue = l.queue ++ [c] ∧ k.places = l.places ∧
    k.out = false := by
  refine ⟨{ l with queue := l.queue ++ [c], out := false, waitSince := if l.queue.isEmpty then s.cyc else l.waitSince }, ?_, rfl, rfl, rfl⟩
  rw [pushCmd, clauseNow, leaseOf_modLease, hl, Option.map_some]
  exact fun _ => ⟨rfl, rfl⟩

variable {c} {i : Instr} (h : Solo s)
include h

/-- A command that is queued, and whose instruction is complete. -/
theorem pushCmd_goesOn (hexec : exec i s = .next (after 4 (pushCmd s c))) :
    ∃ u, exec i s = .next u ∧ act u = { act s with pc := (act s).pc + 4, wait := none } ∧
      ∃ k, leaseOf u (home s) (ctxId s) = some k ∧ k.queue = l.queue ++ [c] ∧ k.places = l.places ∧ k.out = false := by
  obtain ⟨k, hk, hqueue⟩ := leaseOf_pushCmd hl c
  exact ⟨_, hexec, act_after h 4 (actAt_modClause ..), k, (leaseOf_congr (modAct_clauses ..) _ _).trans hk, hqueue⟩

/-- A command that is queued, and whose instruction waits for the engine's reply (R375). -/
theorem pushCmd_waits (hexec : exec i s = .next (blocked (pushCmd s c) { waiting s 11 0 with stage := 20 })) :
    ∃ u, exec i s = .next u ∧ (act u).pc = (act s).pc ∧ (act u).wait = some { waiting s 11 0 with stage := 20 } ∧
      ∃ k, leaseOf u (home s) (ctxId s) = some k ∧ k.queue = l.queue ++ [c] ∧ k.places = l.places ∧ k.out = false := by
  obtain ⟨k, hk, hqueue⟩ := leaseOf_pushCmd hl c
  have hact := act_blocked (t := pushCmd s c) h (actAt_modClause ..) { waiting s 11 0 with stage := 20 }
  exact ⟨_, hexec, by rw [hact], by rw [hact], k, (leaseOf_congr (modAct_clauses ..) _ _).trans hk, hqueue⟩

end Queue

/-! ### Checks at issue (R219, R375, R376) -/

theorem leaseCheck_none {s : State} (hm : leaseOf s (home s) (ctxId s) = none) (tile : Option Nat) (bad : Bool) :
    leaseCheck s tile bad = .error (.lease, 0) := by rw [leaseCheck, hm]

theorem leaseCheck_ok {s : State} {l : Lease} (hl : leaseOf s (home s) (ctxId s) = some l) {tile : Option Nat}
    (ht : ∀ t ∈ tile, t < l.places.length) : leaseCheck s tile false = .ok l := by
  have hany : tile.any (fun t => l.places.length ≤ t) = false := by
    cases tile with
    | none => rfl
    | some t => simpa using ht t rfl
  simp only [leaseCheck, hl, hany]
  rfl

section Queued
variable {s : State} {l : Lease} (hq : l.queue.length < 16) (c : MatCmd) (k : State → Res)
include hq

/-- A checked command with room in the queue. -/
theorem queueCmd_room : queueCmd s l c k = k (pushCmd s c) := if_neg (Nat.not_le.2 hq)

theorem kick_queueCmd (hr : released s = true) : kick s (queueCmd s l c k) = k (pushCmd s c) := by
  rw [kick, hr, if_pos rfl, queueCmd_room hq]

end Queued

section Checked
variable {s : State} {check : State → Except (Cause × Word) Lease} {c : MatCmd} {done : State → Word → Res}

/-- A checked command at its first issue. -/
theorem checkedCmd_issue (hf : FirstIssue s) : checkedCmd s check c done =
    orTrap s (check s) (fun l => kick s (queueCmd s l c (fun u => .stall u { waiting s 11 0 with stage := 20 }))) := by
  have hstage : (waiting s 11 0).stage ≠ checkedStage := nofun
  simp only [checkedCmd, waitOr_first hf, if_neg hstage]
  rfl

/-- One that passes its checks is queued, and held for the engine's reply. -/
theorem checkedCmd_first (hf : FirstIssue s) {l : Lease} (hc : check s = .ok l) (hr : released s = true) (hq : l.queue.length < 16) :
    checkedCmd s check c done = .stall (pushCmd s c) { waiting s 11 0 with stage := 20 } := by
  rw [checkedCmd_issue hf, hc, orTrap, kick_queueCmd hq _ _ hr]

theorem checkedCmd_refused (hf : FirstIssue s) {cause : Cause} {v : Word} (hc : check s = .error (cause, v)) :
    checkedCmd s check c done = .trap s cause v := by
  rw [checkedCmd_issue hf, hc, orTrap]

/-- A command that waits takes the reply it has. -/
theorem checkedCmd_reply {w : Wait} (hw : (act s).wait = some w) (hs : w.stage = 20) {v : Word} (hv : w.reply = some v) :
    checkedCmd s check c done = done s v := by
  have hstage : (waitOr s 11 0).stage = checkedStage := by
    simp only [waitOr, hw]
    split <;> exact hs
  have hreply : (waitOr s 11 0).reply = some v := by
    simp only [waitOr, hw]
    split <;> exact hv
  simp only [checkedCmd, hstage, if_true, hreply]

end Checked

/-! ### The instructions -/

/-- MMA's checks (R376, R381). -/
def mmaCheck (a e0 e1 : Word) (g : BitVec 4) (t : BitVec 2) (s : State) : Except (Cause × Word) Lease :=
  if a.toNat % 64 ≠ 0 then .error (.misalign, a)
  else if rangeOf a ≠ .window 0 then .error (.window, a)
  else leaseCheck s (some t.toNat) (mmaBad (scratchSize (partNow s)) e0 e1 (mmaArgs a e0 e1 g.toNat))

/-- The features that an MMA's sparsity and formats need are accepted (R39, R381). -/
def MmaReady (s : State) (x : MmaArgs) : Prop :=
  (x.sparse ≠ 0 → featureFor s (ctxId s) 6 = true) ∧ ((x.afmt = 2 ∨ x.bfmt = 2) → featureFor s (ctxId s) 7 = true)

theorem MmaReady.legal {s : State} {x : MmaArgs} (hx : MmaReady s x) :
    ¬((x.sparse ≠ 0 ∧ (!featureFor s (ctxId s) 6) = true) ∨ ((x.afmt = 2 ∨ x.bfmt = 2) ∧ (!featureFor s (ctxId s) 7) = true)) := by
  rintro (⟨hs, hn⟩ | ⟨hf, hn⟩)
  · simp [hx.1 hs] at hn
  · simp [hx.2 hf] at hn

/-- MMACODE's checks (R376, R382). -/
def mmacodeCheck (a e0 : Word) (t : BitVec 2) (s : State) : Except (Cause × Word) Lease :=
  if a.toNat % 8 ≠ 0 then .error (.misalign, a)
  else if rangeOf a ≠ .window 0 then .error (.window, a)
  else leaseCheck s (some t.toNat) (mmacodeBad e0)

/-- What MMACODE makes of the engine's reply (R382). -/
def mmacodeDone (e0 : Word) (b : SReg) (s : State) (v : Word) : Res :=
  if bits v 1 0 = 0 then .ok s
  else
    let at_ : Word := BitVec.ofNat 64 (windowBase + bits v 35 12)
    let s := wE (wS s b at_) 0 (codeRest e0 (bits v 8 2 - bits e0 6 0))
    if bits v 1 0 = 1 then .trap s .glossmiss (BitVec.ofNat 64 (bits v 46 36))
    else .trap s .window (BitVec.ofNat 64 (Nat.max at_.toNat (windowBase + scratchSize (partNow s))))

theorem mmaCheck_window {a : Word} (h64 : a.toNat % 64 = 0) (hw : rangeOf a = .window 0) (e0 e1 : Word) (g : BitVec 4) (t : BitVec 2)
    (s : State) : mmaCheck a e0 e1 g t s =
      leaseCheck s (some t.toNat) (mmaBad (scratchSize (partNow s)) e0 e1 (mmaArgs a e0 e1 g.toNat)) := by simp [mmaCheck, h64, hw]

theorem mmacodeCheck_window {a : Word} (h8 : a.toNat % 8 = 0) (hw : rangeOf a = .window 0) (e0 : Word) (t : BitVec 2) (s : State) :
    mmacodeCheck a e0 t s = leaseCheck s (some t.toNat) (mmacodeBad e0) := by simp [mmacodeCheck, h8, hw]

section Instructions
variable {s : State} (h : Solo s) (ha : isApp (runCore s) = false) (v : VRegN) (b : SReg) (g : BitVec 4) (t : BitVec 2)
include h ha

theorem exec_mbmeta : exec (.mbmeta v) s = .next (finish (matrixGate (.mbmeta v))
    (orTrap s (leaseCheck s none false) (fun l => queueCmd s l (.mbmeta (rV s v)) .ok))) := issue_engine h ha _ _

theorem exec_mzero : exec (.mzero t) s = .next (finish (matrixGate (.mzero t))
    (orTrap s (leaseCheck s (some t.toNat) false) (fun l => queueCmd s l (.mzero t.toNat) .ok))) := issue_engine h ha _ _

/-- MLDB, of a width whose feature is accepted. -/
theorem exec_mldb (hn : (rE s 0).toNat / 2 ^ 32 % 4 = 1 → featureFor s (ctxId s) 7 = true) :
    exec (.mldb b) s = .next (finish (matrixGate (.mldb b)) (orTrap s (leaseCheck s none (mldbBad (rE s 0)))
      (fun l => kick s (queueCmd s l (.mldb (rS s b) (rE s 0)) .ok)))) := by
  have hfeat : ¬(bits (rE s 0) 33 32 = 1 ∧ (!featureFor s (ctxId s) 7) = true) := fun hx => by simp [hn hx.1] at hx
  refine (issue_engine h ha _ _).trans ?_
  simp only [if_neg hfeat]
  rfl

/-- MMA, of formats and a sparsity whose features are accepted. -/
theorem exec_mma (hready : MmaReady s (mmaArgs (rS s b) (rE s 0) (rE s 1) g.toNat)) :
    exec (.mma g t b) s = .next (finish (matrixGate (.mma g t b))
      (if (mmaArgs (rS s b) (rE s 0) (rE s 1) g.toNat).sparse = 0 then
        orTrap s (mmaCheck (rS s b) (rE s 0) (rE s 1) g t s)
          (fun l => kick s (queueCmd s l (.mma t.toNat (rS s b) (rE s 0) (rE s 1) g.toNat) .ok))
      else checkedCmd s (mmaCheck (rS s b) (rE s 0) (rE s 1) g t) (.mma t.toNat (rS s b) (rE s 0) (rE s 1) g.toNat)
        (fun s v => if v = 0 then .ok s else .trap s .lease 4))) := by
  refine (issue_engine h ha _ _).trans ?_
  simp only [if_neg hready.legal]
  rfl

theorem exec_mmacode : exec (.mmacode t b) s = .next (finish (matrixGate (.mmacode t b))
    (checkedCmd s (mmacodeCheck (rS s b) (rE s 0) t) (.mmacode t.toNat (rS s b) (rE s 0)) (mmacodeDone (rE s 0) b))) :=
  issue_engine h ha _ _

theorem exec_mdrain : exec (.mdrain t b) s = .next (finish (matrixGate (.mdrain t b))
    (checkedCmd s (fun s => leaseCheck s (some t.toNat) (mdrainBad (rE s 1))) (.mdrain t.toNat (rS s b) (rE s 0) (rE s 1) (rE s 2))
      (fun s v => if v = 0 then .ok s else .trap s .draindest (BitVec.ofNat 64 (bits (rS s b) 20 0))))) := issue_engine h ha _ _

end Instructions

/-- The fields of MMACODE's reply do not meet. -/
theorem codeReply_fields {kind row off idx : Nat} (hk : kind < 4) (hrow : row < 128) (hoff : off < 2 ^ 24) (hidx : idx < 2 ^ 11) :
    bits (codeReply kind row off idx) 1 0 = kind ∧ bits (codeReply kind row off idx) 8 2 = row ∧
    bits (codeReply kind row off idx) 35 12 = off ∧ bits (codeReply kind row off idx) 46 36 = idx := by
  have hnat : (codeReply kind row off idx).toNat = kind + row * 4 + off * 2 ^ 12 + idx * 2 ^ 36 := by
    rw [codeReply, BitVec.toNat_ofNat]
    omega
  simp only [bits, hnat]
  omega

/-- A reply of a gloss miss: sB names the code, e0 what is left (R382). -/
theorem mmacodeDone_miss {e0 : Word} {c off idx : Nat} (hc : e0.toNat % 128 + c < 128) (hoff : off < 2 ^ 24) (hidx : idx < 2 ^ 11)
    (b : SReg) (s : State) : mmacodeDone e0 b s (codeReply 1 (e0.toNat % 128 + c) off idx) =
      .trap (wE (wS s b (BitVec.ofNat 64 (windowBase + off))) 0 (codeRest e0 c)) .glossmiss (BitVec.ofNat 64 idx) := by
  obtain ⟨hkind, hrow, hat, hind⟩ := codeReply_fields (kind := 1) (by decide) hc hoff hidx
  have hleft : bits (codeReply 1 (e0.toNat % 128 + c) off idx) 8 2 - bits e0 6 0 = c := by
    rw [hrow, bits_low]
    exact Nat.add_sub_cancel_left ..
  simp only [mmacodeDone, hkind, hleft, hat, hind]
  rfl

/-! ### The engine's check of a code (R245, R382) -/

theorem codeBad_iff (w : Word) : codeBad w = true ↔ (w.toNat / 2 ^ 38 % 4 = 3 ∨ w.toNat / 2 ^ 40 % 4 = 3 ∨ 2 ^ 46 ≤ w.toNat) := by
  have hhigh : bits w 63 46 ≠ 0 ↔ 2 ^ 46 ≤ w.toNat := by
    rw [bits_high]
    omega
  simp only [codeBad, codeKind, codeFmt, Bool.or_eq_true, beq_iff_eq, bne_iff_ne, hhigh, or_assoc]
  rfl

/-- A malformed word 1 stops the codes, with the index of a code that fails as a whole. -/
theorem codesFrom_bad {s : State} {cl : Nat} {l : Lease} {gt row0 : Nat} {d : Codes}
    (hsize : d.off + 8 ≤ scratchSize (partOf s l.core l.ctx)) (hlost : readsLost s l [(d.off, 8)] [] = none)
    (hbad : codeBad (readWord s (scratchBase l.core (partOf s l.core l.ctx) + d.off)) = true) (left : Nat) :
    codesFrom s cl l gt row0 d (left + 1) = { d with reply := codeReply 1 (row0 + d.count) d.off 1024 } := by
  simp only [codesFrom, if_neg (Nat.not_lt.2 hsize), hlost, hbad, Option.isSome_none, Bool.false_eq_true, if_false, if_true]

section Check
variable {s : State} {cl ctx gt : Nat} {w : Word} {pairs : List (Nat × Xv)}

theorem codeCheck_noGloss (hg : glossOf s cl gt = none) : codeCheck s cl ctx gt w pairs = some 1024 := by simp only [codeCheck, hg]

section Table
variable {q : Gloss} (hg : glossOf s cl gt = some q)
include hg

theorem codeCheck_noSlot (hl : slotOf s cl ctx q.id = none) : codeCheck s cl ctx gt w pairs = some 1024 := by simp only [codeCheck, hg, hl]

variable {l : LexSlot} (hl : slotOf s cl ctx q.id = some l)
include hl

theorem codeCheck_other (h : q.ctx ≠ ctx ∨ codeId w ≠ q.id ∨ codeVersion w ≠ l.version) : codeCheck s cl ctx gt w pairs = some 1024 := by
  simp only [codeCheck, hg, hl, if_pos h]

/-- A pair's atom has no gloss of its present generation in the table (R245). -/
def staleGloss (s : State) (cl : Nat) (q : Gloss) (l : LexSlot) (p : Nat × Xv) : Bool :=
  !q.valid.contains p.1 || (List.range q.m).any (fun i => (glossEntry s cl q p.1 (q.j0 + i)).2 != tgetD l.gens p.1 0)

omit hg hl in
theorem staleGloss_iff (p : Nat × Xv) : staleGloss s cl q l p = true ↔
    p.1 ∉ q.valid ∨ ∃ j < q.m, (glossEntry s cl q p.1 (q.j0 + j)).2 ≠ tgetD l.gens p.1 0 := by simp [staleGloss]

variable (hctx : q.ctx = ctx) (hid : codeId w = q.id) (hversion : codeVersion w = l.version)
include hctx hid hversion

/-- A code of the table's context, slot and version fails at its first pair of a stale gloss. -/
theorem codeCheck_pairs : codeCheck s cl ctx gt w pairs =
    if codeKind w ≠ 0 then none else (pairs.find? (staleGloss s cl q l)).map (·.1) := by
  have hsame : ¬(q.ctx ≠ ctx ∨ codeId w ≠ q.id ∨ codeVersion w ≠ l.version) := by simp [hctx, hid, hversion]
  simp only [codeCheck, hg, hl, if_neg hsame]
  rfl

theorem codeCheck_fresh (hkind : codeKind w = 0) (hfresh : ∀ p ∈ pairs, ¬staleGloss s cl q l p = true) :
    codeCheck s cl ctx gt w pairs = none := by
  rw [codeCheck_pairs hg hl hctx hid hversion, if_neg (not_not.2 hkind), List.find?_eq_none.2 hfresh, Option.map_none]

theorem codeCheck_stale {before rest : List (Nat × Xv)} {p : Nat × Xv} (hkind : codeKind w = 0) (hpairs : pairs = before ++ p :: rest)
    (hbefore : ∀ x ∈ before, ¬staleGloss s cl q l x = true) (hp : staleGloss s cl q l p = true) :
    codeCheck s cl ctx gt w pairs = some p.1 := by
  rw [codeCheck_pairs hg hl hctx hid hversion, if_neg (not_not.2 hkind), hpairs, List.find?_append, List.find?_eq_none.2 hbefore,
    List.find?_cons_of_pos hp]
  rfl

end Table

end Check

end Sys2Proof.Machine

namespace Sys2Proof
open Machine

/-- Settles O35: a command that passes its checks is queued (`pushCmd_goesOn`, `pushCmd_waits`), its reply is taken
(`checkedCmd_reply`), and without a lease its check refuses it; the engine's check of a code by `codeCheck_pairs`. -/
theorem matrixCommands : Obligations.MatrixCommands := by
  intro s v b g t h ha a e0 e1 m ready narrow
  refine ⟨?_, ?_, ?_, codeBad_iff, fun cl l gt row0 d left hsize hlost hbad => codesFrom_bad hsize hlost hbad left,
    fun cl gt w pairs => ⟨?_, ?_⟩⟩
  · intro l hl hq queued on held
    refine ⟨?_, fun ht => ?_, fun hr hb hn => ?_, fun hready hr h64 hw ht hb => ⟨fun hs => ?_, fun hf hs => ?_⟩,
      fun hf hr h8 hw ht hb => ?_, fun hf hr ht hb => ?_⟩
    · refine pushCmd_goesOn hl h ?_
      rw [exec_mbmeta h ha, leaseCheck_ok hl (by simp), orTrap, queueCmd_room hq]
      rfl
    · refine pushCmd_goesOn hl h ?_
      rw [exec_mzero h ha, leaseCheck_ok hl (by simpa using ht), orTrap, queueCmd_room hq]
      rfl
    · refine pushCmd_goesOn hl h ?_
      rw [exec_mldb h ha b hn, hb, leaseCheck_ok hl (by simp), orTrap, kick_queueCmd hq _ _ hr]
      rfl
    · refine pushCmd_goesOn hl h ?_
      rw [exec_mma h ha b g t hready, if_pos hs, mmaCheck_window h64 hw, hb, leaseCheck_ok hl (by simpa using ht), orTrap,
        kick_queueCmd hq _ _ hr]
      rfl
    · refine pushCmd_waits hl h ?_
      have hcheck := (mmaCheck_window h64 hw e0 e1 g t s).trans (by rw [hb, leaseCheck_ok hl (by simpa using ht)])
      rw [exec_mma h ha b g t hready, if_neg hs, checkedCmd_first hf hcheck hr hq]
      rfl
    · refine pushCmd_waits hl h ?_
      have hcheck := (mmacodeCheck_window h8 hw e0 t s).trans (by rw [hb, leaseCheck_ok hl (by simpa using ht)])
      rw [exec_mmacode h ha, checkedCmd_first hf hcheck hr hq]
      rfl
    · refine pushCmd_waits hl h ?_
      rw [exec_mdrain h ha, checkedCmd_first hf (by rw [hb, leaseCheck_ok hl (by simpa using ht)]) hr hq]
      rfl
  · intro w hw hstage
    refine ⟨fun hready hs hv => ?_, fun hready hs hv => ?_, fun hv => ?_, fun c off idx hc hoff hidx hv => ?_, fun hv => ?_, fun hv => ?_⟩
    · rw [exec_mma h ha b g t hready, if_neg hs, checkedCmd_reply hw hstage hv]
      rfl
    · rw [exec_mma h ha b g t hready, if_neg hs, checkedCmd_reply hw hstage hv]
      rfl
    · rw [exec_mmacode h ha, checkedCmd_reply hw hstage hv]
      rfl
    · rw [exec_mmacode h ha, checkedCmd_reply hw hstage hv, mmacodeDone_miss hc hoff hidx]
      rfl
    · rw [exec_mdrain h ha, checkedCmd_reply hw hstage hv]
      rfl
    · rw [exec_mdrain h ha, checkedCmd_reply hw hstage hv, bits_low]
      rfl
  · intro hm
    refine ⟨?_, ?_, fun hn => ?_, fun hf hready h64 hw => ?_, fun hf h8 hw => ?_, fun hf => ?_⟩
    · rw [exec_mbmeta h ha, leaseCheck_none hm]
      rfl
    · rw [exec_mzero h ha, leaseCheck_none hm]
      rfl
    · rw [exec_mldb h ha b hn, leaseCheck_none hm]
      rfl
    · have hcheck := (mmaCheck_window h64 hw e0 e1 g t s).trans (leaseCheck_none hm _ _)
      rw [exec_mma h ha b g t hready]
      split
      · rw [hcheck]
        rfl
      · rw [checkedCmd_refused hf hcheck]
        rfl
    · rw [exec_mmacode h ha, checkedCmd_refused hf ((mmacodeCheck_window h8 hw e0 t s).trans (leaseCheck_none hm _ _))]
      rfl
    · rw [exec_mdrain h ha, checkedCmd_refused hf (leaseCheck_none hm _ _)]
      rfl
  · rintro (hg | ⟨q, hg, hs | ⟨l, hs, hother⟩⟩)
    · exact codeCheck_noGloss hg
    · exact codeCheck_noSlot hg hs
    · exact codeCheck_other hg hs hother
  · intro q l hg hs hctx hid hversion stale
    have hiff (p : Nat × Xv) : staleGloss s cl q l p = true ↔ stale p := staleGloss_iff p
    refine ⟨fun hk => ?_, fun hk hp => ?_, fun before p rest hk hpairs hbefore hp => ?_⟩
    · rw [codeCheck_pairs hg hs hctx hid hversion, if_pos hk]
    · exact codeCheck_fresh hg hs hctx hid hversion hk (fun p hmem => mt (hiff p).1 (hp p hmem))
    · exact codeCheck_stale hg hs hctx hid hversion hk hpairs (fun x hx => mt (hiff x).1 (hbefore x hx)) ((hiff p).2 hp)

end Sys2Proof
end

section
/-!
SUPPORT. Instructions of units that a feature guards (R39, R280), the scratchpad operands of engine instructions (R375, R385), and reads of
the lexicon store (R50, R235).
-/

namespace Sys2Proof.Machine

/-! ### Issue (R39, R280) -/

/-- An instruction that names a shared unit of an accepted feature runs its body on a compute core. -/
theorem issue_feature {s : State} (h : Solo s) (ha : isApp (runCore s) = false) {b : Nat} (hf : featureFor s (ctxId s) b = true)
    (i : Instr) (body : State → Res) : issue (engineGate i [b]) body s = .next (finish (engineGate i [b]) (body s)) := by
  rw [issue_solo h, gated_pass body (by simp [ha]) (by simp [engineGate, hf]) (by simp [lacksExt, engineGate, baseGate]) (.inl rfl)]

/-- A scalar register written, and pc moved on, change no byte. -/
theorem sameMemory_after_wS {s t : State} (hm : t.mem = s.mem) (hu : t.undef = s.undef) (n : Nat) (i : SReg) (w : Word) :
    SameMemory s (after n (wS t i w)) := fun loc =>
  (readByte_setAct ..).trans ((readByte_setAct ..).trans (readByte_congr hm hu loc))

/-! ### Window 0 (R108, R375) -/

section Window
variable {s : State} {a : Word}

theorem winBytes_fits (hw : rangeOf a = .window 0) {n : Nat} (hfit : windowOff a + n ≤ scratchSize (partNow s)) :
    winBytes s a n = .ok (windowOff a) := by simp [winBytes, hw, hfit]

/-- Nothing stands against an engine's access of bytes of the scratchpad. -/
theorem poolReady_quiet {l n : Nat} (hq : Quiet s l n) (size : Nat) (hsize : size = n) : poolReady s size [(a, .pool l)] = .val s () := by
  subst hsize
  simp [poolReady, poolSpans, poisonFault, hq.1, hq.2, bestBy]

theorem withWin_quiet (hw : rangeOf a = .window 0) {n : Nat} (hfit : windowOff a + n ≤ scratchSize (partNow s))
    (hq : Quiet s (window0Loc s a) n) (f : Nat → Res) : withWin s a n f = f (windowOff a) := by
  simp only [withWin, winBytes_fits hw hfit]
  split
  · rfl
  · rw [poolReady_quiet (l := scratchBase (home s) (partNow s) + windowOff a) hq n rfl]
    rfl

/-- No bytes need only lie in window 0. -/
theorem withWin_zero (hw : rangeOf a = .window 0) (hfit : windowOff a ≤ scratchSize (partNow s)) (f : Nat → Res) :
    withWin s a 0 f = f (windowOff a) := by
  simp only [withWin, winBytes_fits hw (n := 0) hfit, if_true]

end Window

theorem InWindow0.offset {s : State} {a : Word} {n : Nat} (h : InWindow0 s a n) : windowOff a ≤ scratchSize (partNow s) :=
  Nat.le_of_add_right_le h.2.2

/-- A release that nothing holds back. -/
theorem kick_released {s : State} (hr : released s = true) (r : Res) : kick s r = r := if_pos hr

/-! ### The lexicon store (R50, R235) -/

/-- Bytes among some of which no line is lost. -/
theorem poisonedIn_within {s : State} {loc n : Nat} (h : poisonedIn s loc n = none) {k m : Nat} (hk : loc ≤ k) (hm : k + m ≤ loc + n) :
    poisonedIn s k m = none := by
  unfold poisonedIn at h ⊢
  split
  next hp =>
    rw [if_pos hp] at h
    simp only [List.find?_eq_none, List.mem_map, List.mem_range, forall_exists_index, and_imp, forall_apply_eq_imp_iff₂] at h ⊢
    intro i hi
    have := h (k - loc + i) (by omega)
    rwa [show loc + (k - loc + i) = k + i by omega] at this
  next => rfl

/-- Bytes of a slot's store. -/
def LexSlot.bytes (l : LexSlot) : Nat := 2 * l.n * l.s + 6 * l.n + 4 * l.n * l.n

/-- A read of a slot of which no line is lost. -/
theorem slotReady_sound {s : State} {cl : Nat} {l : LexSlot} (hs : SlotSound s cl l) {spans : List SlotSpan}
    (hspans : ∀ x ∈ spans, x.1 + x.2 ≤ l.bytes) (f : Res) : slotReady s cl l spans f = f := by
  have hnone : spans.findSome? (fun x => poisonFault s (who s) 0 (lexLoc cl (65536 * l.base + x.1)) x.2) = none := by
    refine List.findSome?_eq_none_iff.2 (fun x hx => ?_)
    have hx' := hspans x hx
    have : poisonedIn s (lexLoc cl (65536 * l.base + x.1)) x.2 = none :=
      poisonedIn_within hs (by unfold lexLoc; omega) (by unfold lexLoc LexSlot.bytes at *; omega)
    simp only [poisonFault, this]
  simp only [slotReady, hnone, ite_self]

theorem LexSlot.atomSpans_le {l : LexSlot} {k : Nat} (hk : k < l.n) : ∀ x ∈ l.atomSpans k, x.1 + x.2 ≤ l.bytes := by
  have hatom : 2 * l.s * k + 2 * l.s ≤ 2 * l.n * l.s := by nlinarith
  simp only [atomSpans, bytes, List.forall_mem_cons, List.not_mem_nil, false_imp_iff, forall_true_iff, and_true]
  omega

theorem LexSlot.wholeSpan_le (l : LexSlot) : ∀ x ∈ l.wholeSpan, x.1 + x.2 ≤ l.bytes := by
  simp [wholeSpan, bytes]

/-- The slot of a context and an id names both. -/
theorem slotOf_names {s : State} {cl ctx id : Nat} {l : LexSlot} (h : slotOf s cl ctx id = some l) : l.ctx = ctx ∧ l.id = id := by
  simpa using List.find?_some h

end Sys2Proof.Machine
end

section
/-!
SUPPORT. Lexicon slots as LXCFG, LXVER, LXGET and LXPUT act on them (R234, R235, R237, R386-R388).
-/

namespace Sys2Proof.Machine

/-- A replacement keeps the slot's names, and counts its version on (R237). -/
theorem LexSlot.replace_names (l : LexSlot) (k : Nat) (codes : List Nat) : (l.replace k codes).ctx = l.ctx ∧ (l.replace k codes).id = l.id ∧
    (l.replace k codes).version = (l.version + 1) % 65536 := ⟨rfl, rfl, rfl⟩

/-- The slots of a clause but one. -/
def otherSlots (ls : List LexSlot) (ctx id : Nat) : List LexSlot := ls.filter (fun l => !(l.ctx == ctx && l.id == id))

/-- A slot that is appended to the others is the one of its context and id. -/
theorem find_otherSlots_append (ls : List LexSlot) {l : LexSlot} {ctx id : Nat} (hctx : l.ctx = ctx) (hid : l.id = id) :
    (otherSlots ls ctx id ++ [l]).find? (fun l => l.ctx == ctx && l.id == id) = some l := by
  have hothers : (otherSlots ls ctx id).find? (fun l => l.ctx == ctx && l.id == id) = none :=
    List.find?_eq_none.2 (fun x hx => by simpa only [Bool.not_eq_true', Bool.not_eq_true] using (List.mem_filter.1 hx).2)
  rw [List.find?_append, hothers, Option.none_or, List.find?_cons_of_pos (by simp [hctx, hid])]

/-! ### What LXCFG and LXPUT ask for -/

/-- The units of the store that a clause's slots would take with the one LXCFG asks for. -/
def unitsAsked (s : State) (b c : SReg) : Nat :=
  ((otherSlots (clauseOf s (clauseNow s)).lexicon (ctxId s) ((rS s b).toNat % 65536)).map (fun l => slotUnits l.n l.s)).sum +
    slotUnits ((rS s c).toNat % 1024 + 1) (2 ^ bits (rS s c) 19 16)

/-- The slot that LXCFG binds. -/
def boundSlot (s : State) (b c : SReg) : LexSlot :=
  ⟨ctxId s, (rS s b).toNat % 65536, freeBase (otherSlots (clauseOf s (clauseNow s)).lexicon (ctxId s) ((rS s b).toNat % 65536))
    (slotUnits ((rS s c).toNat % 1024 + 1) (2 ^ bits (rS s c) 19 16)), bits (rS s b) 31 16, (rS s c).toNat % 1024 + 1, 2 ^ bits (rS s c) 19 16,
    [], [], [], []⟩

/-- The slot that LXPUT leaves. -/
def putSlot (s : State) (b c : SReg) (l : LexSlot) : LexSlot :=
  l.replace (bits (rS s c) 25 16) (scratchVals s (windowOff (rS s b)) l.s 4)

section Replaced
variable {s : State} {cl ctx id : Nat} {l : LexSlot} (hl : slotOf s cl ctx id = some l)
include hl

/-- The slot once another of its names has taken its place. -/
theorem slotOf_modSlot {m : LexSlot} (hm : m.ctx = l.ctx ∧ m.id = l.id) : slotOf (modSlot s cl ctx id (fun _ => m)) cl ctx id = some m := by
  obtain ⟨hctx, hid⟩ := slotOf_names hl
  unfold slotOf at hl ⊢
  rw [modSlot, clauseOf_modClause_self, find_replaceFirst _ _ (fun _ _ => by simp [hm.1, hm.2, hctx, hid]), hl, Option.map_some]

end Replaced

/-! ### The instructions -/

section Instructions
variable {s : State} (h : Solo s) (ha : isApp (runCore s) = false) (hf : featureFor s (ctxId s) 0 = true) (a b c : SReg)
include h ha hf

section Lxcfg

theorem exec_lxcfg_badShape (hlg : bits (rS s c) 19 16 < 2 ∨ 8 < bits (rS s c) 19 16) :
    exec (.lxcfg a b c) s = .next (after 4 (wS s a 3)) :=
  (issue_feature h ha hf _ _).trans (by simp only [if_pos hlg]; rfl)

variable (hlg : ¬(bits (rS s c) 19 16 < 2 ∨ 8 < bits (rS s c) 19 16))
include hlg

theorem exec_lxcfg_ninth (hnone : slotOf s (clauseNow s) (ctxId s) ((rS s b).toNat % 65536) = none)
    (hfull : 8 ≤ (clauseOf s (clauseNow s)).lexicon.length) : exec (.lxcfg a b c) s = .next (after 4 (wS s a 2)) :=
  (issue_feature h ha hf _ _).trans (by simp only [bits_low, Nat.reduceAdd, Nat.reducePow, if_neg hlg, hnone, Option.isNone_none, true_and, if_pos hfull]; rfl)

variable (hroom : ¬((slotOf s (clauseNow s) (ctxId s) ((rS s b).toNat % 65536)).isNone = true ∧ 8 ≤ (clauseOf s (clauseNow s)).lexicon.length))
include hroom

theorem exec_lxcfg_tooLarge (hu : 192 < unitsAsked s b c) : exec (.lxcfg a b c) s = .next (after 4 (wS s a 1)) :=
  (issue_feature h ha hf _ _).trans (by
    unfold unitsAsked otherSlots at hu
    simp only [bits_low, Nat.reduceAdd, Nat.reducePow, if_neg hlg, if_neg hroom, if_pos hu]; rfl)

theorem exec_lxcfg_binds (hu : ¬192 < unitsAsked s b c) : ∃ f, exec (.lxcfg a b c) s = .next (after 4 (wS (modClause s (clauseNow s) f) a 0)) ∧
    ∀ k, (f k).lexicon = otherSlots (clauseOf s (clauseNow s)).lexicon (ctxId s) ((rS s b).toNat % 65536) ++ [boundSlot s b c] := by
  apply Exists.intro
  refine ⟨(issue_feature h ha hf _ _).trans ?_, ?_⟩
  · unfold unitsAsked otherSlots at hu
    simp only [bits_low, Nat.reduceAdd, Nat.reducePow, if_neg hlg, if_neg hroom, if_neg hu]
    rfl
  · exact fun k => rfl

end Lxcfg

theorem exec_lxver_absent (hl : slotOf s (clauseNow s) (ctxId s) ((rS s b).toNat % 65536) = none) :
    exec (.lxver a b) s = .next (after 4 (wS s a 0)) :=
  (issue_feature h ha hf _ _).trans (by simp only [bits_low, Nat.reduceAdd, Nat.reducePow, hl]; rfl)

theorem exec_lxver {l : LexSlot} (hl : slotOf s (clauseNow s) (ctxId s) ((rS s b).toNat % 65536) = some l) :
    exec (.lxver a b) s = .next (after 4 (wS s a (BitVec.ofNat 64 (2 ^ 63 + Nat.log2 l.s * 2 ^ 26 + (l.n - 1) * 2 ^ 16 + l.version)))) :=
  (issue_feature h ha hf _ _).trans (by simp only [bits_low, Nat.reduceAdd, Nat.reducePow, hl]; rfl)

theorem exec_lexAtom_misaligned (hx : (rS s b).toNat % 4 ≠ 0) : exec (.lxput a b c) s = .next (trapped s .misalign (rS s b)) ∧
    exec (.lxget a b c) s = .next (trapped s .misalign (rS s b)) :=
  ⟨(issue_feature h ha hf _ _).trans (by simp only [if_pos hx]; rfl), (issue_feature h ha hf _ _).trans (by simp only [if_pos hx]; rfl)⟩

section Atom
variable (hx : InWindow0 s (rS s b) 4)
include hx

section Absent
variable (hl : slotOf s (clauseNow s) (ctxId s) ((rS s c).toNat % 65536) = none)
include hl

theorem exec_lxget_absent : exec (.lxget a b c) s = .next (after 4 (wS s a (lxStatus 0 0 1))) :=
  (issue_feature h ha hf _ _).trans (by
    simp only [if_neg (not_not.2 hx.2.1), orTrap, winBytes_fits hx.1 (n := 0) hx.offset, bits_low, Nat.reduceAdd, Nat.reducePow, hl]; rfl)

theorem exec_lxput_absent (hr : released s = true) : exec (.lxput a b c) s = .next (after 4 (wS s a (lxStatus 0 0 1))) :=
  (issue_feature h ha hf _ _).trans (by
    simp only [if_neg (not_not.2 hx.2.1), orTrap, winBytes_fits hx.1 (n := 0) hx.offset, bits_low, Nat.reduceAdd, Nat.reducePow, hl, kick_released hr]; rfl)

end Absent

variable {l : LexSlot} (hl : slotOf s (clauseNow s) (ctxId s) ((rS s c).toNat % 65536) = some l)
include hl

theorem exec_lxget_unknown (hk : l.n ≤ bits (rS s c) 25 16) : exec (.lxget a b c) s = .next (after 4 (wS s a (lxStatus 0 l.version 2))) :=
  (issue_feature h ha hf _ _).trans (by
    simp only [if_neg (not_not.2 hx.2.1), orTrap, winBytes_fits hx.1 (n := 0) hx.offset, bits_low, Nat.reduceAdd, Nat.reducePow, hl, if_pos hk]; rfl)

theorem exec_lxput_unknown (hr : released s = true) (hk : l.n ≤ bits (rS s c) 25 16) :
    exec (.lxput a b c) s = .next (after 4 (wS s a (lxStatus 0 l.version 2))) :=
  (issue_feature h ha hf _ _).trans (by
    simp only [if_neg (not_not.2 hx.2.1), orTrap, winBytes_fits hx.1 (n := 0) hx.offset, bits_low, Nat.reduceAdd, Nat.reducePow, hl, if_pos hk, kick_released hr]; rfl)

variable (hk : bits (rS s c) 25 16 < l.n) (hfit : windowOff (rS s b) + 4 * l.s ≤ scratchSize (partNow s))
  (hq : Quiet s (window0Loc s (rS s b)) (4 * l.s)) (hs : SlotSound s (clauseNow s) l)
include hk hfit hq hs

theorem exec_lxget : exec (.lxget a b c) s = .next (after 4 (wS (storeAt s (ctxId s) (window0Loc s (rS s b))
    ((l.atom (bits (rS s c) 25 16)).flatMap (fun v => leBytes 4 (f32.round v).1))) a
    (lxStatus (tgetD l.gens (bits (rS s c) 25 16) 0) l.version 0))) :=
  (issue_feature h ha hf _ _).trans (by
    simp only [if_neg (not_not.2 hx.2.1), orTrap, winBytes_fits hx.1 (n := 0) hx.offset, bits_low, Nat.reduceAdd, Nat.reducePow, hl, if_neg (Nat.not_le.2 hk),
      withWin_quiet hx.1 hfit hq, slotReady_sound hs (LexSlot.atomSpans_le hk)]
    rfl)

/-- LXPUT changes its clause alone: the slot, and the valid bits of its glosses. -/
theorem exec_lxput (hr : released s = true) : ∃ f, exec (.lxput a b c) s = .next (after 4 (wS (modClause
      (modSlot s (clauseNow s) (ctxId s) ((rS s c).toNat % 65536) (fun _ => putSlot s b c l)) (clauseNow s) f) a
      (lxStatus (tgetD (putSlot s b c l).gens (bits (rS s c) 25 16) 0) (putSlot s b c l).version 0))) ∧ ∀ k, (f k).lexicon = k.lexicon := by
  have hspan : ∀ x ∈ [((0 : Nat), 2 * l.n * l.s)], x.1 + x.2 ≤ l.bytes := by
    simp only [List.forall_mem_cons, List.not_mem_nil, false_imp_iff, forall_true_iff, and_true, LexSlot.bytes]
    omega
  apply Exists.intro
  refine ⟨(issue_feature h ha hf _ _).trans ?_, ?_⟩
  · simp only [if_neg (not_not.2 hx.2.1), orTrap, winBytes_fits hx.1 (n := 0) hx.offset, bits_low, Nat.reduceAdd, Nat.reducePow, hl, if_neg (Nat.not_le.2 hk),
      withWin_quiet hx.1 hfit hq, slotReady_sound hs hspan, kick_released hr]
    rfl
  · exact fun k => rfl

end Atom

end Instructions

end Sys2Proof.Machine

namespace Sys2Proof
open Machine

/-- Settles O36: LXCFG's slot follows the others (`find_otherSlots_append`); LXPUT's takes the place of the one it names
(`slotOf_modSlot`). -/
theorem lexiconSlots : Obligations.LexiconSlots := by
  intro s a b c h ha hf cl x y slots others n lg slot k word
  refine ⟨exec_lxcfg_badShape h ha hf a b c, fun h2 h8 => exec_lxcfg_ninth h ha hf a b c (not_or.2 ⟨Nat.not_lt.2 h2, Nat.not_lt.2 h8⟩), fun h2 h8 hroom => ?_,
    exec_lxver_absent h ha hf a b, fun l hl => exec_lxver h ha hf a b hl,
    fun hx hl => ⟨exec_lxget_absent h ha hf a b c hx hl, exec_lxput_absent h ha hf a b c hx hl⟩,
    fun l hx hl hk => ⟨exec_lxget_unknown h ha hf a b c hx hl hk, fun hr => exec_lxput_unknown h ha hf a b c hx hl hr hk⟩,
    fun l hx hl hk hfit hq hs => ⟨exec_lxget h ha hf a b c hx hl hk hfit hq hs, fun hr => ?_⟩, exec_lexAtom_misaligned h ha hf a b c⟩
  · have hlg : ¬(bits (rS s c) 19 16 < 2 ∨ 8 < bits (rS s c) 19 16) := not_or.2 ⟨Nat.not_lt.2 h2, Nat.not_lt.2 h8⟩
    have hroom' : ¬((slotOf s (clauseNow s) (ctxId s) ((rS s b).toNat % 65536)).isNone = true ∧
        8 ≤ (clauseOf s (clauseNow s)).lexicon.length) := by
      rintro ⟨hnone, hfull⟩
      rcases hroom with hsome | hlt
      · exact Option.not_isSome_iff_eq_none.2 (Option.isNone_iff_eq_none.1 hnone) hsome
      · exact absurd hfull (Nat.not_le.2 hlt)
    refine ⟨exec_lxcfg_tooLarge h ha hf a b c hlg hroom', fun hu => ?_⟩
    obtain ⟨f, hexec, hlex⟩ := exec_lxcfg_binds h ha hf a b c hlg hroom' (Nat.not_lt.2 hu)
    refine ⟨_, hexec, act_after_wS h (actAt_modClause ..) 4 a 0, ?_⟩
    rw [slotOf, clauseOf_after, clauseOf_wS, clauseNow, clauseOf_modClause_self, hlex]
    exact find_otherSlots_append _ rfl rfl
  · obtain ⟨f, hexec, hlex⟩ := exec_lxput h ha hf a b c hx hl hk hfit hq hs hr
    obtain ⟨hctx, hid, hversion⟩ := l.replace_names (bits (rS s c) 25 16) (scratchVals s (windowOff (rS s b)) l.s 4)
    change (putSlot s b c l).ctx = _ at hctx
    change (putSlot s b c l).id = _ at hid
    change (putSlot s b c l).version = _ at hversion
    have hput : putSlot s b c l = l.replace k ((List.range l.s).map (fun i => readNat s (window0Loc s x + 4 * i) 4)) := rfl
    generalize putSlot s b c l = m at hexec hctx hid hversion hput
    refine ⟨_, m, hexec, ?_, hput, hversion, act_after_wS h (by rfl) 4 a _, sameMemory_after_wS (by rfl) (by rfl) 4 a _⟩
    rw [slotOf, clauseOf_after, clauseOf_wS, clauseNow, clauseOf_modClause_self, hlex]
    exact slotOf_modSlot hl ⟨hctx, hid⟩

end Sys2Proof
end

section
/-!
SUPPORT. The lexer's instructions: a code stored, sent, and decoded (R238-R240, R389-R391).
-/

namespace Sys2Proof.Machine

/-! ### What an encoding is of -/

/-- The values that LXENC and LXSEND encode. -/
def lexCodes (s : State) (b : SReg) (l : LexSlot) : List Nat := scratchVals s (windowOff (rS s b)) l.s 4

/-- Their encoding. -/
def lexEncoded (s : State) (b : SReg) (l : LexSlot) : Nat × List (Nat × Nat) := encodeLex l (lexRegs s) (lexCodes s b l)

/-- Its words from word 1 on. -/
def lexWords (s : State) (b : SReg) (l : LexSlot) : List Word := codeWords l (lexRegs s).fmt (lexCodes s b l) (lexEncoded s b l)

theorem misaligned_pair {x y : Word} {n m : Nat} (hx : x.toNat % n = 0) (hy : y.toNat % m = 0) : misaligned [(x, n), (y, m)] = none := by
  simp [misaligned, hx, hy, bestBy]

/-! ### A message that is sent (R343) -/

/-- Sending words leaves the activations alone, and puts one packet on its way. -/
theorem sendWords_sends (s : State) (dst : Node) (scope mprio : Nat) (code : Bool) (ws : List Word) :
    actAt (sendWords s dst scope mprio code ws) (sendWords s dst scope mprio code ws).cur = actAt s s.cur ∧
    ∃ nosrc src, tget (sendWords s dst scope mprio code ws).net s.ids =
      some (mkPacket (nodeOf s (home s)) dst (ctxId s) scope 0 mprio (.message ws code 1 nosrc src 0 0 none s.ids)) := by
  have hact (p : Packet) (x : Unacked) :
      actAt (modCore (launchPacket s p) (home s) (fun k => { k with unacked := k.unacked ++ [x] })) s.cur = actAt s s.cur :=
    actAt_modCore (launchPacket s p) (home s) (f := fun k => { k with unacked := k.unacked ++ [x] }) (fun _ => rfl) (fun _ => rfl) s.cur
  unfold sendWords
  split
  next l _ => exact ⟨hact .., false, l, tget_tset_self ..⟩
  next => exact ⟨hact .., true, 0, tget_tset_self ..⟩

/-! ### LXENC and LXSEND (R389, R390) -/

section Encode
variable {s : State} (h : Solo s) (ha : isApp (runCore s) = false) (hf : featureFor s (ctxId s) 0 = true) (hr : released s = true)
variable (sc : Scope) (a b c : SReg) (hx : InWindow0 s (rS s b) 4)
include h ha hf hr hx

section Absent
variable (hl : slotOf s (clauseNow s) (ctxId s) ((rE s 1).toNat % 65536) = none)
include hl

theorem exec_lxenc_absent (hy : InWindow0 s (rS s c) 8) : exec (.lxenc a b c) s = .next (after 4 (wS s a (lexResult 5 0 0))) :=
  (issue_feature h ha hf _ _).trans (by
    simp only [misaligned_pair hx.2.1 hy.2.1, orTrap, winBytes_fits hx.1 (n := 0) hx.offset, winBytes_fits hy.1 (n := 0) hy.offset,
      bits_low, Nat.reduceAdd, Nat.reducePow, hl, kick_released hr]
    rfl)

theorem exec_lxsend_absent {dst : Node} (hd : cmapEntry s (entry s) ((rS s c).toNat % 2 ^ 21) = some dst) :
    exec (.lxsend sc a b c) s = .next (after 4 (wS s a (lexResult 5 0 0))) :=
  (issue_feature h ha hf _ _).trans (by
    simp only [Nat.reducePow] at hd
    simp only [if_neg (not_not.2 hx.2.1), bits_low, Nat.reduceAdd, Nat.reducePow, hl, withWin_zero hx.1 hx.offset, hd, kick_released hr]
    rfl)

end Absent

variable {l : LexSlot} (hl : slotOf s (clauseNow s) (ctxId s) ((rE s 1).toNat % 65536) = some l)
  (hfit : windowOff (rS s b) + 4 * l.s ≤ scratchSize (partNow s)) (hq : Quiet s (window0Loc s (rS s b)) (4 * l.s))
  (hs : SlotSound s (clauseNow s) l)
include hl hfit hq hs

section Store
variable (hy : InWindow0 s (rS s c) 8)
include hy

theorem exec_lxenc (hyfit : windowOff (rS s c) + 8 * (lexWords s b l).length ≤ scratchSize (partNow s))
    (hyq : Quiet s (window0Loc s (rS s c)) (8 * (lexWords s b l).length)) (hroom : 8 * (lexWords s b l).length ≤ (rE s 0).toNat) :
    exec (.lxenc a b c) s = .next (after 4 (wS (storeAt s (ctxId s) (window0Loc s (rS s c))
      ((lexWords s b l).flatMap (fun w => leBytes 8 w.toNat))) a
      (lexResult (lexEncoded s b l).1 (lexEncoded s b l).2.length (8 * (lexWords s b l).length)))) :=
  (issue_feature h ha hf _ _).trans (by
    unfold lexWords lexEncoded lexCodes at *
    simp only [misaligned_pair hx.2.1 hy.2.1, orTrap, winBytes_fits hx.1 (n := 0) hx.offset, winBytes_fits hy.1 (n := 0) hy.offset,
      bits_low, Nat.reduceAdd, Nat.reducePow, hl, withWin_quiet hx.1 hfit hq, slotReady_sound hs l.wholeSpan_le,
      if_neg (Nat.not_lt.2 hroom), withWin_quiet hy.1 hyfit hyq, kick_released hr]
    rfl)

theorem exec_lxenc_tooLong (hroom : (rE s 0).toNat < 8 * (lexWords s b l).length) :
    exec (.lxenc a b c) s = .next (after 4 (wS s a (lexResult 3 0 0))) :=
  (issue_feature h ha hf _ _).trans (by
    unfold lexWords lexEncoded lexCodes at hroom
    simp only [misaligned_pair hx.2.1 hy.2.1, orTrap, winBytes_fits hx.1 (n := 0) hx.offset, winBytes_fits hy.1 (n := 0) hy.offset,
      bits_low, Nat.reduceAdd, Nat.reducePow, hl, withWin_quiet hx.1 hfit hq, slotReady_sound hs l.wholeSpan_le, if_pos hroom,
      kick_released hr]
    rfl)

end Store

section Send
variable {dst : Node} (hd : cmapEntry s (entry s) ((rS s c).toNat % 2 ^ 21) = some dst)
include hd

theorem exec_lxsend_tooLong (hlen : 64 ≤ (lexWords s b l).length) :
    exec (.lxsend sc a b c) s = .next (after 4 (wS s a (lexResult 4 0 0))) :=
  (issue_feature h ha hf _ _).trans (by
    have hlong : 64 < (rE s 0 :: lexWords s b l).length := Nat.lt_succ_of_le hlen
    unfold lexWords lexEncoded lexCodes at hlong
    simp only [Nat.reducePow] at hd
    simp only [if_neg (not_not.2 hx.2.1), bits_low, Nat.reduceAdd, Nat.reducePow, hl, withWin_quiet hx.1 hfit hq, hd,
      slotReady_sound hs l.wholeSpan_le, if_pos hlong, kick_released hr]
    rfl)

omit hr in
theorem exec_lxsend (hlen : (lexWords s b l).length < 64) (hready : sendReady s dst ((lexWords s b l).length + 1) = true) :
    exec (.lxsend sc a b c) s = .next (after 4 (wS (sendWords s dst sc.code (bits (rS s c) 22 21) true (rE s 0 :: lexWords s b l)) a
      (lexResult (lexEncoded s b l).1 (lexEncoded s b l).2.length ((lexWords s b l).length + 1)))) :=
  (issue_feature h ha hf _ _).trans (by
    have hshort : ¬64 < (rE s 0 :: lexWords s b l).length := Nat.not_lt.2 hlen
    have hsend : ¬(!sendReady s dst (rE s 0 :: lexWords s b l).length) = true := by rw [List.length_cons, hready]; decide
    unfold lexWords lexEncoded lexCodes at *
    simp only [Nat.reducePow] at hd
    simp only [if_neg (not_not.2 hx.2.1), bits_low, Nat.reduceAdd, Nat.reducePow, hl, withWin_quiet hx.1 hfit hq, hd,
      slotReady_sound hs l.wholeSpan_le, if_neg hshort, if_neg hsend]
    rfl)

end Send

end Encode

/-! ### LXDEC (R391) -/

/-- Word 1 of the code that LXDEC reads. -/
def decodedHead (s : State) (b : SReg) : Word := readWord s (window0Loc s (rS s b))

/-- The words after it. -/
def decodedWords (s : State) (b : SReg) : List Word :=
  (List.range (codeEntries (decodedHead s b))).map (fun i => readWord s (window0Loc s (rS s b) + 8 + 8 * i))

/-- Element i of the values of a code of pairs: the sum of its atoms' elements (R240). -/
def pairsElem (l : LexSlot) (fmt : Nat) (ws : List Word) (i : Nat) : Nat :=
  (f32.sum (ws.map (fun e => (codePair fmt e).2.mul ((l.atom (e.toNat % 1024)).getD i Xv.zero)))).1

/-- The values of the code (R240). -/
def decodedValues (s : State) (b : SReg) (l : LexSlot) : List Nat :=
  match codeKind (decodedHead s b) with
  | 0 => (List.range l.s).map (pairsElem l (codeFmt (decodedHead s b)) (decodedWords s b))
  | 1 => (decodedWords s b).flatMap (fun e => [e.toNat % 2 ^ 32, e.toNat / 2 ^ 32])
  | _ => List.replicate l.s 0

section Values
variable {s : State} {b : SReg}

theorem decodedValues_pairs (hk : codeKind (decodedHead s b) = 0) (l : LexSlot) :
    decodedValues s b l = (List.range l.s).map (pairsElem l (codeFmt (decodedHead s b)) (decodedWords s b)) := by simp only [decodedValues, hk]

theorem decodedValues_escaped (hk : codeKind (decodedHead s b) = 1) (l : LexSlot) :
    decodedValues s b l = (decodedWords s b).flatMap (fun e => [e.toNat % 2 ^ 32, e.toNat / 2 ^ 32]) := by simp only [decodedValues, hk]

theorem decodedValues_zeros (hk : codeKind (decodedHead s b) = 2) (l : LexSlot) : decodedValues s b l = List.replicate l.s 0 := by
  simp only [decodedValues, hk]

end Values

/-- The code names an atom that the slot does not have. -/
def namesNoAtom (s : State) (b : SReg) (l : LexSlot) : Prop :=
  codeKind (decodedHead s b) = 0 ∧ ∃ e ∈ decodedWords s b, l.n ≤ e.toNat % 1024

theorem readWord_head (s : State) (b : SReg) : readWord s (scratchBase (home s) (partNow s) + windowOff (rS s b)) = decodedHead s b := rfl

theorem codePair_index (fmt : Nat) (e : Word) : (codePair fmt e).1 = e.toNat % 1024 := bits_low e 9

/-- A code of the slot's version and size. -/
theorem other_iff {l : LexSlot} {v n : Nat} (hv : l.version = v) (hn : l.s = n) : (l.version ≠ v ∨ l.s ≠ n) ↔ False := by simp [hv, hn]

section Decode
variable {s : State} (h : Solo s) (ha : isApp (runCore s) = false) (hf : featureFor s (ctxId s) 0 = true)
variable (a b c : SReg) (hx : InWindow0 s (rS s b) 8) (hy : InWindow0 s (rS s c) 4) (hq : Quiet s (window0Loc s (rS s b)) 8)
include h ha hf hx hy hq

theorem exec_lxdec_absent (hl : slotOf s (clauseNow s) (ctxId s) (codeId (decodedHead s b)) = none) :
    exec (.lxdec a b c) s = .next (after 4 (wS s a 1)) :=
  (issue_feature h ha hf _ _).trans (by
    simp only [misaligned_pair hx.2.1 hy.2.1, withWin_quiet hx.1 hx.2.2 hq, orTrap, winBytes_fits hy.1 (n := 0) hy.offset, readWord_head, hl]
    rfl)

variable {l : LexSlot} (hl : slotOf s (clauseNow s) (ctxId s) (codeId (decodedHead s b)) = some l)
include hl

theorem exec_lxdec_other (ho : l.version ≠ codeVersion (decodedHead s b) ∨ l.s ≠ 2 ^ codeLgs (decodedHead s b)) :
    exec (.lxdec a b c) s = .next (after 4 (wS s a 1)) :=
  (issue_feature h ha hf _ _).trans (by
    simp only [misaligned_pair hx.2.1 hy.2.1, withWin_quiet hx.1 hx.2.2 hq, orTrap, winBytes_fits hy.1 (n := 0) hy.offset, readWord_head, hl, ho,
      if_true]
    rfl)

variable (hv : l.version = codeVersion (decodedHead s b)) (hsz : l.s = 2 ^ codeLgs (decodedHead s b))
include hv hsz

theorem exec_lxdec_bad (hb : codeBad (decodedHead s b) = true) : exec (.lxdec a b c) s = .next (after 4 (wS s a 2)) :=
  (issue_feature h ha hf _ _).trans (by
    simp only [misaligned_pair hx.2.1 hy.2.1, withWin_quiet hx.1 hx.2.2 hq, orTrap, winBytes_fits hy.1 (n := 0) hy.offset, readWord_head, hl,
      other_iff hv hsz, if_false, hb, if_true]
    rfl)

variable (hb : codeBad (decodedHead s b) = false)
  (hfit : windowOff (rS s b) + (8 + 8 * codeEntries (decodedHead s b)) ≤ scratchSize (partNow s))
  (hwq : Quiet s (window0Loc s (rS s b)) (8 + 8 * codeEntries (decodedHead s b)))
include hb hfit hwq

/-- LXDEC once it has read a code of the slot's version and size. -/
theorem exec_lxdec_read [Decidable (namesNoAtom s b l)] : exec (.lxdec a b c) s = .next (finish (engineGate (.lxdec a b c) [0])
    (if namesNoAtom s b l then .ok (wS s a 3)
    else withWin s (rS s c) (4 * l.s) (fun q => slotReady s (clauseNow s) l
      (if codeKind (decodedHead s b) = 0 then (decodedWords s b).flatMap (fun e => l.atomSpans (e.toNat % 1024)) else [])
      (.ok (wS (scratchWrite s q ((decodedValues s b l).flatMap (fun v => leBytes 4 v))) a 0))))) :=
  (issue_feature h ha hf _ _).trans (by
    have hwords : (scratchVals s (windowOff (rS s b) + 8) (codeEntries (decodedHead s b)) 8).map (BitVec.ofNat 64) = decodedWords s b := by
      simp only [scratchVals, List.map_map, decodedWords]
      rfl
    have hnames : (codeKind (decodedHead s b) = 0 ∧ ((decodedWords s b).map (codePair (codeFmt (decodedHead s b)))).any
        (fun p => l.n ≤ p.1) = true) ↔ namesNoAtom s b l := by
      simp only [namesNoAtom, List.any_map, List.any_eq_true, Function.comp_apply, codePair_index, decide_eq_true_eq]
    simp only [misaligned_pair hx.2.1 hy.2.1, withWin_quiet hx.1 hx.2.2 hq, orTrap, winBytes_fits hy.1 (n := 0) hy.offset, readWord_head,
      hl, other_iff hv hsz, if_false, hb, Bool.false_eq_true, withWin_quiet hx.1 hfit hwq, hwords]
    by_cases hn : namesNoAtom s b l
    · rw [if_pos (hnames.2 hn), if_pos hn]
    · rw [if_neg (mt hnames.1 hn), if_neg hn]
      simp only [List.flatMap_map, List.map_map, Function.comp_def, codePair_index, decodedValues]
      match hk : codeKind (decodedHead s b) with
      | 0 => rfl
      | 1 =>
        simp only [bits_low, bits_high]
      | n + 2 => rfl)


variable (hyfit : windowOff (rS s c) + 4 * l.s ≤ scratchSize (partNow s)) (hyq : Quiet s (window0Loc s (rS s c)) (4 * l.s))
  (hs : SlotSound s (clauseNow s) l)

theorem exec_lxdec_unknown (hn : namesNoAtom s b l) : exec (.lxdec a b c) s = .next (after 4 (wS s a 3)) := by
  classical
  rw [exec_lxdec_read h ha hf a b c hx hy hq hl hv hsz hb hfit hwq, if_pos hn]
  rfl

include hyfit hyq hs

theorem exec_lxdec_stores (hn : ¬namesNoAtom s b l) : exec (.lxdec a b c) s = .next (after 4 (wS (storeAt s (ctxId s)
    (window0Loc s (rS s c)) ((decodedValues s b l).flatMap (fun v => leBytes 4 v))) a 0)) := by
  classical
  have hspans : ∀ x ∈ (if codeKind (decodedHead s b) = 0 then (decodedWords s b).flatMap (fun e => l.atomSpans (e.toNat % 1024)) else []),
      x.1 + x.2 ≤ l.bytes := by
    split
    next hk =>
      intro x hmem
      obtain ⟨e, he, hmem⟩ := List.mem_flatMap.1 hmem
      exact LexSlot.atomSpans_le (Nat.lt_of_not_le (fun hle => hn ⟨hk, e, he, hle⟩)) x hmem
    next => exact fun x hmem => nomatch hmem
  rw [exec_lxdec_read h ha hf a b c hx hy hq hl hv hsz hb hfit hwq, if_neg hn, withWin_quiet hy.1 hyfit hyq, slotReady_sound hs hspans]
  rfl

end Decode

end Sys2Proof.Machine

namespace Sys2Proof
open Machine

/-- Settles O37: LXENC stores and LXSEND sends the encoding of the same values (`lexWords`); LXDEC by what `exec_lxdec_read` makes of the
code's kind. -/
theorem lexiconCoding : Obligations.LexiconCoding := by
  intro s sc a b c h ha hf hr cl x y e0 size result
  refine ⟨fun l hl hx hfit hq hs => ?_,
    fun hl hx => ⟨exec_lxenc_absent h ha hf hr a b c hx hl, fun dst hd => exec_lxsend_absent h ha hf hr sc a b c hx hl hd⟩, ?_⟩
  · intro codes g r ws
    refine ⟨exec_lxenc h ha hf hr a b c hx hl hfit hq hs, exec_lxenc_tooLong h ha hf hr a b c hx hl hfit hq hs,
      fun dst hd hlen hready => ?_, fun dst hd => exec_lxsend_tooLong h ha hf hr sc a b c hx hl hfit hq hs hd⟩
    obtain ⟨hact, nosrc, src, hnet⟩ := sendWords_sends s dst sc.code (bits y 22 21) true (e0 :: ws)
    refine ⟨_, _, exec_lxsend h ha hf sc a b c hx hl hfit hq hs hd hlen hready, act_after_wS h hact 4 a _,
      (congrArg (tget · s.ids) ((after_net ..).trans (wS_net ..))).trans hnet, rfl, rfl, rfl, rfl, 1, nosrc, src, rfl⟩
  · intro w slot put entries hx hy hq
    refine ⟨exec_lxdec_absent h ha hf a b c hx hy hq, fun l hl ho => exec_lxdec_other h ha hf a b c hx hy hq hl ho,
      fun l hl hv hsz => exec_lxdec_bad h ha hf a b c hx hy hq hl hv hsz, fun l hl hv hsz hb hfit hyfit hwq hyq hs => ?_⟩
    rw [Nat.add_assoc] at hfit
    have stores (hn : ¬namesNoAtom s b l) : exec (.lxdec a b c) s = put (decodedValues s b l) :=
      exec_lxdec_stores h ha hf a b c hx hy hq hl hv hsz hb hfit hwq hyfit hyq hs hn
    have other {k : Nat} (hk : codeKind w = k) (h0 : k ≠ 0) : ¬namesNoAtom s b l := fun hn => h0 (hk.symm.trans hn.1)
    refine ⟨fun hk hin => ?_, fun hk hout => exec_lxdec_unknown h ha hf a b c hx hy hq hl hv hsz hb hfit hwq ⟨hk, hout⟩,
      fun hk => (stores (other hk (by decide))).trans (congrArg put (decodedValues_escaped hk l)),
      fun hk => (stores (other hk (by decide))).trans (congrArg put (decodedValues_zeros hk l))⟩
    exact (stores (fun ⟨_, e, he, hle⟩ => Nat.not_lt.2 hle (hin e he))).trans (congrArg put (decodedValues_pairs hk l))

end Sys2Proof
end

section
/-!
SUPPORT. LXRETRY (R393) where the miss queue's table lists one entry twice.
-/

namespace Sys2Proof.Machine

/-- A code message of context 0 that is parked for core 6. -/
def parkedEntry : MissEntry := ⟨6, ⟨0, 0, [0, 0], 1, 0, true, 0, 0, 0, none, .message, 0, 0, none⟩, 0, false, 0⟩

/-- Core 6 runs an activation of context 0, which is not live. Its clause's miss queue lists entry 0 twice: its keys do not rise, as those
of every table of the model do. -/
def twiceParked : State :=
  { State.reset with
    cur := ⟨6, none⟩
    cores := [(6, { Core.init with active := some ⟨0, some Act.zero⟩ })]
    clauses := [(0, { Clause.init with missQueue := [(0, parkedEntry), (0, parkedEntry)] })] }

theorem solo_twiceParked : Solo twiceParked := ⟨rfl, rfl⟩

theorem feature_twiceParked : featureFor twiceParked (ctxId twiceParked) 0 = true := by decide

theorem ctxState_twiceParked : ctxState twiceParked 0 ≠ 1 := by decide

/-- The check goes on to the second of the two, which is discarded with a notice of its own. -/
theorem notices_twiceParked : (missRecheck 0 6 0 0 32 twiceParked).module.notices.length = 2 := by decide

theorem exec_lxretry_twiceParked : exec (.lxretry 0) twiceParked = .next (after 4 (missRecheck 0 6 0 0 32 twiceParked)) :=
  (issue_feature solo_twiceParked rfl feature_twiceParked _ _).trans rfl

end Sys2Proof.Machine

namespace Sys2Proof
open Machine

/-- Refutes O38: its clause on LXRETRY says that the one entry of its key, whose context is not live, goes with one notice, in every state.
`tdel` removes the first entry of a key alone, so in `twiceParked`, whose miss queue lists the entry twice, a second notice follows. -/
theorem not_missQueueAndGlosses : ¬ Obligations.MissQueueAndGlosses := by
  intro h
  obtain ⟨-, hnamed, -⟩ := h twiceParked 0 0 0 false solo_twiceParked rfl feature_twiceParked
  obtain ⟨-, -, hgone, -⟩ := hnamed 0 parkedEntry rfl
  obtain ⟨t, ht, -, -, -, hnotices⟩ := hgone rfl ctxState_twiceParked (by decide)
  rw [exec_lxretry_twiceParked] at ht
  injection ht with ht
  have hone := congrArg List.length (hnotices (by decide))
  rw [← ht, after, modAct_module, notices_twiceParked] at hone
  exact absurd hone (by decide)

end Sys2Proof
end

section
/-!
SUPPORT. The signature engine's instructions: leases configured, commands queued, and images moved (R256-R260, R405-R411).
-/

namespace Sys2Proof.Machine

/-! ### Tables -/

section Tables
variable {t : Tab Lane}

/-- A lane that is put keeps a table's keys rising; a lane that reads as 0 stands in no entry. -/
theorem putLane_reads (h : risingFrom 0 t = true) (k : Nat) (v : Lane) :
    risingFrom 0 (tput 0 t k v) = true ∧ ∀ i, tgetD (tput 0 t k v) i 0 = if i = k then v else tgetD t i 0 := by
  unfold tput
  split
  next hv =>
    refine ⟨risingFrom_tdel h, fun i => ?_⟩
    split
    next hi => rw [hi, tgetD, tget_tdel_self h, eq_of_beq hv]; rfl
    next hi => rw [tgetD, tget_tdel_ne t hi, tgetD]
  next =>
    refine ⟨risingFrom_tset v (Nat.zero_le k) h, fun i => ?_⟩
    simp only [tgetD, tget_tset, apply_ite (Option.getD · (0 : Lane)), Option.getD_some]

/-- The first n lanes, put in turn. -/
theorem putLanes_reads (g : Nat → Lane) (n : Nat) :
    risingFrom 0 ((List.range n).foldl (fun t k => tput 0 t k (g k)) ([] : Tab Lane)) = true ∧
    ∀ i < n, tgetD ((List.range n).foldl (fun t k => tput 0 t k (g k)) ([] : Tab Lane)) i 0 = g i := by
  induction n with
  | zero => exact ⟨rfl, nofun⟩
  | succ n ih =>
    obtain ⟨hrise, hget⟩ := ih
    simp only [List.range_succ, List.foldl_append, List.foldl_cons, List.foldl_nil]
    obtain ⟨hrise', hget'⟩ := putLane_reads hrise n (g n)
    refine ⟨hrise', fun i hi => ?_⟩
    rw [hget']
    split
    next hin => rw [hin]
    next hin => exact hget i (by omega)

end Tables

/-- Entries of a table that are set to one value. -/
theorem tget_foldl_tset {α : Type} (v : α) {p : Nat} (ps : List Nat) (t : Tab α) (h : p ∈ ps ∨ tget t p = some v) :
    tget (ps.foldl (fun t i => tset t i v) t) p = some v := by
  induction ps generalizing t with
  | nil => simpa using h
  | cons q ps ih =>
    refine ih _ ?_
    by_cases hq : p = q
    · exact .inr (hq ▸ tget_tset_self ..)
    · rw [tget_tset_ne _ _ hq]
      simpa [hq] using h

/-! ### Issue -/

/-- An instruction of the signature engine runs its body on a core with extension S (R279, R39). -/
theorem issue_sig {s : State} (h : Solo s) (hx : hasExtS (runCore s) = true) (hf : featureFor s (ctxId s) 2 = true) (i : Instr)
    (body : State → Res) : issue (sigGate i) body s = .next (finish (sigGate i) (body s)) := by
  have ha : isApp (runCore s) = false := by
    simp only [hasExtS, Bool.and_eq_true, Bool.not_eq_true'] at hx
    exact hx.1
  rw [issue_solo h, gated_pass body (by simp [ha]) (by simp [sigGate, engineGate, hf]) (by simp [lacksExt, sigGate, engineGate, baseGate, hx])
    (.inl rfl)]

/-- An instruction that is issued again keeps the stage and the reply of its wait. -/
theorem waitOr_again {s : State} {w : Wait} (hw : (act s).wait = some w) (kind : Nat) (operand : Word) :
    (waitOr s kind operand).stage = w.stage ∧ (waitOr s kind operand).reply = w.reply := by
  simp only [waitOr, hw]
  split <;> exact ⟨rfl, rfl⟩

/-! ### Leases (R257) -/

theorem sigLeaseOf_congr {s t : State} (h : t.clauses = s.clauses) (core ctx : Nat) : sigLeaseOf t core ctx = sigLeaseOf s core ctx := by
  rw [sigLeaseOf, sigLeaseOf, clauseOf_congr h]

/-- The signature lease of a core and a context, changed. -/
theorem sigLeaseOf_modSigLease (s : State) (core ctx : Nat) (f : SigLease → SigLease) (hf : ∀ l, (f l).core = l.core ∧ (f l).ctx = l.ctx) :
    sigLeaseOf (modSigLease s core ctx f) core ctx = (sigLeaseOf s core ctx).map f := by
  rw [sigLeaseOf, modSigLease, clauseOf_modClause_self]
  exact find_replaceFirst _ f (fun l hl => by rwa [(hf l).1, (hf l).2]) _

/-- A lease of another core or context. -/
def othersLease (core ctx : Nat) (r : SigLease) : Bool := !(r.core == core && r.ctx == ctx)

/-- The state once the activation's lease, if it has one, is ended. -/
def sigCleared (s : State) : State :=
  if (sigLeaseOf s (home s) (ctxId s)).isSome then sigEnd s (home s) (ctxId s) else s

section Cleared
variable (s : State)

theorem actAt_sigCleared (c : Cur) : actAt (sigCleared s) c = actAt s c := by
  unfold sigCleared
  split <;> rfl

theorem cur_sigCleared : (sigCleared s).cur = s.cur := by
  unfold sigCleared
  split <;> rfl

theorem clauseOf_sigCleared : (clauseOf (sigCleared s) (clauseOfCore (home s))).sigReqs = (clauseOf s (clauseOfCore (home s))).sigReqs ∧
    (clauseOf (sigCleared s) (clauseOfCore (home s))).sigLeases =
      (clauseOf s (clauseOfCore (home s))).sigLeases.filter (othersLease (home s) (ctxId s)) := by
  unfold sigCleared
  split
  next hmine =>
    simp only [sigEnd, clauseOf_modClause_self]
    exact ⟨trivial, rfl⟩
  next hmine =>
    refine ⟨rfl, (List.filter_eq_self.2 (fun l hl => ?_)).symm⟩
    have hnone := List.find?_eq_none.1 (Option.not_isSome_iff_eq_none.1 hmine) l hl
    simpa only [othersLease, Bool.not_eq_true', Bool.not_eq_true] using hnone

/-- The physical slots that no other lease holds. -/
def freeBesides : List Nat := (List.range 4).filter (fun p => (clauseOf s (clauseOfCore (home s))).sigLeases.all
  (fun r => !(othersLease (home s) (ctxId s) r && r.slots.contains p)))

theorem sigFree_sigCleared : sigFree (clauseOf (sigCleared s) (clauseOfCore (home s))) = freeBesides s := by
  unfold sigFree freeBesides
  simp only [(clauseOf_sigCleared s).2, List.any_filter, List.not_any_eq_all_not]

theorem sigLeaseOf_sigCleared : sigLeaseOf (sigCleared s) (home s) (ctxId s) = none := by
  rw [sigLeaseOf, (clauseOf_sigCleared s).2, List.find?_eq_none]
  intro l hl
  simpa only [othersLease, Bool.not_eq_true', Bool.not_eq_true] using (List.mem_filter.1 hl).2

theorem sigCleared_none (hm : sigLeaseOf s (home s) (ctxId s) = none) : sigCleared s = s := by
  rw [sigCleared, hm]
  rfl

end Cleared

/-- A lease that is entered for a context without one: it takes the lowest free slots, as identities tagged [0, 0). -/
theorem sigEnter_enters {s : State} {core ctx : Nat} (hnone : sigLeaseOf s core ctx = none) (d n k : Nat) :
    sigLeaseOf (sigEnter s core ctx d n k) core ctx =
      some ⟨core, ctx, d, n, (sigFree (clauseOf s (clauseOfCore core))).take k, [], 0, s.cyc⟩ ∧
    ∀ p ∈ (sigFree (clauseOf s (clauseOfCore core))).take k,
      tget (clauseOf (sigEnter s core ctx d n k) (clauseOfCore core)).sigSlots p = some ⟨0, 0, []⟩ := by
  have hclause : clauseOf (sigEnter s core ctx d n k) (clauseOfCore core) = _ := clauseOf_modClause_self ..
  refine ⟨?_, fun p hp => ?_⟩
  · rw [sigLeaseOf] at hnone ⊢
    rw [hclause, List.find?_append, hnone, Option.none_or, List.find?_cons_of_pos (by simp)]
  · rw [hclause]
    exact tget_foldl_tset _ _ _ (.inl hp)

/-! ### SGCFG (R406) -/

/-- The shape and the number of slots that SGCFG asks for are within the engine's limits. -/
def SigFits (d n q : Nat) : Prop := 1 ≤ q ∧ q ≤ 4 ∧ 2 ≤ d ∧ d ≤ 16 ∧ 1 ≤ n ∧ n ≤ 8 ∧ sigTotal d n ≤ 8190

theorem SigFits.not_refused {d n q : Nat} (h : q = 0 ∨ SigFits d n q) :
    ¬(q ≠ 0 ∧ (d < 2 ∨ 16 < d ∨ n < 1 ∨ 8 < n ∨ 4 < q ∨ 8190 < sigTotal d n)) := by
  unfold SigFits at h
  omega

section Sgcfg
variable {s : State} (h : Solo s) (hx : hasExtS (runCore s) = true) (hf : featureFor s (ctxId s) 2 = true) (a b : SReg)
include h hx hf

/-- SGCFG that waits for its lease, once it is granted. -/
theorem exec_sgcfg_granted {w : Wait} (hw : (act s).wait = some w) (hs : w.stage = 1)
    (hm : (sigLeaseOf s (home s) (ctxId s)).isSome = true) : exec (.sgcfg a b) s = .next (after 4 (wS s a 0)) :=
  (issue_sig h hx hf _ _).trans (by simp only [((waitOr_again hw _ _).1.trans hs), if_true, hm]; rfl)

variable (hi : FirstIssue s) {d n q : Nat} (hd : bits (rS s b) 4 0 = d) (hn : bits (rS s b) 11 8 = n) (hq : bits (rS s b) 18 16 = q)
include hi hd hn hq

/-- SGCFG at its first issue. -/
theorem exec_sgcfg : exec (.sgcfg a b) s = .next (finish (sigGate (.sgcfg a b))
    (if q ≠ 0 ∧ (d < 2 ∨ 16 < d ∨ n < 1 ∨ 8 < n ∨ 4 < q ∨ 8190 < sigTotal d n) then .trap s .lease 8
    else kick s (
      if (sigLeaseOf s (home s) (ctxId s)).any (fun l => !l.queue.isEmpty) then .stall s (waiting s 11 0)
      else if q = 0 then .ok (wS (sigCleared s) a 0)
      else if (clauseOf (sigCleared s) (clauseNow (sigCleared s))).sigReqs.isEmpty ∧
          q ≤ (sigFree (clauseOf (sigCleared s) (clauseNow (sigCleared s)))).length then
        .ok (wS (sigEnter (sigCleared s) (home s) (ctxId s) d n q) a 0)
      else .stall (modClause (sigCleared s) (clauseNow (sigCleared s)) (fun c => { c with
        sigReqs := c.sigReqs ++ [⟨home s, ctxId s, d, n, q⟩] })) { waiting s 11 0 with stage := 1 }))) := by
  have hstage : (waiting s 11 0).stage ≠ 1 := nofun
  subst hd hn hq
  refine (issue_sig h hx hf _ _).trans ?_
  simp only [waitOr_first hi, hstage, if_false]
  rfl

theorem exec_sgcfg_badShape (hq0 : q ≠ 0) (hbad : ¬SigFits d n q) : exec (.sgcfg a b) s = .next (trapped s .lease 8) := by
  have hrefused : q ≠ 0 ∧ (d < 2 ∨ 16 < d ∨ n < 1 ∨ 8 < n ∨ 4 < q ∨ 8190 < sigTotal d n) := by
    unfold SigFits at hbad
    omega
  rw [exec_sgcfg h hx hf a b hi hd hn hq, if_pos hrefused]
  rfl

variable (hr : released s = true)
include hr

/-- A lease whose queue holds commands stalls SGCFG. -/
theorem exec_sgcfg_busy (hok : q = 0 ∨ SigFits d n q) {l : SigLease} (hl : sigLeaseOf s (home s) (ctxId s) = some l) (hbusy : l.queue ≠ []) :
    exec (.sgcfg a b) s = .next (blocked s (waiting s 11 0)) := by
  rw [exec_sgcfg h hx hf a b hi hd hn hq, if_neg (SigFits.not_refused hok), kick_released hr, hl, Option.any_some,
    if_pos (by simpa using hbusy)]
  rfl

variable (hidle : ∀ l, sigLeaseOf s (home s) (ctxId s) = some l → l.queue = [])
include hidle

/-- SGCFG of a shape within the limits, where no command is queued. -/
theorem exec_sgcfg_idle (hok : q = 0 ∨ SigFits d n q) : exec (.sgcfg a b) s = .next (finish (sigGate (.sgcfg a b))
    (if q = 0 then .ok (wS (sigCleared s) a 0)
    else if (clauseOf s (clauseOfCore (home s))).sigReqs = [] ∧ q ≤ (freeBesides s).length then
      .ok (wS (sigEnter (sigCleared s) (home s) (ctxId s) d n q) a 0)
    else .stall (modClause (sigCleared s) (clauseOfCore (home s)) (fun c => { c with
      sigReqs := c.sigReqs ++ [⟨home s, ctxId s, d, n, q⟩] })) { waiting s 11 0 with stage := 1 })) := by
  have hqueue : ¬(sigLeaseOf s (home s) (ctxId s)).any (fun l => !l.queue.isEmpty) = true := by
    simpa [Option.any_eq_true] using hidle
  have hclause : clauseNow (sigCleared s) = clauseOfCore (home s) := by rw [clauseNow, home, cur_sigCleared, home]
  rw [exec_sgcfg h hx hf a b hi hd hn hq, if_neg (SigFits.not_refused hok), kick_released hr, if_neg hqueue, hclause, sigFree_sigCleared,
    (clauseOf_sigCleared s).1]
  simp only [List.isEmpty_iff]

end Sgcfg

/-! ### Commands (R405, R407-R410) -/

section Commands
variable {s : State} {l : SigLease} (hl : sigLeaseOf s (home s) (ctxId s) = some l)

theorem sigCheck_none (hm : sigLeaseOf s (home s) (ctxId s) = none) (is : List Nat) : sigCheck s is = .error (.lease, 9) := by
  rw [sigCheck, hm]

include hl

theorem sigCheck_ok {is : List Nat} (his : ∀ i ∈ is, i < l.slots.length) : sigCheck s is = .ok l := by
  have hany : ¬is.any (fun i => decide (l.slots.length ≤ i)) = true := by simpa using his
  rw [sigCheck, hl]
  exact if_neg hany

/-- The lease of the current activation with one more command in its queue. -/
def sigQueuedState (s : State) (l : SigLease) (c : SigCmd) : State :=
  modSigLease s l.core l.ctx (fun l => { l with
    queue := l.queue ++ [c]
    waitSince := if l.queue.isEmpty then s.cyc else l.waitSince })

variable (hcore : l.core = home s) (hctx : l.ctx = ctxId s)
include hcore hctx

theorem sigLeaseOf_queued (c : SigCmd) : ∃ r, sigLeaseOf (sigQueuedState s l c) (home s) (ctxId s) = some r ∧ r.queue = l.queue ++ [c] ∧
    r.slots = l.slots := by
  refine ⟨{ l with queue := l.queue ++ [c], waitSince := if l.queue.isEmpty then s.cyc else l.waitSince }, ?_, rfl, rfl⟩
  rw [sigQueuedState, hcore, hctx]
  exact (sigLeaseOf_modSigLease s _ _ _ (by exact fun _ => ⟨rfl, rfl⟩)).trans (by rw [hl, Option.map_some, hcore, hctx])

variable (hroom : l.queue.length < 16) (hr : released s = true)
include hroom hr

omit hcore hctx in
/-- A command that passes its checks is queued. -/
theorem sigQueued_ok {is : List Nat} (his : ∀ i ∈ is, i < l.slots.length) (c : State → SigCmd) :
    sigQueued is c s = .ok (sigQueuedState s l (c s)) := by
  rw [sigQueued, sigCheck_ok hl his, orTrap, kick_released hr, sigPush, if_neg (Nat.not_le.2 hroom)]
  rfl

/-- An instruction that queues a command is complete. -/
theorem sigQueued_goesOn (h : Solo s) (hx : hasExtS (runCore s) = true) (hf : featureFor s (ctxId s) 2 = true) {i : Instr} {is : List Nat}
    (his : ∀ i ∈ is, i < l.slots.length) {c : State → SigCmd} (hexec : exec i s = issue (sigGate i) (sigQueued is c) s) :
    ∃ u, exec i s = .next u ∧ act u = { act s with pc := (act s).pc + 4, wait := none } ∧
      ∃ r, sigLeaseOf u (home s) (ctxId s) = some r ∧ r.queue = l.queue ++ [c s] ∧ r.slots = l.slots := by
  obtain ⟨r, hlease, hqueue, hslots⟩ := sigLeaseOf_queued hl hcore hctx (c s)
  refine ⟨after 4 (sigQueuedState s l (c s)), hexec.trans ?_, act_after h 4 (actAt_modClause ..), r,
    (sigLeaseOf_congr (modAct_clauses ..) _ _).trans hlease, hqueue, hslots⟩
  rw [issue_sig h hx hf, sigQueued_ok hl hroom hr his]
  rfl

/-- SGJOIN is queued, and held for its reply (R409). -/
theorem sgjoin_waits (h : Solo s) (hx : hasExtS (runCore s) = true) (hf : featureFor s (ctxId s) 2 = true) (hi : FirstIssue s)
    {i j k : BitVec 2} (his : ∀ x ∈ [i.toNat, j.toNat, k.toNat], x < l.slots.length) :
    ∃ u, exec (.sgjoin i j k) s = .next u ∧ (act u).pc = (act s).pc ∧ (act u).wait = some { waiting s 11 0 with stage := 21 } ∧
      ∃ r, sigLeaseOf u (home s) (ctxId s) = some r ∧ r.queue = l.queue ++ [.join i.toNat j.toNat k.toNat] ∧ r.slots = l.slots := by
  have hstage : (waiting s 11 0).stage ≠ joinStage := nofun
  obtain ⟨r, hlease, hqueue, hslots⟩ := sigLeaseOf_queued hl hcore hctx (.join i.toNat j.toNat k.toNat)
  have hact := act_blocked (t := sigQueuedState s l (.join i.toNat j.toNat k.toNat)) h (actAt_modClause ..) { waiting s 11 0 with stage := 21 }
  refine ⟨blocked (sigQueuedState s l (.join i.toNat j.toNat k.toNat)) { waiting s 11 0 with stage := 21 },
    (issue_sig h hx hf _ _).trans ?_, by rw [hact], by rw [hact], r, (sigLeaseOf_congr (modAct_clauses ..) _ _).trans hlease, hqueue,
    hslots⟩
  simp only [waitOr_first hi, hstage, if_false, sigCheck_ok hl his, orTrap, kick_released hr, sigPush, if_neg (Nat.not_le.2 hroom)]
  rfl

end Commands

section Answers
variable {s : State} (h : Solo s) (hx : hasExtS (runCore s) = true) (hf : featureFor s (ctxId s) 2 = true)
include h hx hf

/-- An instruction that queues a command, of an activation without a lease. -/
theorem sigQueued_noLease (hm : sigLeaseOf s (home s) (ctxId s) = none) (i : Instr) (is : List Nat) (c : State → SigCmd) :
    issue (sigGate i) (sigQueued is c) s = .next (trapped s .lease 9) := by
  rw [issue_sig h hx hf, sigQueued, sigCheck_none hm]
  rfl

/-- SGJOIN once its reply has come: bit 0 of it says that the tags leave a gap (R260). -/
theorem exec_sgjoin_replied {w : Wait} {r : Word} (hw : (act s).wait = some w) (hs : w.stage = 21) (hr : w.reply = some r)
    (i j k : BitVec 2) : exec (.sgjoin i j k) s = .next (if r.getLsbD 0 then trapped s .seggap (BitVec.ofNat 64 (r.toNat / 2 % 2 ^ 32))
      else after 4 s) := by
  obtain ⟨hstage, hreply⟩ := waitOr_again hw 11 0
  have hstage' : (waitOr s 11 0).stage = joinStage := hstage.trans hs
  refine (issue_sig h hx hf _ _).trans ?_
  simp only [hstage', if_true, hreply.trans hr, bit_eq_getLsbD]
  cases r.getLsbD 0 <;> rfl

end Answers

/-! ### Images (R259, R411) -/

section Images
variable {s : State} (h : Solo s) (hx : hasExtS (runCore s) = true) (hf : featureFor s (ctxId s) 2 = true) {l : SigLease}
  (hl : sigLeaseOf s (home s) (ctxId s) = some l) (hr : released s = true) (hidle : l.queue = []) {i : BitVec 2} {b : SReg}
  (hi : i.toNat < l.slots.length) (hwin : InWindow0 s (rS s b) 64)
  (hfit : windowOff (rS s b) + imageSize l ≤ scratchSize (partNow s)) (hq : Quiet s (window0Loc s (rS s b)) (imageSize l))
include h hx hf hl hr hidle hi hwin hfit hq

omit h hx hf hr hidle hq in
theorem imageCheck_ok : imageCheck s i (rS s b) = .ok (l, windowOff (rS s b)) := by
  have his : ∀ x ∈ [i.toNat], x < l.slots.length := by simpa using hi
  simp only [imageCheck, hwin.2.1, ne_eq, not_true, if_false, sigCheck_ok hl his, winBytes_fits hwin.1 hfit]

/-- The slot that an image names. -/
def imagedSlot (s : State) (l : SigLease) (i : BitVec 2) : SigSlot :=
  tgetD (clauseOf s (clauseOfCore (home s))).sigSlots (l.slots.getD i.toNat 0) ⟨0, 0, []⟩

theorem exec_sgst : exec (.sgst i b) s = .next (after 4 (storeAt s (ctxId s) (window0Loc s (rS s b))
    (leBytes 4 (imagedSlot s l i).startTag.toNat ++ leBytes 4 (imagedSlot s l i).endTag.toNat ++ leBytes 8 (l.n * 256 + l.d) ++
      (List.range (sigTotal l.d l.n)).flatMap (fun e => leBytes 4 (tgetD (imagedSlot s l i).entries e 0).toNat)))) := by
  refine (issue_sig h hx hf _ _).trans ?_
  simp only [imageCheck_ok hl hi hwin hfit, orTrap, withWin_quiet hwin.1 hfit hq, kick_released hr, hidle, List.isEmpty_nil, Bool.not_true,
    Bool.false_eq_true, if_false]
  rfl

/-- The slot that SGLD reads from an image. -/
def loadedSlot (s : State) (l : SigLease) (b : SReg) : SigSlot :=
  ⟨BitVec.ofNat 32 (readNat s (window0Loc s (rS s b)) 4), BitVec.ofNat 32 (readNat s (window0Loc s (rS s b) + 4) 4),
    (List.range (sigTotal l.d l.n)).foldl (fun t k => tput 0 t k (BitVec.ofNat 32 (readNat s (window0Loc s (rS s b) + 16 + 4 * k) 4))) []⟩

theorem exec_sgld (hd : bits (readWord s (window0Loc s (rS s b) + 8)) 4 0 = l.d)
    (hn : bits (readWord s (window0Loc s (rS s b) + 8)) 11 8 = l.n) :
    exec (.sgld i b) s = .next (after 4 (modClause s (clauseOfCore (home s)) (fun c => { c with
      sigSlots := tset c.sigSlots (l.slots.getD i.toNat 0) (loadedSlot s l b) }))) := by
  have hsame : ¬(bits (readWord s (window0Loc s (rS s b) + 8)) 4 0 ≠ l.d ∨ bits (readWord s (window0Loc s (rS s b) + 8)) 11 8 ≠ l.n) :=
    not_or.2 ⟨not_not.2 hd, not_not.2 hn⟩
  refine (issue_sig h hx hf _ _).trans ?_
  unfold window0Loc at hsame
  simp only [imageCheck_ok hl hi hwin hfit, orTrap, withWin_quiet hwin.1 hfit hq, kick_released hr, hidle, List.isEmpty_nil, Bool.not_true,
    Bool.false_eq_true, if_false, if_neg hsame]
  rfl

end Images

end Sys2Proof.Machine

namespace Sys2Proof
open Machine

/-- Settles O40: a lease is entered for a context that has none left (`sigLeaseOf_sigCleared`, `sigEnter_enters`); a command follows those of
its lease's queue (`sigLeaseOf_queued`); SGLD's lanes by `putLanes_reads`. -/
theorem signatureInstructions : Obligations.SignatureInstructions := by
  intro s i j k v a b c h hx hf cl x mine d n q done
  have hd : bits (rS s b) 4 0 = d := bits_low ..
  have hn : bits (rS s b) 11 8 = n := rfl
  have hqs : bits (rS s b) 18 16 = q := rfl
  have hact : actAt (sigCleared s) (sigCleared s).cur = actAt s s.cur := (congrArg _ (cur_sigCleared s)).trans (actAt_sigCleared s _)
  refine ⟨fun hi => ?_, fun w hw hs hm => exec_sgcfg_granted h hx hf a b hw hs hm, fun l hl hcore hctx hroom hr hil hjl hkl => ?_,
    fun w r hw hs hr => ?_, fun hm => ⟨sigQueued_noLease h hx hf hm .., sigQueued_noLease h hx hf hm .., sigQueued_noLease h hx hf hm ..⟩⟩
  · intro other free fits
    refine ⟨exec_sgcfg_badShape h hx hf a b hi hd hn hqs, fun hidle hr => ⟨fun hq => ?_, fun hfits hreqs hfree => ?_, fun hfits hwait => ?_⟩,
      fun l hl hbusy hok hr => exec_sgcfg_busy h hx hf a b hi hd hn hqs hr hok hl hbusy⟩
    · have hexec := exec_sgcfg_idle h hx hf a b hi hd hn hqs hr hidle (.inl hq)
      rw [if_pos hq] at hexec
      refine ⟨after 4 (wS (sigCleared s) a 0), hexec, act_after_wS h hact 4 a 0, ?_, ?_,
        fun hm => by rw [sigCleared_none s hm]⟩
      · exact (sigLeaseOf_congr ((modAct_clauses ..).trans (wS_clauses ..)) _ _).trans (sigLeaseOf_sigCleared s)
      · rw [clauseOf_after, clauseOf_wS]
        exact sigFree_sigCleared s
    · have hexec := exec_sgcfg_idle h hx hf a b hi hd hn hqs hr hidle (.inr hfits)
      rw [if_neg (Nat.ne_of_gt hfits.1), if_pos ⟨hreqs, hfree⟩] at hexec
      obtain ⟨hlease, hslots⟩ := sigEnter_enters (sigLeaseOf_sigCleared s) d n q
      rw [sigFree_sigCleared] at hlease hslots
      refine ⟨after 4 (wS (sigEnter (sigCleared s) (home s) (ctxId s) d n q) a 0), _, hexec,
        act_after_wS (t := sigEnter _ _ _ _ _ _) h hact 4 a 0,
        (sigLeaseOf_congr ((modAct_clauses ..).trans (wS_clauses ..)) _ _).trans hlease, rfl, rfl, rfl, rfl, fun p hp => ?_⟩
      rw [clauseOf_after, clauseOf_wS]
      exact hslots p hp
    · have hexec := exec_sgcfg_idle h hx hf a b hi hd hn hqs hr hidle (.inr hfits)
      have hshort : ¬((clauseOf s (clauseOfCore (home s))).sigReqs = [] ∧ q ≤ (freeBesides s).length) := by
        rintro ⟨hreqs, hle⟩
        exact hwait.elim (· hreqs) (Nat.not_lt.2 hle)
      rw [if_neg (Nat.ne_of_gt hfits.1), if_neg hshort] at hexec
      refine ⟨_, hexec, act_blocked (t := modClause _ _ _) h hact _, ?_⟩
      refine (congrArg Clause.sigReqs ((clauseOf_blocked ..).trans (clauseOf_modClause_self ..))).trans ?_
      exact congrArg (· ++ _) (clauseOf_sigCleared s).1
  · intro queued on
    have one {y : Nat} (hy : y < l.slots.length) : ∀ z ∈ [y], z < l.slots.length := by simpa using hy
    have goesOn {m : Instr} {is : List Nat} (his : ∀ y ∈ is, y < l.slots.length) (r : State → SigCmd)
        (hexec : exec m s = issue (sigGate m) (sigQueued is r) s) : on m (r s) :=
      sigQueued_goesOn hl hcore hctx hroom hr h hx hf his hexec
    refine ⟨goesOn (one hil) (fun s => .zero i.toNat (low32 (rS s b))) rfl,
      goesOn (one hil) (fun s => .tag i.toNat (low32 (rS s b)) (low32 (rS s c))) rfl, goesOn (one hil) (fun s => .step i.toNat (rV s v)) rfl,
      goesOn (is := [i.toNat, j.toNat]) (by simp [hil, hjl]) (fun _ => .log i.toNat j.toNat) rfl,
      fun hi => sgjoin_waits hl hcore hctx hroom hr h hx hf hi (by simp [hil, hjl, hkl]), ?_⟩
    intro p slot loc hidle hwin hfit hq
    rw [Nat.add_assoc] at hfit
    refine ⟨exec_sgst h hx hf hl hr hidle hil hwin hfit hq, fun hld hln => ?_⟩
    refine ⟨_, loadedSlot s l b, exec_sgld h hx hf hl hr hidle hil hwin hfit hq ((bits_low ..).trans hld) hln,
      act_after h 4 (actAt_modClause ..), ?_, rfl, rfl, (putLanes_reads _ _).2⟩
    rw [clauseOf_after, clauseOf_modClause_self]
    exact tget_tset_self ..
  · have hreply := exec_sgjoin_replied h hx hf hw hs hr i j k
    exact ⟨fun hbit => hreply.trans (by rw [hbit]; rfl), fun hbit => hreply.trans (by rw [hbit]; rfl)⟩

end Sys2Proof
end

section
/-!
SUPPORT. Descriptors and rotations (R246, R253, R255): what a change of them leaves, and the end of a sweep.
-/

namespace Sys2Proof.Machine

/-- The context of the current activation holds a slot of its core. -/
theorem frameHere_current {s : State} (h : (actAt s s.cur).isSome = true) : frameHere s (home s) (ctxId s) = true := by
  have hslot : holdsSlot (coreOf s (home s)) (ctxId s) = true := by
    unfold home ctxId
    generalize s.cur = cur at h ⊢
    obtain ⟨core, away⟩ := cur
    cases away with
    | none =>
      cases hf : (coreOf s core).active with
      | none => simp [actAt, hf] at h
      | some f => simp [holdsSlot, ctxAt, hf]
    | some x =>
      cases hf : (coreOf s core).away.find? (fun f => f.ctx == x) with
      | none => simp [actAt, hf] at h
      | some f =>
        have hany : (coreOf s core).away.any (fun f => f.ctx == x) = true :=
          List.any_eq_true.2 ⟨f, List.mem_of_find?_eq_some hf, by simpa using List.find?_some hf⟩
        simp only [holdsSlot, ctxAt, hany, Bool.or_true]
  rw [frameHere, hslot, Bool.true_or]

theorem partOf_current {s : State} (h : (actAt s s.cur).isSome = true) : partOf s (home s) (ctxId s) = partNow s :=
  partOf_frameHere (frameHere_current h)

/-! ### What changes of descriptors and rotations leave -/

/-- A state differs from another in cores alone, and keeps what no change of a descriptor or of a rotation touches. -/
structure ParserOnly (s u : State) : Prop where
  cores : ∃ x, u = { s with cores := x }
  part : ∀ c x, partOf u c x = partOf s c x
  acts : ∀ c, actAt u c = actAt s c
  ctxs : ∀ c, ctxAt u c = ctxAt s c
  waiting : ∀ c, (coreOf u c).waiting = (coreOf s c).waiting

namespace ParserOnly
variable {s u v : State}

theorem trans (h : ParserOnly s u) (h' : ParserOnly u v) : ParserOnly s v := by
  obtain ⟨x, rfl⟩ := h.cores
  obtain ⟨y, rfl⟩ := h'.cores
  exact ⟨⟨y, rfl⟩, fun c x => (h'.part c x).trans (h.part c x), fun c => (h'.acts c).trans (h.acts c), fun c => (h'.ctxs c).trans (h.ctxs c),
    fun c => (h'.waiting c).trans (h.waiting c)⟩

/-- A core that keeps its frames, its save area and its waiting messages, and the registers of its contexts. -/
theorem of_modCore (s : State) (c : Nat) {f : Core → Core} (hactive : ∀ k, (f k).active = k.active) (haway : ∀ k, (f k).away = k.away)
    (hslot : ∀ k x, holdsSlot (f k) x = holdsSlot k x) (hsaveb : ∀ k, (f k).saveb = k.saveb) (hwaiting : ∀ k, (f k).waiting = k.waiting)
    (hregs : ∀ x, (tgetD (f (coreOf s c)).ctxs x CtxCore.init).regs = (ctxOf s c x).regs) : ParserOnly s (modCore s c f) := by
  refine ⟨⟨_, rfl⟩, fun d x => ?_, fun d => actAt_modCore s c hactive haway d, fun d => ctxAt_modCore s c hactive d,
    fun d => ?_⟩
  · by_cases h : d = c
    · subst h
      have hword : tableWord (modCore s d f) (frameLoc (modCore s d f) d x + 0x980) = tableWord s (frameLoc s d x + 0x980) := by
        simp only [frameLoc, coreOf_modCore_self, hsaveb]
        rfl
      simp only [partOf, coreOf_modCore_self, hslot, hsaveb, ctxOf, hregs, hword]
    · have hword : tableWord (modCore s c f) (frameLoc (modCore s c f) d x + 0x980) = tableWord s (frameLoc s d x + 0x980) := by
        simp only [frameLoc, coreOf_modCore_ne _ _ h]
        rfl
      simp only [partOf, coreOf_modCore_ne _ _ h, ctxOf, hword]
  · by_cases h : d = c
    · subst h; rw [coreOf_modCore_self, hwaiting]
    · rw [coreOf_modCore_ne _ _ h]

theorem modRotation (s : State) (c : Nat) (g : Core → List (Nat × Nat)) : ParserOnly s (modCore s c (fun k => { k with rotation := g k })) :=
  of_modCore s c (fun _ => rfl) (fun _ => rfl) (fun _ _ => rfl) (fun _ => rfl) (fun _ => rfl) (fun _ => rfl)

theorem modDescs (s : State) (c x : Nat) (g : CtxCore → Tab Desc) : ParserOnly s (modCtx s c x (fun k => { k with descs := g k })) := by
  refine of_modCore s c (fun _ => rfl) (fun _ => rfl) (fun _ _ => rfl) (fun _ => rfl) (fun _ => rfl) (fun y => ?_)
  by_cases h : y = x
  · rw [h, tgetD_tset_self]
  · rw [tgetD_tset_ne _ _ _ h, ctxOf]

theorem modDesc (s : State) (c x t : Nat) (f : Desc → Desc) : ParserOnly s (modDesc s c x t f) := modDescs ..

/-! What follows for the parts of a state. -/

variable (h : ParserOnly s u)
include h

theorem cur : u.cur = s.cur := by obtain ⟨x, rfl⟩ := h.cores; rfl
theorem net : u.net = s.net := by obtain ⟨x, rfl⟩ := h.cores; rfl
theorem ids : u.ids = s.ids := by obtain ⟨x, rfl⟩ := h.cores; rfl
theorem evec : u.evec = s.evec := by obtain ⟨x, rfl⟩ := h.cores; rfl
theorem evHome : u.evHome = s.evHome := by obtain ⟨x, rfl⟩ := h.cores; rfl
theorem launches : u.launches = s.launches := by obtain ⟨x, rfl⟩ := h.cores; rfl
theorem notesOut (c x : Nat) : notesOut u c x = Machine.notesOut s c x := by obtain ⟨x, rfl⟩ := h.cores; rfl
theorem homeDie (x : Nat) : homeDie u x = Machine.homeDie s x := by obtain ⟨x, rfl⟩ := h.cores; rfl
theorem vectorAt (x : Nat) (e : Option Nat) : vectorAt u x e = Machine.vectorAt s x e := by obtain ⟨x, rfl⟩ := h.cores; rfl
theorem dieOf (e : Nat) : dieOf u e = Machine.dieOf s e := by obtain ⟨x, rfl⟩ := h.cores; rfl
theorem readByte (l : Nat) : readByte u l = Machine.readByte s l := by obtain ⟨x, rfl⟩ := h.cores; rfl
theorem readNat (l n : Nat) : readNat u l n = Machine.readNat s l n := by obtain ⟨x, rfl⟩ := h.cores; rfl
theorem readWord (l : Nat) : readWord u l = Machine.readWord s l := by obtain ⟨x, rfl⟩ := h.cores; rfl
theorem sameMemory : SameMemory s u := h.readByte

theorem recordLoc (c x : Nat) (d : Desc) (i : Nat) : recordLoc u c x d i = Machine.recordLoc s c x d i := by
  rw [Machine.recordLoc, Machine.recordLoc, h.part]

theorem elemWord (c x : Nat) (d : Desc) (i : Nat) : elemWord u c x d i = Machine.elemWord s c x d i := by
  rw [Machine.elemWord, Machine.elemWord, h.recordLoc, h.readWord]

theorem evtDue (c x : Nat) (d : Desc) (v : EvVec) : evtDue u c x d v = Machine.evtDue s c x d v := by
  simp only [Machine.evtDue, h.elemWord]

theorem evtLane (c x : Nat) (d : Desc) : evtLane u c x d = Machine.evtLane s c x d := by simp only [Machine.evtLane, h.elemWord]

theorem skipBit (c x : Nat) (d : Desc) (i : Nat) : skipBit u c x d i = Machine.skipBit s c x d i := by
  simp only [Machine.skipBit, h.part, h.readByte]

theorem actNow : actAt u u.cur = actAt s s.cur := by rw [h.acts, h.cur]

/-- A descriptor of the current activation, once an instruction has completed. -/
theorem descNow (n t : Nat) : tget (ctxNow (after n u)).descs t = descOf u (home s) (ctxId s) t := by
  have hid : ctxId u = ctxId s := by rw [ctxId, ctxId, h.ctxs, h.cur]
  rw [after, modAct, ctxNow_setAct, ctxNow, hid, home, h.cur, descOf, home]

end ParserOnly

theorem rotation_after (n : Nat) (s : State) (c : Nat) : (coreOf (after n s) c).rotation = (coreOf s c).rotation := by
  unfold after modAct setAct setActAt
  by_cases h : c = s.cur.core
  · subst h
    cases s.cur.away <;> simp only [coreOf_modCore_self]
  · cases s.cur.away <;> simp only [coreOf_modCore_ne _ _ h]

/-! ### A descriptor changed, and its place in the rotation -/

section Change
variable (s : State) (c x t : Nat)

theorem descOf_modDesc (f : Desc → Desc) : descOf (modDesc s c x t f) c x t = (descOf s c x t).map f := by
  have hctx : descOf (modDesc s c x t f) c x t = tget (ctxOf (modDesc s c x t f) c x).descs t := rfl
  rw [hctx, modDesc, ctxOf_modCtx_self, descOf]
  simp only []
  cases h : tget (ctxOf s c x).descs t with
  | none => exact h
  | some d => exact tget_tset_self ..

omit s c x t in
/-- What a descriptor that is there comes to. -/
theorem descOf_of_map {s u : State} {c x t : Nat} {d : Desc} {f : Desc → Desc} (hd : descOf s c x t = some d)
    (hf : descOf u c x t = (descOf s c x t).map f) : descOf u c x t = some (f d) := by rw [hf, hd, Option.map_some]

theorem rotation_modDesc (f : Desc → Desc) : (coreOf (modDesc s c x t f) c).rotation = (coreOf s c).rotation := by
  rw [modDesc, coreOf_modCtx_self]

theorem descOf_modRotation (g : Core → List (Nat × Nat)) : descOf (modCore s c (fun k => { k with rotation := g k })) c x t = descOf s c x t := by
  rw [descOf, ctxOf_modCore s c c x (f := fun k => { k with rotation := g k }) (fun _ => rfl), descOf]

/-- A descriptor whose sweep starts. -/
def Desc.started (d : Desc) : Desc := { d with active := true, asleep := false, beat := 0, ran := false, missed := false }

theorem needSweep_eq : needSweep s c x t =
    modCore (modDesc s c x t Desc.started) c (fun k => { k with rotation := k.rotation ++ [(x, t)] }) := rfl

theorem needSweep_only : ParserOnly s (needSweep s c x t) := by
  rw [needSweep_eq]
  exact (ParserOnly.modDesc ..).trans (ParserOnly.modRotation ..)

theorem descOf_needSweep : descOf (needSweep s c x t) c x t = (descOf s c x t).map Desc.started := by
  rw [needSweep_eq, descOf_modRotation, descOf_modDesc]

theorem rotation_needSweep : (coreOf (needSweep s c x t) c).rotation = (coreOf s c).rotation ++ [(x, t)] := by
  rw [needSweep_eq, coreOf_modCore_self, rotation_modDesc]

/-! ### The end of a sweep (R253) -/

/-- The state once a sweep has stopped, its end not yet performed. -/
def sweepEnding (code : Nat) : State :=
  modCore (modDesc s c x t (fun d => { d with active := true, asleep := false, stopping := false, endCode := code, ending := true })) c
    (fun k => { k with rotation := k.rotation.filter (fun r => r != (x, t)) })

theorem sweepEnding_only (code : Nat) : ParserOnly s (sweepEnding s c x t code) := (ParserOnly.modDesc ..).trans (ParserOnly.modRotation ..)

theorem descOf_sweepEnding (code : Nat) : descOf (sweepEnding s c x t code) c x t =
    (descOf s c x t).map (fun d => { d with active := true, asleep := false, stopping := false, endCode := code, ending := true }) := by
  rw [sweepEnding, descOf_modRotation, descOf_modDesc]

theorem rotation_sweepEnding (code : Nat) :
    (coreOf (sweepEnding s c x t code) c).rotation = (coreOf s c).rotation.filter (fun r => r ≠ (x, t)) := by
  rw [sweepEnding, coreOf_modCore_self, rotation_modDesc]
  exact List.filter_congr (fun r _ => by simp [bne, beq_eq_decide])

/-- The state once its end is performed, but for its event bit. -/
def sweepEnded (code : Nat) : State := modDesc (sweepEnding s c x t code) c x t (fun d => { d with active := false, ending := false })

theorem sweepEnded_only (code : Nat) : ParserOnly s (sweepEnded s c x t code) := (sweepEnding_only ..).trans (ParserOnly.modDesc ..)

theorem descOf_sweepEnded (code : Nat) : descOf (sweepEnded s c x t code) c x t =
    (descOf s c x t).map (fun d => { d with active := false, asleep := false, stopping := false, endCode := code, ending := false }) := by
  rw [sweepEnded, descOf_modDesc, descOf_sweepEnding, Option.map_map]
  rfl

theorem rotation_sweepEnded (code : Nat) :
    (coreOf (sweepEnded s c x t code) c).rotation = (coreOf s c).rotation.filter (fun r => r ≠ (x, t)) := by
  rw [sweepEnded, rotation_modDesc, rotation_sweepEnding]

section End
variable (d : Desc) (code : Nat)

/-- The end of a sweep waits for the notes that its core has sent. -/
theorem sweepEnd_held (hn : notesOut s c x = true) : sweepEnd s c x t d code = sweepEnding s c x t code :=
  if_pos (((sweepEnding_only s c x t code).notesOut c x).trans hn)

variable (hn : notesOut s c x = false)
include hn

theorem sweepEnd_performed : sweepEnd s c x t d code =
    if d.e0.getLsbD 46 then completionEvent (sweepEnded s c x t code) x (bits d.e0 45 38) else sweepEnded s c x t code := by
  have hnotes : ¬notesOut (sweepEnding s c x t code) c x = true := by rw [(sweepEnding_only s c x t code).notesOut, hn]; exact nofun
  refine (if_neg hnotes).trans ?_
  rw [← bit_eq_getLsbD]
  rfl

theorem sweepEnd_silent (h : d.e0.getLsbD 46 = false) : sweepEnd s c x t d code = sweepEnded s c x t code := by
  rw [sweepEnd_performed s c x t d code hn, h]
  rfl

end End

end Change

end Sys2Proof.Machine
end

section
/-!
SUPPORT. Element instructions of a parser's lane (R402-R404): what each leaves, and the limits of rows and successor lists.
-/

namespace Sys2Proof.Machine

theorem mapM_eq_map {α β : Type} {f : α → Option β} {g : α → β} (l : List α) (h : ∀ x ∈ l, f x = some (g x)) : l.mapM f = some (l.map g) := by
  induction l with
  | nil => rfl
  | cons x l ih =>
    rw [List.mapM_cons, h x List.mem_cons_self, ih (fun y hy => h y (List.mem_cons_of_mem x hy))]
    rfl

/-- A lane once register a has taken a value, and it has gone on. -/
def LaneRun.wrote (l : LaneRun) (a v : Nat) : LaneRun :=
  { l with x := (List.range 8).map (fun k => if k = a then v else l.x.getD k 0), epc := l.epc + 1 }

theorem LaneRun.wrote_eq {l : LaneRun} (h : l.x.length = 8) (a v : Nat) :
    { l with x := l.x.zipIdx.map (fun y => if y.2 = a then v else y.1), epc := l.epc + 1 } = l.wrote a v := by
  have hx : l.x.zipIdx.map (fun y => if y.2 = a then v else y.1) = (List.range 8).map (fun k => if k = a then v else l.x.getD k 0) := by
    refine List.ext_getElem (by simp [h]) (fun k hk _ => ?_)
    have hk' : k < l.x.length := by simpa using hk
    simp [List.getElem?_eq_getElem hk']
  rw [LaneRun.wrote, hx]

/-! ### The scratchpad as a lane reads it -/

section Pad
variable (s : State) (core ctx : Nat)

/-- Bytes lie in the scratchpad. -/
def PadFits (off n : Nat) : Prop := off + n ≤ scratchSize (partOf s core ctx)

/-- The value of bytes of the scratchpad. -/
def padNat (off n : Nat) : Nat := readNat s (scratchBase core (partOf s core ctx) + off) n

variable {s core ctx} (hp : poisonAbout s = false) {off n : Nat}

theorem padVal_outside (hf : ¬PadFits s core ctx off n) : padVal s core ctx off n = none := by
  have hloc : padLoc s core ctx off n = none := if_neg (fun h => hf h.1)
  rw [padVal, hloc, Option.map_none]

include hp

theorem padVal_inside (hf : PadFits s core ctx off n) : padVal s core ctx off n = some (padNat s core ctx off n) := by
  have hpoison : (poisonedIn s (scratchBase core (partOf s core ctx) + off) n).isNone = true := by simp [poisonedIn, hp]
  have hloc : padLoc s core ctx off n = some (scratchBase core (partOf s core ctx) + off) := if_pos ⟨hf, hpoison⟩
  rw [padVal, hloc, Option.map_some]
  rfl

/-- A pair of bounds inside the scratchpad. -/
theorem bounds_inside (hf : PadFits s core ctx off 8) {α : Type} (f : Nat → Nat → Option α) :
    ((padVal s core ctx off 4).bind fun lo => (padVal s core ctx (off + 4) 4).bind (f lo)) =
      f (padNat s core ctx off 4) (padNat s core ctx (off + 4) 4) := by
  have hlo : PadFits s core ctx off 4 := by unfold PadFits at *; omega
  have hhi : PadFits s core ctx (off + 4) 4 := by unfold PadFits at *; omega
  rw [padVal_inside hp hlo, padVal_inside hp hhi, Option.bind_some, Option.bind_some]

/-- A pair of bounds of which some byte lies outside. -/
theorem bounds_outside (hf : ¬PadFits s core ctx off 8) {α : Type} (f : Nat → Nat → Option α) :
    ((padVal s core ctx off 4).bind fun lo => (padVal s core ctx (off + 4) 4).bind (f lo)) = none := by
  by_cases hlo : PadFits s core ctx off 4
  · have hhi : ¬PadFits s core ctx (off + 4) 4 := by unfold PadFits at *; omega
    rw [padVal_inside hp hlo, padVal_outside hhi, Option.bind_some, Option.bind_none]
  · rw [padVal_outside hlo, Option.bind_none]

end Pad

/-! ### Rows (R403) -/

section Row
variable (s : State) (core ctx : Nat) (d : Desc) (beat : Nat) (vals : List Nat) (lo k : Nat)

/-- The column of a row's entry. -/
def rowCol : Nat := padNat s core ctx (bits d.e2 39 20 + 4 * (lo + k)) 4

/-- The value of that column: of the lane's own beat, as it was at its start. -/
def rowValue : Nat :=
  if rowCol s core ctx d lo k / 16 = beat then vals.getD (rowCol s core ctx d lo k % 16) 0
  else readNat s (recordLoc s core ctx d (rowCol s core ctx d lo k)) d.size

/-- A row's entry: coefficient times value. -/
def rowTerm : Xv :=
  (d.fmt.decode (padNat s core ctx (bits d.e2 59 40 + d.size * (lo + k)) d.size)).mul (d.fmt.decode (rowValue s core ctx d beat vals lo k))

/-- A row's entry as the lane reads it, or an error. -/
def readTerm : Option Xv :=
  (padVal s core ctx (bits d.e2 39 20 + 4 * (lo + k)) 4).bind fun j =>
  (padVal s core ctx (bits d.e2 59 40 + d.size * (lo + k)) d.size).bind fun c =>
    if d.count ≤ j then none
    else
      let v := if j / 16 = beat then vals.getD (j % 16) 0 else readNat s (recordLoc s core ctx d j) d.size
      some ((d.fmt.decode c).mul (d.fmt.decode v))

theorem rowTerms_eq (i : Nat) : rowTerms s core ctx d beat vals i =
    (padVal s core ctx (bits d.e2 19 0 + 4 * i) 4).bind fun lo => (padVal s core ctx (bits d.e2 19 0 + 4 * i + 4) 4).bind fun hi =>
      if hi < lo ∨ 256 < hi - lo then none else (List.range (hi - lo)).mapM (readTerm s core ctx d beat vals lo) := rfl

variable {s core ctx d beat vals lo k} (hp : poisonAbout s = false)
include hp

theorem readTerm_inside (hcol : PadFits s core ctx (bits d.e2 39 20 + 4 * (lo + k)) 4)
    (hcoef : PadFits s core ctx (bits d.e2 59 40 + d.size * (lo + k)) d.size) (hj : rowCol s core ctx d lo k < d.count) :
    readTerm s core ctx d beat vals lo k = some (rowTerm s core ctx d beat vals lo k) := by
  rw [readTerm, padVal_inside hp hcol, padVal_inside hp hcoef, Option.bind_some, Option.bind_some]
  exact if_neg (Nat.not_le.2 hj)

variable {i p : Nat} (hptr : bits d.e2 19 0 + 4 * i = p)
include hptr

theorem rowTerms_inside (hf : PadFits s core ctx p 8) (hle : padNat s core ctx p 4 ≤ padNat s core ctx (p + 4) 4)
    (hmax : padNat s core ctx (p + 4) 4 - padNat s core ctx p 4 ≤ 256)
    (hterms : ∀ k < padNat s core ctx (p + 4) 4 - padNat s core ctx p 4,
      readTerm s core ctx d beat vals (padNat s core ctx p 4) k = some (rowTerm s core ctx d beat vals (padNat s core ctx p 4) k)) :
    rowTerms s core ctx d beat vals i = some ((List.range (padNat s core ctx (p + 4) 4 - padNat s core ctx p 4)).map
      (rowTerm s core ctx d beat vals (padNat s core ctx p 4))) := by
  rw [rowTerms_eq, hptr, bounds_inside hp hf, if_neg (not_or.2 ⟨Nat.not_lt.2 hle, Nat.not_lt.2 hmax⟩)]
  exact mapM_eq_map _ (fun k hk => hterms k (List.mem_range.1 hk))

theorem rowTerms_bad (hbad : ¬PadFits s core ctx p 8 ∨ padNat s core ctx (p + 4) 4 < padNat s core ctx p 4 ∨
    padNat s core ctx p 4 + 256 < padNat s core ctx (p + 4) 4) : rowTerms s core ctx d beat vals i = none := by
  rw [rowTerms_eq, hptr]
  by_cases hf : PadFits s core ctx p 8
  · rw [bounds_inside hp hf, if_pos (by have := hbad.resolve_left (not_not.2 hf); omega)]
  · exact bounds_outside hp hf _

end Row

/-! ### Successor lists (R404) -/

section Successor
variable (s : State) (core ctx t : Nat) (d : Desc) (lo k : Nat)

/-- A successor entry's word. -/
def succWord : Nat := padNat s core ctx (bits d.e3 59 40 + 8 * (lo + k)) 8

/-- The core that a successor entry's link names. -/
def succFar (w : Nat) : Option Node := if w / 2 ^ 18 % 2 = 1 then cmapEntry s (ctxOf s core ctx).entry (w / 2 ^ 19 % 2 ^ 21) else none

/-- A successor. -/
def succOf (w : Nat) : Succ := ⟨w % 65536, w / 2 ^ 16 % 4, succFar s core ctx w⟩

/-- A successor entry as the lane reads it, or an error. -/
def readSucc : Option Succ :=
  (padVal s core ctx (bits d.e3 59 40 + 8 * (lo + k)) 8).bind fun e =>
    let elem := e % 65536
    let desc := e / 2 ^ 16 % 4
    if e / 2 ^ 18 % 2 = 1 then
      match cmapEntry s (ctxOf s core ctx).entry (e / 2 ^ 19 % 2 ^ 21) with
      | some n => if n.host then none else some ⟨elem, desc, some n⟩
      | none => none
    else if desc = t ∧ d.count ≤ elem then none
    else some ⟨elem, desc, none⟩

theorem successors_eq (i : Nat) : successors s core ctx t d i =
    (padVal s core ctx (bits d.e3 39 20 + 4 * i) 4).bind fun lo => (padVal s core ctx (bits d.e3 39 20 + 4 * i + 4) 4).bind fun hi =>
      if hi < lo ∨ 64 < hi - lo then none else (List.range (hi - lo)).mapM (readSucc s core ctx t d lo) := rfl

variable {s core ctx t d lo k} (hp : poisonAbout s = false)
include hp

theorem readSucc_inside (hf : PadFits s core ctx (bits d.e3 59 40 + 8 * (lo + k)) 8)
    (hfar : succWord s core ctx d lo k / 2 ^ 18 % 2 = 1 → ∃ n, succFar s core ctx (succWord s core ctx d lo k) = some n ∧ n.host = false)
    (hown : succWord s core ctx d lo k / 2 ^ 18 % 2 = 0 → succWord s core ctx d lo k / 2 ^ 16 % 4 = t →
      succWord s core ctx d lo k % 65536 < d.count) :
    readSucc s core ctx t d lo k = some (succOf s core ctx (succWord s core ctx d lo k)) := by
  unfold succWord succOf succFar at *
  rw [readSucc, padVal_inside hp hf, Option.bind_some]
  generalize padNat s core ctx (bits d.e3 59 40 + 8 * (lo + k)) 8 = w at hfar hown ⊢
  simp only [] at hfar hown ⊢
  by_cases h : w / 2 ^ 18 % 2 = 1
  · obtain ⟨n, hn, hhost⟩ := hfar h
    simp only [if_pos h] at hn ⊢
    simp only [hn, hhost, Bool.false_eq_true, if_false]
  · have hinside : ¬(w / 2 ^ 16 % 4 = t ∧ d.count ≤ w % 65536) := fun hbad => Nat.not_lt.2 hbad.2 (hown (by omega) hbad.1)
    simp only [if_neg h, if_neg hinside]

variable {i p : Nat} (hptr : bits d.e3 39 20 + 4 * i = p)
include hptr

theorem successors_inside (hf : PadFits s core ctx p 8) (hle : padNat s core ctx p 4 ≤ padNat s core ctx (p + 4) 4)
    (hmax : padNat s core ctx (p + 4) 4 - padNat s core ctx p 4 ≤ 64)
    (hall : ∀ k < padNat s core ctx (p + 4) 4 - padNat s core ctx p 4, readSucc s core ctx t d (padNat s core ctx p 4) k =
      some (succOf s core ctx (succWord s core ctx d (padNat s core ctx p 4) k))) :
    successors s core ctx t d i = some ((List.range (padNat s core ctx (p + 4) 4 - padNat s core ctx p 4)).map
      (fun k => succOf s core ctx (succWord s core ctx d (padNat s core ctx p 4) k))) := by
  rw [successors_eq, hptr, bounds_inside hp hf, if_neg (not_or.2 ⟨Nat.not_lt.2 hle, Nat.not_lt.2 hmax⟩)]
  exact mapM_eq_map _ (fun k hk => hall k (List.mem_range.1 hk))

theorem successors_bad (hbad : ¬PadFits s core ctx p 8 ∨ padNat s core ctx (p + 4) 4 < padNat s core ctx p 4 ∨
    padNat s core ctx p 4 + 64 < padNat s core ctx (p + 4) 4) : successors s core ctx t d i = none := by
  rw [successors_eq, hptr]
  by_cases hf : PadFits s core ctx p 8
  · rw [bounds_inside hp hf, if_pos (by have := hbad.resolve_left (not_not.2 hf); omega)]
  · exact bounds_outside hp hf _

end Successor

/-! ### The steps of a lane (R402) -/

section Steps
variable (s : State) (core ctx t : Nat) (d : Desc) (beat : Nat) (vals : List Nat) (i : Nat) {l : LaneRun} (hx : l.x.length = 8)
include hx

theorem laneStep_ldv (a : Nat) : laneStep s core ctx t d beat vals i l (.ldv a) = some (l.wrote a (vals.getD (i % 16) 0), false) :=
  congrArg (fun l => some (l, false)) (LaneRun.wrote_eq hx _ _)

theorem laneStep_arith (a b c : Nat) :
    laneStep s core ctx t d beat vals i l (.add a b c) =
      some (l.wrote a (d.fmt.sum [d.fmt.decode (l.x.getD b 0), d.fmt.decode (l.x.getD c 0)]).1, false) ∧
    laneStep s core ctx t d beat vals i l (.fma a b c) = some (l.wrote a (d.fmt.sum [d.fmt.decode (l.x.getD a 0),
      (d.fmt.decode (l.x.getD b 0)).mul (d.fmt.decode (l.x.getD c 0))]).1, false) ∧
    laneStep s core ctx t d beat vals i l (.div a b c) =
      some (l.wrote a (d.fmt.div (d.fmt.decode (l.x.getD b 0)) (d.fmt.decode (l.x.getD c 0))).1, false) :=
  ⟨congrArg (fun l => some (l, false)) (LaneRun.wrote_eq hx _ _), congrArg (fun l => some (l, false)) (LaneRun.wrote_eq hx _ _),
    congrArg (fun l => some (l, false)) (LaneRun.wrote_eq hx _ _)⟩

theorem laneStep_ldx (a : Nat) : laneStep s core ctx t d beat vals i l (.ldx a) =
    (padVal s core ctx (bits d.e3 19 0 + d.size * i) d.size).map (fun v => (l.wrote a v, false)) := by
  simp only [laneStep, LaneRun.wrote_eq hx]

theorem laneStep_spdot (a : Nat) (sub : Bool) : laneStep s core ctx t d beat vals i l (.spdot a sub) =
    (rowTerms s core ctx d beat vals i).map (fun ts =>
      (l.wrote a (d.fmt.sum (d.fmt.decode (l.x.getD a 0) :: if sub then ts.map Xv.neg else ts)).1, false)) := by
  simp only [laneStep, LaneRun.wrote_eq hx]

end Steps

end Sys2Proof.Machine
end

section
/-!
SUPPORT. The parser's instructions: descriptors declared and read, sweeps started and stopped, changes sent (R246, R251, R253, R397-R401).
-/

namespace Sys2Proof.Machine

/-! ### Operands -/

/-- The address of a scratchpad offset. -/
theorem window0_offset {off : Nat} (h : off < 2 ^ 20) : rangeOf (BitVec.ofNat 64 (windowBase + off)) = .window 0 ∧
    windowOff (BitVec.ofNat 64 (windowBase + off)) = off := by
  have hw : windowBase = 0x7F000000000000 := by decide
  have hnat : (BitVec.ofNat 64 (windowBase + off)).toNat = windowBase + off := by
    rw [BitVec.toNat_ofNat]
    omega
  rw [rangeOf_window0_iff, windowOff, hnat]
  omega

/-- Three scratchpad offsets that pass a test. -/
theorem lowestPad_none {x y z : Nat} {p q r : Bool} (hp : p = false) (hq : q = false) (hr : r = false) :
    lowestPad [(x, p), (y, q), (z, r)] = none := by
  subst hp hq hr
  rfl

/-- A program whose words all decode. -/
theorem map_some_filterMap {α β : Type} {f : α → Option β} {l : List α} (h : ∀ x ∈ l, (f x).isSome = true) :
    (l.filterMap f).map some = l.map f := by
  induction l with
  | nil => rfl
  | cons x l ih =>
    obtain ⟨y, hy⟩ := Option.isSome_iff_exists.1 (h x List.mem_cons_self)
    rw [List.filterMap_cons_some hy, List.map_cons, List.map_cons, hy, ih (fun z hz => h z (List.mem_cons_of_mem x hz))]

/-! ### ECDECL (R397) -/

/-- A descriptor that ECDECL sets. -/
def declared (s : State) (prog : List ElInstr) : Desc :=
  { e0 := rE s 0, e1 := rE s 1, e2 := rE s 2, e3 := rE s 3, prog := prog, sweeps := 0, endCode := 0, ending := false, under := false,
    active := false, asleep := false, stopping := false, beat := 0, ran := false, missed := false }

section Instructions
variable {s : State} (h : Solo s) (ha : isApp (runCore s) = false) (hf : featureFor s (ctxId s) 1 = true) (t : BitVec 2)
include h ha hf

section Ecdecl

theorem exec_ecdecl {plen prog : Nat} (hplen : (declared s []).plen = plen) (hprog : bits (rE s 1) 39 20 = prog)
    (h0 : bits (rE s 0) 63 47 = 0) (h1 : bits (rE s 1) 63 46 = 0) (hbit : bit (rE s 0) 46 = true → bits (rE s 0) 45 38 ≤ 191)
    (halign : bits (rE s 0) 19 0 % 256 = 0 ∧ prog % 4 = 0 ∧ bits (rE s 1) 19 0 % 8 = 0)
    (hrec : bits (rE s 0) 19 0 + 16 * (declared s []).count ≤ scratchSize (partNow s))
    (hfit : prog + 4 * (plen + 1) ≤ scratchSize (partNow s))
    (hskip : bits (rE s 1) 19 0 + ((declared s []).count + 7) / 8 ≤ scratchSize (partNow s))
    (hq : Quiet s (scratchBase (home s) (partNow s) + prog) (4 * (plen + 1)))
    (hdecode : ∀ w ∈ scratchVals s prog (plen + 1) 4, (decodeEl plen w).isSome = true)
    (hidle : ∀ x, tget (ctxNow s).descs t.toNat = some x → x.active = false ∧ x.asleep = false ∧ x.ending = false) :
    exec (.ecdecl t) s = .next (after 4 (modCtx s (home s) (ctxId s) (fun x => { x with
      descs := tset x.descs t.toNat (declared s ((scratchVals s prog (plen + 1) 4).filterMap (decodeEl plen))) }))) := by
  refine (issue_feature h ha hf _ _).trans ?_
  obtain ⟨hrec0, hprog0, hskip0⟩ := halign
  have hlow : prog < 2 ^ 20 := hprog ▸ bits_lt ..
  obtain ⟨hw, hoff⟩ := window0_offset hlow
  have hlegal : ¬(bits (rE s 0) 63 47 ≠ 0 ∨ bits (rE s 1) 63 46 ≠ 0 ∨ (bit (rE s 0) 46 ∧ 191 < bits (rE s 0) 45 38)) := by
    rintro (hne | hne | ⟨hset, hlt⟩)
    · exact hne h0
    · exact hne h1
    · exact absurd (hbit hset) (Nat.not_le.2 hlt)
  have haligned := fun x y z => lowestPad_none (x := x) (y := y) (z := z) (bne_eq_false_iff_eq.2 hrec0) (bne_eq_false_iff_eq.2 hprog0)
    (bne_eq_false_iff_eq.2 hskip0)
  have hinside := fun x y z => lowestPad_none (x := x) (y := y) (z := z) (decide_eq_false (Nat.not_lt.2 hrec))
    (decide_eq_false (Nat.not_lt.2 hfit)) (decide_eq_false (Nat.not_lt.2 hskip))
  have hgood : (scratchVals s prog (plen + 1) 4).find? (fun w => (decodeEl plen w).isNone) = none :=
    List.find?_eq_none.2 (fun w hw => by simpa using Option.isSome_iff_ne_none.1 (hdecode w hw))
  have hread := fun f : Nat → Res => withWin_quiet (s := s) hw (n := 4 * (plen + 1)) (by rw [hoff]; exact hfit)
    (by rw [window0Loc, hoff]; exact hq) f
  unfold declared at hplen hinside
  simp only [if_neg hlegal, hprog, hplen, haligned, hinside, hread, hoff, hgood]
  cases hd : descOf s (home s) (ctxId s) t.toNat with
  | none => simp only [hd]; rfl
  | some x =>
    obtain ⟨hactive, hasleep, hending⟩ := hidle x hd
    simp only [hactive, hasleep, hd, hending, Option.map_some, Option.getD_some, Bool.or_false, Bool.false_and, Bool.false_eq_true, if_false]
    rfl

end Ecdecl

/-! ### Instructions that name a descriptor (R396, R399, R401) -/

theorem exec_noDesc (hd : tget (ctxNow s).descs t.toNat = none) (a b : SReg) :
    exec (.ecsweep t) s = .next (trapped s .illegal (Instr.ecsweep t).tval) ∧
    exec (.ecstop t) s = .next (trapped s .illegal (Instr.ecstop t).tval) ∧
    exec (.ecstat a t) s = .next (trapped s .illegal (Instr.ecstat a t).tval) ∧
    exec (.ecread a b t) s = .next (trapped s .illegal (Instr.ecread a b t).tval) := by
  have hdesc : descOf s (home s) (ctxId s) t.toNat = none := hd
  refine ⟨(issue_feature h ha hf _ _).trans ?_, (issue_feature h ha hf _ _).trans ?_, (issue_feature h ha hf _ _).trans ?_,
    (issue_feature h ha hf _ _).trans ?_⟩ <;> rw [withDesc, hdesc] <;> rfl

section Named
variable {x : Desc} (hd : tget (ctxNow s).descs t.toNat = some x)
include hd

omit h ha hf in
theorem withDesc_some (i : Instr) (f : Desc → Res) : withDesc i t s f = f x := by
  have hdesc : descOf s (home s) (ctxId s) t.toNat = some x := hd
  rw [withDesc, hdesc]

section Ecsweep
variable (hr : released s = true)
include hr

theorem exec_ecsweep_active (hx : x.active = true) : exec (.ecsweep t) s = .next (after 4 s) :=
  (issue_feature h ha hf _ _).trans (by simp only [withDesc_some t hd, kick_released hr, hx, if_true]; rfl)

theorem exec_ecsweep_starts (hx : x.active = false) : exec (.ecsweep t) s = .next (after 4
    (needSweep (if x.asleep then s else modDesc s (home s) (ctxId s) t.toNat (fun d => { d with endCode := 0 })) (home s) (ctxId s) t.toNat)) :=
  (issue_feature h ha hf _ _).trans (by
    simp only [withDesc_some t hd, kick_released hr, hx, Bool.false_eq_true, if_false]
    cases x.asleep <;> rfl)

end Ecsweep

section Ecstop

omit h ha hf hd in
theorem sweepRuns_iff {core ctx k : Nat} : sweepRuns s core ctx k x = true ↔ (coreOf s core).rotation.head? = some (ctx, k) ∧ x.beat ≠ 0 := by
  rw [sweepRuns, Bool.and_eq_true, beq_iff_eq, bne_iff_ne]

theorem exec_ecstop_still (hx : (x.active = false ∧ x.asleep = false) ∨ x.ending = true) : exec (.ecstop t) s = .next (after 4 s) :=
  (issue_feature h ha hf _ _).trans (by
    simp only [withDesc_some t hd]
    rcases hx with ⟨hactive, hasleep⟩ | hending
    · cases hending : x.ending <;> simp only [hactive, hasleep, Bool.false_and, Bool.or_false, Bool.false_eq_true, if_false, if_true] <;> rfl
    · simp only [hending, if_true]; rfl)

variable (hending : x.ending = false)
include hending

theorem exec_ecstop_running (hx : x.active = true) (hruns : sweepRuns s (home s) (ctxId s) t.toNat x = true) : exec (.ecstop t) s =
    .next (after 4 (modDesc s (home s) (ctxId s) t.toNat (fun d => { d with stopping := true }))) :=
  (issue_feature h ha hf _ _).trans (by
    simp only [withDesc_some t hd, hending, hx, hruns, Bool.and_true, Bool.false_eq_true, if_false, if_true]; rfl)

theorem exec_ecstop_ends (hx : (x.active || x.asleep) = true) (hruns : (x.active && sweepRuns s (home s) (ctxId s) t.toNat x) = false) :
    exec (.ecstop t) s = .next (after 4 (sweepEnd s (home s) (ctxId s) t.toNat x 3)) :=
  (issue_feature h ha hf _ _).trans (by
    simp only [withDesc_some t hd, hending, hx, hruns, Bool.false_eq_true, if_false, if_true]; rfl)

end Ecstop

theorem exec_ecstat (a : SReg) : exec (.ecstat a t) s = .next (after 4 (wS (if (if x.ending then 0 else x.endCode) = 0 then s else acquire s) a
    (BitVec.ofNat 64 (x.sweeps * 2 ^ 32 + dropCount s (home s) (ctxId s) t.toNat * 2 ^ 16 + (if x.under then 32 else 0) +
      (if x.asleep then 16 else 0) + (if x.active then 8 else 0) + (if x.ending then 0 else x.endCode))))) :=
  (issue_feature h ha hf _ _).trans (by simp only [withDesc_some t hd]; rfl)

theorem exec_ecread (a b : SReg) {i : Nat} (hi : (rS s b).toNat % 65536 = i) : exec (.ecread a b t) s = .next (finish (parserGate (.ecread a b t))
    (if x.count ≤ i then .trap s .illegal (Instr.ecread a b t).tval else .ok (wS s a (elemWord s (home s) (ctxId s) x i)))) := by
  subst hi
  exact (issue_feature h ha hf _ _).trans (by simp only [withDesc_some t hd, bits_low, Nat.reduceAdd, Nat.reducePow]; rfl)

end Named

/-! ### ECWAKE (R400) -/

theorem exec_ecwake {b c : SReg} {dst : Node} (hdst : cmapEntry s (entry s) ((rS s b).toNat % 2 ^ 21) = some dst) (hhost : dst.host = false)
    (hop : (rS s c).toNat / 65536 % 4 ≠ 3) (hr : released s = true) : exec (.ecwake t b c) s =
      .next (after 4 (sendPkt s (nodeOf s (home s)) dst (ctxId s) 4 0
        (.change t.toNat ((rS s c).toNat % 65536) ((rS s c).toNat / 65536 % 4)))) :=
  (issue_feature h ha hf _ _).trans (by
    have hop' : bits (rS s c) 17 16 ≠ 3 := hop
    simp only [Nat.reducePow] at hdst
    simp only [if_neg hop', bits_low, Nat.reduceAdd, Nat.reducePow, hdst, hhost, Bool.false_eq_true, if_false, kick_released hr]
    rfl)

end Instructions

end Sys2Proof.Machine

namespace Sys2Proof
open Machine

/-- Settles O39: a lane's step by what it reads of a row (`rowTerms_inside`) or of a successor list (`successors_inside`); an instruction that
starts or stops a sweep by what it leaves of the descriptor (`descOf_needSweep`, `descOf_sweepEnded`). -/
theorem parserInstructions : Obligations.ParserInstructions := by
  refine ⟨?_, fun s t a b c h ha hf => ?_⟩
  · intro s core ctx t beat i d vals l hx hp part at_ fits f reg wrote el
    refine ⟨fun _ _ => rfl, rfl, fun a => ⟨laneStep_ldv s core ctx t d beat vals i hx a, rfl, ?_⟩,
      laneStep_arith s core ctx t d beat vals i hx, fun _ _ => ⟨rfl, rfl⟩, ?_, ?_⟩
    · intro off
      have hldx := laneStep_ldx s core ctx t d beat vals i hx a
      rw [bits_low] at hldx
      exact ⟨fun hfits => hldx.trans (by rw [padVal_inside hp hfits]; rfl), fun hout => hldx.trans (by rw [padVal_outside hout]; rfl)⟩
    · intro rowp lo hi col coef j value term a sub
      have hptr : bits d.e2 19 0 + 4 * i = rowp := by rw [bits_low]
      have hspdot := laneStep_spdot s core ctx t d beat vals i hx a sub
      refine ⟨fun hfits hle hmax hall => hspdot.trans ?_, fun hbad => hspdot.trans ?_⟩
      · rw [rowTerms_inside hp hptr hfits hle hmax (fun k hk => ?_), Option.map_some]
        · cases sub
          · rfl
          · rw [if_pos rfl, List.map_map]; rfl
        · obtain ⟨hcol, hcoef, hj⟩ := hall k hk
          exact readTerm_inside hp hcol hcoef hj
      · rw [rowTerms_bad hp hptr hbad, Option.map_none]
    · intro sucp lo hi off e far all good
      have hptr : bits d.e3 39 20 + 4 * i = sucp := rfl
      refine ⟨fun hgood a op => ?_, fun hbad a op => ?_⟩
      · obtain ⟨hfits, hle, hmax, hall⟩ := hgood
        have hsucc := successors_inside hp (t := t) hptr hfits hle hmax (fun k hk => ?_)
        · constructor
          · exact congrArg (Option.map _) hsucc
          · exact congrArg (Option.map _) hsucc
        · obtain ⟨hoff, hfar, hown⟩ := hall k hk
          exact readSucc_inside hp hoff hfar hown
      · have hsucc := successors_bad hp (t := t) hptr hbad
        constructor
        · exact congrArg (Option.map _) hsucc
        · exact congrArg (Option.map _) hsucc
  · intro e0 e1 d size base n plen prog ws done
    have here := partOf_current h.1
    refine ⟨fun h0 h1 hbit hrec0 hprog0 hskip0 hrec hfit hskip hq hdecode hidle => ?_, fun x hd => ⟨fun hx hr => ?_, fun hx hr => exec_ecsweep_active h ha hf t hd hr hx,
      ⟨?_, ?_⟩, exec_ecstop_still h ha hf t hd, ?_, ?_⟩, fun hd => exec_noDesc h ha hf t hd a b, fun dst hdst hhost hop hr => ?_⟩
    · have halign : bits e0 19 0 % 256 = 0 ∧ prog % 4 = 0 ∧ bits e1 19 0 % 8 = 0 := by
        rw [bits_low, bits_low]
        exact ⟨(Nat.mod_mod_of_dvd _ (by decide)).trans hrec0, hprog0, (Nat.mod_mod_of_dvd _ (by decide)).trans hskip0⟩
      have hexec := exec_ecdecl h ha hf t (plen := plen) (prog := prog) rfl rfl ((bits_high ..).trans (Nat.div_eq_of_lt h0))
        ((bits_high ..).trans (Nat.div_eq_of_lt h1)) (fun hset => Nat.le_of_lt_succ (hbit (by rwa [bit_eq_getLsbD] at hset))) halign
        (by rw [bits_low]; exact hrec) hfit (by rw [bits_low]; exact hskip) hq (fun w hw => hdecode w hw) hidle
      refine ⟨_, declared s (ws.filterMap (decodeEl plen)), hexec, act_after h 4 (actAt_modCtx ..), ?_, rfl, rfl, rfl, rfl, rfl, rfl, rfl, rfl,
        rfl, map_some_filterMap hdecode⟩
      rw [(ParserOnly.modDescs ..).descNow, descOf, ctxOf_modCtx_self]
      exact tget_tset_self ..
    · have hexec := exec_ecsweep_starts h ha hf t hd hr hx
      cases hasleep : x.asleep
      · rw [hasleep] at hexec
        have hcode := ParserOnly.modDesc s (home s) (ctxId s) t.toNat (fun d => { d with endCode := 0 })
        have honly := hcode.trans (needSweep_only _ (home s) (ctxId s) t.toNat)
        refine ⟨_, _, hexec, act_after h 4 honly.actNow, (honly.descNow 4 t.toNat).trans (descOf_of_map
          (descOf_of_map hd (descOf_modDesc ..)) (descOf_needSweep ..)), rfl, rfl, rfl, fun _ => rfl, (rotation_after ..).trans ?_⟩
        exact (rotation_needSweep ..).trans (congrArg (· ++ _) (rotation_modDesc ..))
      · rw [hasleep] at hexec
        have honly := needSweep_only s (home s) (ctxId s) t.toNat
        exact ⟨_, _, hexec, act_after h 4 honly.actNow, (honly.descNow 4 t.toNat).trans (descOf_of_map hd (descOf_needSweep ..)), rfl, rfl, rfl,
          nofun, (rotation_after ..).trans (rotation_needSweep ..)⟩
    · intro hending hactive hruns
      have hexec := exec_ecstop_running h ha hf t hd hending hactive (sweepRuns_iff.2 hruns)
      have honly := ParserOnly.modDesc s (home s) (ctxId s) t.toNat (fun d => { d with stopping := true })
      refine ⟨_, { x with stopping := true }, hexec, act_after h 4 honly.actNow,
        (honly.descNow 4 t.toNat).trans (descOf_of_map hd (descOf_modDesc ..)), rfl, hactive⟩
    · intro hending hon hruns hnotes h46
      have hexec := exec_ecstop_ends h ha hf t hd hending (by simpa using hon)
        (Bool.eq_false_iff.2 (fun hset => hruns (by rwa [Bool.and_eq_true, sweepRuns_iff] at hset)))
      rw [sweepEnd_silent _ _ _ _ _ _ hnotes h46] at hexec
      have honly := sweepEnded_only s (home s) (ctxId s) t.toNat 3
      exact ⟨_, _, hexec, act_after h 4 honly.actNow, (honly.descNow 4 t.toNat).trans (descOf_of_map hd (descOf_sweepEnded ..)), rfl, rfl, rfl,
        (rotation_after ..).trans (rotation_sweepEnded ..)⟩
    · intro code
      have hexec := exec_ecstat h ha hf t hd a
      rw [dropCount, here] at hexec
      exact hexec
    · intro i count
      have hexec := exec_ecread h ha hf t hd a b (i := i) rfl
      have hword : elemWord s (home s) (ctxId s) x i = readWord s (base + x.e0.toNat % 2 ^ 20 + 16 * i + 8) := by
        rw [elemWord, recordLoc, here, bits_low]
      refine ⟨fun hi => hexec.trans ?_, fun hi => hexec.trans ?_⟩
      · rw [if_neg (show ¬x.count ≤ i from Nat.not_le.2 hi), hword]
        rfl
      · rw [if_pos (show x.count ≤ i from hi)]
        rfl
    · exact ⟨_, _, exec_ecwake h ha hf t hdst hhost hop hr, act_after h 4 rfl, (congrArg (tget · s.ids) (after_net ..)).trans (tget_sendPkt ..), rfl,
        rfl, rfl⟩

end Sys2Proof
end

section
/-!
SUPPORT. Events of the signature engine (R256, R257, R407-R410): a lease granted, a command run.
-/

namespace Sys2Proof.Machine

/-! ### The grant of a lease (R257) -/

section Grant
variable {s : State} {cl : Nat} {r : SigReq} (hr : (clauseOf s cl).sigReqs = [r])
include hr

theorem sigGrant_only : sigGrant s cl = if (sigFree (clauseOf s cl)).length < r.k then s
    else sigEnter (modClause s cl (fun c => { c with sigReqs := removeFirst (· == r) c.sigReqs })) r.core r.ctx r.d r.n r.k := by
  have hnext : sigNextReq s (clauseOf s cl) = some r := by rw [sigNextReq, hr]; rfl
  simp only [sigGrant, hnext]

/-- The clause of a request once it is granted. -/
theorem clauseOf_granted (hcl : clauseOfCore r.core = cl) (hfree : r.k ≤ (sigFree (clauseOf s cl)).length) :
    (clauseOf (sigGrant s cl) cl).sigReqs = [] ∧ (clauseOf (sigGrant s cl) cl).sigLeases = (clauseOf s cl).sigLeases ++
      [⟨r.core, r.ctx, r.d, r.n, (sigFree (clauseOf s cl)).take r.k, [], 0, s.cyc⟩] := by
  have hrest : removeFirst (· == r) (clauseOf s cl).sigReqs = [] := by simp [hr, removeFirst]
  rw [sigGrant_only hr, if_neg (Nat.not_lt.2 hfree), sigEnter, hcl]
  simp only [clauseOf_modClause_self, hrest]
  exact ⟨trivial, rfl⟩

end Grant

/-! ### A command of the only lease (R256, R407-R410) -/

/-- The engine's answer to a join: whether the tags leave a gap, and the left end tag (R260). -/
def joinReply (gap : Option (BitVec 32)) : Word :=
  match gap with
  | some t => BitVec.ofNat 64 (1 + 2 * t.toNat)
  | none => 0

section Run
variable {s : State} {cl : Nat} {l : SigLease} {cmd : SigCmd} {rest : List SigCmd} (hl : (clauseOf s cl).sigLeases = [l])
  (hcur : (clauseOf s cl).sigCurrent = some (l.core, l.ctx)) (hq : l.queue = cmd :: rest)
include hl hcur hq

theorem sigTurn_only : sigTurn s (clauseOf s cl) = some (l, false) := by
  have hready : (clauseOf s cl).sigLeases.filter (fun l => !l.queue.isEmpty) = [l] := by simp [hl, hq]
  simp [sigTurn, hready, hcur]

/-- The state once the command has changed the slots and left the queue. -/
def sigRan (s : State) (cl : Nat) (l : SigLease) (cmd : SigCmd) : State :=
  modSigLease (modClause s cl (fun c => { c with sigSlots := (sigRun (clauseOf s cl).sigSlots l cmd).1 })) l.core l.ctx
    (fun x => { x with queue := x.queue.tail, turn := x.turn + 1 })

/-- The state once a join has been answered; no other command is. -/
def sigAnswered (s : State) (cl : Nat) (l : SigLease) (cmd : SigCmd) : State :=
  match cmd with
  | .join _ _ _ => checkedReply (sigRan s cl l cmd) l.core l.ctx joinStage (joinReply (sigRun (clauseOf s cl).sigSlots l cmd).2)
  | _ => sigRan s cl l cmd

theorem sigCommandRun_only : sigCommandRun s cl = sigAnswered s cl l cmd := by
  simp only [sigCommandRun, sigTurn_only hl hcur hq, hq]
  cases cmd <;> rfl

omit hcur in
theorem clauseOf_sigRan (hcl : clauseOfCore l.core = cl) : (clauseOf (sigRan s cl l cmd) cl).sigLeases = [{ l with queue := rest, turn := l.turn + 1 }] ∧
    (clauseOf (sigRan s cl l cmd) cl).sigSlots = (sigRun (clauseOf s cl).sigSlots l cmd).1 := by
  simp only [sigRan, modSigLease, hcl, clauseOf_modClause_self, hl]
  refine ⟨?_, trivial⟩
  rw [replaceFirst_head (by simp), hq]
  rfl

theorem clauseOf_sigCommandRun : clauseOf (sigCommandRun s cl) cl = clauseOf (sigRan s cl l cmd) cl := by
  rw [sigCommandRun_only hl hcur hq]
  cases cmd <;> rfl

/-- A join's reply reaches the activation that waits for it. -/
theorem sigCommandRun_replies {i j k : Nat} (hcmd : cmd = .join i j k) {a : Act} {w : Wait} (ha : actAt s ⟨l.core, none⟩ = some a)
    (hx : ctxAt s ⟨l.core, none⟩ = l.ctx) (hw : a.wait = some w) (hstage : w.stage = joinStage) :
    actAt (sigCommandRun s cl) ⟨l.core, none⟩ = some { a with
      wait := some { w with reply := some (joinReply (sigRun (clauseOf s cl).sigSlots l (.join i j k)).2) } } := by
  subst hcmd
  rw [sigCommandRun_only hl hcur hq]
  have hreply := actAt_answer (s := sigRan s cl l (.join i j k)) (ag := ⟨l.core, l.ctx, 0⟩) (g := fun w => if w.stage = joinStage then
    { w with reply := some (joinReply (sigRun (clauseOf s cl).sigSlots l (.join i j k)).2) } else w) ha hx hw
  rw [if_pos hstage] at hreply
  exact hreply

end Run

/-! ### What the commands do to a slot (R407-R410) -/

section Slots
variable (slots : Tab SigSlot) (l : SigLease)

/-- The slot that a command of a lease names. -/
def leasedSlot (i : Nat) : SigSlot := tgetD slots (l.slots.getD i 0) ⟨0, 0, []⟩

theorem sigRun_step (i : Nat) (x : VReg) : ∃ r, tget (sigRun slots l (.step i x)).1 (l.slots.getD i 0) = some r ∧
    r.startTag = (leasedSlot slots l i).startTag ∧ r.endTag = (leasedSlot slots l i).endTag + 1 := ⟨_, tget_tset_self .., rfl, rfl⟩

variable (i : Nat) {j k : Nat}

theorem sigRun_gap (h : (leasedSlot slots l j).endTag ≠ (leasedSlot slots l k).startTag) :
    sigRun slots l (.join i j k) = (slots, some (leasedSlot slots l j).endTag) := if_pos h

theorem sigRun_joins (h : (leasedSlot slots l j).endTag = (leasedSlot slots l k).startTag) : (sigRun slots l (.join i j k)).2 = none ∧
    ∃ r, tget (sigRun slots l (.join i j k)).1 (l.slots.getD i 0) = some r ∧ r.startTag = (leasedSlot slots l j).startTag ∧
      r.endTag = (leasedSlot slots l k).endTag := by
  have hjoin : sigRun slots l (.join i j k) = _ := if_neg (not_not.2 h)
  rw [hjoin]
  exact ⟨rfl, _, tget_tset_self .., rfl, rfl⟩

end Slots

end Sys2Proof.Machine
end

section
/-!
SUPPORT. Elements of a descriptor in the scratchpad (R247, R250-R252, R404): what stores of a parser leave unchanged, a skip bit set and
cleared, a change applied, and a change or a value that arrives.
-/

namespace Sys2Proof.Machine

/-! ### What a parser's stores leave -/

/-- `u` is `s` after stores that leave the bytes `keep`, as context x on core c sees it. -/
structure PadKept (c x : Nat) (keep : Nat → Prop) (s u : State) : Prop where
  net : u.net = s.net
  ids : u.ids = s.ids
  module : u.module = s.module
  ctx : ctxOf u c x = ctxOf s c x
  here : frameHere u c x = frameHere s c x
  canonical : MemoryCanonical s → MemoryCanonical u
  reads : ∀ l, keep l → readByte u l = readByte s l

namespace PadKept
variable {c x : Nat} {keep keep' : Nat → Prop} {s u v : State}

theorem refl (s : State) : PadKept c x keep s s := ⟨rfl, rfl, rfl, rfl, rfl, id, fun _ _ => rfl⟩

theorem trans (h : PadKept c x keep s u) (h' : PadKept c x keep u v) : PadKept c x keep s v :=
  ⟨h'.net.trans h.net, h'.ids.trans h.ids, h'.module.trans h.module, h'.ctx.trans h.ctx, h'.here.trans h.here, fun hw => h'.canonical (h.canonical hw),
    fun l hl => (h'.reads l hl).trans (h.reads l hl)⟩

theorem mono (h : PadKept c x keep s u) (hk : ∀ l, keep' l → keep l) : PadKept c x keep' s u :=
  { h with reads := fun l hl => h.reads l (hk l hl) }

theorem of_stored {ctx loc : Nat} {bs : List Byte} (h : Stored s u ctx loc bs) (hk : ∀ l, keep l → l < loc ∨ loc + bs.length ≤ l) :
    PadKept c x keep s u :=
  ⟨h.net, h.ids, h.module, h.ctxOf c x, h.frameHere c x, h.canonical, fun l hl => h.readByte_out (hk l hl)⟩

theorem foldl {α : Type} {f : State → α → State} (l : List α) (hf : ∀ u, ∀ a ∈ l, PadKept c x keep s u → PadKept c x keep u (f u a))
    (h : PadKept c x keep s u) : PadKept c x keep s (l.foldl f u) := by
  induction l generalizing u with
  | nil => exact h
  | cons a l ih => exact ih (fun u b hb => hf u b (List.mem_cons_of_mem a hb)) (h.trans (hf u a List.mem_cons_self h))

variable (h : PadKept c x keep s u)
include h

theorem readNat {a n : Nat} (hk : ∀ i < n, keep (a + i)) : readNat u a n = Machine.readNat s a n := by
  have hbytes : readBytes u a n = readBytes s a n :=
    List.map_congr_left (fun i hi => h.reads _ (hk i (List.mem_range.1 hi)))
  rw [Machine.readNat, Machine.readNat, hbytes]

variable (hf : frameHere s c x = true)
include hf

theorem part : partOf u c x = partOf s c x := by rw [partOf_frameHere hf, partOf_frameHere (h.here.trans hf), h.ctx]

theorem recordLoc (d : Desc) (i : Nat) : recordLoc u c x d i = Machine.recordLoc s c x d i := by
  rw [Machine.recordLoc, Machine.recordLoc, h.part hf]

theorem elemWord {d : Desc} {i : Nat} (hk : ∀ k < 8, keep (Machine.recordLoc s c x d i + 8 + k)) :
    elemWord u c x d i = Machine.elemWord s c x d i := by
  rw [Machine.elemWord, Machine.elemWord, h.recordLoc hf, readWord, readWord, h.readNat hk]

end PadKept

/-! ### Records (R247) -/

section Record
variable {s : State} {c x : Nat} {d : Desc} {i : Nat}

theorem putElem_kept (w : Word) :
    PadKept c x (fun l => l < recordLoc s c x d i + 8 ∨ recordLoc s c x d i + 16 ≤ l) s (putElem s c x d i w) :=
  .of_stored (.storeAt ..) (fun l hl => by rw [length_leBytes]; omega)

theorem Desc.size_le (d : Desc) : d.size = 4 ∨ d.size = 8 := by
  unfold Desc.size
  split
  · exact .inl rfl
  · exact .inr rfl

theorem putValue_kept (v : Nat) :
    PadKept c x (fun l => l < recordLoc s c x d i ∨ recordLoc s c x d i + 8 ≤ l) s (putValue s c x d i v) :=
  .of_stored (.storeAt ..) (fun l hl => by rw [length_leBytes]; rcases d.size_le with h | h <;> omega)

variable (hw : MemoryCanonical s)
include hw

theorem readNat_putValue (v : Nat) : readNat (putValue s c x d i v) (recordLoc s c x d i) d.size = v % 2 ^ (8 * d.size) := by
  have hread := (Stored.storeAt s x (recordLoc s c x d i) (leBytes d.size v)).readBytes hw
  rw [length_leBytes] at hread
  rw [putValue, readNat, hread, leNat_leBytes, pow_mul, show (2 : Nat) ^ 8 = 256 from rfl]

theorem elemWord_putElem (hf : frameHere s c x = true) (w : Word) : elemWord (putElem s c x d i w) c x d i = w := by
  have hread := (Stored.storeAt s x (recordLoc s c x d i + 8) (leBytes 8 w.toNat)).readBytes hw
  rw [length_leBytes] at hread
  rw [elemWord, (putElem_kept w).recordLoc hf, readWord, readNat, putElem, hread, ofNat_leNat_leBytes]

end Record

/-! ### Skip bits (R252) -/

/-- The place of an element's skip bit. -/
def skipLoc (s : State) (c x : Nat) (d : Desc) (i : Nat) : Nat := scratchBase c (partOf s c x) + bits d.e1 19 0 + i / 8

/-- A byte without a bit that it has. -/
theorem bit_without (b : Byte) {k : Nat} (hset : bit b k = true) : bit (BitVec.ofNat 8 (b.toNat - 2 ^ k)) k = false := by
  have hb := b.isLt
  have hodd : b.toNat / 2 ^ k % 2 = 1 := by simpa [bit] using hset
  have hdiv : (b.toNat - 2 ^ k) / 2 ^ k = b.toNat / 2 ^ k - 1 := by
    have := Nat.sub_mul_div b.toNat (2 ^ k) 1
    rwa [Nat.mul_one] at this
  simp only [bit, BitVec.toNat_ofNat, Nat.mod_eq_of_lt (Nat.lt_of_le_of_lt (Nat.sub_le _ _) hb), hdiv, beq_eq_false_iff_ne]
  omega

section Skip
variable {s : State} {c x : Nat} {d : Desc} {i : Nat}

theorem setSkip_eq (on : Bool) : setSkip s c x d i on = if bit (readByte s (skipLoc s c x d i)) (i % 8) = on then s
    else storeAt s x (skipLoc s c x d i) [BitVec.ofNat 8 (if on then (readByte s (skipLoc s c x d i)).toNat + 2 ^ (i % 8)
      else (readByte s (skipLoc s c x d i)).toNat - 2 ^ (i % 8))] := by
  have hbyte : BitVec.ofNat 8 (readByte s (skipLoc s c x d i)).toNat = readByte s (skipLoc s c x d i) := by simp
  unfold skipLoc at hbyte ⊢
  simp only [setSkip, hbyte]

theorem setSkip_kept (on : Bool) : PadKept c x (fun l => l ≠ skipLoc s c x d i) s (setSkip s c x d i on) := by
  rw [setSkip_eq]
  split
  · exact .refl s
  · exact .of_stored (.storeAt ..) (fun l hl => by rw [List.length_singleton]; omega)

theorem skipBit_below (hi : i < d.count) : skipBit s c x d i = bit (readByte s (skipLoc s c x d i)) (i % 8) := if_neg (Nat.not_le.2 hi)

theorem PadKept.skipLoc {keep : Nat → Prop} {u : State} (h : PadKept c x keep s u) (hf : frameHere s c x = true) :
    skipLoc u c x d i = Machine.skipLoc s c x d i := by rw [Machine.skipLoc, Machine.skipLoc, h.part hf]

theorem skipBit_setSkip (hw : MemoryCanonical s) (hf : frameHere s c x = true) (hi : i < d.count) :
    skipBit (setSkip s c x d i false) c x d i = false := by
  rw [skipBit_below hi, (setSkip_kept false).skipLoc hf, setSkip_eq]
  split
  next hclear => exact hclear
  next hset =>
    have hread : readByte (storeAt s x (skipLoc s c x d i) [BitVec.ofNat 8 ((readByte s (skipLoc s c x d i)).toNat - 2 ^ (i % 8))])
        (skipLoc s c x d i) = BitVec.ofNat 8 ((readByte s (skipLoc s c x d i)).toNat - 2 ^ (i % 8)) := by
      rw [readByte_storeAt]
      exact readByte_writeBytes_in hw x _ _ 0 (by simp)
    simp only [Bool.false_eq_true, if_false, hread]
    exact bit_without _ (by simpa using hset)

end Skip

/-! ### A change applied (R250-R252) -/

/-- The state once a change has set an element's word and cleared its skip bit. -/
def changed (s : State) (c x : Nat) (d : Desc) (i op : Nat) : State :=
  setSkip (if (changeWord op (elemWord s c x d i)).1 = elemWord s c x d i then s
    else putElem s c x d i (changeWord op (elemWord s c x d i)).1) c x d i false

theorem applyChange_eq (s : State) (c x t : Nat) (d : Desc) (i op : Nat) : applyChange s c x t d i op =
    if (changeWord op (elemWord s c x d i)).2 then modDesc (changed s c x d i op) c x t (fun d => { d with under := true })
    else changed s c x d i op := rfl

section Changed
variable {s : State} {c x : Nat} {d : Desc} {i : Nat} (op : Nat) (hf : frameHere s c x = true)
include hf

theorem changed_kept : PadKept c x (fun l => (l < recordLoc s c x d i + 8 ∨ recordLoc s c x d i + 16 ≤ l) ∧ l ≠ skipLoc s c x d i) s
    (changed s c x d i op) := by
  have hword : PadKept c x (fun l => l < recordLoc s c x d i + 8 ∨ recordLoc s c x d i + 16 ≤ l) s
      (if (changeWord op (elemWord s c x d i)).1 = elemWord s c x d i then s else putElem s c x d i (changeWord op (elemWord s c x d i)).1) := by
    split
    · exact .refl s
    · exact putElem_kept _
  refine (hword.mono (fun l hl => hl.1)).trans ((setSkip_kept false).mono (fun l hl => ?_))
  rw [hword.skipLoc hf]
  exact hl.2

variable (hw : MemoryCanonical s) (hi : i < d.count)
include hw hi

theorem skipBit_changed : skipBit (changed s c x d i op) c x d i = false := by
  unfold changed
  split
  · exact skipBit_setSkip hw hf hi
  · exact skipBit_setSkip ((putElem_kept _).canonical hw) ((putElem_kept (d := d) (i := i) _).here.trans hf) hi

omit hi in
theorem elemWord_changed (hskip : skipLoc s c x d i < recordLoc s c x d i + 8 ∨ recordLoc s c x d i + 16 ≤ skipLoc s c x d i) :
    elemWord (changed s c x d i op) c x d i = (changeWord op (elemWord s c x d i)).1 := by
  unfold changed
  split
  next hsame =>
    rw [(setSkip_kept false).elemWord hf (fun k hk => by omega), hsame]
  next =>
    have hput := putElem_kept (s := s) (c := c) (x := x) (d := d) (i := i) (changeWord op (elemWord s c x d i)).1
    have hkept := setSkip_kept (s := putElem s c x d i (changeWord op (elemWord s c x d i)).1) (c := c) (x := x) (d := d) (i := i) false
    rw [hkept.elemWord (hput.here.trans hf) (fun k hk => by rw [hput.recordLoc hf, hput.skipLoc hf]; omega), elemWord_putElem hw hf]

omit hw hi in
theorem descOf_changed (t : Nat) : descOf (changed s c x d i op) c x t = descOf s c x t := by rw [descOf, (changed_kept op hf).ctx, descOf]

end Changed

section Words
variable {w : Word}

theorem changeWord_dec (h : bits w 31 16 ≠ 0) : changeWord 0 w = (w - 0x10000#64, false) := if_neg h

theorem changeWord_under (h : bits w 31 16 = 0) : changeWord 0 w = (w, true) := if_pos h

theorem changeWord_wake (h : bits w 11 8 = 4) : changeWord 2 w = (w &&& ~~~0xF00#64, false) := congrArg (·, false) (if_pos h)

end Words

/-! ### Changes and values that arrive (R250, R251, R404) -/

section Arrival
variable {s : State} {n c : Nat} {p : Packet} (ha : arrivedAt s n = some (p, c)) (hn : noteHeld s n p = false)
include ha hn

theorem remoteChangeArrival_eq {t i op : Nat} (hp : p.payload = .change t i op) :
    exec (.remoteChangeArrival n) s = .next (outsideChange (takePkt s n) c p.ctx t i op) := by
  have harrival : remoteChangeArrival s n = outsideChange (takePkt s n) c p.ctx t i op := by
    simp only [remoteChangeArrival, ha, hp, hn, Bool.false_eq_true, if_false]
  exact congrArg Host.Outcome.next harrival

theorem valueWriteArrival_eq {t i : Nat} {v : Word} (hp : p.payload = .value t i v) :
    exec (.valueWriteArrival n) s = .next (outsideValue (takePkt s n) c p.ctx t i v) := by
  have harrival : valueWriteArrival s n = outsideValue (takePkt s n) c p.ctx t i v := by
    simp only [valueWriteArrival, ha, hp, hn, Bool.false_eq_true, if_false]
  exact congrArg Host.Outcome.next harrival

end Arrival

section Dropped
variable {s : State} {c x t i op : Nat}

/-- A change to no element is dropped. -/
theorem outsideChange_drops (h : tget (ctxOf s c x).descs t = none ∨ ∃ d, tget (ctxOf s c x).descs t = some d ∧ d.count ≤ i) :
    outsideChange s c x t i op = dropChange s c x t := by
  rcases h with hnone | ⟨d, hd, hle⟩
  · simp only [outsideChange, descOf, hnone]
  · simp only [outsideChange, descOf, hd, hle, if_true]

theorem outsideChange_applies {d : Desc} (hd : tget (ctxOf s c x).descs t = some d) (hi : i < d.count) (hasleep : d.asleep = false) :
    outsideChange s c x t i op = modDesc (applyChange s c x t d i op) c x t
      (fun d => if d.active && !d.ending && i / 16 < d.beat then { d with missed := true } else d) := by
  simp only [outsideChange, descOf, hd, Nat.not_le.2 hi, if_false, hasleep, Bool.false_eq_true]

/-- A value write stores. -/
theorem outsideValue_puts {d : Desc} (hd : tget (ctxOf s c x).descs t = some d) (hi : i < d.count) (v : Word) :
    outsideValue s c x t i v = putValue s c x d i v.toNat := by
  have hdesc : descOf s c x t = some d := hd
  simp only [outsideValue, hdesc, Nat.not_le.2 hi, if_false]

/-- An outside change does to the records and the skip bits what the change does, and else to descriptors alone. -/
theorem outsideChange_only {d : Desc} (hd : tget (ctxOf s c x).descs t = some d) (hi : i < d.count) (hasleep : d.asleep = false) :
    ParserOnly (changed s c x d i op) (outsideChange s c x t i op) := by
  rw [outsideChange_applies hd hi hasleep, applyChange_eq]
  split
  · exact (ParserOnly.modDesc ..).trans (ParserOnly.modDesc ..)
  · exact ParserOnly.modDesc ..

/-- A decrement of a count of 0 is marked in the descriptor. -/
theorem outsideChange_under {d : Desc} (hd : tget (ctxOf s c x).descs t = some d) (hi : i < d.count) (hasleep : d.asleep = false)
    (hf : frameHere s c x = true) (hunder : (changeWord op (elemWord s c x d i)).2 = true) :
    ∃ k, descOf (outsideChange s c x t i op) c x t = some k ∧ k.under = true := by
  have hdesc : descOf (changed s c x d i op) c x t = some d := (descOf_changed op hf t).trans hd
  rw [outsideChange_applies hd hi hasleep, applyChange_eq, if_pos hunder]
  refine ⟨_, descOf_of_map (descOf_of_map hdesc (descOf_modDesc ..)) (descOf_modDesc ..), ?_⟩
  split <;> rfl

variable (s c x t)

/-- The context's allotment on the core counts dropped changes. -/
def CountsDrops : Prop := partOk (partOf s c x) = true ∧ (holdsSlot (coreOf s c) x = true ∨ (coreOf s c).saveb ≠ 0)

variable {s c x}

theorem dropChange_uncounted (h : ¬CountsDrops s c x) : dropChange s c x t = s := by
  refine if_neg (fun hcount => h ?_)
  simpa [CountsDrops, Bool.and_eq_true, Bool.or_eq_true] using hcount

theorem dropChange_counts (h : CountsDrops s c x) : tgetD (ctxOf (dropChange s c x t) c x).drops t 0 =
      min 65535 ((if (ctxOf s c x).dropsAt = some (partOf s c x) then tgetD (ctxOf s c x).drops t 0 else 0) + 1) ∧
    (ctxOf (dropChange s c x t) c x).dropsAt = some (partOf s c x) := by
  have hcount : (partOk (partOf s c x) && (holdsSlot (coreOf s c) x || (coreOf s c).saveb != 0)) = true := by
    simpa [CountsDrops, Bool.and_eq_true, Bool.or_eq_true] using h
  simp only [dropChange, hcount, if_true, ctxOf_modCtx_self, tgetD_tset_self]
  exact ⟨rfl, trivial⟩

end Dropped

end Sys2Proof.Machine
end

section
/-!
SUPPORT. The completion event of a sweep (R55, R56, R253): the context's vector, and what its change leaves of launches and descriptors.
-/

namespace Sys2Proof.Machine

/-- `u` has the launches and the vectors of `s`, and a descriptor that `s` has. -/
structure VectorKept (c x t : Nat) (s u : State) : Prop where
  launches : u.launches = s.launches
  evec : u.evec = s.evec
  desc : (descOf s c x t).isSome = true → (descOf u c x t).isSome = true

/-- A context on a core with the wait of its residue changed. -/
def ctxWaitMapped (f : Nat → Act → Wait → Wait) (x : Nat) (k : CtxCore) : CtxCore :=
  { k with residue := k.residue.map (fun r => { r with wait := r.wait.map (f x { Act.zero with startPrio := r.startPrio }) }) }

namespace VectorKept
variable {c x t : Nat} {s u v : State}

theorem refl (s : State) : VectorKept c x t s s := ⟨rfl, rfl, id⟩

theorem trans (h : VectorKept c x t s u) (h' : VectorKept c x t u v) : VectorKept c x t s v :=
  ⟨h'.launches.trans h.launches, h'.evec.trans h.evec, fun hd => h'.desc (h.desc hd)⟩

/-- A state with the same descriptors. -/
theorem of_descs (hl : u.launches = s.launches) (he : u.evec = s.evec) (hc : (ctxOf u c x).descs = (ctxOf s c x).descs) : VectorKept c x t s u :=
  ⟨hl, he, fun hd => by rwa [descOf, hc]⟩

theorem modDesc (s : State) (c' x' t' : Nat) (f : Desc → Desc) : VectorKept c x t s (modDesc s c' x' t' f) := by
  refine ⟨rfl, rfl, fun hd => ?_⟩
  by_cases hc : c = c'
  · subst hc
    by_cases hx : x = x'
    · subst hx
      have hctx : descOf (Machine.modDesc s c x t' f) c x t = tget (ctxOf (Machine.modDesc s c x t' f) c x).descs t := rfl
      rw [hctx, Machine.modDesc, ctxOf_modCtx_self]
      simp only []
      cases h : tget (ctxOf s c x).descs t' with
      | none => exact hd
      | some d =>
        simp only [tget_tset]
        split
        · rfl
        · exact hd
    · have hctx : ctxOf (Machine.modDesc s c x' t' f) c x = ctxOf s c x := by
        rw [Machine.modDesc, ctxOf, coreOf_modCtx_self, tgetD_tset_ne _ _ _ hx, ctxOf]
      rwa [descOf, hctx]
  · have hctx : ctxOf (Machine.modDesc s c' x' t' f) c x = ctxOf s c x := by
      rw [Machine.modDesc, modCtx, ctxOf, coreOf_modCore_ne _ _ hc, ctxOf]
    rwa [descOf, hctx]

theorem needSweep (s : State) (c' x' t' : Nat) : VectorKept c x t s (needSweep s c' x' t') := by
  rw [needSweep_eq]
  exact (modDesc s c' x' t' _).trans (of_descs rfl rfl (congrArg _ (ctxOf_modCore _ _ _ _ (by exact fun _ => rfl))))

theorem foldl {α : Type} {f : State → α → State} (hf : ∀ s a, VectorKept c x t s (f s a)) (l : List α) (s : State) :
    VectorKept c x t s (l.foldl f s) := by
  induction l generalizing s with
  | nil => exact refl s
  | cons a l ih => exact (hf s a).trans (ih _)

/-- A change of waits at some cores. -/
theorem mapCores (s : State) (g : Nat × Core → Core) (hg : ∀ n k, (tgetD (g (n, k)).ctxs x CtxCore.init).descs = (tgetD k.ctxs x CtxCore.init).descs) :
    VectorKept c x t s { s with cores := s.cores.map (fun k => (k.1, g k)) } := by
  refine of_descs rfl rfl ?_
  have hcore := tget_mapKeyed (fun n k => g (n, k)) s.cores c
  simp only [Prod.mk.eta] at hcore
  simp only [ctxOf, coreOf, tgetD, hcore]
  cases tget s.cores c with
  | none => rfl
  | some k => exact hg c k

theorem descs_mapWaits (k : Core) (f : Nat → Act → Wait → Wait) (y : Nat) :
    (tgetD (mapWaits k f).ctxs y CtxCore.init).descs = (tgetD k.ctxs y CtxCore.init).descs := by
  have hctx := tget_mapKeyed (ctxWaitMapped f) k.ctxs y
  unfold ctxWaitMapped at hctx
  simp only [tgetD]
  rw [mapWaits, hctx]
  cases tget k.ctxs y with
  | none => rfl
  | some k => rfl

theorem vectorWakes (s : State) (x' die : Nat) : VectorKept c x t s (vectorWakes s x' die) := by
  refine VectorKept.trans (mapCores s (fun k => if unitOf k.1 = some die || isApp k.1 then
    mapWaits k.2 (fun y _ w => if y == x' && w.kind == 9 then { w with woke := true } else w) else k.2) (fun n k => ?_)) ?_
  · split
    · exact descs_mapWaits ..
    · rfl
  · exact foldl (fun s (d : Nat × Nat) => needSweep s d.1 x' d.2) _ _

theorem homeMoved (s : State) (x' : Nat) : VectorKept c x t s (homeMoved s x') := by
  have hold (u : State) (new : Option Nat) (o : Option Nat) (v : EvVec) : VectorKept c x t u (match o with
      | some o => if new = some o then u else modDie u o (fun k => { k with mirrors := tset k.mirrors x' v })
      | none => u) := by
    split
    · split
      · exact refl u
      · exact of_descs rfl rfl rfl
    · exact refl u
  unfold Machine.homeMoved
  split
  · exact refl s
  · split
    · exact refl s
    · refine VectorKept.trans ?_ (hold _ _ _ _)
      split
      · simp only []
        split
        · exact of_descs rfl rfl rfl
        · refine VectorKept.trans ?_ (vectorWakes ..)
          exact of_descs rfl rfl rfl
      · exact of_descs rfl rfl rfl

theorem disarm (s : State) (x' : Nat) (bs : List Nat) : VectorKept c x t s (disarm s x' bs) := by
  unfold Machine.disarm
  split
  · exact refl s
  · simp only []
    split
    · exact refl s
    · exact mapCores s (fun k => mapWaits k.2 _) (fun _ k => descs_mapWaits ..)

end VectorKept

section Vector
variable {c x t : Nat} {s : State}

/-- A vector set at its home. -/
theorem putVector_sets (v : EvVec) : (putVector s x v).launches = s.launches ∧ tgetD (putVector s x v).evec x 0 = v ∧
    ((descOf s c x t).isSome = true → (descOf (putVector s x v) c x t).isSome = true) := by
  have hmoved := VectorKept.homeMoved (c := c) (x := x) (t := t) s x
  unfold putVector
  simp only []
  split
  next hsame => exact ⟨hmoved.launches, hsame, hmoved.desc⟩
  next =>
    split
    next d _ =>
      have hwakes := VectorKept.vectorWakes (c := c) (x := x) (t := t)
      refine ⟨(hwakes _ x d).launches.trans hmoved.launches, ?_, fun hd => (hwakes _ x d).desc (hmoved.desc hd)⟩
      rw [(hwakes _ x d).evec]
      exact tgetD_tset_self ..
    next => exact ⟨hmoved.launches, tgetD_tset_self .., hmoved.desc⟩

/-- A vector changed where no launch is queued. -/
theorem changeVector_idle (hl : s.launches = []) (v : EvVec) : changeVector s x v = putVector s x v := by
  have hlaunches : (putVector s x v).launches = [] := (putVector_sets (c := 0) (t := 0) v).1.trans hl
  unfold changeVector evalLaunches
  simp only [hlaunches]
  split <;> rfl

theorem completionEvent_idle (hhome : (homeDie s x).isSome = true) (hl : s.launches = []) {b : Nat} {v : EvVec}
    (hv : tgetD s.evec x 0 ||| (1#256 <<< b) = v) : completionEvent s x b = disarm (putVector s x v) x [b] := by
  obtain ⟨d, hdie⟩ := Option.isSome_iff_exists.1 hhome
  rw [← changeVector_idle hl, ← hv]
  unfold completionEvent
  simp only [hdie]

/-- A completion event sets its bit, where no launch is queued. -/
theorem completionEvent_sets (hd : (descOf s c x t).isSome = true) (hhome : (homeDie s x).isSome = true) (hl : s.launches = []) {b : Nat}
    {v : EvVec} (hv : tgetD s.evec x 0 ||| (1#256 <<< b) = v) :
    tgetD (completionEvent s x b).evec x 0 = v ∧ (descOf (completionEvent s x b) c x t).isSome = true := by
  obtain ⟨_, hevec, hdesc⟩ := putVector_sets (c := c) (x := x) (t := t) (s := s) v
  have hdisarm := VectorKept.disarm (c := c) (x := x) (t := t) (putVector s x v) x [b]
  rw [completionEvent_idle hhome hl hv]
  exact ⟨by rw [hdisarm.evec, hevec], hdisarm.desc (hdesc hd)⟩

end Vector

end Sys2Proof.Machine
end

section
/-!
SUPPORT. The turn of a sweep (R253, R255): it ends, repeats at the rotation's tail, or sleeps.
-/

namespace Sys2Proof.Machine

/-! ### Mirrors of a settled vector (R55) -/

section Mirror
variable {s : State} {x : Nat}

/-- The unit that holds a context's vector is the one that its core map names. -/
def Settled (s : State) (x : Nat) : Prop := homeDie s x = none ∨ tget s.evHome x = homeDie s x

theorem homeMoved_settled (h : Settled s x) : homeMoved s x = s := by
  unfold homeMoved
  split
  · rfl
  next d hd =>
    have hhome : tget s.evHome x = some d := by
      rcases h with hnone | hsame
      · rw [hnone] at hd; exact nomatch hd
      · rw [hsame, hd]
    exact if_pos hhome

/-- A unit that holds the vector, as home or by a mirror. -/
def HoldsVector (s : State) (x e : Nat) : Prop := localHome s x = some e ∨ (tget (dieOf s e).mirrors x).isSome = true

/-- A mirror of a settled vector shows what was seen without it. -/
theorem mirrorFor_settled (h : Settled s x) (c : Nat) : ∃ y, mirrorFor s x c = { s with dies := y } ∧
    vectorAt { s with dies := y } x (unitOf c) = vectorAt s x (unitOf c) ∧ ∀ e, unitOf c = some e → HoldsVector { s with dies := y } x e := by
  unfold mirrorFor
  cases hc : unitOf c with
  | none => exact ⟨s.dies, rfl, rfl, nofun⟩
  | some e =>
    simp only [ensureMirror, homeMoved_settled h]
    split
    next hheld =>
      refine ⟨s.dies, rfl, rfl, fun e' he => ?_⟩
      obtain rfl := Option.some.inj he
      simpa [HoldsVector] using hheld
    next hnew =>
      obtain ⟨hhome, hmirror⟩ : ¬localHome s x = some e ∧ tget (dieOf s e).mirrors x = none := by simpa using hnew
      refine ⟨_, rfl, ?_, fun e' he => .inr ?_⟩
      · have hmirrored : vectorAt (modDie s e (fun d => { d with mirrors := tset d.mirrors x (tgetD s.evec x 0) })) x (some e) =
            tgetD s.evec x 0 := by
          refine (if_neg hhome).trans ?_
          rw [modDie, dieOf, tgetD_tset_self, tgetD_tset_self]
        refine hmirrored.trans ?_
        simp only [vectorAt, if_neg hhome, tgetD, hmirror, Option.getD_none]
      · obtain rfl := Option.some.inj he
        change (tget (dieOf (modDie s e (fun d => { d with mirrors := tset d.mirrors x (tgetD s.evec x 0) })) e).mirrors x).isSome = true
        rw [modDie, dieOf, tgetD_tset_self, tget_tset_self]
        rfl

end Mirror

/-! ### What a turn comes to -/

section Turn
variable (s : State) (c x t : Nat)

/-- The state with the descriptor out of the rotation, its sweep again to run. -/
def requeued : State := needSweep (modCore s c (fun k => { k with rotation := k.rotation.filter (fun r => r != (x, t)) })) c x t

theorem requeued_only : ParserOnly s (requeued s c x t) := (ParserOnly.modRotation ..).trans (needSweep_only ..)

theorem descOf_requeued : descOf (requeued s c x t) c x t = (descOf s c x t).map Desc.started := by
  rw [requeued, descOf_needSweep, descOf_modRotation]

theorem rotation_requeued : (coreOf (requeued s c x t) c).rotation = (coreOf s c).rotation.filter (fun r => r ≠ (x, t)) ++ [(x, t)] := by
  rw [requeued, rotation_needSweep, coreOf_modCore_self]
  exact congrArg (· ++ _) (List.filter_congr (fun r _ => by simp [bne, beq_eq_decide]))

/-- The state with the descriptor asleep. -/
def slept : State :=
  modCore (modDesc s c x t (fun d => { d with active := false, asleep := true, beat := 0 })) c
    (fun k => { k with rotation := k.rotation.filter (fun r => r != (x, t)) })

theorem slept_only : ParserOnly s (slept s c x t) := (ParserOnly.modDesc ..).trans (ParserOnly.modRotation ..)

theorem descOf_slept : descOf (slept s c x t) c x t =
    (descOf s c x t).map (fun d => { d with active := false, asleep := true, beat := 0 }) := by
  rw [slept, descOf_modRotation, descOf_modDesc]

theorem rotation_slept : (coreOf (slept s c x t) c).rotation = (coreOf s c).rotation.filter (fun r => r ≠ (x, t)) := by
  rw [slept, coreOf_modCore_self, rotation_modDesc]
  exact List.filter_congr (fun r _ => by simp [bne, beq_eq_decide])

/-- The state once a sweep that has read its last beat is counted. -/
def sweepCounted : State := modDesc s c x t (fun d => { d with sweeps := (d.sweeps + 1) % 2 ^ 32 })

theorem sweepCounted_only : ParserOnly s (sweepCounted s c x t) := ParserOnly.modDesc ..

variable {s c x t}

theorem rotation_sweepCounted : (coreOf (sweepCounted s c x t) c).rotation = (coreOf s c).rotation := rotation_modDesc ..

theorem descOf_sweepCounted {d : Desc} (hd : descOf s c x t = some d) :
    descOf (sweepCounted s c x t) c x t = some { d with sweeps := (d.sweeps + 1) % 2 ^ 32 } :=
  descOf_of_map hd (descOf_modDesc s c x t (fun d => { d with sweeps := (d.sweeps + 1) % 2 ^ 32 }))

/-- A descriptor some element of which is not done. -/
def SomeLeft (s : State) (c x : Nat) (d : Desc) : Prop := ∃ i < d.count, bits (elemWord s c x d i) 11 8 ≠ 15

theorem all_done_iff {d : Desc} :
    (List.range d.count).all (fun i => bits (elemWord (sweepCounted s c x t) c x d i) 11 8 == 15) = true ↔ ¬SomeLeft s c x d := by
  simp only [(sweepCounted_only s c x t).elemWord, List.all_eq_true, List.mem_range, beq_iff_eq, SomeLeft, not_exists, not_and, not_not]

section Ends
variable {d : Desc} (hd : descOf s c x t = some d)
include hd

theorem sweepTurn_done (h : ¬SomeLeft s c x d) : sweepTurn s c x t = sweepEnd (sweepCounted s c x t) c x t d 1 := by
  have hall := (all_done_iff (t := t)).2 h
  unfold sweepCounted at hall ⊢
  simp only [sweepTurn, hd, hall, if_true]

variable (hleft : SomeLeft s c x d)
include hleft

theorem sweepTurn_quiet (hran : d.ran = false) (hquiet : bit d.e0 37 = true) :
    sweepTurn s c x t = sweepEnd (sweepCounted s c x t) c x t d 2 := by
  have hall := mt (all_done_iff (t := t)).1 (not_not.2 hleft)
  unfold sweepCounted at hall ⊢
  simp only [sweepTurn, hd, hall, hran, hquiet, Bool.not_false, Bool.and_self, if_true, if_false, Bool.false_eq_true]

variable (hloud : (!d.ran && bit d.e0 37) = false)
include hloud

theorem sweepTurn_again (hran : (d.ran || d.missed) = true) : sweepTurn s c x t = requeued (sweepCounted s c x t) c x t := by
  have hall := mt (all_done_iff (t := t)).1 (not_not.2 hleft)
  unfold sweepCounted at hall ⊢
  simp only [sweepTurn, hd, hall, hloud, hran, if_true, if_false, Bool.false_eq_true]
  rfl

/-- A sweep that ran no lane repeats if it awaits an event bit that is set, and sleeps otherwise; what waits for a vector has it held by
the core's launch unit. -/
theorem sweepTurn_waits (hran : (d.ran || d.missed) = false) (hset : Settled s x) : ∃ y,
    sweepTurn s c x t = (if evtDue s c x d (vectorAt s x (unitOf c)) then requeued { sweepCounted s c x t with dies := y } c x t
      else slept { sweepCounted s c x t with dies := y } c x t) ∧
    (evtLane s c x d = true → ∀ e, unitOf c = some e → HoldsVector { sweepCounted s c x t with dies := y } x e) := by
  have hall := mt (all_done_iff (t := t)).1 (not_not.2 hleft)
  have hcounted := sweepCounted_only s c x t
  have hset' : Settled (sweepCounted s c x t) x := by rwa [Settled, hcounted.homeDie, hcounted.evHome]
  obtain ⟨y, hmirror, hvector, hholds⟩ : ∃ y, (if evtLane (sweepCounted s c x t) c x d then mirrorFor (sweepCounted s c x t) x c
        else sweepCounted s c x t) = { sweepCounted s c x t with dies := y } ∧
      vectorAt { sweepCounted s c x t with dies := y } x (unitOf c) = vectorAt (sweepCounted s c x t) x (unitOf c) ∧
      (evtLane (sweepCounted s c x t) c x d = true → ∀ e, unitOf c = some e → HoldsVector { sweepCounted s c x t with dies := y } x e) := by
    cases hlane : evtLane (sweepCounted s c x t) c x d with
    | false => exact ⟨(sweepCounted s c x t).dies, rfl, rfl, nofun⟩
    | true =>
      obtain ⟨y, hmirror, hvector, hholds⟩ := mirrorFor_settled hset' c
      exact ⟨y, hmirror, hvector, fun _ => hholds⟩
  have hdue : evtDue { sweepCounted s c x t with dies := y } c x d (vectorAt { sweepCounted s c x t with dies := y } x (unitOf c)) =
      evtDue s c x d (vectorAt s x (unitOf c)) := by
    rw [hvector, hcounted.vectorAt]
    exact hcounted.evtDue c x d _
  rw [hcounted.evtLane] at hholds
  refine ⟨y, ?_, hholds⟩
  rw [← hdue, ← hmirror]
  unfold sweepCounted at hall ⊢
  simp only [sweepTurn, hd, hall, hloud, hran, if_false, Bool.false_eq_true]
  rfl

end Ends

end Turn

end Sys2Proof.Machine
end

section
/-!
SUPPORT. One beat of a sweep (R249-R254, R404): a lane that errs, and a lane that runs while the others rest.
-/

namespace Sys2Proof.Machine

/-! ### Lists -/

/-- The first element of an ascending list that meets a test. -/
theorem find_first {l : List Nat} {p : Nat → Bool} {i : Nat} (hl : l.Pairwise (· < ·)) (hi : i ∈ l) (hp : p i = true)
    (hbefore : ∀ k ∈ l, k < i → p k = false) : l.find? p = some i := by
  induction l with
  | nil => exact nomatch hi
  | cons a l ih =>
    obtain ⟨ha, hl⟩ := List.pairwise_cons.1 hl
    rcases List.mem_cons.1 hi with rfl | hmem
    · exact List.find?_cons_of_pos hp
    · rw [List.find?_cons_of_neg (by simp [hbefore a List.mem_cons_self (ha i hmem)])]
      exact ih hl hmem (fun k hk => hbefore k (List.mem_cons_of_mem a hk))

/-- What a list holds where one element alone has a value. -/
theorem filterMap_single {α : Type} {l : List Nat} {f : Nat → Option α} {i : Nat} {y : α} (hl : l.Nodup) (hi : i ∈ l) (hf : f i = some y)
    (hothers : ∀ k ∈ l, k ≠ i → f k = none) : l.filterMap f = [y] := by
  induction l with
  | nil => exact nomatch hi
  | cons a l ih =>
    obtain ⟨ha, hl⟩ := List.nodup_cons.1 hl
    rcases List.mem_cons.1 hi with rfl | hmem
    · have hnone : l.filterMap f = [] := List.filterMap_eq_nil_iff.2 (fun k hk =>
        hothers k (List.mem_cons_of_mem _ hk) (fun hki => ha (hki ▸ hk)))
      rw [List.filterMap_cons_some hf, hnone]
    · rw [List.filterMap_cons_none (hothers a List.mem_cons_self (fun hai => ha (hai ▸ hmem)))]
      exact ih hl hmem (fun k hk => hothers k (List.mem_cons_of_mem a hk))

/-! ### The elements of a beat, and what their lanes do -/

/-- The elements of a beat. -/
def beatElems (d : Desc) (b : Nat) : List Nat := ((List.range 16).map (· + 16 * b)).filter (· < d.count)

theorem beatElems_ascends (d : Desc) (b : Nat) : (beatElems d b).Pairwise (· < ·) := by
  refine List.Pairwise.filter _ (List.pairwise_map.2 ?_)
  exact List.pairwise_lt_range.imp (fun h => Nat.add_lt_add_right h _)

theorem mem_beatElems {d : Desc} {b i : Nat} (h : i ∈ beatElems d b) : i < d.count := by simpa using (List.mem_filter.1 h).2

section Beat
variable (s : State) (c x t : Nat) (d : Desc) (b : Nat)

/-- What the lane of an element does in a beat. -/
def beatOut (i : Nat) : LaneOut :=
  laneOf s c x t d b ((beatElems d b).map (fun i => readNat s (recordLoc s c x d i) d.size)) (vectorAt s x (unitOf c)) i

/-- The state once a lane has stored its value and its context word. -/
def laneStored (i : Nat) (l : LaneRun) : State :=
  let s := match l.store with
    | some v => putValue s c x d i v
    | none => s
  putElem s c x d i (laneWord (elemWord s c x d i) l)

/-- The state once the skip bits of waiting and done elements are set. -/
def beatSkips (v : EvVec) (is : List Nat) : State :=
  is.foldl (fun s i =>
    let w := elemWord s c x d i
    let k := bits w 11 8
    if k = 15 ∨ ((k = 1 ∨ k = 2 ∨ k = 4) ∧ !satisfied w v) then setSkip s c x d i true else s) s

/-- The state once a beat's one lane has been stored and the skip bits are set. -/
def beatStored (i : Nat) (l : LaneRun) : State :=
  beatSkips (laneStored s c x d i l) c x d (vectorAt s x (unitOf c)) (beatElems d b)

/-- The state once its notes to its own descriptor have been applied too. -/
def beatRead (i : Nat) (l : LaneRun) : State :=
  modDesc (ownNotes (beatStored s c x d b i l) c x t d l.notes) c x t (fun k => { k with beat := b + 1, ran := k.ran || true })

variable {s} (hp : poisonAbout s = false) {i : Nat} (hi : i ∈ beatElems d b)
include hp hi

/-- The first lane that errs ends the sweep. -/
theorem runBeat_errs (hbad : beatOut s c x t d b i = .bad) (hfirst : ∀ k ∈ beatElems d b, k < i → beatOut s c x t d b k ≠ .bad) :
    runBeat s c x t d b = engineUpcall (sweepEnd s c x t d 4) c x 4 0 .ecerr (BitVec.ofNat 64 i) := by
  have hfind : ((beatElems d b).map (fun i => (i, beatOut s c x t d b i))).find? (fun o => o.2 == .bad) = some (i, beatOut s c x t d b i) := by
    rw [List.find?_map]
    refine congrArg (Option.map _) (find_first (beatElems_ascends d b) hi ?_ (fun k hk hki => ?_))
    · exact beq_iff_eq.2 hbad
    · exact beq_eq_false_iff_ne.2 (hfirst k hk hki)
  have hlost : (poisonedIn s (recordLoc s c x d (16 * b)) 256).isSome = false := by simp [poisonedIn, hp]
  unfold beatOut beatElems at hfind
  simp only [runBeat, hlost, Bool.false_eq_true, if_false, hfind]

theorem runBeat_runs {l : LaneRun} (hrun : beatOut s c x t d b i = .run l)
    (hrest : ∀ k ∈ beatElems d b, k ≠ i → beatOut s c x t d b k = .rest) :
    runBeat s c x t d b = farNotes (otherNotes (beatRead s c x t d b i l) c x t l.notes) c x l.notes := by
  have hnone : ((beatElems d b).map (fun i => (i, beatOut s c x t d b i))).find? (fun o => o.2 == .bad) = none := by
    rw [List.find?_map, Option.map_eq_none_iff, List.find?_eq_none]
    intro k hk
    by_cases hki : k = i
    · simp [hki, hrun]
    · simp [hrest k hk hki]
  have hruns (f : Nat × LaneOut → Option (Nat × LaneRun)) (hf : f (i, .run l) = some (i, l)) (hfrest : ∀ k, f (k, .rest) = none) :
      ((beatElems d b).map (fun i => (i, beatOut s c x t d b i))).filterMap f = [(i, l)] := by
    rw [List.filterMap_map]
    refine filterMap_single ((beatElems_ascends d b).imp Nat.ne_of_lt) hi ?_ (fun k hk hki => ?_)
    · rw [Function.comp_apply, hrun, hf]
    · rw [Function.comp_apply, hrest k hk hki, hfrest]
  have hlost : (poisonedIn s (recordLoc s c x d (16 * b)) 256).isSome = false := by simp [poisonedIn, hp]
  unfold beatOut beatElems at hnone hruns
  simp only [runBeat, hlost, Bool.false_eq_true, if_false, hnone]
  rw [hruns _ rfl (fun _ => rfl), List.flatMap_cons, List.flatMap_nil, List.append_nil]
  rfl

end Beat

/-! ### What the lane that runs leaves -/

section Stored
variable {s : State} {c x : Nat} {d : Desc} (hf : frameHere s c x = true)

/-- The skip bits lie apart from the records. -/
def SkipsApart (s : State) (c x : Nat) (d : Desc) : Prop := ∀ j < d.count, ∀ k < d.count,
  skipLoc s c x d j < recordLoc s c x d k ∨ recordLoc s c x d k + 16 ≤ skipLoc s c x d j

theorem skipsApart_of (h : bits d.e1 19 0 + (d.count + 7) / 8 ≤ bits d.e0 19 0 ∨ bits d.e0 19 0 + 16 * d.count ≤ bits d.e1 19 0) :
    SkipsApart s c x d := by
  intro j hj k hk
  unfold skipLoc recordLoc
  omega

include hf

theorem laneStored_kept (i : Nat) (l : LaneRun) :
    PadKept c x (fun a => a < recordLoc s c x d i ∨ recordLoc s c x d i + 16 ≤ a) s (laneStored s c x d i l) := by
  unfold laneStored
  cases l.store with
  | none => exact (putElem_kept _).mono (fun a ha => by omega)
  | some v =>
    have hvalue := putValue_kept (s := s) (c := c) (x := x) (d := d) (i := i) v
    refine (hvalue.mono (fun a ha => by omega)).trans ((putElem_kept _).mono (fun a ha => ?_))
    rw [hvalue.recordLoc hf]
    omega

theorem beatSkips_kept (v : EvVec) {is : List Nat} (his : ∀ i ∈ is, i < d.count) :
    PadKept c x (fun a => ∀ j < d.count, a ≠ skipLoc s c x d j) s (beatSkips s c x d v is) := by
  refine PadKept.foldl is (fun u i hi hu => ?_) (.refl s)
  simp only []
  split
  · refine (setSkip_kept true).mono (fun a ha => ?_)
    rw [hu.skipLoc hf]
    exact ha i (his i hi)
  · exact .refl u

variable (hw : MemoryCanonical s)
include hw

theorem elemWord_laneStored (i : Nat) (l : LaneRun) : elemWord (laneStored s c x d i l) c x d i = laneWord (elemWord s c x d i) l := by
  unfold laneStored
  cases l.store with
  | none => exact elemWord_putElem hw hf _
  | some v =>
    have hvalue := putValue_kept (s := s) (c := c) (x := x) (d := d) (i := i) v
    refine (elemWord_putElem (hvalue.canonical hw) (hvalue.here.trans hf) _).trans ?_
    rw [hvalue.elemWord hf (fun k hk => by omega)]

theorem readNat_laneStored (i : Nat) {l : LaneRun} {v : Nat} (hv : l.store = some v) :
    readNat (laneStored s c x d i l) (recordLoc s c x d i) d.size = v % 2 ^ (8 * d.size) := by
  have hvalue := putValue_kept (s := s) (c := c) (x := x) (d := d) (i := i) v
  have hword := putElem_kept (s := putValue s c x d i v) (c := c) (x := x) (d := d) (i := i)
    (laneWord (elemWord (putValue s c x d i v) c x d i) l)
  unfold laneStored
  simp only [hv]
  rw [hword.readNat (fun k hk => ?_), readNat_putValue hw]
  rw [hvalue.recordLoc hf]
  rcases d.size_le with h | h <;> omega

omit hf hw in
theorem readNat_laneStored_none (i : Nat) {l : LaneRun} (hv : l.store = none) :
    readNat (laneStored s c x d i l) (recordLoc s c x d i) 8 = readNat s (recordLoc s c x d i) 8 := by
  unfold laneStored
  simp only [hv]
  exact (putElem_kept _).readNat (fun k hk => by omega)

variable {i b : Nat} {l : LaneRun} (hi : i < d.count) (hapart : SkipsApart s c x d)

omit hw in
/-- After a lane is stored, the skip bits lie where they did. -/
theorem beatStored_skips : PadKept c x (fun a => ∀ j < d.count, a ≠ skipLoc s c x d j) (laneStored s c x d i l) (beatStored s c x d b i l) := by
  have hlane := laneStored_kept hf (d := d) i l
  refine (beatSkips_kept (hlane.here.trans hf) _ (fun _ h => mem_beatElems h)).mono (fun a ha j hj => ?_)
  rw [hlane.skipLoc hf]
  exact ha j hj

omit hw in
theorem beatStored_kept : PadKept c x (fun a => (a < recordLoc s c x d i ∨ recordLoc s c x d i + 16 ≤ a) ∧ ∀ j < d.count, a ≠ skipLoc s c x d j)
    s (beatStored s c x d b i l) :=
  ((laneStored_kept hf i l).mono (fun _ ha => ha.1)).trans ((beatStored_skips hf).mono (fun _ ha => ha.2))

include hi hapart

theorem elemWord_beatStored : elemWord (beatStored s c x d b i l) c x d i = laneWord (elemWord s c x d i) l := by
  have hlane := laneStored_kept hf (d := d) i l
  rw [(beatStored_skips hf).elemWord (hlane.here.trans hf) (fun k hk j hj => ?_), elemWord_laneStored hf hw]
  rw [hlane.recordLoc hf]
  have := hapart j hj i hi
  omega

omit hw hi in
theorem elemWord_beatStored_other {e : Nat} (he : e < d.count) (hne : e ≠ i) :
    elemWord (beatStored s c x d b i l) c x d e = elemWord s c x d e := by
  refine (beatStored_kept hf).elemWord hf (fun k hk => ⟨?_, fun j hj => ?_⟩)
  · unfold recordLoc
    omega
  · have := hapart j hj e he
    omega

theorem readNat_beatStored {v : Nat} (hv : l.store = some v) :
    readNat (beatStored s c x d b i l) (recordLoc s c x d i) d.size = v % 2 ^ (8 * d.size) := by
  rw [(beatStored_skips hf).readNat (fun k hk j hj => ?_), readNat_laneStored hf hw i hv]
  have := hapart j hj i hi
  rcases d.size_le with h | h <;> omega

omit hw in
theorem readNat_beatStored_none (hv : l.store = none) :
    readNat (beatStored s c x d b i l) (recordLoc s c x d i) 8 = readNat s (recordLoc s c x d i) 8 := by
  rw [(beatStored_skips hf).readNat (fun k hk j hj => ?_), readNat_laneStored_none i hv]
  have := hapart j hj i hi
  omega

end Stored

end Sys2Proof.Machine
end

section
/-!
SUPPORT. EVENT SWEEP_BEAT (R249, R253, R255): what the event at the head of a rotation does.
-/

namespace Sys2Proof.Machine

section Upcall
variable (s : State) (c x unit xfer : Nat) (cause : Cause) (va : Word)

/-- An upcall waits as a message of priority 3. -/
theorem waiting_engineUpcall : (coreOf (engineUpcall s c x unit xfer cause va) c).waiting = (coreOf s c).waiting ++
    [{ engineMsg s x [] 3 3 (.engine (engineTag s unit xfer c x) (BitVec.ofNat 64 cause.code) va) with id := s.ids }] := by
  rw [engineUpcall, arrivalWakes_waiting, enqueueMsg_waiting]

theorem descOf_engineUpcall (t : Nat) : descOf (engineUpcall s c x unit xfer cause va) c x t = descOf s c x t := by
  have hdescs : (ctxOf (engineUpcall s c x unit xfer cause va) c x).descs = (ctxOf s c x).descs := by
    rw [engineUpcall, arrivalWakes, ctxOf, coreOf_modCore_self, VectorKept.descs_mapWaits, enqueueMsg, coreOf_modCore_self]
    rfl
  rw [descOf, hdescs, descOf]

end Upcall

section Event
variable {s : State} {c x t : Nat} {d : Desc} {rest : List (Nat × Nat)} (hrot : (coreOf s c).rotation = (x, t) :: rest)
  (hq : (coreOf s c).quiesced = false) (hfence : partFenced s.module.fenced (.core c) = false) (hd : descOf s c x t = some d)
  (hends : sweepEnds s c = s)
include hrot hq hfence hd hends

/-- A descriptor that is to stop ends its sweep. -/
theorem sweepBeat_stops (hstop : d.stopping = true) : exec (.sweepBeat c) s = .next (sweepEnd s c x t d 3) := by
  have hbeat : sweepBeat s c = sweepEnd s c x t d 3 := by
    simp only [sweepBeat, hends, hrot, hq, hfence, Bool.or_self, Bool.false_eq_true, if_false, hd, hstop, if_true]
  exact congrArg Host.Outcome.next hbeat

variable (hstop : d.stopping = false)
include hstop

/-- With no beat left to read, the sweep has its turn. -/
theorem sweepBeat_turns (hnone : nextBeat s c x d = none) : exec (.sweepBeat c) s = .next (sweepTurn s c x t) := by
  have hbeat : sweepBeat s c = sweepTurn s c x t := by
    simp only [sweepBeat, hends, hrot, hq, hfence, Bool.or_self, Bool.false_eq_true, if_false, hd, hstop, hnone]
  exact congrArg Host.Outcome.next hbeat

/-- A beat that does not end its sweep. -/
theorem sweepBeat_reads {b : Nat} (hb : nextBeat s c x d = some b) {k : Desc} (hk : descOf (runBeat s c x t d b) c x t = some k)
    (hmore : ¬(k.active ∧ !k.ending ∧ (k.count + 15) / 16 ≤ k.beat)) : exec (.sweepBeat c) s = .next (runBeat s c x t d b) := by
  have hbeat : sweepBeat s c = runBeat s c x t d b := by
    simp only [sweepBeat, hends, hrot, hq, hfence, Bool.or_self, Bool.false_eq_true, if_false, hd, hstop, hb, hk, if_neg hmore]
  exact congrArg Host.Outcome.next hbeat

section Single
variable {b : Nat} (hb : nextBeat s c x d = some b) (hp : poisonAbout s = false) {i : Nat} (hi : i ∈ beatElems d b)
include hb hp hi

/-- A beat with a lane that errs. -/
theorem sweepBeat_errs (hbad : beatOut s c x t d b i = .bad) (hfirst : ∀ k ∈ beatElems d b, k < i → beatOut s c x t d b k ≠ .bad)
    (hn : notesOut s c x = false) (h46 : d.e0.getLsbD 46 = false) :
    exec (.sweepBeat c) s = .next (engineUpcall (sweepEnded s c x t 4) c x 4 0 .ecerr (BitVec.ofNat 64 i)) := by
  have hrun := runBeat_errs c x t d b hp hi hbad hfirst
  rw [sweepEnd_silent s c x t d 4 hn h46] at hrun
  have hk := (descOf_engineUpcall (sweepEnded s c x t 4) c x 4 0 .ecerr (BitVec.ofNat 64 i) t).trans
    (descOf_of_map hd (descOf_sweepEnded s c x t 4))
  rw [← hrun] at hk ⊢
  exact sweepBeat_reads hrot hq hfence hd hends hstop hb hk (by simp)

/-- A beat with one lane that runs, and more beats after it: `v` holds its stores and its notes to its own descriptor. -/
theorem sweepBeat_runs {l : LaneRun} (hrun : beatOut s c x t d b i = .run l)
    (hrest : ∀ k ∈ beatElems d b, k ≠ i → beatOut s c x t d b k = .rest) (hmore : b + 1 < (d.count + 15) / 16) {v : State}
    (hown : ownNotes (beatStored s c x d b i l) c x t d l.notes = v) (hv : descOf v c x t = some d) :
    ∃ w, ParserOnly v w ∧ descOf w c x t = some { d with beat := b + 1, ran := true } ∧
      ∀ u, farNotes (otherNotes w c x t l.notes) c x l.notes = u → descOf u c x t = descOf w c x t → exec (.sweepBeat c) s = .next u := by
  have hread : beatRead s c x t d b i l = modDesc v c x t (fun k => { k with beat := b + 1, ran := k.ran || true }) := by
    rw [beatRead, hown]
  have hdesc : descOf (beatRead s c x t d b i l) c x t = some { d with beat := b + 1, ran := true } := by
    rw [hread, descOf_modDesc, hv, Option.map_some, Bool.or_true]
  refine ⟨beatRead s c x t d b i l, hread ▸ ParserOnly.modDesc .., hdesc, fun u hu hsame => ?_⟩
  have hbeat := (runBeat_runs c x t d b hp hi hrun hrest).trans hu
  have hk := hsame.trans hdesc
  rw [← hbeat] at hk ⊢
  exact sweepBeat_reads hrot hq hfence hd hends hstop hb hk (fun hover => Nat.not_le.2 hmore hover.2.2)

end Single

end Event

/-! ### The notes of a lane (R404) -/

section Notes
variable (s : State) (c x t : Nat) (d : Desc)

/-- A note to another core is a packet of its own. -/
theorem farNotes_sends (dst : Node) (op e q v : Nat) :
    farNotes s c x [.change op [⟨e, q, some dst⟩]] = sendPkt s (nodeOf s c) dst x 4 0 (.change q e op) ∧
    farNotes s c x [.value v [⟨e, q, some dst⟩]] = sendPkt s (nodeOf s c) dst x 4 0 (.value q e (BitVec.ofNat 64 v)) := ⟨rfl, rfl⟩

/-- A note to another core is none to this one. -/
theorem nearNotes_far (dst : Node) (op e q v : Nat) :
    ownNotes s c x t d [.change op [⟨e, q, some dst⟩]] = s ∧ otherNotes s c x t [.change op [⟨e, q, some dst⟩]] = s ∧
    ownNotes s c x t d [.value v [⟨e, q, some dst⟩]] = s ∧ otherNotes s c x t [.value v [⟨e, q, some dst⟩]] = s :=
  ⟨by simp [ownNotes], by simp [otherNotes], rfl, rfl⟩

/-- A note to an element of the lane's own descriptor. -/
theorem ownNotes_own (e : Nat) : ownNotes s c x t d [.change 1 [⟨e, t, none⟩]] = changed s c x d e 1 ∧
    otherNotes s c x t [.change 1 [⟨e, t, none⟩]] = s ∧ farNotes s c x [.change 1 [⟨e, t, none⟩]] = s := by
  refine ⟨(if_pos ⟨rfl, rfl⟩).trans ?_, if_neg (fun h => h.2 rfl), rfl⟩
  rw [applyChange_eq]
  rfl

end Notes

/-- A note of the lane to another element of its descriptor, after the beat's stores. -/
theorem changed_beatStored {s : State} {c x t b i e : Nat} {d : Desc} {l : LaneRun} (hf : frameHere s c x = true) (hw : MemoryCanonical s)
    (hi : i < d.count) (he : e < d.count) (hne : e ≠ i) (hapart : SkipsApart s c x d) (hd : descOf s c x t = some d) :
    descOf (changed (beatStored s c x d b i l) c x d e 1) c x t = some d ∧
    elemWord (changed (beatStored s c x d b i l) c x d e 1) c x d i = laneWord (elemWord s c x d i) l ∧
    elemWord (changed (beatStored s c x d b i l) c x d e 1) c x d e = elemWord s c x d e ||| 0x1000#64 ∧
    skipBit (changed (beatStored s c x d b i l) c x d e 1) c x d e = false := by
  have hkept := beatStored_kept (b := b) (d := d) (i := i) (l := l) hf
  have hf' := hkept.here.trans hf
  have hw' := hkept.canonical hw
  refine ⟨?_, ?_, ?_, skipBit_changed 1 hf' hw' he⟩
  · rw [descOf_changed 1 hf', descOf, hkept.ctx]
    exact hd
  · rw [(changed_kept 1 hf').elemWord hf' (fun k hk => ⟨?_, ?_⟩), elemWord_beatStored hf hw hi hapart]
    · unfold recordLoc
      omega
    · rw [hkept.recordLoc hf, hkept.skipLoc hf]
      have := hapart e he i hi
      omega
  · rw [elemWord_changed 1 hf' hw' ?_, elemWord_beatStored_other hf hapart he hne]
    · rfl
    · rw [hkept.recordLoc hf, hkept.skipLoc hf]
      have := hapart e he e he
      omega

theorem descOf_beatStored {s : State} {c x t b i : Nat} {d : Desc} {l : LaneRun} (hf : frameHere s c x = true)
    (hd : descOf s c x t = some d) : descOf (beatStored s c x d b i l) c x t = some d := by
  rw [descOf, (beatStored_kept hf).ctx]
  exact hd

end Sys2Proof.Machine
end

section
/-!
SUPPORT. What the sweep event leaves of the descriptor at the head of a rotation (R249-R255, R404).
-/

namespace Sys2Proof.Machine

/-- The event at a core's parser leaves a descriptor, and with it a state, of which something holds. -/
def SweepLeaves (s : State) (c x t : Nat) (h : State → Desc → Prop) : Prop :=
  ∃ u k, exec (.sweepBeat c) s = .next u ∧ descOf u c x t = some k ∧ h u k

section Event
variable {s : State} {c x t : Nat} {d : Desc} {rest : List (Nat × Nat)} (hrot : (coreOf s c).rotation = (x, t) :: rest)
  (hq : (coreOf s c).quiesced = false) (hfence : partFenced s.module.fenced (.core c) = false) (hd : descOf s c x t = some d)
  (hends : sweepEnds s c = s)
include hrot hq hfence hd hends

/-! ### A descriptor that is to stop (R253) -/

section Stops
variable (hstop : d.stopping = true)
include hstop

theorem sweep_stops (hn : notesOut s c x = false) (h46 : d.e0.getLsbD 46 = false) : SweepLeaves s c x t (fun u k =>
    k = { d with active := false, asleep := false, stopping := false, endCode := 3, ending := false } ∧
    (coreOf u c).rotation = (coreOf s c).rotation.filter (fun r => r ≠ (x, t)) ∧ u.evec = s.evec) := by
  have hexec := sweepBeat_stops hrot hq hfence hd hends hstop
  rw [sweepEnd_silent s c x t d 3 hn h46] at hexec
  exact ⟨_, _, hexec, descOf_of_map hd (descOf_sweepEnded ..), rfl, rotation_sweepEnded .., (sweepEnded_only ..).evec⟩

theorem sweep_stops_held (hn : notesOut s c x = true) : SweepLeaves s c x t (fun u k =>
    k = { d with active := true, asleep := false, stopping := false, endCode := 3, ending := true } ∧
    (coreOf u c).rotation = (coreOf s c).rotation.filter (fun r => r ≠ (x, t)) ∧ u.evec = s.evec) := by
  have hexec := sweepBeat_stops hrot hq hfence hd hends hstop
  rw [sweepEnd_held s c x t d 3 hn] at hexec
  exact ⟨_, _, hexec, descOf_of_map hd (descOf_sweepEnding ..), rfl, rotation_sweepEnding .., (sweepEnding_only ..).evec⟩

/-- The end of a sweep sets its event bit. -/
theorem sweep_stops_sets (hn : notesOut s c x = false) (h46 : d.e0.getLsbD 46 = true) (hhome : (homeDie s x).isSome = true)
    (hl : s.launches = []) : SweepLeaves s c x t (fun u _ =>
    tgetD u.evec x 0 = tgetD s.evec x 0 ||| (1#256 <<< bits d.e0 45 38)) := by
  have hexec := sweepBeat_stops hrot hq hfence hd hends hstop
  rw [sweepEnd_performed s c x t d 3 hn, if_pos h46] at hexec
  have honly := sweepEnded_only s c x t 3
  obtain ⟨hevec, hsome⟩ := completionEvent_sets (c := c) (t := t) (s := sweepEnded s c x t 3) (x := x) (b := bits d.e0 45 38)
    (by rw [descOf_of_map hd (descOf_sweepEnded ..)]; rfl) (by rw [honly.homeDie]; exact hhome) (honly.launches.trans hl) rfl
  obtain ⟨k, hk⟩ := Option.isSome_iff_exists.1 hsome
  exact ⟨_, k, hexec, hk, hevec⟩

end Stops

variable (hstop : d.stopping = false)
include hstop

/-! ### The turn of a sweep (R253, R255) -/

section Turn
variable (hnone : nextBeat s c x d = none)
include hnone

/-- A sweep that its turn ends. -/
theorem sweep_ends (hn : notesOut s c x = false) (h46 : d.e0.getLsbD 46 = false) {code : Nat}
    (hturn : sweepTurn s c x t = sweepEnd (sweepCounted s c x t) c x t d code) : SweepLeaves s c x t (fun u k =>
    k = { d with active := false, asleep := false, stopping := false, ending := false, endCode := code,
                 sweeps := (d.sweeps + 1) % 2 ^ 32 } ∧
    (coreOf u c).rotation = (coreOf s c).rotation.filter (fun r => r ≠ (x, t))) := by
  have hexec := sweepBeat_turns hrot hq hfence hd hends hstop hnone
  rw [hturn, sweepEnd_silent _ c x t d code (((sweepCounted_only s c x t).notesOut c x).trans hn) h46] at hexec
  refine ⟨_, _, hexec, descOf_of_map (descOf_sweepCounted hd) (descOf_sweepEnded ..), rfl, ?_⟩
  rw [rotation_sweepEnded, rotation_sweepCounted]

variable (hleft : SomeLeft s c x d) (hloud : (!d.ran && bit d.e0 37) = false)
include hleft hloud

theorem sweep_repeats (hwhy : d.ran = true ∨ d.missed = true ∨ (Settled s x ∧ evtDue s c x d (vectorAt s x (unitOf c)) = true)) :
    SweepLeaves s c x t (fun u k =>
      k = { d with sweeps := (d.sweeps + 1) % 2 ^ 32, active := true, asleep := false, beat := 0, ran := false, missed := false } ∧
      (coreOf u c).rotation = (coreOf s c).rotation.filter (fun r => r ≠ (x, t)) ++ [(x, t)] ∧ SameMemory s u) := by
  obtain ⟨y, hrun⟩ : ∃ y, sweepTurn s c x t = requeued { sweepCounted s c x t with dies := y } c x t := by
    cases hran : d.ran || d.missed with
    | true => exact ⟨(sweepCounted s c x t).dies, sweepTurn_again hd hleft hloud hran⟩
    | false =>
      obtain ⟨hset, hdue⟩ := (or_assoc.2 hwhy).resolve_left (fun h => by simp [← Bool.or_eq_true, hran] at h)
      obtain ⟨y, hrun, _⟩ := sweepTurn_waits hd hleft hloud hran hset
      exact ⟨y, hrun.trans (if_pos hdue)⟩
  have hexec := sweepBeat_turns hrot hq hfence hd hends hstop hnone
  rw [hrun] at hexec
  refine ⟨_, _, hexec, descOf_of_map (descOf_sweepCounted hd) (descOf_requeued ..), rfl, ?_, (requeued_only ..).readByte⟩
  exact (rotation_requeued ..).trans (congrArg (List.filter _ · ++ _) (rotation_sweepCounted ..))

theorem sweep_sleeps (hran : (d.ran || d.missed) = false) (hset : Settled s x)
    (hdue : ¬evtDue s c x d (vectorAt s x (unitOf c)) = true) : SweepLeaves s c x t (fun u k =>
      k = { d with sweeps := (d.sweeps + 1) % 2 ^ 32, active := false, asleep := true, beat := 0 } ∧
      (coreOf u c).rotation = (coreOf s c).rotation.filter (fun r => r ≠ (x, t)) ∧
      (evtLane s c x d = true → ∀ e, unitOf c = some e → localHome s x = some e ∨ (tget (dieOf u e).mirrors x).isSome = true)) := by
  have hexec := sweepBeat_turns hrot hq hfence hd hends hstop hnone
  obtain ⟨y, hrun, hholds⟩ := sweepTurn_waits hd hleft hloud hran hset
  rw [hrun, if_neg hdue] at hexec
  refine ⟨_, _, hexec, descOf_of_map (descOf_sweepCounted hd) (descOf_slept ..), rfl, ?_, fun hlane e he => ?_⟩
  · exact (rotation_slept ..).trans (congrArg (List.filter _) (rotation_sweepCounted ..))
  · rw [(slept_only ..).dieOf]
    exact hholds hlane e he

end Turn

/-! ### A beat (R249, R254) -/

section Beat
variable {b : Nat} (hb : nextBeat s c x d = some b) (hp : poisonAbout s = false) {i : Nat} (hi : i ∈ beatElems d b)
include hb hp hi

theorem sweep_errs (hbad : beatOut s c x t d b i = .bad) (hfirst : ∀ k ∈ beatElems d b, k < i → beatOut s c x t d b k ≠ .bad)
    (hn : notesOut s c x = false) (h46 : d.e0.getLsbD 46 = false) : SweepLeaves s c x t (fun u k =>
    k = { d with active := false, asleep := false, stopping := false, ending := false, endCode := 4 } ∧ SameMemory s u ∧
    ∃ m, (coreOf u c).waiting = (coreOf s c).waiting ++ [m] ∧ m.ctx = x ∧ m.mprio = 3 ∧
      ∃ tag, m.start = .engine tag (BitVec.ofNat 64 Cause.ecerr.code) (BitVec.ofNat 64 i)) := by
  have hexec := sweepBeat_errs hrot hq hfence hd hends hstop hb hp hi hbad hfirst hn h46
  have honly := sweepEnded_only s c x t 4
  exact ⟨_, _, hexec, (descOf_engineUpcall ..).trans (descOf_of_map hd (descOf_sweepEnded ..)), rfl, honly.sameMemory, _,
    (waiting_engineUpcall ..).trans (congrArg (· ++ _) (honly.waiting c)), rfl, rfl, _, rfl⟩

variable {l : LaneRun} (hrun : beatOut s c x t d b i = .run l) (hrest : ∀ k ∈ beatElems d b, k ≠ i → beatOut s c x t d b k = .rest)
  (hmore : b + 1 < (d.count + 15) / 16) (hf : frameHere s c x = true)
include hrun hrest hmore hf

/-- A note to another core is a packet. -/
theorem sweep_sends {pl : Payload} {dst : Node} (hown : ownNotes (beatStored s c x d b i l) c x t d l.notes = beatStored s c x d b i l)
    (hfar : ∀ u, farNotes (otherNotes u c x t l.notes) c x l.notes = sendPkt u (nodeOf u c) dst x 4 0 pl) :
    SweepLeaves s c x t (fun u _ => ∃ p, tget u.net s.ids = some p ∧ p.dst = dst ∧ p.ctx = x ∧ p.path = 0 ∧ p.payload = pl) := by
  obtain ⟨u, honly, hu, hexec⟩ := sweepBeat_runs hrot hq hfence hd hends hstop hb hp hi hrun hrest hmore hown (descOf_beatStored hf hd)
  exact ⟨_, _, hexec _ (hfar u) rfl, hu, _, tget_sendPkt_of_ids (honly.ids.trans (beatStored_kept hf).ids) .., rfl, rfl, rfl, rfl⟩

variable (hw : MemoryCanonical s) (hapart : SkipsApart s c x d)
include hw hapart

/-- A lane without notes stores its value and its context word. -/
theorem sweep_stores (hnotes : l.notes = []) : SweepLeaves s c x t (fun u k => k = { d with beat := b + 1, ran := true } ∧
    elemWord u c x d i = laneWord (elemWord s c x d i) l ∧
    (∀ y, l.store = some y → readNat u (recordLoc s c x d i) d.size = y % 2 ^ (8 * d.size)) ∧
    (l.store = none → readNat u (recordLoc s c x d i) 8 = readNat s (recordLoc s c x d i) 8) ∧ u.net = s.net) := by
  have hcount := mem_beatElems hi
  obtain ⟨u, honly, hu, hexec⟩ := sweepBeat_runs hrot hq hfence hd hends hstop hb hp hi hrun hrest hmore (by rw [hnotes]; rfl)
    (descOf_beatStored hf hd)
  rw [hnotes] at hexec
  refine ⟨_, _, hexec u rfl rfl, hu, rfl, (honly.elemWord ..).trans (elemWord_beatStored hf hw hcount hapart), fun y hy => ?_, fun hnone => ?_,
    honly.net.trans (beatStored_kept hf).net⟩
  · rw [honly.readNat]
    exact readNat_beatStored hf hw hcount hapart hy
  · rw [honly.readNat]
    exact readNat_beatStored_none hf hcount hapart hnone

/-- A note to an element of the lane's own descriptor acts at once. -/
theorem sweep_notes {e : Nat} (hnotes : l.notes = [.change 1 [⟨e, t, none⟩]]) (he : e < d.count) (hne : e ≠ i) :
    SweepLeaves s c x t (fun u k => k = { d with beat := b + 1, ran := true } ∧ elemWord u c x d i = laneWord (elemWord s c x d i) l ∧
      elemWord u c x d e = elemWord s c x d e ||| 0x1000 ∧ skipBit u c x d e = false) := by
  obtain ⟨hv, hi', he', hskip⟩ := changed_beatStored (b := b) (l := l) hf hw (mem_beatElems hi) he hne hapart hd
  obtain ⟨u, honly, hu, hexec⟩ := sweepBeat_runs hrot hq hfence hd hends hstop hb hp hi hrun hrest hmore
    (by rw [hnotes]; exact (ownNotes_own _ c x t d e).1) hv
  rw [hnotes, (ownNotes_own u c x t d e).2.1] at hexec
  exact ⟨_, _, hexec u rfl rfl, hu, rfl, (honly.elemWord ..).trans hi', (honly.elemWord ..).trans he', (honly.skipBit ..).trans hskip⟩

end Beat

end Event

/-! ### A change of a live element (R250-R252) -/

section Applied
variable {s : State} {c x t i op : Nat} {d : Desc} (hd : descOf s c x t = some d) (hi : i < d.count) (hasleep : d.asleep = false)
  (hf : frameHere s c x = true) (hw : MemoryCanonical s)
  (hskip : skipLoc s c x d i < recordLoc s c x d i + 8 ∨ recordLoc s c x d i + 16 ≤ skipLoc s c x d i)
include hd hi hasleep hf hw

theorem skipBit_outsideChange : skipBit (outsideChange s c x t i op) c x d i = false :=
  ((outsideChange_only hd hi hasleep).skipBit ..).trans (skipBit_changed op hf hw hi)

include hskip

theorem elemWord_outsideChange : elemWord (outsideChange s c x t i op) c x d i = (changeWord op (elemWord s c x d i)).1 :=
  ((outsideChange_only hd hi hasleep).elemWord ..).trans (elemWord_changed op hf hw hskip)

end Applied

end Sys2Proof.Machine
end

section
namespace Sys2Proof
open Machine

/-- Settles O51: the sweep event by what its stop, its turn (`sweep_repeats`, `sweep_sleeps`) and its beat (`sweep_stores`, `sweep_notes`,
`sweep_sends`) leave; a change by `elemWord_outsideChange`; the signature engine by `clauseOf_granted` and `sigCommandRun_replies`. -/
theorem parserAndSignatureEvents : Obligations.ParserAndSignatureEvents := by
  intro s c
  refine ⟨fun x t d rest hrot hq hfence hd hends => ?_, fun n p ha => ⟨fun t i op hp hn => ⟨fun hnone => ?_, fun d hd hi hasleep hw hf => ?_⟩,
    fun t i v d hp hn hd hi => ?_⟩, fun hchoose => ?_, fun r hr hcl => ⟨fun hfew => ?_, fun hfree => ⟨_, rfl, clauseOf_granted hr hcl hfree⟩⟩,
    fun l cmd rest hl hcl hcur hq => ?_⟩
  · intro left done ran
    refine ⟨sweep_stops hrot hq hfence hd hends, sweep_stops_held hrot hq hfence hd hends, sweep_stops_sets hrot hq hfence hd hends,
      fun hstop hnone => ?_, fun b hstop hb hp => ?_⟩
    · intro swept someLeft quiet due settled
      have hloud (h : ¬quiet) : (!d.ran && bit d.e0 37) = false := by
        rw [bit_eq_getLsbD]
        exact Bool.eq_false_iff.2 (fun hset => h (by rwa [Bool.and_eq_true, Bool.not_eq_true'] at hset))
      have ends {code : Nat} := sweep_ends hrot hq hfence hd hends hstop hnone (code := code)
      refine ⟨fun hn h46 hall => ends hn h46 (sweepTurn_done hd hall), fun hn h46 hleft hquiet => ends hn h46 (sweepTurn_quiet hd hleft hquiet.1 ?_),
        fun hleft hnot => sweep_repeats hrot hq hfence hd hends hstop hnone hleft (hloud hnot), fun hleft hnot hran hmissed =>
        sweep_sleeps hrot hq hfence hd hends hstop hnone hleft (hloud hnot) (by rw [hran, hmissed]; rfl)⟩
      rw [bit_eq_getLsbD]
      exact hquiet.2
    · intro is vals out
      refine ⟨fun i hi => sweep_errs hrot hq hfence hd hends hstop hb hp hi, fun i l hi hrun hrest hmore hactive hending hw hf happ => ?_⟩
      have hapart : SkipsApart s c x d := skipsApart_of (by rw [bits_low, bits_low]; exact happ)
      have sends {pl : Payload} {dst : Node} := sweep_sends hrot hq hfence hd hends hstop hb hp hi hrun hrest hmore hf (pl := pl) (dst := dst)
      intro w
      refine ⟨sweep_stores hrot hq hfence hd hends hstop hb hp hi hrun hrest hmore hf hw hapart,
        fun e => sweep_notes hrot hq hfence hd hends hstop hb hp hi hrun hrest hmore hf hw hapart, fun op e q dst hnotes => ?_,
        fun v e q dst hnotes => ?_⟩
      · refine sends (by rw [hnotes]; exact (nearNotes_far _ c x t d dst op e q 0).1) (fun u => ?_)
        rw [hnotes, (nearNotes_far u c x t d dst op e q 0).2.1, (farNotes_sends u c x dst op e q 0).1]
      · refine sends (by rw [hnotes]; exact (nearNotes_far _ c x t d dst 0 e q v).2.2.1) (fun u => ?_)
        rw [hnotes, (nearNotes_far u c x t d dst 0 e q v).2.2.2, (farNotes_sends u c x dst 0 e q v).2]
  · intro part counted alloted
    have hexec := remoteChangeArrival_eq ha hn hp
    rw [outsideChange_drops (s := takePkt s n) hnone] at hexec
    refine ⟨_, hexec, fun hcounts => dropChange_counts (s := takePkt s n) t hcounts, fun hnot => ?_⟩
    rw [dropChange_uncounted (s := takePkt s n) t hnot]
    rfl
  · intro hskip w
    have hskip' : skipLoc (takePkt s n) c p.ctx d i < recordLoc (takePkt s n) c p.ctx d i + 8 ∨
        recordLoc (takePkt s n) c p.ctx d i + 16 ≤ skipLoc (takePkt s n) c p.ctx d i := by
      rw [skipLoc, bits_low]
      exact hskip
    have hword : elemWord (outsideChange (takePkt s n) c p.ctx t i op) c p.ctx d i = (changeWord op w).1 :=
      elemWord_outsideChange (s := takePkt s n) hd hi hasleep hf hw hskip'
    refine ⟨_, remoteChangeArrival_eq ha hn hp, skipBit_outsideChange (s := takePkt s n) hd hi hasleep hf hw, fun hop hcount => ?_,
      fun hop => ?_, fun hop hwait => ?_, fun hop hcount => ?_⟩
    · rw [hword, hop, changeWord_dec hcount]
      rfl
    · rw [hword, hop]
      rfl
    · rw [hword, hop, changeWord_wake hwait]
    · have hzero : changeWord op w = (w, true) := hop ▸ changeWord_under hcount
      rw [hword, hzero]
      exact ⟨rfl, outsideChange_under (s := takePkt s n) hd hi hasleep hf (congrArg Prod.snd hzero)⟩
  · rw [valueWriteArrival_eq ha hn hp, outsideValue_puts (s := takePkt s n) hd hi]
    rfl
  · rw [exec_versionMissStart, versionMissStart, startKindOf, hchoose]
  · have hgrant : sigGrant s (c / 8) = s := by rw [sigGrant_only hr, if_pos hfew]
    exact congrArg Host.Outcome.next hgrant
  · intro slots ph get
    have hclause := clauseOf_sigCommandRun hl hcur hq
    obtain ⟨hleases, hslots⟩ := clauseOf_sigRan hl hq hcl
    rw [← hclause] at hleases hslots
    refine ⟨_, rfl, hleases, hslots, fun i x hcmd => ?_, fun i x y hcmd => ?_, fun i x hcmd => ?_, fun i j k a w hcmd hact hctx hw hstage => ?_⟩
    · subst hcmd
      exact hslots
    · subst hcmd
      exact hslots
    · subst hcmd
      exact hslots ▸ sigRun_step slots l i.toNat x
    · have hreply := sigCommandRun_replies hl hcur hq hcmd hact hctx hw hstage
      subst hcmd
      refine ⟨fun hgap => ?_, fun hsame => ?_⟩
      · have hrun := sigRun_gap slots l i.toNat (j := j.toNat) (k := k.toNat) hgap
        exact ⟨hslots.trans (congrArg Prod.fst hrun), hreply.trans (by rw [congrArg Prod.snd hrun]; rfl)⟩
      · obtain ⟨hnone, hjoined⟩ := sigRun_joins slots l i.toNat (j := j.toNat) (k := k.toNat) hsame
        exact ⟨hreply.trans (by rw [hnone]; rfl), hslots ▸ hjoined⟩

end Sys2Proof
end
